-- ==== Sys2Proof/Word.lean ====
section
/-! DEFINITION. The word types of the N48 module model and the one container, `Tab`, in which the model keeps
sparse numbered things (tiles, registers, queues). -/
namespace Sys2Proof

/-- A 64-bit register word (R6, R76). -/
abbrev Word := BitVec 64
/-- One byte; the smallest addressable unit of every memory of the module (R5). -/
abbrev Byte := BitVec 8
/-- A 512-bit Meridian flit or memory line, 64 bytes (Table 1-5). -/
abbrev Line := BitVec 512

/-- A finite map from keys to values, kept as a list with one entry per key, oldest key first.
What an unlisted key reads as is said at each use (`get` takes that default). -/
structure Tab (κ α : Type) where
  entries : List (κ × α)
deriving DecidableEq, Repr

namespace Tab
variable {κ α : Type} [DecidableEq κ]

/-- The map that lists nothing. -/
def empty : Tab κ α := ⟨[]⟩

def lookupIn : List (κ × α) → κ → Option α
  | [], _ => none
  | (k, v) :: r, x => if k = x then some v else lookupIn r x

def insertIn : List (κ × α) → κ → α → List (κ × α)
  | [], x, v => [(x, v)]
  | (k, w) :: r, x, v => if k = x then (k, v) :: r else (k, w) :: insertIn r x v

/-- The value listed under `k`. -/
def find (m : Tab κ α) (k : κ) : Option α := lookupIn m.entries k
/-- The value under `k`, or `d` where none is listed. -/
def get (m : Tab κ α) (k : κ) (d : α) : α := (m.find k).getD d
/-- List `v` under `k`, replacing what stood there. -/
def set (m : Tab κ α) (k : κ) (v : α) : Tab κ α := ⟨insertIn m.entries k v⟩
/-- Keep the entries whose key and value `p` accepts. -/
def filter (m : Tab κ α) (p : κ → α → Bool) : Tab κ α := ⟨m.entries.filter (fun e => p e.1 e.2)⟩
/-- Change every listed value. -/
def mapVals (m : Tab κ α) (f : κ → α → α) : Tab κ α := ⟨m.entries.map (fun e => (e.1, f e.1 e.2))⟩
/-- Every listed key, oldest first. -/
def keys (m : Tab κ α) : List κ := m.entries.map (·.1)

end Tab

/-- The 64-bit sign extension of the low `n` bits of `w`. -/
def sextFrom (n : Nat) (w : Word) : Word := (w.setWidth n).signExtend 64

end Sys2Proof
end

