-- ==== Sys2Proof/Syntax.lean ====
section
/-! DEFINITION. The commands the module takes: one constructor per row of spec/opcode_table.json, in the table's order.
`t` is a tile index, `ch` a memory channel, `n` a fabric port, `k` a mailbox, `src` a source number (Table 11-5); an operand
that the outside world decides (what a check finds, what a sensor reads, what a partner sends) is an operand of the row. -/
namespace Sys2Proof

inductive Instr where
  /-- R7. A write to a register field that has no behaviour of its own stores or clears bits as its access code states. -/
  | registerWrite (src off size : Nat) (v : Word)
  /-- R82. ALU function 0x00 writes ra + rb to rd. -/
  | add (t : Nat) (rd ra rb z : BitVec 5)
  /-- R82. ALU function 0x01 writes ra - rb to rd. -/
  | sub (t : Nat) (rd ra rb z : BitVec 5)
  /-- R82. ALU function 0x02 writes ra AND rb to rd. -/
  | and (t : Nat) (rd ra rb z : BitVec 5)
  /-- R82. ALU function 0x03 writes ra OR rb to rd. -/
  | or (t : Nat) (rd ra rb z : BitVec 5)
  /-- R82. ALU function 0x04 writes ra XOR rb to rd. -/
  | xor (t : Nat) (rd ra rb z : BitVec 5)
  /-- R82. ALU function 0x05 shifts ra left by rb bits 5:0. -/
  | shl (t : Nat) (rd ra rb z : BitVec 5)
  /-- R82. ALU function 0x06 shifts ra right logically. -/
  | shr (t : Nat) (rd ra rb z : BitVec 5)
  /-- R82. ALU function 0x07 shifts ra right arithmetically. -/
  | sar (t : Nat) (rd ra rb z : BitVec 5)
  /-- R82. ALU function 0x08 writes 1 if ra < rb signed. -/
  | lt (t : Nat) (rd ra rb z : BitVec 5)
  /-- R82. ALU function 0x09 writes 1 if ra < rb unsigned. -/
  | ltu (t : Nat) (rd ra rb z : BitVec 5)
  /-- R82. ALU function 0x0A writes the signed minimum. -/
  | min (t : Nat) (rd ra rb z : BitVec 5)
  /-- R82. ALU function 0x0B writes the signed maximum. -/
  | max (t : Nat) (rd ra rb z : BitVec 5)
  /-- R82. ALU function 0x0C writes the unsigned minimum. -/
  | minu (t : Nat) (rd ra rb z : BitVec 5)
  /-- R82. ALU function 0x0D writes the unsigned maximum. -/
  | maxu (t : Nat) (rd ra rb z : BitVec 5)
  /-- R82. ALU function 0x10 writes the low 64 bits of the product. -/
  | mul (t : Nat) (rd ra rb z : BitVec 5)
  /-- R82. ALU function 0x11 writes the high 64 bits of the signed product. -/
  | mulx (t : Nat) (rd ra rb z : BitVec 5)
  /-- R82. ALU function 0x12 writes the high 64 bits of the unsigned product. -/
  | mulxu (t : Nat) (rd ra rb z : BitVec 5)
  /-- R82. ALU function 0x14 writes the sign-extended low 32 bits of ra + rb. -/
  | add32 (t : Nat) (rd ra rb z : BitVec 5)
  /-- R82. ALU function 0x15 writes the sign-extended low 32 bits of ra - rb. -/
  | sub32 (t : Nat) (rd ra rb z : BitVec 5)
  /-- R82. ALU function 0x1C counts leading zeros of ra. -/
  | clz (t : Nat) (rd ra rb z : BitVec 5)
  /-- R82. ALU function 0x1D counts trailing zeros of ra. -/
  | ctz (t : Nat) (rd ra rb z : BitVec 5)
  /-- R82. ALU function 0x1E counts the 1 bits of ra. -/
  | popc (t : Nat) (rd ra rb z : BitVec 5)
  /-- R82. Adds a sign-extended immediate to ra. -/
  | addi (t : Nat) (rd ra : BitVec 5) (imm : BitVec 16)
  /-- R82. ANDs ra with a zero-extended immediate. -/
  | andi (t : Nat) (rd ra : BitVec 5) (imm : BitVec 16)
  /-- R82. ORs ra with a zero-extended immediate. -/
  | ori (t : Nat) (rd ra : BitVec 5) (imm : BitVec 16)
  /-- R82. XORs ra with a zero-extended immediate. -/
  | xori (t : Nat) (rd ra : BitVec 5) (imm : BitVec 16)
  /-- R82. Writes 1 if ra is below the immediate, signed. -/
  | lti (t : Nat) (rd ra : BitVec 5) (imm : BitVec 16)
  /-- R82. Writes 1 if ra is below the immediate, unsigned. -/
  | ltiu (t : Nat) (rd ra : BitVec 5) (imm : BitVec 16)
  /-- R82. SHIFTI with code 0b00 shifts ra left by an immediate amount. -/
  | shiftiShl (t : Nat) (rd ra : BitVec 5) (z : BitVec 8) (amt : BitVec 6)
  /-- R82. SHIFTI with code 0b01 shifts ra right logically by an immediate amount. -/
  | shiftiShr (t : Nat) (rd ra : BitVec 5) (z : BitVec 8) (amt : BitVec 6)
  /-- R82. SHIFTI with code 0b10 shifts ra right arithmetically by an immediate amount. -/
  | shiftiSar (t : Nat) (rd ra : BitVec 5) (z : BitVec 8) (amt : BitVec 6)
  /-- R82. Loads a sign-extended immediate shifted left by 16 into rd. -/
  | lih (t : Nat) (rd ra : BitVec 5) (imm : BitVec 16)
  /-- R84. Loads a sign-extended byte from the tile's scratchpad. -/
  | ld8 (t : Nat) (rd ra : BitVec 5) (imm : BitVec 16)
  /-- R84. Loads a zero-extended byte from the tile's scratchpad. -/
  | ld8u (t : Nat) (rd ra : BitVec 5) (imm : BitVec 16)
  /-- R84. Loads a sign-extended 16-bit value. -/
  | ld16 (t : Nat) (rd ra : BitVec 5) (imm : BitVec 16)
  /-- R84. Loads a zero-extended 16-bit value. -/
  | ld16u (t : Nat) (rd ra : BitVec 5) (imm : BitVec 16)
  /-- R84. Loads a sign-extended 32-bit value. -/
  | ld32 (t : Nat) (rd ra : BitVec 5) (imm : BitVec 16)
  /-- R84. Loads a zero-extended 32-bit value. -/
  | ld32u (t : Nat) (rd ra : BitVec 5) (imm : BitVec 16)
  /-- R84. Loads a 64-bit value. -/
  | ld64 (t : Nat) (rd ra : BitVec 5) (imm : BitVec 16)
  /-- R84. Stores the low byte of rs to scratchpad. -/
  | st8 (t : Nat) (rs ra : BitVec 5) (imm : BitVec 16)
  /-- R84. Stores the low 16 bits of rs. -/
  | st16 (t : Nat) (rs ra : BitVec 5) (imm : BitVec 16)
  /-- R84. Stores the low 32 bits of rs. -/
  | st32 (t : Nat) (rs ra : BitVec 5) (imm : BitVec 16)
  /-- R84. Stores 64 bits of rs. -/
  | st64 (t : Nat) (rs ra : BitVec 5) (imm : BitVec 16)
  /-- R84. Atomically adds to a 32-bit scratchpad word at the bank and returns the old word. -/
  | aaddw (t : Nat) (rd ra rb : BitVec 5)
  /-- R84. Atomically adds to a 64-bit scratchpad word and returns the old value. -/
  | aaddd (t : Nat) (rd ra rb : BitVec 5)
  /-- R84. Atomically swaps a 32-bit word and returns the old word. -/
  | aswpw (t : Nat) (rd ra rb : BitVec 5)
  /-- R84. Atomically swaps a 64-bit word and returns the old value. -/
  | aswpd (t : Nat) (rd ra rb : BitVec 5)
  /-- R85. Branches if ra equals rb. -/
  | breq (t : Nat) (ra rb : BitVec 5) (off : BitVec 16)
  /-- R85. Branches if ra differs from rb. -/
  | brne (t : Nat) (ra rb : BitVec 5) (off : BitVec 16)
  /-- R85. Branches if ra is below rb, signed. -/
  | brlt (t : Nat) (ra rb : BitVec 5) (off : BitVec 16)
  /-- R85. Branches if ra is at least rb, signed. -/
  | brge (t : Nat) (ra rb : BitVec 5) (off : BitVec 16)
  /-- R85. Branches if ra is below rb, unsigned. -/
  | brltu (t : Nat) (ra rb : BitVec 5) (off : BitVec 16)
  /-- R85. Branches if ra is at least rb, unsigned. -/
  | brgeu (t : Nat) (ra rb : BitVec 5) (off : BitVec 16)
  /-- R82. Writes the link register and jumps pc-relative. -/
  | call (t : Nat) (rd : BitVec 5) (off : BitVec 21)
  /-- R82. Writes the link register and jumps to ra plus an offset. -/
  | callr (t : Nat) (rd ra : BitVec 5) (imm : BitVec 16)
  /-- R79. Reads a control register into rd. -/
  | getc (t : Nat) (rd ra : BitVec 5) (z : BitVec 4) (n : BitVec 8)
  /-- R79. Exchanges ra with a writable control register. -/
  | xchc (t : Nat) (rd ra : BitVec 5) (z : BitVec 4) (n : BitVec 8)
  /-- R79. ORs ra into a writable control register and returns its old value. -/
  | orc (t : Nat) (rd ra : BitVec 5) (z : BitVec 4) (n : BitVec 8)
  /-- R79. Clears the bits of ra in a writable control register and returns its old value. -/
  | andnc (t : Nat) (rd ra : BitVec 5) (z : BitVec 4) (n : BitVec 8)
  /-- R88. Returns from a handler to hresume and clears in_handler. -/
  | hret (t : Nat) (rd ra : BitVec 5) (z : BitVec 12)
  /-- R99. Raises the synchronous SOFTWARE trap with an 8-bit argument. -/
  | trap (t : Nat) (rd ra : BitVec 5) (z : BitVec 4) (arg : BitVec 8)
  /-- R110. Begins ending the program by waiting until every stream and fused slot is idle. -/
  | halt (t : Nat) (rd ra : BitVec 5) (z : BitVec 12)
  /-- R110. When the slots are idle, HALT closes every receive queue, sets halted and moves the tile to IDLE. -/
  | haltComplete (t : Nat)
  /-- R87. Waits until every VST the tile issued has reached its target. -/
  | vsync (t : Nat) (rd ra : BitVec 5) (z : BitVec 12)
  /-- R102. At an instruction boundary a pending or raised trap enters its handler, or stops the tile on a double trap or no vector. -/
  | trapEntry (t : Nat)
  /-- R171. Arms a stream slot, which then reads its program and base table. -/
  | sarm (t : Nat) (rd ra rb imm : BitVec 5)
  /-- R173. Re-arms a PARKED persistent slot with a new base table. -/
  | srearm (t : Nat) (rd ra rb imm : BitVec 5)
  /-- R174. Stops a stream slot, discarding beats and waiting for writes. -/
  | sstop (t : Nat) (rd ra rb imm : BitVec 5)
  /-- R174. When the stopping slot's outstanding writes complete, it enters IDLE and SSTOP completes. -/
  | sstopIdle (t : Nat) (slot : Nat)
  /-- R175. Waits until the slot's current pass ends. -/
  | swait (t : Nat) (rd ra rb imm : BitVec 5)
  /-- R144. Starts loading a configuration bundle with a DRAIN phase switch. -/
  | lloadDrain (t : Nat) (rd ra rb : BitVec 5) (hi : BitVec 4)
  /-- R146. Starts loading a configuration bundle with a CUT phase switch. -/
  | lloadCut (t : Nat) (rd ra rb : BitVec 5) (hi : BitVec 4)
  /-- R147. Waits until the phase of the last LLOAD is in force or the load ends. -/
  | lwait (t : Nat) (rd ra rb imm : BitVec 5)
  /-- R190. Starts a fused slot, which reads and validates its descriptor. -/
  | fuse (t : Nat) (rd ra rb imm : BitVec 5)
  /-- R190. Waits until the fused slot is idle. -/
  | fwait (t : Nat) (rd ra rb imm : BitVec 5)
  /-- R244. Sends a channel message on a send-table entry, waiting for a credit and then for the receiver's reply. -/
  | csend (t : Nat) (rd ra rb imm : BitVec 5)
  /-- R251. Takes the oldest message of a receive queue into a buffer, waiting if the queue is empty. -/
  | crecv (t : Nat) (rd ra rb imm : BitVec 5)
  /-- R251. Takes a waiting message or completes at once with EMPTY. -/
  | cpoll (t : Nat) (rd ra rb imm : BitVec 5)
  /-- R254. Closes a receive queue, discarding its messages and returning their credits. -/
  | cclose (t : Nat) (rd ra rb imm : BitVec 5)
  /-- R92. Waits until an arrival counter reaches a target. -/
  | ctrwait (t : Nat) (rd ra rb imm : BitVec 5)
  /-- R92. Writes an arrival counter, adding arrivals of the same cycle. -/
  | ctrset (t : Nat) (rd ra rb imm : BitVec 5)
  /-- R227. Arrives at a barrier and waits for its release. -/
  | bar (t : Nat) (rd ra rb imm : BitVec 5)
  /-- R228. Arrives at a barrier without waiting. -/
  | bara (t : Nat) (rd ra rb imm : BitVec 5)
  /-- R228. Waits for the release of a barrier whose BARA is outstanding. -/
  | barw (t : Nat) (rd ra rb imm : BitVec 5)
  /-- R95. Holds the tile until a sidereal cycle, in deadline or not-before form. -/
  | waits (t : Nat) (rd ra rb imm : BitVec 5)
  /-- R195. Asks to enter an open transit window, waiting until streams and fused slots are quiet. -/
  | trns (t : Nat) (rd ra rb imm : BitVec 5)
  /-- R97. Reads a 64-bit value over Vesper from the TIL block or MBX window. -/
  | vld (t : Nat) (rd ra rb imm : BitVec 5)
  /-- R98. Posts a 64-bit write over Vesper to the TIL block or MBX window. -/
  | vst (t : Nat) (rd ra rb imm : BitVec 5)
  /-- R109. A write of go starts an IDLE tile with release 0 in a READY or JOINED module after 8 cycles, or is ignored. -/
  | tilCtrlGo (t : Nat) (v : Word)
  /-- R114. A write to TIL_ENTRY takes effect only while the tile is IDLE. -/
  | tilEntryWrite (t : Nat) (v : Word)
  /-- R116. A write to a general register takes effect only while the tile is IDLE. -/
  | tilGregWrite (t : Nat) (j : Nat) (v : Word)
  /-- R74. A seed write outside RUNNING sets the seed and resets all eight rounding counters. -/
  | tilSrSeedWrite (t : Nat) (v : Word)
  /-- R74. A counter write outside RUNNING sets a rounding unit's counter. -/
  | tilSrCountWrite (t : Nat) (j : Nat) (v : Word)
  /-- R197. A write to the bank owners takes effect in the next cycle in any state. -/
  | tilBankOwnerWrite (t : Nat) (v : Word)
  /-- R168. A write to an arrival counter outside RUNNING behaves as CTRSET. -/
  | tilArrivalWrite (t : Nat) (j : Nat) (v : Word)
  /-- R155. A write of clear zeroes every lattice firing, imbalance and occupancy maximum counter. -/
  | tilLatCtrClrWrite (t : Nat) (v : Word)
  /-- R234. A write to a barrier node's configuration takes effect only while the tile is IDLE. -/
  | tilPulBarWrite (t : Nat) (j : Nat) (v : Word)
  /-- R237. A receive queue configuration write in IDLE opens, disables or is refused. -/
  | tilChqCfgWrite (t : Nat) (j : Nat) (v : Word)
  /-- R239. A send-table entry write in IDLE sets its credits and state, or is refused. -/
  | tilChsCfgWrite (t : Nat) (j : Nat) (v : Word)
  /-- R143. In cycle lines + 3 the bundle is ready or its refusal is recorded, and the drain or cut of the old phase begins. -/
  | latticeLoadResult (t : Nat)
  /-- R144. When no old-phase token remains the drain ends and commit follows. -/
  | drainEnd (t : Nat)
  /-- R145. At cycle 7,995 after LLOAD an unfinished drain is ended, discarding remaining tokens. -/
  | drainForced (t : Nat)
  /-- R149. 64 cycles after a CUT commit the load ends. -/
  | flushEnd (t : Nat)
  /-- R122. A token reaches a unit input, queues and moves into the match table. -/
  | tokenArrival (t : Nat) (u i : Nat)
  /-- R154. A unit in tag exhaustion for 4,096 cycles sets tag_deadlock, records it and reports a lattice hang. -/
  | tagDeadlock (t : Nat) (u : Nat)
  /-- R129. VX adds two 16-lane vectors. -/
  | vxAdd (t : Nat) (u : Nat)
  /-- R129. VX subtracts two vectors. -/
  | vxSub (t : Nat) (u : Nat)
  /-- R129. VX multiplies two vectors. -/
  | vxMul (t : Nat) (u : Nat)
  /-- R129. VX computes in0 x in1 + in2 with one rounding. -/
  | vxFma (t : Nat) (u : Nat)
  /-- R129. VX takes the lane-wise minimum. -/
  | vxMin (t : Nat) (u : Nat)
  /-- R129. VX takes the lane-wise maximum. -/
  | vxMax (t : Nat) (u : Nat)
  /-- R129. VX converts elements between formats under R63 to R65. -/
  | vxCvt (t : Nat) (u : Nat)
  /-- R129. VX quantises a block of 32 binary32 values into an MX format. -/
  | vxQmx (t : Nat) (u : Nat)
  /-- R129. VX performs four X96 additions. -/
  | vxXadd (t : Nat) (u : Nat)
  /-- R129. VX sums 16 lanes in a fixed tree to a scalar. -/
  | vxRsum (t : Nat) (u : Nat)
  /-- R129. VX takes the maximum of 16 lanes to a scalar. -/
  | vxRmax (t : Nat) (u : Nat)
  /-- R129. VX emits a control token whose cond says lane 0 of in0 is less than in1. -/
  | vxCmplt (t : Nat) (u : Nat)
  /-- R129. VX emits a control token whose cond says lane 0 of in0 equals in1. -/
  | vxCmpeq (t : Nat) (u : Nat)
  /-- R129. VX passes in0 to out0. -/
  | vxPass (t : Nat) (u : Nat)
  /-- R130. XF computes e^x on 16 lanes. -/
  | xfExp (t : Nat)
  /-- R130. XF computes ln x. -/
  | xfLog (t : Nat)
  /-- R130. XF computes 1/x. -/
  | xfRcp (t : Nat)
  /-- R130. XF computes 1/sqrt x. -/
  | xfRsq (t : Nat)
  /-- R130. XF computes tanh x. -/
  | xfTanh (t : Nat)
  /-- R129. ST selects in0 or in1 by cond, consuming both. -/
  | stSel (t : Nat) (u : Nat)
  /-- R129. ST routes in0 to out0 or out1 by cond. -/
  | stBr (t : Nat) (u : Nat)
  /-- R129. ST passes the input selected by cond and discards the other. -/
  | stMrg (t : Nat) (u : Nat)
  /-- R129. ST passes in0 if cond is 1 and drops it otherwise. -/
  | stFlt (t : Nat) (u : Nat)
  /-- R129. ST delays in0 by n cycles in arrival order. -/
  | stDly (t : Nat) (u : Nat)
  /-- R131. SQ starts a loop on a control token with cond 1, or when its phase comes into force. -/
  | sqLoop (t : Nat) (u : Nat)
  /-- R131. Each rate + 1 cycles the running loop emits an index token and a control token. -/
  | sqIteration (t : Nat) (u : Nat)
  /-- R132. LD emits a token from its stream slot's buffer with a control token marking first and last. -/
  | ldRead (t : Nat) (u : Nat)
  /-- R133. SV converts in0 and writes it into its stream slot's buffer when there is room. -/
  | svWrite (t : Nat) (u : Nat)
  /-- R133. SV quantises a block to MX elements and scale and writes both to slots. -/
  | svQmx (t : Nat) (u : Nat)
  /-- R134. CP takes a message from its receive queue and emits it as vector tokens. -/
  | cpXferInbound (t : Nat)
  /-- R134. CP collects count tokens in tag order and sends them as one channel message. -/
  | cpXferOutbound (t : Nat)
  /-- R135. MX fires on an A and B token pair and accumulates their products. -/
  | mxMma (t : Nat)
  /-- R137. MX reads out an accumulator bank as converted tokens and compares checksums. -/
  | mxReadout (t : Nat) (cell : Nat) (mask : BitVec 96)
  /-- R187. After reading program and base table the slot validates the program and begins or refuses it. -/
  | streamValidate (t : Nat) (slot : Nat)
  /-- R178. Stream instruction SRC sets the source space, mode and address. -/
  | streamSrc (t : Nat) (slot : Nat)
  /-- R178. Stream instruction DST sets the destination, atomic and counter. -/
  | streamDst (t : Nat) (slot : Nat)
  /-- R178. Stream instruction LOOP sets one loop level's count and strides. -/
  | streamLoop (t : Nat) (slot : Nat)
  /-- R180. Stream instruction MOVE runs the loop nest moving bytes in beats. -/
  | streamMove (t : Nat) (slot : Nat)
  /-- R183. Stream instruction AT waits for a sidereal cycle, raising SLIP if late in deadline form. -/
  | streamAt (t : Nat) (slot : Nat)
  /-- R186. Stream instruction WAITC waits until a local counter reaches a target. -/
  | streamWaitc (t : Nat) (slot : Nat)
  /-- R186. Stream instruction SIGNAL adds to a local counter or injects a SIGNAL flit. -/
  | streamSignal (t : Nat) (slot : Nat)
  /-- R178. Stream instruction END ends the program, with persist keeping the slot PARKED. -/
  | streamEnd (t : Nat) (slot : Nat)
  /-- R170. When every beat, read and write of the pass has finished the pass ends and the slot goes IDLE or PARKED. -/
  | streamPassEnd (t : Nat) (slot : Nat)
  /-- R286. An open-class request unanswered for 200 us aborts its slot with TIMEOUT. -/
  | streamRequestTimeout (t : Nat) (slot : Nat)
  /-- R289. A tile receiving a memory-port ERROR naming a slot aborts that slot. -/
  | memErrorReceive (t : Nat)
  /-- R190. The fused recv step takes one message from its queue into its buffer. -/
  | fusedRecv (t : Nat) (f : Nat)
  /-- R192. The fused in and out steps arm or re-arm their stream slots, aborting with SLOT_BUSY on a wrong state. -/
  | fusedArm (t : Nat) (f : Nat)
  /-- R190. The fused wait step ends when the passes of both armed slots have ended. -/
  | fusedWait (t : Nat) (f : Nat)
  /-- R190. The fused send step sends a message as CSEND does and ends at the reply. -/
  | fusedSend (t : Nat) (f : Nat)
  /-- R190. The fused chain step reads the next descriptor and continues from its validation. -/
  | fusedChain (t : Nat) (f : Nat)
  /-- R206. A tile's injection stage accepts one flit, the lowest slot first. -/
  | flitInjection (t : Nat)
  /-- R203. A Meridian router passes a flit in dimension order toward its destination or output. -/
  | flitRoute (t : Nat) (err : List (Nat × Nat))
  /-- R207. A flit lands at its tile, writing or adding through the LND class and counting. -/
  | landing (t : Nat)
  /-- R219. A Vesper router forwards a packet on its virtual channel under credits and arbitration. -/
  | vesperPacketRoute (t : Nat) (err : List (Nat × Nat × Nat))
  /-- R224. A REG_RD or REG_WR reaches a register target and is answered. -/
  | vesperRegAccess
  /-- R376. An SCR_RD or SCR_WR reaches a tile and is served through the SEQ class or answered WRONG_STATE. -/
  | vesperScratchAccess
  /-- R224. The reply to a VLD arrives and the VLD completes with its value or the error value. -/
  | vldResponse (t : Nat)
  /-- R224. A VLD unanswered for 400,000 cycles completes with all ones and sets vld_timeout. -/
  | vldTimeout (t : Nat)
  /-- R227. When every arrival has reached a barrier root, it sends release or signals the Observatory. -/
  | barrierRootArrival (root i : Nat)
  /-- R227. The release reaches each participant and its BAR or BARW completes. -/
  | barrierRelease (root i : Nat)
  /-- R231. A die collector forwards one tile's wait word and state to the detector master. -/
  | publicationRecord (t : Nat)
  /-- R232. 96 cycles after a fault arises the Observatory sees the Pulsar fault line. -/
  | faultLineSeen
  /-- R469. 96 cycles after the abort line is driven every IDLE or RUNNING tile enters FENCED and active channels fence. -/
  | abortLineSeen
  /-- R249. A channel message's tail is written into the store and is held, refused or discarded with a reply. -/
  | chanMessageArrival (t : Nat)
  /-- R246. An ACCEPTED reply completes the waiting send OK. -/
  | chanReplyAccepted (t : Nat)
  /-- R246. A CLOSED reply returns a credit and completes the send CLOSED. -/
  | chanReplyClosed (t : Nat)
  /-- R246. A REFUSED reply returns a credit and completes the send CLOSED. -/
  | chanReplyRefused (t : Nat)
  /-- R241. A CREDIT reply returns credits to the entry and lets a waiting send proceed. -/
  | chanReplyCredit (t : Nat)
  /-- R258. A send without a reply for 400,000 cycles puts the entry in BROKEN and completes CLOSED. -/
  | chanReplyTimeout (t : Nat) (e : Nat)
  /-- R276. A memory port takes a calendar request and places it in CAL slots or refuses it. -/
  | calendarRequest (ch : Nat) (ecc : BitVec 544 × Nat)
  /-- R278. 960 cycles after taking a calendar read the port injects its MEM_RETURN. -/
  | calendarReturn (ch : Nat)
  /-- R282. An open MEM_RD or MEM_WR enters the port's queue. -/
  | openRequestArrival (ch : Nat)
  /-- R283. A queued open access is served in OPEN slots and answered. -/
  | openAccess (ch : Nat) (ecc : BitVec 544 × Nat)
  /-- R285. A combining entry is freed 256 cycles after its leader or at its last answer. -/
  | combiningEntryFree (ch : Nat)
  /-- R430. The port rereads an uncorrectable line twice and classifies the fault. -/
  | lpddrReread (ch : Nat) (ecc : BitVec 544 × BitVec 544 × Nat)
  /-- R271. Slot 0 of each frame runs the ZQ latch, MR4 read and DQS tracking. -/
  | maintenanceSlot (ch mr4 : Nat) (hot : Bool)
  /-- R272. Each bank refreshes in its window once per frame. -/
  | perBankRefresh (ch : Nat) (b : Nat)
  /-- R296. A write sets or clears a channel's calendar enable under the rules, or sets cal_off. -/
  | memCalCtrlWrite (ch : Nat) (v : Word)
  /-- R296. A cleared calendar enable takes effect after the last accepted calendar read returns. -/
  | calendarDisableDone (ch : Nat)
  /-- R296. A write to the slot table takes effect only while the calendar is disabled. -/
  | memCalTableWrite (ch : Nat) (j : Nat) (v : Word)
  /-- R291. A write to the channel map changes n and increments gen, or is ignored. -/
  | memGlbEnableWrite (hi : Bool) (v : Word)
  /-- R293. At the end of a reset the port leaves self-refresh and enters ACTIVE. -/
  | channelReactivate (ch : Nat)
  /-- R305. Command TRAIN puts a DARK or DOWN port into TRAINING. -/
  | portTrain (n : Nat)
  /-- R305. Command DARK sends PARTNER_DARK, turns the transmitters off and enters DARK. -/
  | portDark (n : Nat)
  /-- R345. Command DRAIN sends DRAIN_NOTICE and stops traffic on an UP port. -/
  | portDrain (n : Nat)
  /-- R346. Command RESUME sends RESUME_NOTICE and returns a DRAINED port to UP. -/
  | portResume (n : Nat)
  /-- R334. A port configuration write takes effect only while the port is DARK or DOWN. -/
  | fabPortCfgWrite (n : Nat) (v : Word)
  /-- R310. Training selects a lane set and locks codewords, entering PARALLAX or DOWN. -/
  | trainingDone (n pass212 pass106 partnerMask partnerMin : Nat) (snr : List Nat) (locks : Bool)
  /-- R306. No signal within 1,000 ms of TRAIN sends the port DOWN with NO_PARTNER. -/
  | trainingNoPartner (n : Nat)
  /-- R314. After 256 maintenance periods the port sets L and enters UP or DOWN. -/
  | parallaxDone (n : Nat) (up : Bool)
  /-- R301. At each multiple of 20,480 cycles the port sends a maintenance codeword with its time marker. -/
  | maintenanceCodewordSend (n : Nat)
  /-- R323. A received maintenance codeword delivers a time marker, parallax exchange and notices. -/
  | maintenanceCodewordReceive (n count role state depth : Nat) (dark : Bool) (ex : Option (Nat × Nat) × Nat)
  /-- R302. A data codeword is corrected or found uncorrectable and its packets checked. -/
  | codewordReceive (n : Nat) (errs : List Nat) (pkts : List (Word × Word × List Byte × BitVec 32)) (begun : Option Bool)
  /-- R306. Lock lost on an active lane for 1 us sends the port DOWN with SIGNAL_LOST. -/
  | signalLost (n : Nat)
  /-- R351. At stamp + L the port discards, forwards or lands an S packet on a home row. -/
  | scheduledDelivery (n : Nat)
  /-- R320. A time configuration write in READY or JOINED restarts time in its role. -/
  | glbTimeCfgWrite (v : Word)
  /-- R324. An ACQUIRING child locks its root frequency to its parent port. -/
  | frequencyLock
  /-- R327. Three maintenance periods without a valid marker put a LOCKED child in HOLDOVER. -/
  | markerTimeout
  /-- R329. A child in HOLDOVER for 10 ms enters LOST. -/
  | holdoverExpiry
  /-- R337. A port sends DISCOVER on entering UP, on an identity change, and periodically. -/
  | discoverSend (n : Nat)
  /-- R338. A received DISCOVER fills the neighbour registers and checks for a duplicate EID. -/
  | discoverReceive (n : Nat)
  /-- R338. fresh clears when 2,097,152 cycles pass with no DISCOVER. -/
  | neighbourStale (n : Nat)
  /-- R339. A write of the EID in READY sets eid and eid_valid, or is refused. -/
  | rteSelfWrite (v : Word)
  /-- R340. join moves a READY module with a valid EID to JOINED. -/
  | rteJoin
  /-- R340. leave moves a JOINED module to READY. -/
  | rteLeave
  /-- R344. A route or group table write takes effect only when no named port is UP. -/
  | rteTableWrite (tab k : Nat) (v : Word)
  /-- R345. An UP port receiving DRAIN_NOTICE drains as under the DRAIN command. -/
  | drainNoticeReceive (n : Nat)
  /-- R345. When notices are exchanged and queues and credits settled the port enters DRAINED. -/
  | portDrained (n : Nat)
  /-- R345. A drain unfinished after 20,000 cycles discards what remains and enters DRAINED. -/
  | portDrainTimeout (n : Nat)
  /-- R346. A DRAINED partner receiving RESUME_NOTICE enters UP with full credits. -/
  | resumeNoticeReceive (n : Nat)
  /-- R349. The origin port takes an EDGE_OUT flit and builds scheduled packets from it. -/
  | edgeFlitTake (n : Nat)
  /-- R354. A port sends a queued C or credited M packet when it holds a credit. -/
  | controlPacketSend (n : Nat) (m : Bool)
  /-- R355. A port sends a CREDIT packet after freeing a buffer and every maintenance period. -/
  | creditPacketSend (n : Nat)
  /-- R355. A CREDIT packet updates the partner's available credits. -/
  | creditPacketReceive (n : Nat)
  /-- R356. A port die routes a control or management packet by its route entry. -/
  | fabPktRoute
  /-- R358. The destination port die collects fragments and hands the whole message to the tile. -/
  | fragmentReassembly
  /-- R358. A message incomplete 100,000 cycles after its first fragment is discarded. -/
  | reassemblyTimeout (i : Nat)
  /-- R360. A BAR_ARRIVE from a child is taken; when all have arrived the module arrives upward or releases as root. -/
  | barArriveReceive (n : Nat)
  /-- R361. A BAR_RELEASE is forwarded and scheduled to reach the local root in cycle r. -/
  | barReleaseReceive (n : Nat)
  /-- R361. The Observatory signals the global release to the local root at cycle r or late. -/
  | gbarReleaseSignal (i : Nat)
  /-- R362. A global barrier table write is refused while RUNNING or a start is pending. -/
  | rteGbarWrite (i : Nat) (v : Word)
  /-- R363. A host nova write fences a RUNNING or starting module and starts a nova with reason HOST. -/
  | rteNova
  /-- R365. A first nova of the module's job is forwarded, recorded and fences the module. -/
  | novaReceive (n job eid reason start : Nat)
  /-- R108. At the start cycle released tiles enter RUNNING and the module enters RUNNING. -/
  | startCycle
  /-- R473. When no tile is RUNNING the module enters DRAINING, or FENCED if a tile fenced. -/
  | jobDrainBegin
  /-- R474. When S traffic, calendar reads and open requests have ceased the module enters JOINED. -/
  | drainingEnd
  /-- R474. DRAINING not ended within 1 ms begins a module eclipse with cause MODULE. -/
  | drainingTimeout
  /-- R375. A host APR read of LPDDR is served as open-class line reads. -/
  | aprLpddrRead (off len : Nat)
  /-- R375. A host APR write to LPDDR is served as masked open-class line writes. -/
  | aprLpddrWrite (off : Nat) (data : List Byte)
  /-- R376. A host APR access to a scratchpad is sent to the tile on Vesper. -/
  | aprScratchAccess (write : Bool) (off len : Nat) (data : List Byte)
  /-- R373. A host read unanswered for 200 us completes with Completer Abort. -/
  | hostReadTimeout (id : Nat)
  /-- R373. A host write unanswered for 200 us is ended and timeout set. -/
  | hostWriteTimeout (id : Nat)
  /-- R368. A link-down or hot reset discards pending host requests and frees host mailbox locks. -/
  | pcieLinkDown
  /-- R374. A segment write changes the APR mapping for later requests. -/
  | obsAprSegWrite (seg : Nat) (v : Word)
  /-- R380. A lock read acquires a free mailbox or returns its owner. -/
  | mbxLockRead (src k off size : Nat)
  /-- R380. The owner's write frees the lock while full is 0. -/
  | mbxLockWrite (src k off size : Nat)
  /-- R381. The owner writes MBX_CMD, MBX_REF or payload while full is 0. -/
  | mbxContentWrite (src k off : Nat) (data : List Byte)
  /-- R382. The owner's post sets full and records the sender. -/
  | mbxPost (src k : Nat)
  /-- R382. A take by a non-owner clears full and frees the lock. -/
  | mbxTake (src k : Nat)
  /-- R385. A host break clears full and frees a mailbox's lock. -/
  | mbxBreak (src : Nat) (v : Word)
  /-- R386. Every 1 us firmware retries the reply mailbox lock until it acquires it and posts. -/
  | replyLockRetry (k : Nat)
  /-- R388. A command exceeding its bound replies TIMEOUT. -/
  | commandTimeout (k : Nat)
  /-- R391. Replies with identity, firmware, bank and state. -/
  | getInfo (k : Nat)
  /-- R390. Checks trees, channels and place, then accepts a job start as pending. -/
  | start (k : Nat)
  /-- R408. Darkens ports, clears eid_valid and moves the module to HELD. -/
  | hold (k : Nat)
  /-- R409. Applies presets and moves a HELD module with a valid bank to READY. -/
  | release (k : Nat)
  /-- R410. Names a valid configuration bank active in the boot record. -/
  | configSelect (k : Nat)
  /-- R411. Writes a chunk of the inactive configuration bank and checks it on the last. -/
  | configWrite (k : Nat)
  /-- R412. Writes a chunk of the idle firmware slot and verifies it on the last. -/
  | fwUpdateWrite (k : Nat)
  /-- R412. Raises the fused svn floor to the running firmware's svn. -/
  | fwUpdateRaiseFloor (k : Nat)
  /-- R194. Resets one tile: slots idle, counters zero, scratchpad zeroed, queues discarded. -/
  | resetTile (k : Nat)
  /-- R457. Resets every tile, router and channel of one tile die. -/
  | resetDie (k : Nat)
  /-- R293. Resets one memory port, placing its ranks in self-refresh. -/
  | resetChannel (k : Nat)
  /-- R457. Resets one fabric port, which enters DARK. -/
  | resetPort (k : Nat)
  /-- R457. Resets the management cores and restarts firmware. -/
  | resetObservatory (k : Nat)
  /-- R400. Resets every domain and reruns boot steps 3 to 6. -/
  | resetModuleWarm (k : Nat)
  /-- R462. A reset completes and RESET replies DONE. -/
  | resetDone (dom idx : Nat) (badTiles : List Nat)
  /-- R463. A reset not complete at its escalation point begins the enclosing domain's reset. -/
  | resetEscalation (dom idx : Nat)
  /-- R464. A tile not OFFLINE 20 us into a die reset, or classified permanent, is retired. -/
  | tileRetire (t : Nat) (routerFailed : Bool)
  /-- R24. When a column's tiles are all stopped its pending assignment changes, updating the distance table and mesh status. -/
  | columnRemap (die col : Nat)
  /-- R471. Begins an eclipse on one tile. -/
  | fenceTile (k : Nat)
  /-- R471. Begins an eclipse on one tile die. -/
  | fenceDie (k : Nat)
  /-- R471. Begins an eclipse on one memory channel. -/
  | fenceChannel (k : Nat)
  /-- R471. Begins a module eclipse with cause HOST. -/
  | fenceModule (k : Nat)
  /-- R472. Resets tiles and channels and returns a FENCED module to JOINED or READY. -/
  | unfence (k : Nat)
  /-- R466. 100 us after an eclipse began unanswered requests receive errors. -/
  | eclipseDrainEnd (dom idx : Nat)
  /-- R449. Runs BIST and kernels on idle tiles in scope and replies with counts. -/
  | selfTest (k : Nat) (found : List (Nat × Nat × Nat))
  /-- R442. Writes a chunk of the idle test content slot and verifies it on the last. -/
  | testContent (k : Nat)
  /-- R428. Replies with records or fault signatures from the volatile log. -/
  | logRead (k : Nat)
  /-- R454. Replies with almanac entries. -/
  | almanacRead (k : Nat)
  /-- R490. Checks and accepts a conjunction, configuring barrier 31 and loading kernels. -/
  | conjunction (k : Nat)
  /-- R491. At the start cycle every tile enters RUNNING for the conjunction episodes. -/
  | conjunctionStart
  /-- R492. An episode release not arrived in time ends the conjunction with SOURCE_LOST. -/
  | conjunctionReleaseTimeout
  /-- R495. The spare checks, drains ports and takes the place's EID. -/
  | adoptTake (k : Nat)
  /-- R496. The buddy checks and keeps retraining its port toward the spare. -/
  | adoptSource (k : Nat)
  /-- R495. When the spare's ports are drained they are darkened and retrained at the place's latencies. -/
  | adoptPortsDrained
  /-- R496. At start - 400,000 cycles ports must be UP and locked or ADOPT fails. -/
  | adoptPortDeadline
  /-- R497. At the start cycle the buddy's home-row tiles send the mirror to the spare. -/
  | adoptCopyStart
  /-- R497. The buddy's final digest packet is compared by the spare, ending or repeating the copy. -/
  | adoptDigestCompare (theirs : Word)
  /-- R497. 2,000,000 cycles after a mismatched final packet the next copy attempt starts. -/
  | adoptCopyRetry
  /-- R498. No copy packet for 2,000,000 cycles ends the adoption with SOURCE_LOST. -/
  | adoptPacketGap
  /-- R503. A write of the place declaration is refused while RUNNING or a start is pending. -/
  | rtePlaceWrite (need : Bool) (v : Word)
  /-- R395. A vendor-defined MCTP message reads CTL or accesses a mailbox for the rack controller. -/
  | i3cVendorMessage (mt : Nat × Bool) (write : Bool) (off size : Nat) (v : Word)
  /-- R396. Every 100 ms the PLDM sensors refresh and ALERT_N follows thresholds. -/
  | pldmSensorRefresh
  /-- R393. An RSTACT target reset resets the I3C endpoint and frees its locks. -/
  | i3cTargetReset
  /-- R417. Answers the SPDM version. -/
  | spdmGetVersion
  /-- R417. Answers the SPDM capabilities. -/
  | spdmGetCapabilities
  /-- R417. Negotiates XMSS and SHA3-256. -/
  | spdmNegotiateAlgorithms
  /-- R417. Answers certificate chain digests. -/
  | spdmGetDigests
  /-- R417. Answers the certificate chain. -/
  | spdmGetCertificate (off len : Nat)
  /-- R418. Signs a challenge with the next identity index, or answers KEY_EXHAUSTED or DENIED. -/
  | spdmChallenge (nonce : List Byte)
  /-- R418. Answers measurements, signed with one index when asked. -/
  | spdmGetMeasurements (index : Nat) (sign : Bool) (nonce : List Byte)
  /-- R399. The ROM and firmware run boot steps 1 to 6 and the module enters READY or HELD. -/
  | bootSequence (fail : Nat) (badTiles : List Nat) (badChans : List (Nat × Nat))
  /-- R420. A scan instruction at Update-IR zeroises the identity secrets and sets scan_tainted. -/
  | scanInstruction (ir : Nat)
  /-- R420. 20 us after a scan instruction the module is eclipsed. -/
  | scanEclipse
  /-- R425. An error record reaches the Observatory's queue or is dropped when it is full. -/
  | errorRecordArrival (n : Nat)
  /-- R426. The Observatory writes a queued record to the log with the next seq. -/
  | logWrite
  /-- R429. The Observatory records a runtime checksum failure, opens an urgent transit and may fence. -/
  | checksumResponse (t : Nat)
  /-- R451. Firmware appends a FAULT, REPAIR or RETIRE entry to the almanac. -/
  | almanacAppend
  /-- R435. A tile falls due for a transit and its window opens or its idle transit starts. -/
  | transitDue (t : Nat)
  /-- R437. Once slots and region tests are quiet the tile enters TRANSIT and saves its state. -/
  | transitEnter (t : Nat)
  /-- R438. At cycle 128,193 kernel results are classified and records queued. -/
  | transitClassify (t kernel : Nat) (expected got : Word) (runs : List Bool)
  /-- R438. At cycle 200,000 TRNS completes and the tile returns, or fences on a permanent fault. -/
  | transitEnd (t : Nat)
  /-- R445. Every interval cycles the test engine starts copying the next region to its shadow. -/
  | bgRegionStart (t : Nat)
  /-- R445. After the copy, with no atomic pending, accesses to the region go to the shadow and the march runs. -/
  | bgRedirect (t : Nat)
  /-- R447. The march ends and the region is restored or held on a permanent fault. -/
  | bgMarchEnd (t : Nat) (bad : Option (Nat × Nat × Word × Word)) (runs : List Bool)
  /-- R446. A region test unfinished within interval cycles is abandoned and restored. -/
  | bgRegionAbandon (t : Nat)
  /-- R456. A write to history_mode, transit or background configuration takes effect only in READY or JOINED. -/
  | errConfigWrite (which : Nat) (v : Word)
  /-- R475. Every E cycles the detector evaluates wait words for hung sets. -/
  | hangEvaluation
  /-- R483. A detector configuration write takes effect from the next evaluation. -/
  | rstHangCfgWrite (v : Word)
  /-- R459. PERST_N low begins a cold reset and holds every domain. -/
  | perstLow
  /-- R459. PERST_N rising starts the boot sequence from step 1. -/
  | perstHigh
  /-- R509. PWR_EN high with valid input ramps the rails in order. -/
  | pwrEnRise
  /-- R523. The power sense contact must mate for 50 ms before power-up. -/
  | senseContactMate
  /-- R510. A rail out of regulation turns rails off and leaves the module DARK with FAULT_N. -/
  | railFault (r : Nat)
  /-- R511. PWR_EN low or input below 36 V turns every rail off. -/
  | powerOff
  /-- R507. No REFCLK edge for 1 us clears refclk_ok and acts by time role. -/
  | refclkLoss
  /-- R507. 1,000 good edges set refclk_ok again. -/
  | refclkRestore
  /-- R513. Every 10 us sensors are sampled and warnings and emergencies begin or clear. -/
  | envSample (temps : List Nat) (mv power avg1s avg10ms coreMv coreCur : Nat) (rails : List (Nat × Nat)) (coreOver inputOver : Bool)
  /-- R517. At each 1 ms boundary with an emergency the throttle level rises by 4. -/
  | throttleRaise
  /-- R517. At each 10 ms boundary without an emergency the throttle level falls by 1. -/
  | throttleLower
  /-- R520. A junction at 110 C turns rails off and drives THERMTRIP_N. -/
  | thermalTrip (sensor : Nat)
  /-- R525. A write sets the temperature and power warning thresholds. -/
  | pwrEnvCfgWrite (v : Word)
  /-- R95. A WAITS that issued before its target t completes in cycle t − 1, returning the wait word to NONE so that the next instruction issues in cycle t. -/
  | waitsComplete (t : Nat)
  /-- R7. A read of a register that holds RC fields returns their current values and then clears them, as with again_count, RC counters and the max fields. -/
  | rcFieldRead (src off size : Nat)
deriving DecidableEq, Repr

end Sys2Proof
end

