-- ==== Sys2Proof/Decode.lean ====
section
/-! DEFINITION. The words of the opcode table. The module is a block that takes commands from outside: spec/opcode_table.json
gives no row of it any bits, so no word spells a command. The instruction words of the tile sequencer (R81, R82) are formed
by the encoders of Machine/Operands.lean, beside the operand forms they carry. -/
namespace Sys2Proof

/-- The command that a word of the table's bits spells: none, since no row has bits. -/
def decodeTableWord (_nbits _w : Nat) : Option Instr := none

end Sys2Proof
end

