-- ==== Sys2Proof/Machine/Regs.lean ====
section
/-! DEFINITION. The software-visible registers of the module: every register table of the spec, field by field, with
its place in the CTL window (R22, R30, R31, R370) or the MBX window (R369), its access code (R7), the value its Reset
column gives and the encodings it reserves (R9). Where a Reset column gives no number ("Loaded at boot", "Fused",
"Per position", "Sampled") the number here is 0 and log entries 3, 5 and 8 say what the model reads there. -/
namespace Sys2Proof.Machine

/-- The access codes of Table 0-3 (R7). -/
inductive Acc where
  | ro | rw | w1c | w1s | rc | wo
deriving DecidableEq, Repr

/-- One field of a register: its lowest bit, its width, its access code, its reset value and its reserved ranges. -/
structure Fld where
  id : Nat
  lo : Nat
  width : Nat
  acc : Acc
  reset : Nat
  reserved : List (Nat × Nat)
deriving DecidableEq, Repr

/-- Where a register lies: `base + unit * unitStride + index * stride` (R6: each is 8 bytes wide). -/
structure Place where
  base : Nat
  unitStride : Nat
  units : Nat
  stride : Nat
  count : Nat
deriving DecidableEq, Repr

/-- Every register that a table of the spec lays out. -/
inductive Reg where
  | GLB_ID
  | GLB_MESH_STATUS
  | GLB_DIST_GEN
  | GLB_DIST
  | GLB_SIDEREAL
  | GLB_TIME_CFG
  | GLB_TIME_STATUS
  | GLB_MODULE_STATE
  | GLB_JOB
  | GLB_START
  | TIL_SR_SEED
  | TIL_SR_COUNT
  | TIL_NUM_STATUS
  | TIL_NUM_TRAP_EN
  | TIL_STATE
  | TIL_ENTRY
  | TIL_CTRL
  | TIL_PC
  | TIL_TRAP
  | TIL_TRAP_VALUE
  | TIL_STOP
  | TIL_SEQ_STATUS
  | TIL_SEQ_TRAP_EN
  | TIL_SLIP
  | TIL_WAIT
  | TIL_INSTRET
  | TIL_STALL
  | TIL_GREG
  | TIL_LAT_PHASE
  | TIL_LAT_LOAD
  | TIL_LAT_STATUS
  | TIL_PHASE_DISCARD
  | TIL_LAT_DEADLOCK
  | TIL_LAT_CTR_CLR
  | TIL_LAT_FIRE
  | TIL_LAT_IMBAL
  | TIL_LAT_OCC
  | TIL_SCRATCH_SIZE
  | TIL_BANK_OWNER
  | TIL_BANK_WAIT
  | TIL_STREAM_STATUS
  | TIL_STREAM_ABORT
  | TIL_ARRIVAL
  | TIL_STREAM_STATE
  | TIL_STREAM_BEATS
  | TIL_FUSED_STATE
  | TIL_FUSED_COUNT
  | TIL_MER_STATUS
  | TIL_MER_COLL
  | TIL_MER_COLL_WIN
  | TIL_MER_COLL_LOSE
  | TIL_MER_DISCARD
  | TIL_MER_LINK
  | TIL_MER_TRAFFIC
  | TIL_VSP_STATUS
  | TIL_VSP_DISCARD
  | TIL_PUL_BAR
  | TIL_PUL_STATE
  | TIL_CHQ_CFG
  | TIL_CHQ_STATE
  | TIL_CHS_CFG
  | TIL_CHS_STATE
  | MEM_CH_STATE
  | MEM_CAL_CTRL
  | MEM_CH_STATUS
  | MEM_ECC_COUNT
  | MEM_ECC_LAST
  | MEM_CAL_FAULT
  | MEM_CAL_COUNT
  | MEM_OPEN_COUNT
  | MEM_OPEN_QUEUE
  | MEM_CAL_TABLE
  | MEM_GLB_ENABLE_LO
  | MEM_GLB_ENABLE_HI
  | MEM_GLB_MAP
  | FAB_PORT_CTRL
  | FAB_PORT_CFG
  | FAB_PORT_STATE
  | FAB_PORT_STATUS
  | FAB_PORT_PARALLAX
  | FAB_PORT_FEC
  | FAB_PORT_PKT
  | FAB_PORT_PARTNER
  | FAB_LANE
  | FAB_PORT_NBR
  | FAB_PORT_NBR_ID
  | FAB_PORT_CREDIT
  | FAB_PORT_SCHED
  | RTE_SELF
  | RTE_CTRL
  | RTE_STATUS
  | RTE_SERIAL
  | RTE_DROP
  | RTE_NOVA
  | RTE_NOVA_TIME
  | RTE_GBAR
  | RTE_ROUTE
  | RTE_ROW
  | RTE_COL
  | RTE_RANK
  | RTE_PLACE_GEN
  | RTE_PLACE_NEED
  | RTE_FLEET_STATUS
  | RTE_ADOPT
  | RTE_CONJ
  | OBS_APR_SEG
  | OBS_HOST_ERR
  | OBS_HOST_ERR_LOG
  | OBS_IRQ_STATUS
  | OBS_IRQ_EN
  | OBS_MBX_STATUS
  | OBS_MBX_BREAK
  | OBS_LOG_HEAD
  | OBS_LOG_SEL
  | OBS_LOG_REC
  | SEC_BOOT_STATUS
  | SEC_CFG_STATE
  | SEC_CFG_SEQ
  | SEC_KEY_INDEX
  | SEC_KEY_STATUS
  | SEC_TAINT
  | SEC_FUSE
  | SEC_KEY_HASH
  | ERR_CTRL
  | ERR_STATUS
  | ERR_TRANSIT_CFG
  | ERR_TRANSIT_STATE
  | ERR_BG_CFG
  | ERR_BG_STATE
  | ERR_CONTENT
  | ERR_DIGEST_HEAD
  | ERR_BIST_LAST
  | ERR_DIGEST_META
  | ERR_DIGEST_OWN
  | ERR_DIGEST_COMB
  | ERR_TILE_DIGEST
  | ERR_TILE_TEST
  | RST_STATUS
  | RST_LAST
  | RST_FENCE
  | RST_ESC
  | RST_HANG_CFG
  | RST_HANG_REPORT
  | RST_HANG_COUNT
  | RST_HANG_SET
  | DIE_STATE
  | PWR_INPUT
  | PWR_CORE
  | PWR_RAIL
  | PWR_CLK
  | PWR_ENV_CFG
  | PWR_ENV_STATUS
  | PWR_THROTTLE
  | PWR_SLOT
  | PWR_TEMP
  | MBX_LOCK
  | MBX_FLAG
  | MBX_SENDER
  | MBX_CMD
  | MBX_REF
deriving DecidableEq, Repr

def F.GLB_ID.part_number : Fld := ⟨0, 16, 16, .ro, 72, []⟩
def F.GLB_ID.stepping : Fld := ⟨1, 8, 8, .ro, 176, []⟩
def F.GLB_MESH_STATUS.vacant_count : Fld := ⟨2, 41, 12, .ro, 0, []⟩
def F.GLB_MESH_STATUS.complete : Fld := ⟨3, 40, 1, .ro, 1, []⟩
def F.GLB_MESH_STATUS.spares_used_d3 : Fld := ⟨4, 24, 8, .ro, 0, []⟩
def F.GLB_MESH_STATUS.spares_used_d2 : Fld := ⟨5, 16, 8, .ro, 0, []⟩
def F.GLB_MESH_STATUS.spares_used_d1 : Fld := ⟨6, 8, 8, .ro, 0, []⟩
def F.GLB_MESH_STATUS.spares_used_d0 : Fld := ⟨7, 0, 8, .ro, 0, []⟩
def F.GLB_DIST_GEN.gen : Fld := ⟨8, 0, 32, .ro, 0, []⟩
def F.GLB_DIST.router_failed : Fld := ⟨9, 5, 1, .ro, 0, []⟩
def F.GLB_DIST.vacant : Fld := ⟨10, 4, 1, .ro, 0, []⟩
def F.GLB_DIST.south : Fld := ⟨11, 2, 2, .ro, 0, []⟩
def F.GLB_DIST.east : Fld := ⟨12, 0, 2, .ro, 0, []⟩
def F.GLB_SIDEREAL.count : Fld := ⟨13, 0, 64, .ro, 0, []⟩
def F.GLB_TIME_CFG.alt_parent : Fld := ⟨14, 12, 4, .rw, 0, []⟩
def F.GLB_TIME_CFG.alt_en : Fld := ⟨15, 8, 1, .rw, 0, []⟩
def F.GLB_TIME_CFG.parent : Fld := ⟨16, 4, 4, .rw, 0, []⟩
def F.GLB_TIME_CFG.role : Fld := ⟨17, 0, 2, .rw, 0, [(3, 3)]⟩
def F.GLB_TIME_STATUS.again_count : Fld := ⟨18, 48, 16, .rc, 0, []⟩
def F.GLB_TIME_STATUS.depth : Fld := ⟨19, 40, 7, .ro, 0, []⟩
def F.GLB_TIME_STATUS.cfg_ignored : Fld := ⟨20, 37, 1, .w1c, 0, []⟩
def F.GLB_TIME_STATUS.depth_exceeded : Fld := ⟨21, 36, 1, .w1c, 0, []⟩
def F.GLB_TIME_STATUS.align_fault : Fld := ⟨22, 35, 1, .w1c, 0, []⟩
def F.GLB_TIME_STATUS.switched : Fld := ⟨23, 34, 1, .w1c, 0, []⟩
def F.GLB_TIME_STATUS.parent_lost : Fld := ⟨24, 33, 1, .w1c, 0, []⟩
def F.GLB_TIME_STATUS.stepped : Fld := ⟨25, 32, 1, .w1c, 0, []⟩
def F.GLB_TIME_STATUS.offset : Fld := ⟨26, 16, 16, .ro, 0, []⟩
def F.GLB_TIME_STATUS.active_parent : Fld := ⟨27, 8, 4, .ro, 0, []⟩
def F.GLB_TIME_STATUS.state : Fld := ⟨28, 0, 3, .ro, 0, []⟩
def F.GLB_MODULE_STATE.start_pending : Fld := ⟨29, 4, 1, .ro, 0, []⟩
def F.GLB_MODULE_STATE.state : Fld := ⟨30, 0, 4, .ro, 0, []⟩
def F.GLB_JOB.job : Fld := ⟨31, 0, 12, .ro, 0, []⟩
def F.GLB_START.start : Fld := ⟨32, 0, 64, .ro, 0, []⟩
def F.TIL_SR_SEED.seed : Fld := ⟨33, 0, 64, .rw, 0, []⟩
def F.TIL_SR_COUNT.count : Fld := ⟨34, 0, 64, .rw, 0, []⟩
def F.TIL_NUM_STATUS.again_count : Fld := ⟨35, 48, 16, .rc, 0, []⟩
def F.TIL_NUM_STATUS.chk_skipped : Fld := ⟨36, 16, 16, .rc, 0, []⟩
def F.TIL_NUM_STATUS.cfg_ignored : Fld := ⟨37, 7, 1, .w1c, 0, []⟩
def F.TIL_NUM_STATUS.checksum_fail : Fld := ⟨38, 6, 1, .w1c, 0, []⟩
def F.TIL_NUM_STATUS.cvt_overflow : Fld := ⟨39, 5, 1, .w1c, 0, []⟩
def F.TIL_NUM_STATUS.cvt_nan : Fld := ⟨40, 4, 1, .w1c, 0, []⟩
def F.TIL_NUM_STATUS.x96_bound : Fld := ⟨41, 3, 1, .w1c, 0, []⟩
def F.TIL_NUM_STATUS.x96_mismatch : Fld := ⟨42, 2, 1, .w1c, 0, []⟩
def F.TIL_NUM_STATUS.special_input : Fld := ⟨43, 1, 1, .w1c, 0, []⟩
def F.TIL_NUM_STATUS.exact_range : Fld := ⟨44, 0, 1, .w1c, 0, []⟩
def F.TIL_NUM_TRAP_EN.trap_en : Fld := ⟨45, 0, 8, .rw, 0, []⟩
def F.TIL_STATE.die : Fld := ⟨46, 32, 2, .ro, 0, []⟩
def F.TIL_STATE.phys_row : Fld := ⟨47, 24, 5, .ro, 0, []⟩
def F.TIL_STATE.y : Fld := ⟨48, 16, 6, .ro, 0, []⟩
def F.TIL_STATE.x : Fld := ⟨49, 8, 6, .ro, 0, []⟩
def F.TIL_STATE.state : Fld := ⟨50, 0, 3, .ro, 0, []⟩
def F.TIL_ENTRY.release : Fld := ⟨51, 63, 1, .rw, 0, []⟩
def F.TIL_ENTRY.pc : Fld := ⟨52, 2, 19, .rw, 0, []⟩
def F.TIL_CTRL.go : Fld := ⟨53, 0, 1, .w1s, 0, []⟩
def F.TIL_PC.pc : Fld := ⟨54, 2, 19, .ro, 0, []⟩
def F.TIL_TRAP.hresume : Fld := ⟨55, 32, 21, .ro, 0, []⟩
def F.TIL_TRAP.in_handler : Fld := ⟨56, 9, 1, .ro, 0, []⟩
def F.TIL_TRAP.hcode : Fld := ⟨57, 0, 9, .ro, 0, []⟩
def F.TIL_TRAP_VALUE.harg : Fld := ⟨58, 0, 64, .ro, 0, []⟩
def F.TIL_STOP.stop_pc : Fld := ⟨59, 32, 21, .ro, 0, []⟩
def F.TIL_STOP.stop_reason : Fld := ⟨60, 8, 4, .ro, 0, []⟩
def F.TIL_STOP.stop_cause : Fld := ⟨61, 0, 8, .ro, 0, []⟩
def F.TIL_SEQ_STATUS.again_count : Fld := ⟨62, 48, 16, .rc, 0, []⟩
def F.TIL_SEQ_STATUS.halted : Fld := ⟨63, 7, 1, .w1c, 0, []⟩
def F.TIL_SEQ_STATUS.cfg_ignored : Fld := ⟨64, 6, 1, .w1c, 0, []⟩
def F.TIL_SEQ_STATUS.closed_send : Fld := ⟨65, 5, 1, .w1c, 0, []⟩
def F.TIL_SEQ_STATUS.stream_abort : Fld := ⟨66, 4, 1, .w1c, 0, []⟩
def F.TIL_SEQ_STATUS.no_vector : Fld := ⟨67, 3, 1, .w1c, 0, []⟩
def F.TIL_SEQ_STATUS.double_trap : Fld := ⟨68, 2, 1, .w1c, 0, []⟩
def F.TIL_SEQ_STATUS.slip : Fld := ⟨69, 1, 1, .w1c, 0, []⟩
def F.TIL_SEQ_STATUS.trap_taken : Fld := ⟨70, 0, 1, .w1c, 0, []⟩
def F.TIL_SEQ_TRAP_EN.closed_trap : Fld := ⟨71, 0, 1, .rw, 0, []⟩
def F.TIL_SLIP.target_lo : Fld := ⟨72, 32, 32, .ro, 0, []⟩
def F.TIL_SLIP.lateness : Fld := ⟨73, 0, 32, .ro, 0, []⟩
def F.TIL_WAIT.since_lo : Fld := ⟨74, 32, 32, .ro, 0, []⟩
def F.TIL_WAIT.word : Fld := ⟨75, 0, 32, .ro, 13, []⟩
def F.TIL_INSTRET.count : Fld := ⟨76, 0, 64, .ro, 0, []⟩
def F.TIL_STALL.cycles : Fld := ⟨77, 0, 64, .ro, 0, []⟩
def F.TIL_GREG.value : Fld := ⟨78, 0, 64, .rw, 0, []⟩
def F.TIL_LAT_PHASE.shadow_phase : Fld := ⟨79, 16, 8, .ro, 0, []⟩
def F.TIL_LAT_PHASE.phase : Fld := ⟨80, 8, 8, .ro, 0, []⟩
def F.TIL_LAT_PHASE.mode : Fld := ⟨81, 3, 1, .ro, 0, []⟩
def F.TIL_LAT_PHASE.state : Fld := ⟨82, 0, 3, .ro, 0, []⟩
def F.TIL_LAT_LOAD.status : Fld := ⟨83, 48, 16, .ro, 0, []⟩
def F.TIL_LAT_LOAD.err_offset : Fld := ⟨84, 32, 16, .ro, 65535, []⟩
def F.TIL_LAT_LOAD.addr : Fld := ⟨85, 6, 15, .ro, 0, []⟩
def F.TIL_LAT_LOAD.drain_forced : Fld := ⟨86, 0, 1, .ro, 0, []⟩
def F.TIL_LAT_STATUS.again_count : Fld := ⟨87, 48, 16, .rc, 0, []⟩
def F.TIL_LAT_STATUS.sources_cut : Fld := ⟨88, 4, 1, .w1c, 0, []⟩
def F.TIL_LAT_STATUS.tag_deadlock : Fld := ⟨89, 3, 1, .w1c, 0, []⟩
def F.TIL_LAT_STATUS.drain_forced : Fld := ⟨90, 2, 1, .w1c, 0, []⟩
def F.TIL_LAT_STATUS.discard : Fld := ⟨91, 1, 1, .w1c, 0, []⟩
def F.TIL_LAT_STATUS.load_refused : Fld := ⟨92, 0, 1, .w1c, 0, []⟩
def F.TIL_PHASE_DISCARD.count : Fld := ⟨93, 0, 32, .rc, 0, []⟩
def F.TIL_LAT_DEADLOCK.since_lo : Fld := ⟨94, 32, 32, .ro, 0, []⟩
def F.TIL_LAT_DEADLOCK.head_tag : Fld := ⟨95, 8, 8, .ro, 0, []⟩
def F.TIL_LAT_DEADLOCK.input : Fld := ⟨96, 6, 2, .ro, 0, []⟩
def F.TIL_LAT_DEADLOCK.unit : Fld := ⟨97, 0, 4, .ro, 0, []⟩
def F.TIL_LAT_CTR_CLR.clear : Fld := ⟨98, 0, 1, .w1s, 0, []⟩
def F.TIL_LAT_FIRE.count : Fld := ⟨99, 0, 64, .ro, 0, []⟩
def F.TIL_LAT_IMBAL.blocker_input : Fld := ⟨100, 36, 2, .ro, 0, []⟩
def F.TIL_LAT_IMBAL.blocker_unit : Fld := ⟨101, 32, 4, .ro, 0, []⟩
def F.TIL_LAT_IMBAL.cycles : Fld := ⟨102, 0, 32, .ro, 0, []⟩
def F.TIL_LAT_OCC.max : Fld := ⟨103, 8, 5, .ro, 0, []⟩
def F.TIL_LAT_OCC.current : Fld := ⟨104, 0, 5, .ro, 0, []⟩
def F.TIL_SCRATCH_SIZE.size : Fld := ⟨105, 0, 32, .ro, 1572864, []⟩
def F.TIL_BANK_OWNER.owner3 : Fld := ⟨106, 6, 2, .rw, 3, []⟩
def F.TIL_BANK_OWNER.owner2 : Fld := ⟨107, 4, 2, .rw, 2, []⟩
def F.TIL_BANK_OWNER.owner1 : Fld := ⟨108, 2, 2, .rw, 1, []⟩
def F.TIL_BANK_OWNER.owner0 : Fld := ⟨109, 0, 2, .rw, 0, []⟩
def F.TIL_BANK_WAIT.seq : Fld := ⟨110, 32, 16, .rc, 0, []⟩
def F.TIL_BANK_WAIT.lat : Fld := ⟨111, 16, 16, .rc, 0, []⟩
def F.TIL_BANK_WAIT.str : Fld := ⟨112, 0, 16, .rc, 0, []⟩
def F.TIL_STREAM_STATUS.again_count : Fld := ⟨113, 48, 16, .rc, 0, []⟩
def F.TIL_STREAM_STATUS.fused_stopped : Fld := ⟨114, 12, 1, .w1c, 0, []⟩
def F.TIL_STREAM_STATUS.fused_abort : Fld := ⟨115, 8, 4, .w1c, 0, []⟩
def F.TIL_STREAM_STATUS.slot_abort : Fld := ⟨116, 0, 8, .w1c, 0, []⟩
def F.TIL_STREAM_ABORT.since_lo : Fld := ⟨117, 32, 32, .ro, 0, []⟩
def F.TIL_STREAM_ABORT.reason : Fld := ⟨118, 16, 8, .ro, 0, []⟩
def F.TIL_STREAM_ABORT.ip : Fld := ⟨119, 8, 4, .ro, 0, []⟩
def F.TIL_STREAM_ABORT.slot : Fld := ⟨120, 0, 4, .ro, 0, []⟩
def F.TIL_ARRIVAL.count : Fld := ⟨121, 0, 32, .rw, 0, []⟩
def F.TIL_STREAM_STATE.base_addr : Fld := ⟨122, 38, 15, .ro, 0, []⟩
def F.TIL_STREAM_STATE.prog_addr : Fld := ⟨123, 23, 15, .ro, 0, []⟩
def F.TIL_STREAM_STATE.fused_slot : Fld := ⟨124, 13, 3, .ro, 0, []⟩
def F.TIL_STREAM_STATE.held : Fld := ⟨125, 12, 1, .ro, 0, []⟩
def F.TIL_STREAM_STATE.ip : Fld := ⟨126, 8, 4, .ro, 0, []⟩
def F.TIL_STREAM_STATE.timed : Fld := ⟨127, 4, 1, .ro, 0, []⟩
def F.TIL_STREAM_STATE.state : Fld := ⟨128, 0, 3, .ro, 0, []⟩
def F.TIL_STREAM_BEATS.passes : Fld := ⟨129, 32, 32, .ro, 0, []⟩
def F.TIL_STREAM_BEATS.beats : Fld := ⟨130, 0, 32, .ro, 0, []⟩
def F.TIL_FUSED_STATE.desc_addr : Fld := ⟨131, 38, 15, .ro, 0, []⟩
def F.TIL_FUSED_STATE.step : Fld := ⟨132, 1, 3, .ro, 0, []⟩
def F.TIL_FUSED_STATE.busy : Fld := ⟨133, 0, 1, .ro, 0, []⟩
def F.TIL_FUSED_COUNT.done : Fld := ⟨134, 0, 32, .ro, 0, []⟩
def F.TIL_MER_STATUS.again_count : Fld := ⟨135, 48, 16, .rc, 0, []⟩
def F.TIL_MER_STATUS.landing_range : Fld := ⟨136, 4, 1, .w1c, 0, []⟩
def F.TIL_MER_STATUS.landing_discard : Fld := ⟨137, 3, 1, .w1c, 0, []⟩
def F.TIL_MER_STATUS.uncorrectable : Fld := ⟨138, 2, 1, .w1c, 0, []⟩
def F.TIL_MER_STATUS.corrected : Fld := ⟨139, 1, 1, .w1c, 0, []⟩
def F.TIL_MER_STATUS.collision : Fld := ⟨140, 0, 1, .w1c, 0, []⟩
def F.TIL_MER_COLL.since_lo : Fld := ⟨141, 32, 32, .ro, 0, []⟩
def F.TIL_MER_COLL.count : Fld := ⟨142, 16, 16, .rc, 0, []⟩
def F.TIL_MER_COLL.output : Fld := ⟨143, 8, 3, .ro, 0, []⟩
def F.TIL_MER_COLL.lose_input : Fld := ⟨144, 4, 3, .ro, 0, []⟩
def F.TIL_MER_COLL.win_input : Fld := ⟨145, 0, 3, .ro, 0, []⟩
def F.TIL_MER_COLL_WIN.header : Fld := ⟨146, 0, 64, .ro, 0, []⟩
def F.TIL_MER_COLL_LOSE.header : Fld := ⟨147, 0, 64, .ro, 0, []⟩
def F.TIL_MER_DISCARD.count : Fld := ⟨148, 0, 32, .rc, 0, []⟩
def F.TIL_MER_LINK.corrected : Fld := ⟨149, 32, 32, .rc, 0, []⟩
def F.TIL_MER_LINK.uncorrectable : Fld := ⟨150, 0, 32, .rc, 0, []⟩
def F.TIL_MER_TRAFFIC.landed : Fld := ⟨151, 32, 32, .ro, 0, []⟩
def F.TIL_MER_TRAFFIC.injected : Fld := ⟨152, 0, 32, .ro, 0, []⟩
def F.TIL_VSP_STATUS.again_count : Fld := ⟨153, 48, 16, .rc, 0, []⟩
def F.TIL_VSP_STATUS.unreachable : Fld := ⟨154, 2, 1, .w1c, 0, []⟩
def F.TIL_VSP_STATUS.vld_error : Fld := ⟨155, 1, 1, .w1c, 0, []⟩
def F.TIL_VSP_STATUS.vld_timeout : Fld := ⟨156, 0, 1, .w1c, 0, []⟩
def F.TIL_VSP_DISCARD.count : Fld := ⟨157, 0, 32, .rc, 0, []⟩
def F.TIL_PUL_BAR.height : Fld := ⟨158, 25, 7, .rw, 0, []⟩
def F.TIL_PUL_BAR.depth : Fld := ⟨159, 18, 7, .rw, 0, []⟩
def F.TIL_PUL_BAR.parent : Fld := ⟨160, 14, 3, .rw, 0, [(5, 7)]⟩
def F.TIL_PUL_BAR.children : Fld := ⟨161, 10, 4, .rw, 0, []⟩
def F.TIL_PUL_BAR.global : Fld := ⟨162, 2, 1, .rw, 0, []⟩
def F.TIL_PUL_BAR.participant : Fld := ⟨163, 1, 1, .rw, 0, []⟩
def F.TIL_PUL_BAR.enable : Fld := ⟨164, 0, 1, .rw, 0, []⟩
def F.TIL_PUL_STATE.pending_bara : Fld := ⟨165, 32, 32, .ro, 0, []⟩
def F.TIL_PUL_STATE.released : Fld := ⟨166, 0, 32, .ro, 0, []⟩
def F.TIL_CHQ_CFG.enable : Fld := ⟨167, 63, 1, .rw, 0, []⟩
def F.TIL_CHQ_CFG.kind : Fld := ⟨168, 62, 1, .rw, 0, []⟩
def F.TIL_CHQ_CFG.depth : Fld := ⟨169, 57, 5, .rw, 0, [(0, 0), (17, 31)]⟩
def F.TIL_CHQ_CFG.slot_blocks : Fld := ⟨170, 52, 5, .rw, 0, [(0, 0), (17, 31)]⟩
def F.TIL_CHQ_CFG.base : Fld := ⟨171, 45, 7, .rw, 0, []⟩
def F.TIL_CHQ_CFG.remote_credits : Fld := ⟨172, 40, 5, .rw, 0, []⟩
def F.TIL_CHQ_CFG.peer_eid : Fld := ⟨173, 26, 14, .rw, 0, []⟩
def F.TIL_CHQ_CFG.peer_remote : Fld := ⟨174, 25, 1, .rw, 0, []⟩
def F.TIL_CHQ_CFG.peer_tile : Fld := ⟨175, 12, 12, .rw, 0, []⟩
def F.TIL_CHQ_STATE.state : Fld := ⟨176, 62, 2, .ro, 0, []⟩
def F.TIL_CHQ_STATE.held : Fld := ⟨177, 57, 5, .ro, 0, []⟩
def F.TIL_CHQ_STATE.max_held : Fld := ⟨178, 52, 5, .rc, 0, []⟩
def F.TIL_CHQ_STATE.taken : Fld := ⟨179, 32, 16, .rc, 0, []⟩
def F.TIL_CHQ_STATE.discarded : Fld := ⟨180, 16, 16, .rc, 0, []⟩
def F.TIL_CHQ_STATE.refused : Fld := ⟨181, 0, 16, .rc, 0, []⟩
def F.TIL_CHS_CFG.enable : Fld := ⟨182, 63, 1, .rw, 0, []⟩
def F.TIL_CHS_CFG.remote : Fld := ⟨183, 62, 1, .rw, 0, []⟩
def F.TIL_CHS_CFG.eid : Fld := ⟨184, 48, 14, .rw, 0, []⟩
def F.TIL_CHS_CFG.tile : Fld := ⟨185, 36, 12, .rw, 0, []⟩
def F.TIL_CHS_CFG.queue : Fld := ⟨186, 30, 6, .rw, 0, []⟩
def F.TIL_CHS_CFG.credits : Fld := ⟨187, 25, 5, .rw, 0, [(0, 0), (17, 31)]⟩
def F.TIL_CHS_CFG.max_len : Fld := ⟨188, 16, 9, .rw, 0, [(0, 0), (257, 511)]⟩
def F.TIL_CHS_STATE.state : Fld := ⟨189, 62, 2, .ro, 0, []⟩
def F.TIL_CHS_STATE.credit : Fld := ⟨190, 57, 5, .ro, 0, []⟩
def F.TIL_CHS_STATE.closed : Fld := ⟨191, 48, 8, .rc, 0, []⟩
def F.TIL_CHS_STATE.sent : Fld := ⟨192, 32, 16, .rc, 0, []⟩
def F.TIL_CHS_STATE.stall : Fld := ⟨193, 0, 32, .rc, 0, []⟩
def F.MEM_CH_STATE.mr4 : Fld := ⟨194, 32, 5, .ro, 0, []⟩
def F.MEM_CH_STATE.train_fail : Fld := ⟨195, 8, 8, .ro, 0, []⟩
def F.MEM_CH_STATE.state : Fld := ⟨196, 0, 3, .ro, 1, []⟩
def F.MEM_CAL_CTRL.enable : Fld := ⟨197, 0, 1, .rw, 0, []⟩
def F.MEM_CH_STATUS.again_count : Fld := ⟨198, 48, 16, .rc, 0, []⟩
def F.MEM_CH_STATUS.hot : Fld := ⟨199, 5, 1, .w1c, 0, []⟩
def F.MEM_CH_STATUS.cal_off : Fld := ⟨200, 4, 1, .w1c, 0, []⟩
def F.MEM_CH_STATUS.cal_fault : Fld := ⟨201, 3, 1, .w1c, 0, []⟩
def F.MEM_CH_STATUS.uncorrectable : Fld := ⟨202, 1, 1, .w1c, 0, []⟩
def F.MEM_CH_STATUS.corrected : Fld := ⟨203, 0, 1, .w1c, 0, []⟩
def F.MEM_ECC_COUNT.corrected : Fld := ⟨204, 32, 32, .rc, 0, []⟩
def F.MEM_ECC_COUNT.uncorrectable : Fld := ⟨205, 0, 32, .rc, 0, []⟩
def F.MEM_ECC_LAST.since_lo : Fld := ⟨206, 32, 32, .ro, 0, []⟩
def F.MEM_ECC_LAST.m : Fld := ⟨207, 0, 27, .ro, 0, []⟩
def F.MEM_CAL_FAULT.since_lo : Fld := ⟨208, 32, 32, .ro, 0, []⟩
def F.MEM_CAL_FAULT.kind : Fld := ⟨209, 30, 2, .ro, 0, []⟩
def F.MEM_CAL_FAULT.slot : Fld := ⟨210, 24, 3, .ro, 0, []⟩
def F.MEM_CAL_FAULT.src : Fld := ⟨211, 12, 12, .ro, 0, []⟩
def F.MEM_CAL_FAULT.frame_slot : Fld := ⟨212, 0, 10, .ro, 0, []⟩
def F.MEM_CAL_COUNT.writes : Fld := ⟨213, 32, 32, .ro, 0, []⟩
def F.MEM_CAL_COUNT.reads : Fld := ⟨214, 0, 32, .ro, 0, []⟩
def F.MEM_OPEN_COUNT.joined : Fld := ⟨215, 32, 32, .ro, 0, []⟩
def F.MEM_OPEN_COUNT.served : Fld := ⟨216, 0, 32, .ro, 0, []⟩
def F.MEM_OPEN_QUEUE.max : Fld := ⟨217, 8, 7, .rc, 0, []⟩
def F.MEM_OPEN_QUEUE.current : Fld := ⟨218, 0, 7, .ro, 0, []⟩
def F.MEM_CAL_TABLE.slots : Fld := ⟨219, 0, 64, .rw, 0, []⟩
def F.MEM_GLB_ENABLE_LO.enable : Fld := ⟨220, 0, 64, .rw, 0, []⟩
def F.MEM_GLB_ENABLE_HI.enable : Fld := ⟨221, 0, 32, .rw, 0, []⟩
def F.MEM_GLB_MAP.again_count : Fld := ⟨222, 48, 16, .rc, 0, []⟩
def F.MEM_GLB_MAP.gen : Fld := ⟨223, 16, 32, .ro, 0, []⟩
def F.MEM_GLB_MAP.cfg_ignored : Fld := ⟨224, 8, 1, .w1c, 0, []⟩
def F.MEM_GLB_MAP.n : Fld := ⟨225, 0, 7, .ro, 0, []⟩
def F.FAB_PORT_CTRL.cmd : Fld := ⟨226, 0, 4, .wo, 0, []⟩
def F.FAB_PORT_CFG.lane_mask : Fld := ⟨227, 24, 8, .rw, 255, [(0, 0)]⟩
def F.FAB_PORT_CFG.min_width : Fld := ⟨228, 18, 2, .rw, 0, []⟩
def F.FAB_PORT_CFG.speed_allow : Fld := ⟨229, 16, 2, .rw, 3, [(0, 0)]⟩
def F.FAB_PORT_CFG.latency : Fld := ⟨230, 0, 13, .rw, 0, [(1, 63), (4097, 8191)]⟩
def F.FAB_PORT_STATE.job_port : Fld := ⟨231, 48, 1, .ro, 0, []⟩
def F.FAB_PORT_STATE.last_status : Fld := ⟨232, 32, 16, .ro, 0, []⟩
def F.FAB_PORT_STATE.last_cmd : Fld := ⟨233, 24, 4, .ro, 0, []⟩
def F.FAB_PORT_STATE.down_reason : Fld := ⟨234, 20, 4, .ro, 0, []⟩
def F.FAB_PORT_STATE.rate : Fld := ⟨235, 16, 1, .ro, 0, []⟩
def F.FAB_PORT_STATE.lane_set : Fld := ⟨236, 8, 8, .ro, 0, []⟩
def F.FAB_PORT_STATE.lanes_active : Fld := ⟨237, 4, 4, .ro, 0, []⟩
def F.FAB_PORT_STATE.state : Fld := ⟨238, 0, 3, .ro, 0, []⟩
def F.FAB_PORT_STATUS.again_count : Fld := ⟨239, 48, 16, .rc, 0, []⟩
def F.FAB_PORT_STATUS.cfg_ignored : Fld := ⟨240, 6, 1, .w1c, 0, []⟩
def F.FAB_PORT_STATUS.cmd_refused : Fld := ⟨241, 5, 1, .w1c, 0, []⟩
def F.FAB_PORT_STATUS.margin_low : Fld := ⟨242, 4, 1, .w1c, 0, []⟩
def F.FAB_PORT_STATUS.late : Fld := ⟨243, 3, 1, .w1c, 0, []⟩
def F.FAB_PORT_STATUS.fec_uncorrectable : Fld := ⟨244, 2, 1, .w1c, 0, []⟩
def F.FAB_PORT_STATUS.crc_discard : Fld := ⟨245, 1, 1, .w1c, 0, []⟩
def F.FAB_PORT_STATUS.went_down : Fld := ⟨246, 0, 1, .w1c, 0, []⟩
def F.FAB_PORT_PARALLAX.latency : Fld := ⟨247, 32, 13, .ro, 0, []⟩
def F.FAB_PORT_PARALLAX.measured : Fld := ⟨248, 0, 19, .ro, 0, []⟩
def F.FAB_PORT_FEC.corrected : Fld := ⟨249, 32, 32, .rc, 0, []⟩
def F.FAB_PORT_FEC.uncorrectable : Fld := ⟨250, 0, 32, .rc, 0, []⟩
def F.FAB_PORT_PKT.crc_discard : Fld := ⟨251, 32, 32, .rc, 0, []⟩
def F.FAB_PORT_PKT.late : Fld := ⟨252, 0, 32, .rc, 0, []⟩
def F.FAB_PORT_PARTNER.valid : Fld := ⟨253, 15, 1, .ro, 0, []⟩
def F.FAB_PORT_PARTNER.depth : Fld := ⟨254, 8, 7, .ro, 0, []⟩
def F.FAB_PORT_PARTNER.role : Fld := ⟨255, 4, 2, .ro, 0, []⟩
def F.FAB_PORT_PARTNER.state : Fld := ⟨256, 0, 3, .ro, 0, []⟩
def F.FAB_LANE.symbols : Fld := ⟨257, 32, 32, .rc, 0, []⟩
def F.FAB_LANE.snr : Fld := ⟨258, 16, 8, .ro, 0, []⟩
def F.FAB_LANE.pass_106 : Fld := ⟨259, 9, 1, .ro, 0, []⟩
def F.FAB_LANE.pass_212 : Fld := ⟨260, 8, 1, .ro, 0, []⟩
def F.FAB_LANE.active : Fld := ⟨261, 0, 1, .ro, 0, []⟩
def F.FAB_PORT_NBR.serial : Fld := ⟨262, 0, 64, .ro, 0, []⟩
def F.FAB_PORT_NBR_ID.fresh : Fld := ⟨263, 63, 1, .ro, 0, []⟩
def F.FAB_PORT_NBR_ID.eid_valid : Fld := ⟨264, 62, 1, .ro, 0, []⟩
def F.FAB_PORT_NBR_ID.eid : Fld := ⟨265, 48, 14, .ro, 0, []⟩
def F.FAB_PORT_NBR_ID.job : Fld := ⟨266, 32, 12, .ro, 0, []⟩
def F.FAB_PORT_NBR_ID.state : Fld := ⟨267, 24, 4, .ro, 0, []⟩
def F.FAB_PORT_NBR_ID.slot_id : Fld := ⟨268, 16, 6, .ro, 0, []⟩
def F.FAB_PORT_NBR_ID.port : Fld := ⟨269, 0, 4, .ro, 0, []⟩
def F.FAB_PORT_CREDIT.m_avail : Fld := ⟨270, 8, 5, .ro, 0, []⟩
def F.FAB_PORT_CREDIT.c_avail : Fld := ⟨271, 0, 7, .ro, 0, []⟩
def F.FAB_PORT_SCHED.sent : Fld := ⟨272, 32, 32, .ro, 0, []⟩
def F.FAB_PORT_SCHED.origin_discard : Fld := ⟨273, 16, 16, .rc, 0, []⟩
def F.FAB_PORT_SCHED.collide : Fld := ⟨274, 0, 16, .rc, 0, []⟩
def F.RTE_SELF.hop_limit : Fld := ⟨275, 16, 6, .rw, 8, [(0, 0)]⟩
def F.RTE_SELF.eid_valid : Fld := ⟨276, 15, 1, .ro, 0, []⟩
def F.RTE_SELF.eid : Fld := ⟨277, 0, 14, .rw, 0, []⟩
def F.RTE_CTRL.nova : Fld := ⟨278, 2, 1, .w1s, 0, []⟩
def F.RTE_CTRL.leave : Fld := ⟨279, 1, 1, .w1s, 0, []⟩
def F.RTE_CTRL.join : Fld := ⟨280, 0, 1, .w1s, 0, []⟩
def F.RTE_STATUS.again_count : Fld := ⟨281, 48, 16, .rc, 0, []⟩
def F.RTE_STATUS.last_status : Fld := ⟨282, 32, 16, .ro, 0, []⟩
def F.RTE_STATUS.nova : Fld := ⟨283, 5, 1, .w1c, 0, []⟩
def F.RTE_STATUS.gbar_late : Fld := ⟨284, 4, 1, .w1c, 0, []⟩
def F.RTE_STATUS.dup_eid : Fld := ⟨285, 3, 1, .w1c, 0, []⟩
def F.RTE_STATUS.no_route : Fld := ⟨286, 2, 1, .w1c, 0, []⟩
def F.RTE_STATUS.cmd_refused : Fld := ⟨287, 1, 1, .w1c, 0, []⟩
def F.RTE_STATUS.table_refused : Fld := ⟨288, 0, 1, .w1c, 0, []⟩
def F.RTE_SERIAL.serial : Fld := ⟨289, 0, 64, .ro, 0, []⟩
def F.RTE_DROP.no_route : Fld := ⟨290, 32, 32, .rc, 0, []⟩
def F.RTE_DROP.hop_expired : Fld := ⟨291, 24, 8, .rc, 0, []⟩
def F.RTE_DROP.foreign : Fld := ⟨292, 16, 8, .rc, 0, []⟩
def F.RTE_DROP.gbar_late : Fld := ⟨293, 0, 16, .rc, 0, []⟩
def F.RTE_NOVA.repeats : Fld := ⟨294, 48, 16, .rc, 0, []⟩
def F.RTE_NOVA.foreign : Fld := ⟨295, 40, 8, .rc, 0, []⟩
def F.RTE_NOVA.reason : Fld := ⟨296, 32, 8, .ro, 0, []⟩
def F.RTE_NOVA.origin : Fld := ⟨297, 16, 14, .ro, 0, []⟩
def F.RTE_NOVA.valid : Fld := ⟨298, 12, 1, .ro, 0, []⟩
def F.RTE_NOVA.job : Fld := ⟨299, 0, 12, .ro, 0, []⟩
def F.RTE_NOVA_TIME.start : Fld := ⟨300, 0, 64, .ro, 0, []⟩
def F.RTE_GBAR.lead : Fld := ⟨301, 48, 16, .rw, 16384, [(0, 255)]⟩
def F.RTE_GBAR.children : Fld := ⟨302, 16, 16, .rw, 0, []⟩
def F.RTE_GBAR.root : Fld := ⟨303, 8, 1, .rw, 0, []⟩
def F.RTE_GBAR.parent : Fld := ⟨304, 4, 4, .rw, 0, []⟩
def F.RTE_GBAR.enable : Fld := ⟨305, 0, 1, .rw, 0, []⟩
def F.RTE_ROUTE.entry0 : Fld := ⟨306, 0, 16, .rw, 0, [(0x6000, 0x7FFF), (0xE000, 0xFFFF)]⟩
def F.RTE_ROUTE.entry1 : Fld := ⟨307, 16, 16, .rw, 0, [(0x6000, 0x7FFF), (0xE000, 0xFFFF)]⟩
def F.RTE_ROUTE.entry2 : Fld := ⟨308, 32, 16, .rw, 0, [(0x6000, 0x7FFF), (0xE000, 0xFFFF)]⟩
def F.RTE_ROUTE.entry3 : Fld := ⟨309, 48, 16, .rw, 0, [(0x6000, 0x7FFF), (0xE000, 0xFFFF)]⟩
def F.RTE_ROW.valid : Fld := ⟨310, 17, 1, .rw, 0, []⟩
def F.RTE_ROW.local : Fld := ⟨311, 16, 1, .rw, 0, []⟩
def F.RTE_ROW.out_mask : Fld := ⟨312, 0, 16, .rw, 0, []⟩
def F.RTE_COL.valid : Fld := ⟨313, 17, 1, .rw, 0, []⟩
def F.RTE_COL.local : Fld := ⟨314, 16, 1, .rw, 0, []⟩
def F.RTE_COL.out_mask : Fld := ⟨315, 0, 16, .rw, 0, []⟩
def F.RTE_RANK.counted : Fld := ⟨316, 48, 11, .ro, 0, []⟩
def F.RTE_RANK.late_count : Fld := ⟨317, 32, 11, .ro, 0, []⟩
def F.RTE_RANK.last_eid : Fld := ⟨318, 16, 14, .ro, 0, []⟩
def F.RTE_RANK.last_index : Fld := ⟨319, 8, 5, .ro, 0, []⟩
def F.RTE_RANK.self_last : Fld := ⟨320, 0, 1, .ro, 0, []⟩
def F.RTE_PLACE_GEN.map_gen : Fld := ⟨321, 32, 32, .rw, 0, []⟩
def F.RTE_PLACE_GEN.dist_gen : Fld := ⟨322, 0, 32, .rw, 0, []⟩
def F.RTE_PLACE_NEED.check : Fld := ⟨323, 63, 1, .rw, 0, []⟩
def F.RTE_PLACE_NEED.need : Fld := ⟨324, 0, 48, .rw, 0, []⟩
def F.RTE_FLEET_STATUS.again_count : Fld := ⟨325, 48, 16, .rc, 0, []⟩
def F.RTE_FLEET_STATUS.adopt_step : Fld := ⟨326, 44, 4, .ro, 0, []⟩
def F.RTE_FLEET_STATUS.conj_state : Fld := ⟨327, 40, 4, .ro, 0, []⟩
def F.RTE_FLEET_STATUS.proven : Fld := ⟨328, 3, 1, .ro, 0, []⟩
def F.RTE_FLEET_STATUS.place_refused : Fld := ⟨329, 2, 1, .w1c, 0, []⟩
def F.RTE_FLEET_STATUS.conj_fail : Fld := ⟨330, 1, 1, .w1c, 0, []⟩
def F.RTE_FLEET_STATUS.suspect : Fld := ⟨331, 0, 1, .w1c, 0, []⟩
def F.RTE_ADOPT.attempt : Fld := ⟨332, 38, 2, .ro, 0, []⟩
def F.RTE_ADOPT.lines_k : Fld := ⟨333, 0, 32, .ro, 0, []⟩
def F.RTE_CONJ.mismatched : Fld := ⟨334, 32, 11, .ro, 0, []⟩
def F.RTE_CONJ.matched : Fld := ⟨335, 0, 11, .ro, 0, []⟩
def F.OBS_APR_SEG.base : Fld := ⟨336, 30, 10, .rw, 0, [(720, 1023)]⟩
def F.OBS_APR_SEG.space : Fld := ⟨337, 0, 2, .rw, 0, [(3, 3)]⟩
def F.OBS_HOST_ERR.again_count : Fld := ⟨338, 48, 16, .rc, 0, []⟩
def F.OBS_HOST_ERR.timeout : Fld := ⟨339, 3, 1, .w1c, 0, []⟩
def F.OBS_HOST_ERR.target : Fld := ⟨340, 2, 1, .w1c, 0, []⟩
def F.OBS_HOST_ERR.size : Fld := ⟨341, 1, 1, .w1c, 0, []⟩
def F.OBS_HOST_ERR.unmapped : Fld := ⟨342, 0, 1, .w1c, 0, []⟩
def F.OBS_HOST_ERR_LOG.status : Fld := ⟨343, 48, 16, .ro, 0, []⟩
def F.OBS_HOST_ERR_LOG.window : Fld := ⟨344, 46, 2, .ro, 0, []⟩
def F.OBS_HOST_ERR_LOG.write : Fld := ⟨345, 45, 1, .ro, 0, []⟩
def F.OBS_HOST_ERR_LOG.offset : Fld := ⟨346, 0, 36, .ro, 0, []⟩
def F.OBS_IRQ_STATUS.again_count : Fld := ⟨347, 48, 16, .rc, 0, []⟩
def F.OBS_IRQ_STATUS.cause : Fld := ⟨348, 0, 26, .w1c, 0, []⟩
def F.OBS_IRQ_EN.enable : Fld := ⟨349, 0, 26, .rw, 0, []⟩
def F.OBS_MBX_STATUS.locked : Fld := ⟨350, 32, 32, .ro, 0, []⟩
def F.OBS_MBX_STATUS.full : Fld := ⟨351, 0, 32, .ro, 0, []⟩
def F.OBS_MBX_BREAK.index : Fld := ⟨352, 0, 5, .wo, 0, []⟩
def F.OBS_LOG_HEAD.dropped : Fld := ⟨353, 32, 16, .rc, 0, []⟩
def F.OBS_LOG_HEAD.next : Fld := ⟨354, 0, 32, .ro, 0, []⟩
def F.OBS_LOG_SEL.valid : Fld := ⟨355, 63, 1, .ro, 0, []⟩
def F.OBS_LOG_SEL.sel : Fld := ⟨356, 0, 32, .rw, 0, []⟩
def F.OBS_LOG_REC.bytes : Fld := ⟨357, 0, 64, .ro, 0, []⟩
def F.SEC_BOOT_STATUS.fw_version : Fld := ⟨358, 32, 32, .ro, 0, []⟩
def F.SEC_BOOT_STATUS.svn : Fld := ⟨359, 24, 8, .ro, 0, []⟩
def F.SEC_BOOT_STATUS.slot1_valid : Fld := ⟨360, 11, 1, .ro, 0, []⟩
def F.SEC_BOOT_STATUS.slot0_valid : Fld := ⟨361, 10, 1, .ro, 0, []⟩
def F.SEC_BOOT_STATUS.slot : Fld := ⟨362, 8, 1, .ro, 0, []⟩
def F.SEC_BOOT_STATUS.stage : Fld := ⟨363, 0, 3, .ro, 0, []⟩
def F.SEC_CFG_STATE.preset_ignored : Fld := ⟨364, 32, 32, .ro, 0, []⟩
def F.SEC_CFG_STATE.fail_check : Fld := ⟨365, 8, 4, .ro, 0, []⟩
def F.SEC_CFG_STATE.b_valid : Fld := ⟨366, 4, 1, .ro, 0, []⟩
def F.SEC_CFG_STATE.a_valid : Fld := ⟨367, 3, 1, .ro, 0, []⟩
def F.SEC_CFG_STATE.boot_hold : Fld := ⟨368, 2, 1, .ro, 0, []⟩
def F.SEC_CFG_STATE.active : Fld := ⟨369, 0, 2, .ro, 3, []⟩
def F.SEC_CFG_SEQ.seq_b : Fld := ⟨370, 32, 32, .ro, 0, []⟩
def F.SEC_CFG_SEQ.seq_a : Fld := ⟨371, 0, 32, .ro, 0, []⟩
def F.SEC_KEY_INDEX.reserved_end : Fld := ⟨372, 32, 20, .ro, 0, []⟩
def F.SEC_KEY_INDEX.next : Fld := ⟨373, 0, 21, .ro, 0, []⟩
def F.SEC_KEY_STATUS.again_count : Fld := ⟨374, 48, 16, .rc, 0, []⟩
def F.SEC_KEY_STATUS.statements : Fld := ⟨375, 32, 16, .ro, 0, []⟩
def F.SEC_KEY_STATUS.lost : Fld := ⟨376, 3, 1, .ro, 0, []⟩
def F.SEC_KEY_STATUS.exhausted : Fld := ⟨377, 2, 1, .ro, 0, []⟩
def F.SEC_KEY_STATUS.key_exhausted_event : Fld := ⟨378, 1, 1, .w1c, 0, []⟩
def F.SEC_KEY_STATUS.key_warn : Fld := ⟨379, 0, 1, .w1c, 0, []⟩
def F.SEC_TAINT.since_lo : Fld := ⟨380, 32, 32, .ro, 0, []⟩
def F.SEC_TAINT.instruction : Fld := ⟨381, 8, 8, .ro, 0, []⟩
def F.SEC_TAINT.scan_tainted : Fld := ⟨382, 0, 1, .ro, 0, []⟩
def F.SEC_FUSE.svn_floor : Fld := ⟨383, 8, 7, .ro, 0, []⟩
def F.SEC_FUSE.revoked : Fld := ⟨384, 4, 4, .ro, 0, []⟩
def F.SEC_FUSE.programmed : Fld := ⟨385, 0, 4, .ro, 0, []⟩
def F.SEC_KEY_HASH.hash : Fld := ⟨386, 0, 64, .ro, 0, []⟩
def F.ERR_CTRL.transit_en : Fld := ⟨387, 3, 1, .rw, 1, []⟩
def F.ERR_CTRL.bg_enable : Fld := ⟨388, 2, 1, .rw, 1, []⟩
def F.ERR_CTRL.history_mode : Fld := ⟨389, 1, 1, .rw, 0, []⟩
def F.ERR_CTRL.checksum_action : Fld := ⟨390, 0, 1, .rw, 1, []⟩
def F.ERR_STATUS.again_count : Fld := ⟨391, 48, 16, .rc, 0, []⟩
def F.ERR_STATUS.cfg_ignored : Fld := ⟨392, 8, 1, .w1c, 0, []⟩
def F.ERR_STATUS.log_dropped : Fld := ⟨393, 7, 1, .w1c, 0, []⟩
def F.ERR_STATUS.content_invalid : Fld := ⟨394, 6, 1, .w1c, 0, []⟩
def F.ERR_STATUS.almanac_full : Fld := ⟨395, 5, 1, .w1c, 0, []⟩
def F.ERR_STATUS.repair : Fld := ⟨396, 4, 1, .w1c, 0, []⟩
def F.ERR_STATUS.bg_fail : Fld := ⟨397, 3, 1, .w1c, 0, []⟩
def F.ERR_STATUS.bist_fail : Fld := ⟨398, 2, 1, .w1c, 0, []⟩
def F.ERR_STATUS.kat_fail : Fld := ⟨399, 1, 1, .w1c, 0, []⟩
def F.ERR_STATUS.checksum : Fld := ⟨400, 0, 1, .w1c, 0, []⟩
def F.ERR_TRANSIT_CFG.period : Fld := ⟨401, 16, 16, .rw, 60, [(0, 0)]⟩
def F.ERR_TRANSIT_CFG.max_open : Fld := ⟨402, 0, 5, .rw, 4, [(0, 0), (17, 31)]⟩
def F.ERR_TRANSIT_STATE.completed : Fld := ⟨403, 32, 32, .ro, 0, []⟩
def F.ERR_TRANSIT_STATE.overdue : Fld := ⟨404, 16, 16, .ro, 0, []⟩
def F.ERR_TRANSIT_STATE.in_transit : Fld := ⟨405, 8, 5, .ro, 0, []⟩
def F.ERR_TRANSIT_STATE.open : Fld := ⟨406, 0, 5, .ro, 0, []⟩
def F.ERR_BG_CFG.interval : Fld := ⟨407, 0, 32, .rw, 20480000, [(0, 65535)]⟩
def F.ERR_BG_STATE.sweeps : Fld := ⟨408, 32, 32, .ro, 0, []⟩
def F.ERR_BG_STATE.abandoned : Fld := ⟨409, 16, 16, .rc, 0, []⟩
def F.ERR_BG_STATE.held : Fld := ⟨410, 0, 12, .ro, 0, []⟩
def F.ERR_CONTENT.version : Fld := ⟨411, 32, 32, .ro, 0, []⟩
def F.ERR_CONTENT.slot : Fld := ⟨412, 8, 1, .ro, 0, []⟩
def F.ERR_CONTENT.slot1_valid : Fld := ⟨413, 1, 1, .ro, 0, []⟩
def F.ERR_CONTENT.slot0_valid : Fld := ⟨414, 0, 1, .ro, 0, []⟩
def F.ERR_DIGEST_HEAD.stored : Fld := ⟨415, 32, 32, .ro, 0, []⟩
def F.ERR_DIGEST_HEAD.next : Fld := ⟨416, 0, 4, .ro, 0, []⟩
def F.ERR_BIST_LAST.tile : Fld := ⟨417, 52, 12, .ro, 0, []⟩
def F.ERR_BIST_LAST.bit : Fld := ⟨418, 40, 5, .ro, 0, []⟩
def F.ERR_BIST_LAST.address : Fld := ⟨419, 0, 21, .ro, 0, []⟩
def F.ERR_DIGEST_META.since_lo : Fld := ⟨420, 32, 32, .ro, 0, []⟩
def F.ERR_DIGEST_META.episode : Fld := ⟨421, 16, 8, .ro, 0, []⟩
def F.ERR_DIGEST_META.index : Fld := ⟨422, 8, 5, .ro, 0, []⟩
def F.ERR_DIGEST_META.valid : Fld := ⟨423, 0, 1, .ro, 0, []⟩
def F.ERR_DIGEST_OWN.digest : Fld := ⟨424, 0, 64, .ro, 0, []⟩
def F.ERR_DIGEST_COMB.digest : Fld := ⟨425, 0, 64, .ro, 0, []⟩
def F.ERR_TILE_DIGEST.d : Fld := ⟨426, 0, 64, .ro, 0, []⟩
def F.ERR_TILE_TEST.since_lo : Fld := ⟨427, 32, 32, .ro, 0, []⟩
def F.ERR_TILE_TEST.transits : Fld := ⟨428, 24, 8, .ro, 0, []⟩
def F.ERR_TILE_TEST.bg_region : Fld := ⟨429, 15, 9, .ro, 0, []⟩
def F.ERR_TILE_TEST.bg_held : Fld := ⟨430, 14, 1, .ro, 0, []⟩
def F.ERR_TILE_TEST.spares_min : Fld := ⟨431, 11, 3, .ro, 0, []⟩
def F.ERR_TILE_TEST.last : Fld := ⟨432, 0, 2, .ro, 0, []⟩
def F.RST_STATUS.again_count : Fld := ⟨433, 48, 16, .rc, 0, []⟩
def F.RST_STATUS.escalated : Fld := ⟨434, 11, 1, .w1c, 0, []⟩
def F.RST_STATUS.retired : Fld := ⟨435, 10, 1, .w1c, 0, []⟩
def F.RST_STATUS.hang : Fld := ⟨436, 9, 1, .w1c, 0, []⟩
def F.RST_STATUS.fence : Fld := ⟨437, 8, 1, .w1c, 0, []⟩
def F.RST_STATUS.busy_domain : Fld := ⟨438, 0, 4, .ro, 0, []⟩
def F.RST_LAST.cycles : Fld := ⟨439, 32, 32, .ro, 0, []⟩
def F.RST_LAST.result : Fld := ⟨440, 20, 4, .ro, 0, []⟩
def F.RST_LAST.domain : Fld := ⟨441, 16, 4, .ro, 0, []⟩
def F.RST_LAST.index : Fld := ⟨442, 0, 12, .ro, 0, []⟩
def F.RST_FENCE.since_lo : Fld := ⟨443, 32, 32, .ro, 0, []⟩
def F.RST_FENCE.cause : Fld := ⟨444, 8, 8, .ro, 0, []⟩
def F.RST_FENCE.module : Fld := ⟨445, 4, 1, .ro, 0, []⟩
def F.RST_FENCE.dies : Fld := ⟨446, 0, 4, .ro, 0, []⟩
def F.RST_ESC.to_die : Fld := ⟨447, 48, 16, .rc, 0, []⟩
def F.RST_ESC.to_warm : Fld := ⟨448, 32, 16, .rc, 0, []⟩
def F.RST_ESC.to_dark : Fld := ⟨449, 16, 16, .rc, 0, []⟩
def F.RST_HANG_CFG.interval : Fld := ⟨450, 40, 24, .rw, 512, [(0, 15)]⟩
def F.RST_HANG_CFG.all_threshold : Fld := ⟨451, 8, 32, .rw, 78125, []⟩
def F.RST_HANG_CFG.action : Fld := ⟨452, 1, 2, .rw, 1, [(3, 3)]⟩
def F.RST_HANG_CFG.enable : Fld := ⟨453, 0, 1, .rw, 1, []⟩
def F.RST_HANG_REPORT.since_lo : Fld := ⟨454, 32, 32, .ro, 0, []⟩
def F.RST_HANG_REPORT.kind : Fld := ⟨455, 28, 4, .ro, 0, []⟩
def F.RST_HANG_REPORT.members : Fld := ⟨456, 12, 12, .ro, 0, []⟩
def F.RST_HANG_REPORT.first : Fld := ⟨457, 0, 12, .ro, 0, []⟩
def F.RST_HANG_COUNT.evaluations : Fld := ⟨458, 32, 32, .ro, 0, []⟩
def F.RST_HANG_COUNT.reports : Fld := ⟨459, 0, 32, .rc, 0, []⟩
def F.RST_HANG_SET.member : Fld := ⟨460, 0, 64, .ro, 0, []⟩
def F.DIE_STATE.pending_remap : Fld := ⟨461, 40, 8, .ro, 0, []⟩
def F.DIE_STATE.retired : Fld := ⟨462, 32, 8, .ro, 0, []⟩
def F.DIE_STATE.in_service : Fld := ⟨463, 16, 16, .ro, 0, []⟩
def F.DIE_STATE.state : Fld := ⟨464, 0, 3, .ro, 0, []⟩
def F.PWR_INPUT.power : Fld := ⟨465, 32, 16, .ro, 0, []⟩
def F.PWR_INPUT.voltage : Fld := ⟨466, 0, 16, .ro, 0, []⟩
def F.PWR_CORE.setpoint : Fld := ⟨467, 48, 16, .ro, 0, []⟩
def F.PWR_CORE.current : Fld := ⟨468, 16, 16, .ro, 0, []⟩
def F.PWR_CORE.voltage : Fld := ⟨469, 0, 16, .ro, 0, []⟩
def F.PWR_RAIL.good : Fld := ⟨470, 48, 1, .ro, 0, []⟩
def F.PWR_RAIL.current : Fld := ⟨471, 16, 16, .ro, 0, []⟩
def F.PWR_RAIL.voltage : Fld := ⟨472, 0, 16, .ro, 0, []⟩
def F.PWR_CLK.root_src : Fld := ⟨473, 2, 1, .ro, 0, []⟩
def F.PWR_CLK.root_lock : Fld := ⟨474, 1, 1, .ro, 0, []⟩
def F.PWR_CLK.refclk_ok : Fld := ⟨475, 0, 1, .ro, 0, []⟩
def F.PWR_ENV_CFG.warn_power : Fld := ⟨476, 32, 16, .rw, 32000, [(0, 999), (34001, 65535)]⟩
def F.PWR_ENV_CFG.warn_temp : Fld := ⟨477, 0, 16, .rw, 760, [(0, 639), (816, 65535)]⟩
def F.PWR_ENV_STATUS.again_count : Fld := ⟨478, 48, 16, .rc, 0, []⟩
def F.PWR_ENV_STATUS.rail_fault : Fld := ⟨479, 24, 1, .ro, 0, []⟩
def F.PWR_ENV_STATUS.holding : Fld := ⟨480, 16, 1, .ro, 0, []⟩
def F.PWR_ENV_STATUS.emergency : Fld := ⟨481, 8, 7, .w1c, 0, []⟩
def F.PWR_ENV_STATUS.warning : Fld := ⟨482, 0, 7, .w1c, 0, []⟩
def F.PWR_THROTTLE.cycles : Fld := ⟨483, 32, 32, .ro, 0, []⟩
def F.PWR_THROTTLE.level : Fld := ⟨484, 0, 4, .ro, 0, []⟩
def F.PWR_SLOT.slot_id : Fld := ⟨485, 0, 6, .ro, 0, []⟩
def F.PWR_TEMP.max : Fld := ⟨486, 16, 16, .rc, 32768, []⟩
def F.PWR_TEMP.temp : Fld := ⟨487, 0, 16, .ro, 32768, []⟩
def F.MBX_LOCK.owner : Fld := ⟨488, 0, 16, .ro, 0, []⟩
def F.MBX_FLAG.take : Fld := ⟨489, 9, 1, .w1s, 0, []⟩
def F.MBX_FLAG.post : Fld := ⟨490, 8, 1, .w1s, 0, []⟩
def F.MBX_FLAG.full : Fld := ⟨491, 0, 1, .ro, 0, []⟩
def F.MBX_SENDER.refused : Fld := ⟨492, 48, 16, .rc, 0, []⟩
def F.MBX_SENDER.posts : Fld := ⟨493, 32, 16, .ro, 0, []⟩
def F.MBX_SENDER.owner : Fld := ⟨494, 16, 16, .ro, 0, []⟩
def F.MBX_SENDER.sender : Fld := ⟨495, 0, 16, .ro, 0, []⟩
def F.MBX_CMD.length : Fld := ⟨496, 48, 12, .rw, 0, [(4033, 4095)]⟩
def F.MBX_CMD.status : Fld := ⟨497, 32, 16, .rw, 0, []⟩
def F.MBX_CMD.seq : Fld := ⟨498, 16, 16, .rw, 0, []⟩
def F.MBX_CMD.code : Fld := ⟨499, 0, 16, .rw, 0, []⟩
def F.MBX_REF.reply_to : Fld := ⟨500, 0, 16, .rw, 0, []⟩

/-- The fields of a register, highest first, as its table lists them. -/
def Reg.fields : Reg → List Fld
  | .GLB_ID => [F.GLB_ID.part_number, F.GLB_ID.stepping]
  | .GLB_MESH_STATUS => [F.GLB_MESH_STATUS.vacant_count, F.GLB_MESH_STATUS.complete, F.GLB_MESH_STATUS.spares_used_d3, F.GLB_MESH_STATUS.spares_used_d2, F.GLB_MESH_STATUS.spares_used_d1, F.GLB_MESH_STATUS.spares_used_d0]
  | .GLB_DIST_GEN => [F.GLB_DIST_GEN.gen]
  | .GLB_DIST => [F.GLB_DIST.router_failed, F.GLB_DIST.vacant, F.GLB_DIST.south, F.GLB_DIST.east]
  | .GLB_SIDEREAL => [F.GLB_SIDEREAL.count]
  | .GLB_TIME_CFG => [F.GLB_TIME_CFG.alt_parent, F.GLB_TIME_CFG.alt_en, F.GLB_TIME_CFG.parent, F.GLB_TIME_CFG.role]
  | .GLB_TIME_STATUS => [F.GLB_TIME_STATUS.again_count, F.GLB_TIME_STATUS.depth, F.GLB_TIME_STATUS.cfg_ignored, F.GLB_TIME_STATUS.depth_exceeded, F.GLB_TIME_STATUS.align_fault, F.GLB_TIME_STATUS.switched, F.GLB_TIME_STATUS.parent_lost, F.GLB_TIME_STATUS.stepped, F.GLB_TIME_STATUS.offset, F.GLB_TIME_STATUS.active_parent, F.GLB_TIME_STATUS.state]
  | .GLB_MODULE_STATE => [F.GLB_MODULE_STATE.start_pending, F.GLB_MODULE_STATE.state]
  | .GLB_JOB => [F.GLB_JOB.job]
  | .GLB_START => [F.GLB_START.start]
  | .TIL_SR_SEED => [F.TIL_SR_SEED.seed]
  | .TIL_SR_COUNT => [F.TIL_SR_COUNT.count]
  | .TIL_NUM_STATUS => [F.TIL_NUM_STATUS.again_count, F.TIL_NUM_STATUS.chk_skipped, F.TIL_NUM_STATUS.cfg_ignored, F.TIL_NUM_STATUS.checksum_fail, F.TIL_NUM_STATUS.cvt_overflow, F.TIL_NUM_STATUS.cvt_nan, F.TIL_NUM_STATUS.x96_bound, F.TIL_NUM_STATUS.x96_mismatch, F.TIL_NUM_STATUS.special_input, F.TIL_NUM_STATUS.exact_range]
  | .TIL_NUM_TRAP_EN => [F.TIL_NUM_TRAP_EN.trap_en]
  | .TIL_STATE => [F.TIL_STATE.die, F.TIL_STATE.phys_row, F.TIL_STATE.y, F.TIL_STATE.x, F.TIL_STATE.state]
  | .TIL_ENTRY => [F.TIL_ENTRY.release, F.TIL_ENTRY.pc]
  | .TIL_CTRL => [F.TIL_CTRL.go]
  | .TIL_PC => [F.TIL_PC.pc]
  | .TIL_TRAP => [F.TIL_TRAP.hresume, F.TIL_TRAP.in_handler, F.TIL_TRAP.hcode]
  | .TIL_TRAP_VALUE => [F.TIL_TRAP_VALUE.harg]
  | .TIL_STOP => [F.TIL_STOP.stop_pc, F.TIL_STOP.stop_reason, F.TIL_STOP.stop_cause]
  | .TIL_SEQ_STATUS => [F.TIL_SEQ_STATUS.again_count, F.TIL_SEQ_STATUS.halted, F.TIL_SEQ_STATUS.cfg_ignored, F.TIL_SEQ_STATUS.closed_send, F.TIL_SEQ_STATUS.stream_abort, F.TIL_SEQ_STATUS.no_vector, F.TIL_SEQ_STATUS.double_trap, F.TIL_SEQ_STATUS.slip, F.TIL_SEQ_STATUS.trap_taken]
  | .TIL_SEQ_TRAP_EN => [F.TIL_SEQ_TRAP_EN.closed_trap]
  | .TIL_SLIP => [F.TIL_SLIP.target_lo, F.TIL_SLIP.lateness]
  | .TIL_WAIT => [F.TIL_WAIT.since_lo, F.TIL_WAIT.word]
  | .TIL_INSTRET => [F.TIL_INSTRET.count]
  | .TIL_STALL => [F.TIL_STALL.cycles]
  | .TIL_GREG => [F.TIL_GREG.value]
  | .TIL_LAT_PHASE => [F.TIL_LAT_PHASE.shadow_phase, F.TIL_LAT_PHASE.phase, F.TIL_LAT_PHASE.mode, F.TIL_LAT_PHASE.state]
  | .TIL_LAT_LOAD => [F.TIL_LAT_LOAD.status, F.TIL_LAT_LOAD.err_offset, F.TIL_LAT_LOAD.addr, F.TIL_LAT_LOAD.drain_forced]
  | .TIL_LAT_STATUS => [F.TIL_LAT_STATUS.again_count, F.TIL_LAT_STATUS.sources_cut, F.TIL_LAT_STATUS.tag_deadlock, F.TIL_LAT_STATUS.drain_forced, F.TIL_LAT_STATUS.discard, F.TIL_LAT_STATUS.load_refused]
  | .TIL_PHASE_DISCARD => [F.TIL_PHASE_DISCARD.count]
  | .TIL_LAT_DEADLOCK => [F.TIL_LAT_DEADLOCK.since_lo, F.TIL_LAT_DEADLOCK.head_tag, F.TIL_LAT_DEADLOCK.input, F.TIL_LAT_DEADLOCK.unit]
  | .TIL_LAT_CTR_CLR => [F.TIL_LAT_CTR_CLR.clear]
  | .TIL_LAT_FIRE => [F.TIL_LAT_FIRE.count]
  | .TIL_LAT_IMBAL => [F.TIL_LAT_IMBAL.blocker_input, F.TIL_LAT_IMBAL.blocker_unit, F.TIL_LAT_IMBAL.cycles]
  | .TIL_LAT_OCC => [F.TIL_LAT_OCC.max, F.TIL_LAT_OCC.current]
  | .TIL_SCRATCH_SIZE => [F.TIL_SCRATCH_SIZE.size]
  | .TIL_BANK_OWNER => [F.TIL_BANK_OWNER.owner3, F.TIL_BANK_OWNER.owner2, F.TIL_BANK_OWNER.owner1, F.TIL_BANK_OWNER.owner0]
  | .TIL_BANK_WAIT => [F.TIL_BANK_WAIT.seq, F.TIL_BANK_WAIT.lat, F.TIL_BANK_WAIT.str]
  | .TIL_STREAM_STATUS => [F.TIL_STREAM_STATUS.again_count, F.TIL_STREAM_STATUS.fused_stopped, F.TIL_STREAM_STATUS.fused_abort, F.TIL_STREAM_STATUS.slot_abort]
  | .TIL_STREAM_ABORT => [F.TIL_STREAM_ABORT.since_lo, F.TIL_STREAM_ABORT.reason, F.TIL_STREAM_ABORT.ip, F.TIL_STREAM_ABORT.slot]
  | .TIL_ARRIVAL => [F.TIL_ARRIVAL.count]
  | .TIL_STREAM_STATE => [F.TIL_STREAM_STATE.base_addr, F.TIL_STREAM_STATE.prog_addr, F.TIL_STREAM_STATE.fused_slot, F.TIL_STREAM_STATE.held, F.TIL_STREAM_STATE.ip, F.TIL_STREAM_STATE.timed, F.TIL_STREAM_STATE.state]
  | .TIL_STREAM_BEATS => [F.TIL_STREAM_BEATS.passes, F.TIL_STREAM_BEATS.beats]
  | .TIL_FUSED_STATE => [F.TIL_FUSED_STATE.desc_addr, F.TIL_FUSED_STATE.step, F.TIL_FUSED_STATE.busy]
  | .TIL_FUSED_COUNT => [F.TIL_FUSED_COUNT.done]
  | .TIL_MER_STATUS => [F.TIL_MER_STATUS.again_count, F.TIL_MER_STATUS.landing_range, F.TIL_MER_STATUS.landing_discard, F.TIL_MER_STATUS.uncorrectable, F.TIL_MER_STATUS.corrected, F.TIL_MER_STATUS.collision]
  | .TIL_MER_COLL => [F.TIL_MER_COLL.since_lo, F.TIL_MER_COLL.count, F.TIL_MER_COLL.output, F.TIL_MER_COLL.lose_input, F.TIL_MER_COLL.win_input]
  | .TIL_MER_COLL_WIN => [F.TIL_MER_COLL_WIN.header]
  | .TIL_MER_COLL_LOSE => [F.TIL_MER_COLL_LOSE.header]
  | .TIL_MER_DISCARD => [F.TIL_MER_DISCARD.count]
  | .TIL_MER_LINK => [F.TIL_MER_LINK.corrected, F.TIL_MER_LINK.uncorrectable]
  | .TIL_MER_TRAFFIC => [F.TIL_MER_TRAFFIC.landed, F.TIL_MER_TRAFFIC.injected]
  | .TIL_VSP_STATUS => [F.TIL_VSP_STATUS.again_count, F.TIL_VSP_STATUS.unreachable, F.TIL_VSP_STATUS.vld_error, F.TIL_VSP_STATUS.vld_timeout]
  | .TIL_VSP_DISCARD => [F.TIL_VSP_DISCARD.count]
  | .TIL_PUL_BAR => [F.TIL_PUL_BAR.height, F.TIL_PUL_BAR.depth, F.TIL_PUL_BAR.parent, F.TIL_PUL_BAR.children, F.TIL_PUL_BAR.global, F.TIL_PUL_BAR.participant, F.TIL_PUL_BAR.enable]
  | .TIL_PUL_STATE => [F.TIL_PUL_STATE.pending_bara, F.TIL_PUL_STATE.released]
  | .TIL_CHQ_CFG => [F.TIL_CHQ_CFG.enable, F.TIL_CHQ_CFG.kind, F.TIL_CHQ_CFG.depth, F.TIL_CHQ_CFG.slot_blocks, F.TIL_CHQ_CFG.base, F.TIL_CHQ_CFG.remote_credits, F.TIL_CHQ_CFG.peer_eid, F.TIL_CHQ_CFG.peer_remote, F.TIL_CHQ_CFG.peer_tile]
  | .TIL_CHQ_STATE => [F.TIL_CHQ_STATE.state, F.TIL_CHQ_STATE.held, F.TIL_CHQ_STATE.max_held, F.TIL_CHQ_STATE.taken, F.TIL_CHQ_STATE.discarded, F.TIL_CHQ_STATE.refused]
  | .TIL_CHS_CFG => [F.TIL_CHS_CFG.enable, F.TIL_CHS_CFG.remote, F.TIL_CHS_CFG.eid, F.TIL_CHS_CFG.tile, F.TIL_CHS_CFG.queue, F.TIL_CHS_CFG.credits, F.TIL_CHS_CFG.max_len]
  | .TIL_CHS_STATE => [F.TIL_CHS_STATE.state, F.TIL_CHS_STATE.credit, F.TIL_CHS_STATE.closed, F.TIL_CHS_STATE.sent, F.TIL_CHS_STATE.stall]
  | .MEM_CH_STATE => [F.MEM_CH_STATE.mr4, F.MEM_CH_STATE.train_fail, F.MEM_CH_STATE.state]
  | .MEM_CAL_CTRL => [F.MEM_CAL_CTRL.enable]
  | .MEM_CH_STATUS => [F.MEM_CH_STATUS.again_count, F.MEM_CH_STATUS.hot, F.MEM_CH_STATUS.cal_off, F.MEM_CH_STATUS.cal_fault, F.MEM_CH_STATUS.uncorrectable, F.MEM_CH_STATUS.corrected]
  | .MEM_ECC_COUNT => [F.MEM_ECC_COUNT.corrected, F.MEM_ECC_COUNT.uncorrectable]
  | .MEM_ECC_LAST => [F.MEM_ECC_LAST.since_lo, F.MEM_ECC_LAST.m]
  | .MEM_CAL_FAULT => [F.MEM_CAL_FAULT.since_lo, F.MEM_CAL_FAULT.kind, F.MEM_CAL_FAULT.slot, F.MEM_CAL_FAULT.src, F.MEM_CAL_FAULT.frame_slot]
  | .MEM_CAL_COUNT => [F.MEM_CAL_COUNT.writes, F.MEM_CAL_COUNT.reads]
  | .MEM_OPEN_COUNT => [F.MEM_OPEN_COUNT.joined, F.MEM_OPEN_COUNT.served]
  | .MEM_OPEN_QUEUE => [F.MEM_OPEN_QUEUE.max, F.MEM_OPEN_QUEUE.current]
  | .MEM_CAL_TABLE => [F.MEM_CAL_TABLE.slots]
  | .MEM_GLB_ENABLE_LO => [F.MEM_GLB_ENABLE_LO.enable]
  | .MEM_GLB_ENABLE_HI => [F.MEM_GLB_ENABLE_HI.enable]
  | .MEM_GLB_MAP => [F.MEM_GLB_MAP.again_count, F.MEM_GLB_MAP.gen, F.MEM_GLB_MAP.cfg_ignored, F.MEM_GLB_MAP.n]
  | .FAB_PORT_CTRL => [F.FAB_PORT_CTRL.cmd]
  | .FAB_PORT_CFG => [F.FAB_PORT_CFG.lane_mask, F.FAB_PORT_CFG.min_width, F.FAB_PORT_CFG.speed_allow, F.FAB_PORT_CFG.latency]
  | .FAB_PORT_STATE => [F.FAB_PORT_STATE.job_port, F.FAB_PORT_STATE.last_status, F.FAB_PORT_STATE.last_cmd, F.FAB_PORT_STATE.down_reason, F.FAB_PORT_STATE.rate, F.FAB_PORT_STATE.lane_set, F.FAB_PORT_STATE.lanes_active, F.FAB_PORT_STATE.state]
  | .FAB_PORT_STATUS => [F.FAB_PORT_STATUS.again_count, F.FAB_PORT_STATUS.cfg_ignored, F.FAB_PORT_STATUS.cmd_refused, F.FAB_PORT_STATUS.margin_low, F.FAB_PORT_STATUS.late, F.FAB_PORT_STATUS.fec_uncorrectable, F.FAB_PORT_STATUS.crc_discard, F.FAB_PORT_STATUS.went_down]
  | .FAB_PORT_PARALLAX => [F.FAB_PORT_PARALLAX.latency, F.FAB_PORT_PARALLAX.measured]
  | .FAB_PORT_FEC => [F.FAB_PORT_FEC.corrected, F.FAB_PORT_FEC.uncorrectable]
  | .FAB_PORT_PKT => [F.FAB_PORT_PKT.crc_discard, F.FAB_PORT_PKT.late]
  | .FAB_PORT_PARTNER => [F.FAB_PORT_PARTNER.valid, F.FAB_PORT_PARTNER.depth, F.FAB_PORT_PARTNER.role, F.FAB_PORT_PARTNER.state]
  | .FAB_LANE => [F.FAB_LANE.symbols, F.FAB_LANE.snr, F.FAB_LANE.pass_106, F.FAB_LANE.pass_212, F.FAB_LANE.active]
  | .FAB_PORT_NBR => [F.FAB_PORT_NBR.serial]
  | .FAB_PORT_NBR_ID => [F.FAB_PORT_NBR_ID.fresh, F.FAB_PORT_NBR_ID.eid_valid, F.FAB_PORT_NBR_ID.eid, F.FAB_PORT_NBR_ID.job, F.FAB_PORT_NBR_ID.state, F.FAB_PORT_NBR_ID.slot_id, F.FAB_PORT_NBR_ID.port]
  | .FAB_PORT_CREDIT => [F.FAB_PORT_CREDIT.m_avail, F.FAB_PORT_CREDIT.c_avail]
  | .FAB_PORT_SCHED => [F.FAB_PORT_SCHED.sent, F.FAB_PORT_SCHED.origin_discard, F.FAB_PORT_SCHED.collide]
  | .RTE_SELF => [F.RTE_SELF.hop_limit, F.RTE_SELF.eid_valid, F.RTE_SELF.eid]
  | .RTE_CTRL => [F.RTE_CTRL.nova, F.RTE_CTRL.leave, F.RTE_CTRL.join]
  | .RTE_STATUS => [F.RTE_STATUS.again_count, F.RTE_STATUS.last_status, F.RTE_STATUS.nova, F.RTE_STATUS.gbar_late, F.RTE_STATUS.dup_eid, F.RTE_STATUS.no_route, F.RTE_STATUS.cmd_refused, F.RTE_STATUS.table_refused]
  | .RTE_SERIAL => [F.RTE_SERIAL.serial]
  | .RTE_DROP => [F.RTE_DROP.no_route, F.RTE_DROP.hop_expired, F.RTE_DROP.foreign, F.RTE_DROP.gbar_late]
  | .RTE_NOVA => [F.RTE_NOVA.repeats, F.RTE_NOVA.foreign, F.RTE_NOVA.reason, F.RTE_NOVA.origin, F.RTE_NOVA.valid, F.RTE_NOVA.job]
  | .RTE_NOVA_TIME => [F.RTE_NOVA_TIME.start]
  | .RTE_GBAR => [F.RTE_GBAR.lead, F.RTE_GBAR.children, F.RTE_GBAR.root, F.RTE_GBAR.parent, F.RTE_GBAR.enable]
  | .RTE_ROUTE => [F.RTE_ROUTE.entry0, F.RTE_ROUTE.entry1, F.RTE_ROUTE.entry2, F.RTE_ROUTE.entry3]
  | .RTE_ROW => [F.RTE_ROW.valid, F.RTE_ROW.local, F.RTE_ROW.out_mask]
  | .RTE_COL => [F.RTE_COL.valid, F.RTE_COL.local, F.RTE_COL.out_mask]
  | .RTE_RANK => [F.RTE_RANK.counted, F.RTE_RANK.late_count, F.RTE_RANK.last_eid, F.RTE_RANK.last_index, F.RTE_RANK.self_last]
  | .RTE_PLACE_GEN => [F.RTE_PLACE_GEN.map_gen, F.RTE_PLACE_GEN.dist_gen]
  | .RTE_PLACE_NEED => [F.RTE_PLACE_NEED.check, F.RTE_PLACE_NEED.need]
  | .RTE_FLEET_STATUS => [F.RTE_FLEET_STATUS.again_count, F.RTE_FLEET_STATUS.adopt_step, F.RTE_FLEET_STATUS.conj_state, F.RTE_FLEET_STATUS.proven, F.RTE_FLEET_STATUS.place_refused, F.RTE_FLEET_STATUS.conj_fail, F.RTE_FLEET_STATUS.suspect]
  | .RTE_ADOPT => [F.RTE_ADOPT.attempt, F.RTE_ADOPT.lines_k]
  | .RTE_CONJ => [F.RTE_CONJ.mismatched, F.RTE_CONJ.matched]
  | .OBS_APR_SEG => [F.OBS_APR_SEG.base, F.OBS_APR_SEG.space]
  | .OBS_HOST_ERR => [F.OBS_HOST_ERR.again_count, F.OBS_HOST_ERR.timeout, F.OBS_HOST_ERR.target, F.OBS_HOST_ERR.size, F.OBS_HOST_ERR.unmapped]
  | .OBS_HOST_ERR_LOG => [F.OBS_HOST_ERR_LOG.status, F.OBS_HOST_ERR_LOG.window, F.OBS_HOST_ERR_LOG.write, F.OBS_HOST_ERR_LOG.offset]
  | .OBS_IRQ_STATUS => [F.OBS_IRQ_STATUS.again_count, F.OBS_IRQ_STATUS.cause]
  | .OBS_IRQ_EN => [F.OBS_IRQ_EN.enable]
  | .OBS_MBX_STATUS => [F.OBS_MBX_STATUS.locked, F.OBS_MBX_STATUS.full]
  | .OBS_MBX_BREAK => [F.OBS_MBX_BREAK.index]
  | .OBS_LOG_HEAD => [F.OBS_LOG_HEAD.dropped, F.OBS_LOG_HEAD.next]
  | .OBS_LOG_SEL => [F.OBS_LOG_SEL.valid, F.OBS_LOG_SEL.sel]
  | .OBS_LOG_REC => [F.OBS_LOG_REC.bytes]
  | .SEC_BOOT_STATUS => [F.SEC_BOOT_STATUS.fw_version, F.SEC_BOOT_STATUS.svn, F.SEC_BOOT_STATUS.slot1_valid, F.SEC_BOOT_STATUS.slot0_valid, F.SEC_BOOT_STATUS.slot, F.SEC_BOOT_STATUS.stage]
  | .SEC_CFG_STATE => [F.SEC_CFG_STATE.preset_ignored, F.SEC_CFG_STATE.fail_check, F.SEC_CFG_STATE.b_valid, F.SEC_CFG_STATE.a_valid, F.SEC_CFG_STATE.boot_hold, F.SEC_CFG_STATE.active]
  | .SEC_CFG_SEQ => [F.SEC_CFG_SEQ.seq_b, F.SEC_CFG_SEQ.seq_a]
  | .SEC_KEY_INDEX => [F.SEC_KEY_INDEX.reserved_end, F.SEC_KEY_INDEX.next]
  | .SEC_KEY_STATUS => [F.SEC_KEY_STATUS.again_count, F.SEC_KEY_STATUS.statements, F.SEC_KEY_STATUS.lost, F.SEC_KEY_STATUS.exhausted, F.SEC_KEY_STATUS.key_exhausted_event, F.SEC_KEY_STATUS.key_warn]
  | .SEC_TAINT => [F.SEC_TAINT.since_lo, F.SEC_TAINT.instruction, F.SEC_TAINT.scan_tainted]
  | .SEC_FUSE => [F.SEC_FUSE.svn_floor, F.SEC_FUSE.revoked, F.SEC_FUSE.programmed]
  | .SEC_KEY_HASH => [F.SEC_KEY_HASH.hash]
  | .ERR_CTRL => [F.ERR_CTRL.transit_en, F.ERR_CTRL.bg_enable, F.ERR_CTRL.history_mode, F.ERR_CTRL.checksum_action]
  | .ERR_STATUS => [F.ERR_STATUS.again_count, F.ERR_STATUS.cfg_ignored, F.ERR_STATUS.log_dropped, F.ERR_STATUS.content_invalid, F.ERR_STATUS.almanac_full, F.ERR_STATUS.repair, F.ERR_STATUS.bg_fail, F.ERR_STATUS.bist_fail, F.ERR_STATUS.kat_fail, F.ERR_STATUS.checksum]
  | .ERR_TRANSIT_CFG => [F.ERR_TRANSIT_CFG.period, F.ERR_TRANSIT_CFG.max_open]
  | .ERR_TRANSIT_STATE => [F.ERR_TRANSIT_STATE.completed, F.ERR_TRANSIT_STATE.overdue, F.ERR_TRANSIT_STATE.in_transit, F.ERR_TRANSIT_STATE.open]
  | .ERR_BG_CFG => [F.ERR_BG_CFG.interval]
  | .ERR_BG_STATE => [F.ERR_BG_STATE.sweeps, F.ERR_BG_STATE.abandoned, F.ERR_BG_STATE.held]
  | .ERR_CONTENT => [F.ERR_CONTENT.version, F.ERR_CONTENT.slot, F.ERR_CONTENT.slot1_valid, F.ERR_CONTENT.slot0_valid]
  | .ERR_DIGEST_HEAD => [F.ERR_DIGEST_HEAD.stored, F.ERR_DIGEST_HEAD.next]
  | .ERR_BIST_LAST => [F.ERR_BIST_LAST.tile, F.ERR_BIST_LAST.bit, F.ERR_BIST_LAST.address]
  | .ERR_DIGEST_META => [F.ERR_DIGEST_META.since_lo, F.ERR_DIGEST_META.episode, F.ERR_DIGEST_META.index, F.ERR_DIGEST_META.valid]
  | .ERR_DIGEST_OWN => [F.ERR_DIGEST_OWN.digest]
  | .ERR_DIGEST_COMB => [F.ERR_DIGEST_COMB.digest]
  | .ERR_TILE_DIGEST => [F.ERR_TILE_DIGEST.d]
  | .ERR_TILE_TEST => [F.ERR_TILE_TEST.since_lo, F.ERR_TILE_TEST.transits, F.ERR_TILE_TEST.bg_region, F.ERR_TILE_TEST.bg_held, F.ERR_TILE_TEST.spares_min, F.ERR_TILE_TEST.last]
  | .RST_STATUS => [F.RST_STATUS.again_count, F.RST_STATUS.escalated, F.RST_STATUS.retired, F.RST_STATUS.hang, F.RST_STATUS.fence, F.RST_STATUS.busy_domain]
  | .RST_LAST => [F.RST_LAST.cycles, F.RST_LAST.result, F.RST_LAST.domain, F.RST_LAST.index]
  | .RST_FENCE => [F.RST_FENCE.since_lo, F.RST_FENCE.cause, F.RST_FENCE.module, F.RST_FENCE.dies]
  | .RST_ESC => [F.RST_ESC.to_die, F.RST_ESC.to_warm, F.RST_ESC.to_dark]
  | .RST_HANG_CFG => [F.RST_HANG_CFG.interval, F.RST_HANG_CFG.all_threshold, F.RST_HANG_CFG.action, F.RST_HANG_CFG.enable]
  | .RST_HANG_REPORT => [F.RST_HANG_REPORT.since_lo, F.RST_HANG_REPORT.kind, F.RST_HANG_REPORT.members, F.RST_HANG_REPORT.first]
  | .RST_HANG_COUNT => [F.RST_HANG_COUNT.evaluations, F.RST_HANG_COUNT.reports]
  | .RST_HANG_SET => [F.RST_HANG_SET.member]
  | .DIE_STATE => [F.DIE_STATE.pending_remap, F.DIE_STATE.retired, F.DIE_STATE.in_service, F.DIE_STATE.state]
  | .PWR_INPUT => [F.PWR_INPUT.power, F.PWR_INPUT.voltage]
  | .PWR_CORE => [F.PWR_CORE.setpoint, F.PWR_CORE.current, F.PWR_CORE.voltage]
  | .PWR_RAIL => [F.PWR_RAIL.good, F.PWR_RAIL.current, F.PWR_RAIL.voltage]
  | .PWR_CLK => [F.PWR_CLK.root_src, F.PWR_CLK.root_lock, F.PWR_CLK.refclk_ok]
  | .PWR_ENV_CFG => [F.PWR_ENV_CFG.warn_power, F.PWR_ENV_CFG.warn_temp]
  | .PWR_ENV_STATUS => [F.PWR_ENV_STATUS.again_count, F.PWR_ENV_STATUS.rail_fault, F.PWR_ENV_STATUS.holding, F.PWR_ENV_STATUS.emergency, F.PWR_ENV_STATUS.warning]
  | .PWR_THROTTLE => [F.PWR_THROTTLE.cycles, F.PWR_THROTTLE.level]
  | .PWR_SLOT => [F.PWR_SLOT.slot_id]
  | .PWR_TEMP => [F.PWR_TEMP.max, F.PWR_TEMP.temp]
  | .MBX_LOCK => [F.MBX_LOCK.owner]
  | .MBX_FLAG => [F.MBX_FLAG.take, F.MBX_FLAG.post, F.MBX_FLAG.full]
  | .MBX_SENDER => [F.MBX_SENDER.refused, F.MBX_SENDER.posts, F.MBX_SENDER.owner, F.MBX_SENDER.sender]
  | .MBX_CMD => [F.MBX_CMD.length, F.MBX_CMD.status, F.MBX_CMD.seq, F.MBX_CMD.code]
  | .MBX_REF => [F.MBX_REF.reply_to]

/-- Where a register lies in the CTL window; a mailbox register lies at 0x1000_0000 plus its MBX offset. -/
def Reg.place : Reg → Place
  | .GLB_ID => ⟨0x0, 0x0, 1, 8, 1⟩
  | .GLB_MESH_STATUS => ⟨0x40, 0x0, 1, 8, 1⟩
  | .GLB_DIST_GEN => ⟨0x100, 0x0, 1, 8, 1⟩
  | .GLB_DIST => ⟨0x10000, 0x0, 1, 8, 2304⟩
  | .GLB_SIDEREAL => ⟨0x80, 0x0, 1, 8, 1⟩
  | .GLB_TIME_CFG => ⟨0x88, 0x0, 1, 8, 1⟩
  | .GLB_TIME_STATUS => ⟨0x90, 0x0, 1, 8, 1⟩
  | .GLB_MODULE_STATE => ⟨0x8, 0x0, 1, 8, 1⟩
  | .GLB_JOB => ⟨0x10, 0x0, 1, 8, 1⟩
  | .GLB_START => ⟨0x18, 0x0, 1, 8, 1⟩
  | .TIL_SR_SEED => ⟨0x1000200, 0x2000, 2304, 8, 1⟩
  | .TIL_SR_COUNT => ⟨0x1000208, 0x2000, 2304, 8, 8⟩
  | .TIL_NUM_STATUS => ⟨0x1000250, 0x2000, 2304, 8, 1⟩
  | .TIL_NUM_TRAP_EN => ⟨0x1000258, 0x2000, 2304, 8, 1⟩
  | .TIL_STATE => ⟨0x1000000, 0x2000, 2304, 8, 1⟩
  | .TIL_ENTRY => ⟨0x1000008, 0x2000, 2304, 8, 1⟩
  | .TIL_CTRL => ⟨0x1000010, 0x2000, 2304, 8, 1⟩
  | .TIL_PC => ⟨0x1000018, 0x2000, 2304, 8, 1⟩
  | .TIL_TRAP => ⟨0x1000020, 0x2000, 2304, 8, 1⟩
  | .TIL_TRAP_VALUE => ⟨0x1000028, 0x2000, 2304, 8, 1⟩
  | .TIL_STOP => ⟨0x1000030, 0x2000, 2304, 8, 1⟩
  | .TIL_SEQ_STATUS => ⟨0x1000038, 0x2000, 2304, 8, 1⟩
  | .TIL_SEQ_TRAP_EN => ⟨0x1000040, 0x2000, 2304, 8, 1⟩
  | .TIL_SLIP => ⟨0x1000048, 0x2000, 2304, 8, 1⟩
  | .TIL_WAIT => ⟨0x1000050, 0x2000, 2304, 8, 1⟩
  | .TIL_INSTRET => ⟨0x1000058, 0x2000, 2304, 8, 1⟩
  | .TIL_STALL => ⟨0x1000060, 0x2000, 2304, 8, 1⟩
  | .TIL_GREG => ⟨0x1000100, 0x2000, 2304, 8, 32⟩
  | .TIL_LAT_PHASE => ⟨0x1000300, 0x2000, 2304, 8, 1⟩
  | .TIL_LAT_LOAD => ⟨0x1000308, 0x2000, 2304, 8, 1⟩
  | .TIL_LAT_STATUS => ⟨0x1000310, 0x2000, 2304, 8, 1⟩
  | .TIL_PHASE_DISCARD => ⟨0x1000318, 0x2000, 2304, 8, 1⟩
  | .TIL_LAT_DEADLOCK => ⟨0x1000320, 0x2000, 2304, 8, 1⟩
  | .TIL_LAT_CTR_CLR => ⟨0x1000328, 0x2000, 2304, 8, 1⟩
  | .TIL_LAT_FIRE => ⟨0x1000400, 0x2000, 2304, 8, 16⟩
  | .TIL_LAT_IMBAL => ⟨0x1000480, 0x2000, 2304, 8, 16⟩
  | .TIL_LAT_OCC => ⟨0x1000500, 0x2000, 2304, 8, 16⟩
  | .TIL_SCRATCH_SIZE => ⟨0x1000800, 0x2000, 2304, 8, 1⟩
  | .TIL_BANK_OWNER => ⟨0x1000808, 0x2000, 2304, 8, 1⟩
  | .TIL_BANK_WAIT => ⟨0x1000810, 0x2000, 2304, 8, 4⟩
  | .TIL_STREAM_STATUS => ⟨0x1000830, 0x2000, 2304, 8, 1⟩
  | .TIL_STREAM_ABORT => ⟨0x1000838, 0x2000, 2304, 8, 1⟩
  | .TIL_ARRIVAL => ⟨0x1000900, 0x2000, 2304, 8, 64⟩
  | .TIL_STREAM_STATE => ⟨0x1000B00, 0x2000, 2304, 16, 8⟩
  | .TIL_STREAM_BEATS => ⟨0x1000B08, 0x2000, 2304, 16, 8⟩
  | .TIL_FUSED_STATE => ⟨0x1000B80, 0x2000, 2304, 16, 4⟩
  | .TIL_FUSED_COUNT => ⟨0x1000B88, 0x2000, 2304, 16, 4⟩
  | .TIL_MER_STATUS => ⟨0x1001800, 0x2000, 2304, 8, 1⟩
  | .TIL_MER_COLL => ⟨0x1001808, 0x2000, 2304, 8, 1⟩
  | .TIL_MER_COLL_WIN => ⟨0x1001810, 0x2000, 2304, 8, 1⟩
  | .TIL_MER_COLL_LOSE => ⟨0x1001818, 0x2000, 2304, 8, 1⟩
  | .TIL_MER_DISCARD => ⟨0x1001820, 0x2000, 2304, 8, 1⟩
  | .TIL_MER_LINK => ⟨0x1001828, 0x2000, 2304, 8, 1⟩
  | .TIL_MER_TRAFFIC => ⟨0x1001830, 0x2000, 2304, 8, 1⟩
  | .TIL_VSP_STATUS => ⟨0x1001840, 0x2000, 2304, 8, 1⟩
  | .TIL_VSP_DISCARD => ⟨0x1001848, 0x2000, 2304, 8, 1⟩
  | .TIL_PUL_BAR => ⟨0x1001900, 0x2000, 2304, 8, 32⟩
  | .TIL_PUL_STATE => ⟨0x1001A00, 0x2000, 2304, 8, 1⟩
  | .TIL_CHQ_CFG => ⟨0x1001000, 0x2000, 2304, 8, 64⟩
  | .TIL_CHQ_STATE => ⟨0x1001200, 0x2000, 2304, 8, 64⟩
  | .TIL_CHS_CFG => ⟨0x1001400, 0x2000, 2304, 8, 64⟩
  | .TIL_CHS_STATE => ⟨0x1001600, 0x2000, 2304, 8, 64⟩
  | .MEM_CH_STATE => ⟨0x400000, 0x1000, 96, 8, 1⟩
  | .MEM_CAL_CTRL => ⟨0x400008, 0x1000, 96, 8, 1⟩
  | .MEM_CH_STATUS => ⟨0x400010, 0x1000, 96, 8, 1⟩
  | .MEM_ECC_COUNT => ⟨0x400018, 0x1000, 96, 8, 1⟩
  | .MEM_ECC_LAST => ⟨0x400020, 0x1000, 96, 8, 1⟩
  | .MEM_CAL_FAULT => ⟨0x400028, 0x1000, 96, 8, 1⟩
  | .MEM_CAL_COUNT => ⟨0x400030, 0x1000, 96, 8, 1⟩
  | .MEM_OPEN_COUNT => ⟨0x400038, 0x1000, 96, 8, 1⟩
  | .MEM_OPEN_QUEUE => ⟨0x400040, 0x1000, 96, 8, 1⟩
  | .MEM_CAL_TABLE => ⟨0x400100, 0x1000, 96, 8, 20⟩
  | .MEM_GLB_ENABLE_LO => ⟨0x460000, 0x0, 1, 8, 1⟩
  | .MEM_GLB_ENABLE_HI => ⟨0x460008, 0x0, 1, 8, 1⟩
  | .MEM_GLB_MAP => ⟨0x460010, 0x0, 1, 8, 1⟩
  | .FAB_PORT_CTRL => ⟨0x200000, 0x10000, 16, 8, 1⟩
  | .FAB_PORT_CFG => ⟨0x200008, 0x10000, 16, 8, 1⟩
  | .FAB_PORT_STATE => ⟨0x200010, 0x10000, 16, 8, 1⟩
  | .FAB_PORT_STATUS => ⟨0x200018, 0x10000, 16, 8, 1⟩
  | .FAB_PORT_PARALLAX => ⟨0x200020, 0x10000, 16, 8, 1⟩
  | .FAB_PORT_FEC => ⟨0x200028, 0x10000, 16, 8, 1⟩
  | .FAB_PORT_PKT => ⟨0x200030, 0x10000, 16, 8, 1⟩
  | .FAB_PORT_PARTNER => ⟨0x200038, 0x10000, 16, 8, 1⟩
  | .FAB_LANE => ⟨0x200100, 0x10000, 16, 8, 8⟩
  | .FAB_PORT_NBR => ⟨0x200040, 0x10000, 16, 8, 1⟩
  | .FAB_PORT_NBR_ID => ⟨0x200048, 0x10000, 16, 8, 1⟩
  | .FAB_PORT_CREDIT => ⟨0x200050, 0x10000, 16, 8, 1⟩
  | .FAB_PORT_SCHED => ⟨0x200058, 0x10000, 16, 8, 1⟩
  | .RTE_SELF => ⟨0x300000, 0x0, 1, 8, 1⟩
  | .RTE_CTRL => ⟨0x300008, 0x0, 1, 8, 1⟩
  | .RTE_STATUS => ⟨0x300010, 0x0, 1, 8, 1⟩
  | .RTE_SERIAL => ⟨0x300018, 0x0, 1, 8, 1⟩
  | .RTE_DROP => ⟨0x300020, 0x0, 1, 8, 1⟩
  | .RTE_NOVA => ⟨0x300028, 0x0, 1, 8, 1⟩
  | .RTE_NOVA_TIME => ⟨0x300030, 0x0, 1, 8, 1⟩
  | .RTE_GBAR => ⟨0x300100, 0x0, 1, 8, 32⟩
  | .RTE_ROUTE => ⟨0x310000, 0x0, 1, 8, 4096⟩
  | .RTE_ROW => ⟨0x320000, 0x0, 1, 8, 256⟩
  | .RTE_COL => ⟨0x320800, 0x0, 1, 8, 256⟩
  | .RTE_RANK => ⟨0x300040, 0x0, 1, 8, 1⟩
  | .RTE_PLACE_GEN => ⟨0x300048, 0x0, 1, 8, 1⟩
  | .RTE_PLACE_NEED => ⟨0x300050, 0x0, 1, 8, 1⟩
  | .RTE_FLEET_STATUS => ⟨0x300058, 0x0, 1, 8, 1⟩
  | .RTE_ADOPT => ⟨0x300060, 0x0, 1, 8, 1⟩
  | .RTE_CONJ => ⟨0x300068, 0x0, 1, 8, 1⟩
  | .OBS_APR_SEG => ⟨0x101000, 0x0, 1, 8, 4⟩
  | .OBS_HOST_ERR => ⟨0x101040, 0x0, 1, 8, 1⟩
  | .OBS_HOST_ERR_LOG => ⟨0x101048, 0x0, 1, 8, 1⟩
  | .OBS_IRQ_STATUS => ⟨0x101080, 0x0, 1, 8, 1⟩
  | .OBS_IRQ_EN => ⟨0x101088, 0x0, 1, 8, 1⟩
  | .OBS_MBX_STATUS => ⟨0x1010C0, 0x0, 1, 8, 1⟩
  | .OBS_MBX_BREAK => ⟨0x1010C8, 0x0, 1, 8, 1⟩
  | .OBS_LOG_HEAD => ⟨0x102000, 0x0, 1, 8, 1⟩
  | .OBS_LOG_SEL => ⟨0x102008, 0x0, 1, 8, 1⟩
  | .OBS_LOG_REC => ⟨0x102040, 0x0, 1, 8, 8⟩
  | .SEC_BOOT_STATUS => ⟨0x3300000, 0x0, 1, 8, 1⟩
  | .SEC_CFG_STATE => ⟨0x3300008, 0x0, 1, 8, 1⟩
  | .SEC_CFG_SEQ => ⟨0x3300010, 0x0, 1, 8, 1⟩
  | .SEC_KEY_INDEX => ⟨0x3300018, 0x0, 1, 8, 1⟩
  | .SEC_KEY_STATUS => ⟨0x3300020, 0x0, 1, 8, 1⟩
  | .SEC_TAINT => ⟨0x3300028, 0x0, 1, 8, 1⟩
  | .SEC_FUSE => ⟨0x3300030, 0x0, 1, 8, 1⟩
  | .SEC_KEY_HASH => ⟨0x3300100, 0x0, 1, 8, 16⟩
  | .ERR_CTRL => ⟨0x3100000, 0x0, 1, 8, 1⟩
  | .ERR_STATUS => ⟨0x3100008, 0x0, 1, 8, 1⟩
  | .ERR_TRANSIT_CFG => ⟨0x3100010, 0x0, 1, 8, 1⟩
  | .ERR_TRANSIT_STATE => ⟨0x3100018, 0x0, 1, 8, 1⟩
  | .ERR_BG_CFG => ⟨0x3100020, 0x0, 1, 8, 1⟩
  | .ERR_BG_STATE => ⟨0x3100028, 0x0, 1, 8, 1⟩
  | .ERR_CONTENT => ⟨0x3100030, 0x0, 1, 8, 1⟩
  | .ERR_DIGEST_HEAD => ⟨0x3100038, 0x0, 1, 8, 1⟩
  | .ERR_BIST_LAST => ⟨0x3100040, 0x0, 1, 8, 1⟩
  | .ERR_DIGEST_META => ⟨0x3100100, 0x0, 1, 32, 16⟩
  | .ERR_DIGEST_OWN => ⟨0x3100108, 0x0, 1, 32, 16⟩
  | .ERR_DIGEST_COMB => ⟨0x3100110, 0x0, 1, 32, 16⟩
  | .ERR_TILE_DIGEST => ⟨0x3110000, 0x0, 1, 8, 2304⟩
  | .ERR_TILE_TEST => ⟨0x3120000, 0x0, 1, 8, 2304⟩
  | .RST_STATUS => ⟨0x3000000, 0x0, 1, 8, 1⟩
  | .RST_LAST => ⟨0x3000008, 0x0, 1, 8, 1⟩
  | .RST_FENCE => ⟨0x3000010, 0x0, 1, 8, 1⟩
  | .RST_ESC => ⟨0x3000018, 0x0, 1, 8, 1⟩
  | .RST_HANG_CFG => ⟨0x3000100, 0x0, 1, 8, 1⟩
  | .RST_HANG_REPORT => ⟨0x3000108, 0x0, 1, 8, 1⟩
  | .RST_HANG_COUNT => ⟨0x3000110, 0x0, 1, 8, 1⟩
  | .RST_HANG_SET => ⟨0x3000200, 0x0, 1, 8, 36⟩
  | .DIE_STATE => ⟨0x800000, 0x100000, 4, 8, 1⟩
  | .PWR_INPUT => ⟨0x3200000, 0x0, 1, 8, 1⟩
  | .PWR_CORE => ⟨0x3200008, 0x0, 1, 8, 1⟩
  | .PWR_RAIL => ⟨0x3200010, 0x0, 1, 8, 6⟩
  | .PWR_CLK => ⟨0x3200040, 0x0, 1, 8, 1⟩
  | .PWR_ENV_CFG => ⟨0x3200048, 0x0, 1, 8, 1⟩
  | .PWR_ENV_STATUS => ⟨0x3200050, 0x0, 1, 8, 1⟩
  | .PWR_THROTTLE => ⟨0x3200058, 0x0, 1, 8, 1⟩
  | .PWR_SLOT => ⟨0x3200060, 0x0, 1, 8, 1⟩
  | .PWR_TEMP => ⟨0x3200100, 0x0, 1, 8, 40⟩
  | .MBX_LOCK => ⟨0x10000000, 0x1000, 32, 8, 1⟩
  | .MBX_FLAG => ⟨0x10000008, 0x1000, 32, 8, 1⟩
  | .MBX_SENDER => ⟨0x10000010, 0x1000, 32, 8, 1⟩
  | .MBX_CMD => ⟨0x10000018, 0x1000, 32, 8, 1⟩
  | .MBX_REF => ⟨0x10000020, 0x1000, 32, 8, 1⟩

def Reg.all0 : List Reg := [.GLB_ID, .GLB_MESH_STATUS, .GLB_DIST_GEN, .GLB_DIST, .GLB_SIDEREAL, .GLB_TIME_CFG, .GLB_TIME_STATUS, .GLB_MODULE_STATE, .GLB_JOB, .GLB_START, .TIL_SR_SEED, .TIL_SR_COUNT, .TIL_NUM_STATUS, .TIL_NUM_TRAP_EN, .TIL_STATE, .TIL_ENTRY, .TIL_CTRL, .TIL_PC, .TIL_TRAP, .TIL_TRAP_VALUE]
def Reg.all1 : List Reg := [.TIL_STOP, .TIL_SEQ_STATUS, .TIL_SEQ_TRAP_EN, .TIL_SLIP, .TIL_WAIT, .TIL_INSTRET, .TIL_STALL, .TIL_GREG, .TIL_LAT_PHASE, .TIL_LAT_LOAD, .TIL_LAT_STATUS, .TIL_PHASE_DISCARD, .TIL_LAT_DEADLOCK, .TIL_LAT_CTR_CLR, .TIL_LAT_FIRE, .TIL_LAT_IMBAL, .TIL_LAT_OCC, .TIL_SCRATCH_SIZE, .TIL_BANK_OWNER, .TIL_BANK_WAIT]
def Reg.all2 : List Reg := [.TIL_STREAM_STATUS, .TIL_STREAM_ABORT, .TIL_ARRIVAL, .TIL_STREAM_STATE, .TIL_STREAM_BEATS, .TIL_FUSED_STATE, .TIL_FUSED_COUNT, .TIL_MER_STATUS, .TIL_MER_COLL, .TIL_MER_COLL_WIN, .TIL_MER_COLL_LOSE, .TIL_MER_DISCARD, .TIL_MER_LINK, .TIL_MER_TRAFFIC, .TIL_VSP_STATUS, .TIL_VSP_DISCARD, .TIL_PUL_BAR, .TIL_PUL_STATE, .TIL_CHQ_CFG, .TIL_CHQ_STATE]
def Reg.all3 : List Reg := [.TIL_CHS_CFG, .TIL_CHS_STATE, .MEM_CH_STATE, .MEM_CAL_CTRL, .MEM_CH_STATUS, .MEM_ECC_COUNT, .MEM_ECC_LAST, .MEM_CAL_FAULT, .MEM_CAL_COUNT, .MEM_OPEN_COUNT, .MEM_OPEN_QUEUE, .MEM_CAL_TABLE, .MEM_GLB_ENABLE_LO, .MEM_GLB_ENABLE_HI, .MEM_GLB_MAP, .FAB_PORT_CTRL, .FAB_PORT_CFG, .FAB_PORT_STATE, .FAB_PORT_STATUS, .FAB_PORT_PARALLAX]
def Reg.all4 : List Reg := [.FAB_PORT_FEC, .FAB_PORT_PKT, .FAB_PORT_PARTNER, .FAB_LANE, .FAB_PORT_NBR, .FAB_PORT_NBR_ID, .FAB_PORT_CREDIT, .FAB_PORT_SCHED, .RTE_SELF, .RTE_CTRL, .RTE_STATUS, .RTE_SERIAL, .RTE_DROP, .RTE_NOVA, .RTE_NOVA_TIME, .RTE_GBAR, .RTE_ROUTE, .RTE_ROW, .RTE_COL, .RTE_RANK]
def Reg.all5 : List Reg := [.RTE_PLACE_GEN, .RTE_PLACE_NEED, .RTE_FLEET_STATUS, .RTE_ADOPT, .RTE_CONJ, .OBS_APR_SEG, .OBS_HOST_ERR, .OBS_HOST_ERR_LOG, .OBS_IRQ_STATUS, .OBS_IRQ_EN, .OBS_MBX_STATUS, .OBS_MBX_BREAK, .OBS_LOG_HEAD, .OBS_LOG_SEL, .OBS_LOG_REC, .SEC_BOOT_STATUS, .SEC_CFG_STATE, .SEC_CFG_SEQ, .SEC_KEY_INDEX, .SEC_KEY_STATUS]
def Reg.all6 : List Reg := [.SEC_TAINT, .SEC_FUSE, .SEC_KEY_HASH, .ERR_CTRL, .ERR_STATUS, .ERR_TRANSIT_CFG, .ERR_TRANSIT_STATE, .ERR_BG_CFG, .ERR_BG_STATE, .ERR_CONTENT, .ERR_DIGEST_HEAD, .ERR_BIST_LAST, .ERR_DIGEST_META, .ERR_DIGEST_OWN, .ERR_DIGEST_COMB, .ERR_TILE_DIGEST, .ERR_TILE_TEST, .RST_STATUS, .RST_LAST, .RST_FENCE]
def Reg.all7 : List Reg := [.RST_ESC, .RST_HANG_CFG, .RST_HANG_REPORT, .RST_HANG_COUNT, .RST_HANG_SET, .DIE_STATE, .PWR_INPUT, .PWR_CORE, .PWR_RAIL, .PWR_CLK, .PWR_ENV_CFG, .PWR_ENV_STATUS, .PWR_THROTTLE, .PWR_SLOT, .PWR_TEMP, .MBX_LOCK, .MBX_FLAG, .MBX_SENDER, .MBX_CMD, .MBX_REF]
/-- All registers. -/
def Reg.all : List Reg := List.flatten [Reg.all0, Reg.all1, Reg.all2, Reg.all3, Reg.all4, Reg.all5, Reg.all6, Reg.all7]

end Sys2Proof.Machine
end

