-- ==== Sys2Proof/Machine/Types.lean ====
section
/-! DEFINITION. The plain data of which State is built: states of module, tile and port (R16 to R18), error records
(R422), network flits and packets (R200, R222), and everything one tile holds (chapters 2 to 7). -/
namespace Sys2Proof.Machine

/-- Module states, Table 0-6 (R16). -/
inductive ModState where
  | dark | held | ready | joined | running | draining | fenced
deriving DecidableEq, Repr

/-- Tile states, Table 0-7 (R17). -/
inductive TileState where
  | offline | idle | running | transit | fenced | retired
deriving DecidableEq, Repr

/-- Port states, Table 0-8 (R18). -/
inductive PortState where
  | dark | training | parallax | up | drained | down
deriving DecidableEq, Repr

/-- What a register field remembers of one cycle: which W1C bits hardware set and which a write cleared (R10), and what an RC counter held
before that cycle's increments (R155, R263). -/
structure StLog where
  cycle : Nat
  before : Nat
  set : Nat
  clr : Nat
deriving DecidableEq, Repr

/-- Stored values of register fields, by field id, unit and index; what is not listed reads as the field's reset (R7). `log` is the
memory of a cycle, `now` the present cycle. -/
structure RegFile where
  vals : Tab (Nat × Nat × Nat) Nat
  log : Tab (Nat × Nat × Nat) StLog
  now : Nat
deriving DecidableEq, Repr

def RegFile.empty : RegFile := ⟨Tab.empty, Tab.empty, 0⟩

/-- A memory of bytes in canonical form: addresses strictly rising, no entry equal to what an unlisted address
reads as (log entry 6). -/
abbrev Mem := List Host.Cell

/-- An error record, Table 13-1 (R422). Multi-byte fields as numbers. -/
structure Rec where
  time : Nat
  seq : Nat
  kind : Nat
  unitType : Nat
  die : Nat
  unitIndex : Nat
  x : Nat
  y : Nat
  op : Nat
  temp : Nat
  mv : Nat
  s0 : Word
  s1 : Word
  s2 : Word
  s3 : Word
  rept : Nat
  flags : Nat
  count : Nat
  job : Nat
  status : Nat
deriving DecidableEq, Repr

/-- A Meridian flit in flight (R198 to R205): the router it is in or on its way to, the input it enters by, the cycle
in which it is in that router, its injector's position, its header (Table 6-2) and its data. -/
structure Flit where
  x : Nat
  y : Nat
  inp : Nat
  at_ : Nat
  sx : Nat
  sy : Nat
  hdr : Word
  data : Line
  /-- for a MEM_READ and its MEM_RETURN, the mark of the asking slot's arming (not part of the flit; R174) -/
  back : Option Nat
  /-- for an EDGE_OUT flit of a forwarded packet (R353), the packet's header (not part of the flit) -/
  fwd : Option (Word × Word)
deriving DecidableEq, Repr

/-- A landing on its way to the bank (R207): the flit and its write cycle. -/
structure Landing where
  tile : Nat
  w : Nat
  hdr : Word
  data : Line
  back : Option Nat
deriving DecidableEq, Repr

/-- The flits of a Vesper packet at one router (R218): where it is, the input by which they came (0 tile, 1 to 4 links, 5 memory port,
6 port die, 7 Observatory), and for each flit in that input's buffer the cycle from which it may leave, oldest first. -/
structure VHop where
  x : Nat
  y : Nat
  inp : Nat
  buf : List Nat
deriving DecidableEq, Repr

/-- A Vesper packet (R222): the router its head flit is at, where it goes, its fields and its op-specific bytes 8 to 15 (`w`) and data
flits (`data`, 16 bytes each). `worm` lists the routers that hold flits of it, the tail's first and the head's last; `gone` counts the
flits that have left by its endpoint, and once all have, `ready` is the cycle in which the packet is there (R223). -/
structure VPkt where
  x : Nat
  y : Nat
  worm : List VHop
  gone : Nat
  ready : Nat
  dx : Nat
  dy : Nat
  ep : Nat
  vc : Nat
  op : Nat
  len : Nat
  src : Nat
  rtag : Nat
  w : Word
  data : List Byte
  /-- the sender's position, to which a response returns -/
  rx : Nat
  ry : Nat
  rep : Nat
  sent : Nat
  /-- the error record that the packet carries to the Observatory (R222, R422) -/
  rec_ : Option Rec
deriving DecidableEq, Repr

/-- What an output of a Vesper router remembers for its arbitration (R219): the cycle in which it last sent, the last of the virtual
channels 0, 2 and 3 that it served, and by virtual channel the last input that it served. -/
structure VOut where
  used : Option Nat
  vc : Nat
  inps : Tab Nat Nat
deriving DecidableEq, Repr

/-- What a tile hands to the rest of the module in one command. -/
inductive Out where
  /-- an error record for the Observatory (R422); the module fills time, die, place, job, temp and mv -/
  | record (kind unitType unitIndex op : Nat) (s0 s1 s2 : Word) (flags : Nat)
  /-- drive the Pulsar fault line (R232) -/
  | faultLine
  /-- a channel message for Vesper or, on a remote entry, for the fabric (R244, R245) -/
  | chanMsg (remote : Bool) (eid tile queue sendIndex : Nat) (bytes : List Byte)
  /-- a channel reply to the sender of a message (R246) -/
  | chanReply (remote : Bool) (eid tile code sendIndex returned : Nat)
  /-- a VLD or VST request (R97, R98): window, offset, value, request tag -/
  | regReq (write mbx : Bool) (offset : Nat) (val : Word) (tag : Nat)
  /-- an open-class request of a stream slot (R280): channel, channel line index, mask, data, tag -/
  | memReq (write : Bool) (chan m slot mask : Nat) (data : List Byte) (tag : Nat)
  /-- a flit accepted by the injection stage, in its source router three cycles later (R205), with the asking slot's mark -/
  | flit (hdr : Word) (data : Line) (back : Option Nat)
  /-- a digest contribution on the Pulsar digest path (R433) -/
  | digest (index : Nat) (f : Word)
  /-- an error record with every field that its raiser sets (R422) -/
  | recordFull (kind unitType unitIndex op : Nat) (s0 s1 s2 s3 : Word) (rept flags status : Nat)
  /-- a flit that a memory port or a port die injects: router position, input, cycle, header, data, asking slot -/
  | flitIn (x y inp at_ : Nat) (hdr : Word) (data : Line) (back : Option Nat)
  /-- a Vesper packet handed to the network by a unit of this position -/
  | vpkt (p : VPkt)
deriving DecidableEq, Repr

/-- What a tile's channel endpoint hands over or frees in a later cycle (R249, R252 to R254): the cycle, the queue concerned, whether
a slot of it becomes free, and the reply. -/
structure Later where
  at_ : Nat
  queue : Nat
  frees : Bool
  out : Out
deriving DecidableEq, Repr

/-- What the sequencer waits for (Tables 3-8 and 3-9). -/
inductive Wait where
  | recv (queue buf : Nat)
  | send (entry : Nat)
  | counter (c target : Nat)
  | barrier (i : Nat)
  | sidereal (t : Word)
  | streamStop (slot : Nat)
  | stream (slot : Nat)
  | lattice
  | fused (f : Nat)
  | vld
  | vsync
  | transit
  | haltDrain
deriving DecidableEq, Repr

/-- A blocked instruction: what it waits for and the register that takes its result. -/
structure Blocked where
  wait : Wait
  rd : BitVec 5
deriving DecidableEq, Repr

/-- A pending asynchronous trap (R99): its code, its argument and the cycle in which its cause was raised. -/
structure Pend where
  code : Nat
  arg : Word
  cycle : Nat
deriving DecidableEq, Repr

/-- The sequencer (R76, Table 3-1). `entered` is the cycle in which the tile last entered RUNNING from IDLE, from which
`elapsed` counts; `job` and `start` are the control registers of those names. -/
structure Seq where
  g : Vector Word 32
  pc : Word
  entered : Option Nat
  job : Nat
  start : Word
  hbase : Word
  hcode : Word
  hresume : Word
  harg : Word
  inHandler : Bool
  hsave0 : Word
  hsave1 : Word
  retired : Word
  blk : Option Blocked
  /-- sidereal count and model cycle at which the current wait word began -/
  since : Nat
  sinceCycle : Nat
  stall : Word
  pend : List Pend
  /-- VSTs not yet at their target, and the rtag of the VLD in progress with its issue cycle -/
  vstOut : Nat
  vldTag : Nat
  vldAt : Nat
  vldAddr : Word
deriving DecidableEq, Repr

/-- States of a stream slot, Table 5-3 (R169). -/
inductive SlotState where
  | idle | arming | running | parked | stopping
deriving DecidableEq, Repr

/-- A stream instruction, Table 5-6 (R178). Offsets, strides and pitches are signed; they are held as the 64-bit
values they extend to. -/
inductive SInstr where
  | src (b space mode w : Nat) (offset pitch : Word)
  | dst (b space atomic : Nat) (ctrEn : Bool) (offset : Word) (ctr cast : Nat)
  | loop (level count : Nat) (ss ds : Word)
  | move (len gap : Nat)
  | at_ (b : Nat) (deadline : Bool) (offset : Word)
  | waitc (b ctr : Nat) (offset : Word)
  | signal (b space ctr : Nat) (offset : Word) (amount : Nat)
  | end_ (persist : Bool)
deriving DecidableEq, Repr

/-- One loop level of a pass (R179). -/
structure LoopLv where
  count : Nat
  ss : Word
  ds : Word
deriving DecidableEq, Repr

/-- The MOVE in progress: the loop counters, innermost first, the bytes of the present iteration already moved, and
for MEMC and MEMO sources whether its reads have all been issued. -/
structure MoveSt where
  idx : List Nat
  off : Nat
deriving DecidableEq, Repr

/-- An open-class request in progress (R280, R286): its tag, the cycle it was issued, whether it writes, whether its
answer is still wanted (false after a stop), and for a read the LOCAL byte address it fills (none: the buffer), with
the atomic and the counter of its DST. -/
structure Req where
  tag : Nat
  at_ : Nat
  write : Bool
  live : Bool
  dest : Option Nat
  atomic : Nat
  ctr : Option Nat
deriving DecidableEq, Repr

/-- A beat on its way to LOCAL (R164, R182): the cycle in which it is offered to its bank, address, bytes, atomic and counter, and
whether the beat lies in a timed section. -/
structure SWrite where
  at_ : Nat
  addr : Nat
  bytes : List Byte
  atomic : Nat
  ctr : Option Nat
  timed : Bool
deriving DecidableEq, Repr

/-- A TRANSPOSE block being read (R163): its row addresses, the rows read so far, the cycle of the next row, the element width
in bytes, its destination and whether it lies in a timed section. -/
structure TrBlk where
  addrs : List Nat
  rows : List (List Byte)
  next : Nat
  width : Nat
  dst : SInstr
  dest : Word
  timed : Bool
deriving DecidableEq, Repr

/-- Master classes of bank accesses, Table 5-1 (R158). -/
inductive BankClass where
  | seq | str | lat | lnd
deriving DecidableEq, Repr

/-- The units that access a bank, in the order that R159 gives inside a class: SEQ fetch, data access, channel endpoint and
Vesper; STR slots, then fused slots; LAT loads and the transit's save and restore; LND landings. -/
inductive BankUnit where
  | fetch | data | chan | vesper
  | slot (s : Nat)
  | fused (f : Nat)
  | load | transit
  | landing
deriving DecidableEq, Repr

/-- A port of a bank granted in a cycle (R157, R159): the read or the write port, to whom, whether in a timed
section of a stream, and what has been written through it. -/
structure Grant where
  bank : Nat
  write : Bool
  at_ : Nat
  by_ : BankUnit
  timed : Bool
  addr : Nat
  bytes : List Byte
deriving DecidableEq, Repr

/-- An atomic in progress (R164, R165): its write cycle, its address and result, whose it is, the counter it counts on, and for a
landing its write cycle as the landing gives it. -/
structure Atom where
  at_ : Nat
  addr : Nat
  bytes : List Byte
  by_ : BankUnit
  ctr : Option Nat
  landing : Option Nat
deriving DecidableEq, Repr

/-- The bank ports of a tile (R157 to R165): the grants of this cycle and those to come, the waits counted in TIL_BANK_WAIT already
(cycle, bank, port, unit), the atomics in progress in the order of their acceptance, the line of the fetch buffer (R87), the cycle
before which a delayed sequencer does nothing (R160), and the last write of TIL_BANK_OWNER: its cycle and the value before it
(R197). -/
structure BankSt where
  grants : List Grant
  waits : List (Nat × Nat × Bool × BankUnit)
  atoms : List Atom
  line : Option Nat
  hold : Nat
  ownerWas : Option (Nat × Nat)
deriving DecidableEq, Repr

/-- A stream slot (R169 to R188). -/
structure Slot where
  st : SlotState
  progAddr : Nat
  baseAddr : Nat
  prog : List SInstr
  base : List Word
  ip : Nat
  /-- the cycle in which the present instruction or beat is due (R182) -/
  due : Nat
  timed : Bool
  srcI : Option SInstr
  dstI : Option SInstr
  loops : List LoopLv
  move : Option MoveSt
  /-- END has been reached, and whether it named persist -/
  ended : Option Bool
  buf : List Byte
  /-- when the bytes of the buffer came, oldest first: cycle and number of bytes (R182, R184) -/
  arr : List (Nat × Nat)
  /-- bytes on their way to the buffer, from SV firings (R133) and from beats of this slot (R182): arrival cycle,
  whether the beat lies in a timed section, bytes -/
  incoming : List (Nat × Bool × List Byte)
  writes : List SWrite
  /-- the program lines read so far while the slot is arming (R171; `due` is the cycle of its next read, or of the validation once the
  base table is read), and the cycle in which a re-armed slot reads its base table (R173) -/
  got : List Byte
  baseAt : Option Nat
  /-- the TRANSPOSE block being read, and the beats of blocks read that wait for room in the buffer, with the cycle from which
  each may leave (R163, R184) -/
  rows : Option TrBlk
  out : List (Nat × List Byte)
  /-- the slot has delivered no token in this pass (R132) -/
  first : Bool
  /-- open-class requests not yet answered -/
  reqs : List Req
  /-- calendar reads not yet returned (R274), and the number of the arming or stop that their returns belong to (R174) -/
  calOut : Nat
  epoch : Nat
  heldBy : Option Nat
  passes : Nat
  beats : Nat
deriving DecidableEq, Repr

/-- A fused descriptor, Table 5-10 (R189). -/
structure FDesc where
  flags : Nat
  inSlot : Nat
  outSlot : Nat
  recvQueue : Nat
  sendIndex : Nat
  sigCtr : Nat
  inProg : Nat
  inBase : Nat
  outProg : Nat
  outBase : Nat
  recvBuf : Nat
  sendMsg : Nat
  sendLen : Nat
  sigAmount : Nat
  next : Nat
deriving DecidableEq, Repr

/-- A fused slot (R190). `step` is 0 when idle; `sent` says that the send step has handed its message over. -/
structure Fused where
  busy : Bool
  step : Nat
  addr : Nat
  desc : Option FDesc
  /-- the descriptor's 64 bytes, read in the cycle before `due` (R190) -/
  line : Option (List Byte)
  due : Nat
  sent : Bool
  sinceRecv : Nat
  done : Nat
deriving DecidableEq, Repr

/-- A lattice token (R118): its payload (32 bits on the scalar network, 3 on the control network), tag and phase. -/
structure Tok where
  net : Nat
  val : Line
  tag : BitVec 8
  phase : BitVec 8
deriving DecidableEq, Repr

/-- One op block of a bundle, Table 4-7 (R140), with its constant vectors. -/
structure OpBlk where
  unit : Nat
  op : Nat
  fmtIn : Nat
  fmtOut : Nat
  fmtB : Nat
  rmode : Nat
  sat : Bool
  mode : Nat
  tag0 : BitVec 8
  tag1 : BitVec 8
  rate : Nat
  slot : Nat
  count : Nat
  param : Nat
  consts : List Line
deriving DecidableEq, Repr

/-- A configuration: the phase, the 64 selectors (Table 4-6) and the op blocks. -/
structure Bundle where
  phase : BitVec 8
  sels : List Nat
  ops : List OpBlk
deriving DecidableEq, Repr

/-- States of a load, TIL_LAT_PHASE.state (Table 4-10). -/
inductive LoadState where
  | loading | draining | committing | flushing
deriving DecidableEq, Repr

/-- The load in progress (R141 to R149): the cycle LLOAD issued, moved by the delays of its reads; its bundle's address, length and
lines read so far; its mode; once its result is recorded (`told`), the status, the offset and the bundle; and for a commit the cycle
from which the new phase is in force. -/
structure LatLoad where
  st : LoadState
  issued : Nat
  addr : Nat
  lines : Nat
  got : List Byte
  told : Bool
  cut : Bool
  shadow : BitVec 8
  status : Nat
  errOff : Nat
  bundle : Bundle
  inForce : Nat
deriving DecidableEq, Repr

/-- A filled entry of a match table (R122): its tag, its operands by input, and the cycle and input by which it became
complete. -/
structure MEntry where
  tag : BitVec 8
  ops : List (Nat × Tok)
  since : Nat
  complete : Option (Nat × Nat)
deriving DecidableEq, Repr

/-- The running loop of an SQ (R131): the next iteration and the cycle in which it emits. -/
structure SqLoop where
  i : Nat
  next : Nat
deriving DecidableEq, Repr

/-- An X96 value, Table 2-5 (R58). -/
structure X96 where
  n : BitVec 96
  e : BitVec 16
  special : Bool
  exactRange : Bool
  mismatch : Bool
deriving DecidableEq, Repr

/-- One accumulator bank of MX (R137): EXACT accumulators and flags with the two checksum vectors (R71), or FAST
binary32 accumulators; `pairs` counts since the last clear. -/
structure MxBank where
  acc : List (BitVec 96)
  rowChk : List (BitVec 96)
  colChk : List (BitVec 96)
  /-- cells a NaN, an infinity or a scale 0xFF has reached (R57), and cells with exact_range (R55) -/
  special : List Bool
  exactRange : List Bool
  fast : List (BitVec 32)
  /-- FAST: the products of the K step in progress, cell by cell, newest first (R61) -/
  step : List (List (BitVec 32))
  /-- EXACT with block scales: the sums P of the K step in progress, cell by cell (R54) -/
  blk : List Int
  scales : Option Line
  products : Nat
  /-- the operand tokens of the firings that the bank has accumulated (R147) -/
  tokens : Nat
deriving DecidableEq, Repr

/-- A readout (R137): the bank's values, the cycle its next token leaves, and the tokens emitted. -/
structure MxOut where
  bank : MxBank
  next : Nat
  emitted : Nat
deriving DecidableEq, Repr

/-- What one lattice unit holds besides its configuration. -/
structure LUnit where
  /-- tokens on the links and in the queues of each input, oldest first: input, arrival cycle, token -/
  inq : List (Nat × Nat × Tok)
  table : List MEntry
  expTag : BitVec 8
  genTag : BitVec 8
  /-- tokens of the pipeline and outputs: output number, cycle it is ready, token -/
  pipe : List (Nat × Nat × Tok)
  lastFire : Option Nat
  /-- the last cycle in which an output held its token, and the whole pipeline with it (R121) -/
  heldAt : Option Nat
  /-- the cycle up to which the unit's outputs have been passed on -/
  pumped : Nat
  exhaustSince : Option (Nat × Nat)
  /-- the present exhaustion has been reported (R154) -/
  exhaustTold : Bool
  sqLoop : Option SqLoop
  /-- the cycle in which the head token of each input last moved into the match table (R122) -/
  moved : Tab Nat Nat
  /-- CP: the message being emitted (bytes not yet emitted, its queue, the cycle of its next token; it keeps its slot),
  tokens collected outbound, and whether an outbound send is in progress -/
  cpIn : Option (List Byte × Nat × Nat)
  cpOut : List Line
  cpSending : Bool
  /-- MX: pairs taken in the K step and since the clear, the accumulating bank, the readouts in their order -/
  mxPair : Nat
  mxSince : Nat
  mxBank : MxBank
  mxOut : List MxOut
deriving DecidableEq, Repr

/-- The lattice of a tile (chapter 4). -/
structure Lattice where
  cfg : Bundle
  units : Tab Nat LUnit
  load : Option LatLoad
  /-- an SQ or LD of a draining phase no longer produces (R144) -/
  stopped : Bool
  hang : Bool
deriving DecidableEq, Repr

/-- A message held in a receive queue (R249): its bytes, its sender and the sender's entry for the reply, and the cycle of its
arrival (R254). -/
structure Msg where
  bytes : List Byte
  src : Nat
  sendIndex : Nat
  remote : Bool
  srcEid : Nat
  at_ : Nat
deriving DecidableEq, Repr

/-- Who waits for the reply of a send (R248). -/
inductive Sender where
  | csend | fused (f : Nat) | cp
deriving DecidableEq, Repr

/-- A send in progress on an entry: whose it is, and once handed over the cycle it was handed to Vesper. -/
structure SendSt where
  who : Sender
  entry : Nat
  addr : Nat
  len : Nat
  bytes : List Byte
  handed : Option Nat
  began : Nat
deriving DecidableEq, Repr

/-- A beat or signal handed to the injection stage (R205, R206): the cycle, the slot, whether the slot is in a timed
section, the header and the data; and for a calendar read the mark of the slot's arming (R174; not part of the flit). -/
structure Inj where
  h : Nat
  slot : Nat
  timed : Bool
  hdr : Word
  data : Line
  back : Option Nat
deriving DecidableEq, Repr

/-- A tile's own share of a transit in progress (R437 to R439): the state to return to, cycle 0 of Table 13-3, the saved
region and lattice configuration, the classification (0 not yet, 1 pass, 2 transient, 3 permanent), and whether the window was
an urgent one (R429). -/
structure TransitSt where
  from_ : TileState
  began : Nat
  saved : List Byte
  cfg : Bundle
  cls : Nat
  urgent : Bool
deriving DecidableEq, Repr

/-- One tile position (chapters 2 to 7). Every register field of its window that has no home below is in `regs`. -/
structure Tile where
  st : TileState
  vacant : Bool
  regs : RegFile
  seq : Seq
  spad : Mem
  slots : Tab Nat Slot
  fused : Tab Nat Fused
  lat : Lattice
  queues : Tab Nat (List Msg)
  sends : List SendSt
  inj : List Inj
  lastInj : Option Nat
  /-- barrier index to the cycle in which this tile's BAR or BARA issued (R227) -/
  arrived : Tab Nat Nat
  digest : Word
  transit : Option TransitSt
  /-- tag for the next open-class or register request of the tile -/
  nextTag : Nat
  /-- a start by TIL_CTRL.go accepted, and the cycle it takes effect (R109) -/
  goAt : Option Nat
  /-- counter to the cycle of its last additions and their sum in that cycle (R92, R166, R168) -/
  ctrAdds : Tab Nat (Nat × Nat)
  /-- the last write of TIL_SR_SEED: its cycle, and the seed and the counters before it (R74) -/
  seedWas : Option (Nat × Nat × List Nat)
  /-- the cycle of the last clear by TIL_LAT_CTR_CLR (R155) -/
  latClr : Option Nat
  bank : BankSt
  /-- what the channel endpoint hands over or frees in a later cycle -/
  outbox : List Later
  /-- sends on a BROKEN entry (R244 step 1): the cycle in which each completes CLOSED, its sender and entry -/
  refusing : List (Nat × Sender × Nat)
deriving DecidableEq, Repr

/-- What a tile's command reads of the rest of the module. -/
structure Ctx where
  cycle : Nat
  sidereal : Nat
  tile : Nat
  mod : ModState
  job : Nat
  /-- the physical channels in service, ascending (R268) -/
  chans : List Nat
  windowOpen : Bool
  /-- the state that TIL_STATE shows in this Observatory cycle, where the tile's own is newer (R105) -/
  stSeen : Option TileState
  /-- the landings on their way to the tile's banks (R207) -/
  lands : List Landing
  /-- throttling gates the sequencers, lattices and stream engines in this cycle (R517) -/
  gated : Bool
  /-- count of free values used so far, the argument of every opaque constant -/
  fresh : Nat
deriving DecidableEq, Repr

def Seq.reset : Seq :=
  { g := Vector.replicate 32 0, pc := 0, entered := none, job := 0, start := 0, hbase := 0, hcode := 0, hresume := 0,
    harg := 0, inHandler := false, hsave0 := 0, hsave1 := 0, retired := 0, blk := none, since := 0, sinceCycle := 0,
    stall := 0, pend := [], vstOut := 0, vldTag := 0, vldAt := 0, vldAddr := 0 }

def Slot.reset : Slot :=
  { st := .idle, progAddr := 0, baseAddr := 0, prog := [], base := [], ip := 0, due := 0, timed := false, srcI := none,
    dstI := none, loops := [], move := none, ended := none, buf := [], arr := [], incoming := [], writes := [], got := [], baseAt := none,
    rows := none, out := [], first := true, reqs := [], calOut := 0, epoch := 0, heldBy := none, passes := 0, beats := 0 }

def Fused.reset : Fused :=
  { busy := false, step := 0, addr := 0, desc := none, line := none, due := 0, sent := false, sinceRecv := 0, done := 0 }

def BankSt.empty : BankSt := { grants := [], waits := [], atoms := [], line := none, hold := 0, ownerWas := none }

def MxBank.empty : MxBank :=
  { acc := [], rowChk := [], colChk := [], special := [], exactRange := [], fast := [], step := [], blk := [],
    scales := none, products := 0, tokens := 0 }

def LUnit.reset : LUnit :=
  { inq := [], table := [], expTag := 0, genTag := 0, pipe := [], lastFire := none, heldAt := none, pumped := 0, exhaustSince := none, exhaustTold := false,
    sqLoop := none, moved := .empty, cpIn := none, cpOut := [], cpSending := false, mxPair := 0, mxSince := 0, mxBank := .empty,
    mxOut := [] }

/-- Phase 0, every input unconnected and every unit unconfigured (R152). -/
def Lattice.reset : Lattice :=
  { cfg := { phase := 0, sels := [], ops := [] }, units := .empty, load := none, stopped := false, hang := false }

/-- A tile after a cold reset: OFFLINE (Table 3-15), scratchpad all zero (R194). -/
def Tile.reset : Tile :=
  { st := .offline, vacant := false, regs := .empty, seq := .reset, spad := [], slots := .empty, fused := .empty,
    lat := .reset, queues := .empty, sends := [], inj := [], lastInj := none, arrived := .empty, digest := 0,
    transit := none, nextTag := 0, goAt := none, ctrAdds := .empty, seedWas := none, latClr := none, bank := .empty,
    outbox := [], refusing := [] }

end Sys2Proof.Machine
end

