-- ==== Sys2Proof/Machine/RegOps.lean ====
section
/-! DEFINITION. The named operations over memory and over stored register fields: byte, word and line accesses of a
memory in canonical form, and reading, writing, setting and clearing a register field under its access code
(R7, R9 to R11). -/
namespace Sys2Proof.Machine

/-! ### Memory -/

/-- The byte at `a`; `d` where none is listed. -/
def Mem.get (d : Byte) : Mem → Nat → Byte
  | [], _ => d
  | (b, w) :: r, a => if a = b then w else Mem.get d r a

/-- Write one byte, keeping the canonical form. -/
def Mem.put (d : Byte) : Mem → Nat → Byte → Mem
  | [], a, v => if v = d then [] else [(a, v)]
  | (b, w) :: r, a, v =>
    if a < b then (if v = d then (b, w) :: r else (a, v) :: (b, w) :: r)
    else if a = b then (if v = d then r else (a, v) :: r)
    else (b, w) :: Mem.put d r a v

/-- The canonical form: addresses strictly rising from `lo`, no entry equal to `d`. -/
def Mem.wfFrom (d : Byte) : Nat → Mem → Bool
  | _, [] => true
  | lo, (a, v) :: r => decide (lo ≤ a) && decide (v ≠ d) && Mem.wfFrom d (a + 1) r

def Mem.wf (d : Byte) (m : Mem) : Bool := Mem.wfFrom d 0 m

/-- `n` bytes from `a`, lowest address first. -/
def Mem.bytes (d : Byte) (m : Mem) (a : Nat) : Nat → List Byte
  | 0 => []
  | n + 1 => Mem.get d m a :: Mem.bytes d m (a + 1) n

/-- Write a list of bytes from `a` upward. -/
def Mem.putBytes (d : Byte) : Mem → Nat → List Byte → Mem
  | m, _, [] => m
  | m, a, v :: r => Mem.putBytes d (Mem.put d m a v) (a + 1) r

/-- The little-endian number of a list of bytes (R5). -/
def leNat : List Byte → Nat
  | [] => 0
  | b :: r => b.toNat + 256 * leNat r

/-- The `n` little-endian bytes of a number (R5). -/
def leBytes : Nat → Nat → List Byte
  | 0, _ => []
  | n + 1, v => BitVec.ofNat 8 v :: leBytes n (v / 256)

/-- `n` bytes from `a` as a number. -/
def Mem.num (d : Byte) (m : Mem) (a n : Nat) : Nat := leNat (Mem.bytes d m a n)
/-- Store the low `n` bytes of `v` at `a`. -/
def Mem.putNum (d : Byte) (m : Mem) (a n v : Nat) : Mem := Mem.putBytes d m a (leBytes n v)

/-- Pad a list of bytes with zeros, or cut it, to `n` bytes. -/
def padTo (n : Nat) (l : List Byte) : List Byte := l.take n ++ List.replicate (n - l.length) 0

/-- The 64 bytes of a line, lowest first. -/
def lineBytes (v : Line) : List Byte := leBytes 64 v.toNat
def lineOf (l : List Byte) : Line := BitVec.ofNat 512 (leNat l)

/-! ### Register fields -/

/-- Bits `lo` to `lo + w - 1` of a number. -/
def bits (v lo w : Nat) : Nat := v / 2 ^ lo % 2 ^ w

/-- The number of 1 bits among the low `n` bits. -/
def popc : Nat → Nat → Nat
  | 0, _ => 0
  | n + 1, v => v % 2 + popc n (v / 2)

/-- The stored value of a field (its reset value where nothing was stored). -/
def RegFile.rd (r : RegFile) (f : Fld) (i j : Nat) : Nat := r.vals.get (f.id, i, j) f.reset

/-- Store a value into a field, cut to its width. -/
def RegFile.wr (r : RegFile) (f : Fld) (i j v : Nat) : RegFile :=
  { r with vals := r.vals.set (f.id, i, j) (v % 2 ^ f.width) }


/-- Add to a counter field that wraps. -/
def RegFile.addWrap (r : RegFile) (f : Fld) (i j n : Nat) : RegFile := r.wr f i j (r.rd f i j + n)

/-- A store of `v` by a write of the host or a tile: a reserved encoding leaves the field as it was (R9). -/
def Fld.isReserved (f : Fld) (v : Nat) : Bool := f.reserved.any (fun p => decide (p.1 ≤ v) && decide (v ≤ p.2))

/-- The same-cycle record of a W1C field, fresh in a new cycle. -/
def RegFile.logOf (r : RegFile) (f : Fld) (i j cycle : Nat) : StLog :=
  let l := r.log.get (f.id, i, j) ⟨cycle, 0, 0, 0⟩
  if l.cycle = cycle ∧ (r.log.find (f.id, i, j)).isSome then l else ⟨cycle, r.rd f i j, 0, 0⟩

/-- Add to a counter field that saturates at its largest value. What an RC counter held before this cycle is noted. -/
def RegFile.addSat (r : RegFile) (f : Fld) (i j n : Nat) : RegFile :=
  let r1 := r.wr f i j (min (r.rd f i j + n) (2 ^ f.width - 1))
  if f.acc = .rc then { r1 with log := r1.log.set (f.id, i, j) ⟨r.now, (r.logOf f i j r.now).before, 0, 0⟩ } else r1

/-- The value a read returns: of an RC counter, the value before the increments of this cycle (R155, R263). -/
def RegFile.seen (r : RegFile) (f : Fld) (i j : Nat) : Nat :=
  if f.acc = .rc then (r.logOf f i j r.now).before else r.rd f i j

/-- Hardware sets the bits of `m` in the W1C field `f`. A bit that a write cleared in this same cycle while it held 1
is counted in `again` (R10, R11). -/
def RegFile.hwSet (r : RegFile) (again : Fld) (f : Fld) (i j cycle m : Nat) : RegFile :=
  let l := r.logOf f i j cycle
  let hit := m &&& l.clr
  let r1 := if hit = 0 then r else r.addSat again i j (popc f.width hit)
  let r2 := r1.wr f i j (r1.rd f i j ||| m)
  { r2 with log := r2.log.set (f.id, i, j) ⟨cycle, l.before, l.set ||| m, l.clr &&& (2 ^ f.width - 1 - hit)⟩ }

/-- A write of 1 to the bits of `m` of a W1C field: a bit that hardware set in this cycle stays 1, and counts in
`again` if it held 1 before the cycle (R10); every other bit clears. -/
def RegFile.w1c (r : RegFile) (again : Option Fld) (f : Fld) (i j cycle m : Nat) : RegFile :=
  let l := r.logOf f i j cycle
  let v := r.rd f i j
  let lost := m &&& l.set &&& l.before
  let clear := m &&& v &&& (2 ^ f.width - 1 - (l.set &&& (2 ^ f.width - 1)))
  let r1 := match again with
    | some a => if lost = 0 then r else r.addSat a i j (popc f.width lost)
    | none => r
  let r2 := r1.wr f i j (v - clear)
  { r2 with log := r2.log.set (f.id, i, j) ⟨cycle, l.before - (l.before &&& lost), l.set, l.clr ||| clear⟩ }

/-- The again_count field of a register, if it has one. -/
def Reg.again (r : Reg) : Option Fld := r.fields.find? (fun f => f.lo == 48 && f.width == 16 && f.acc == .rc)

/-- The 64-bit word a register reads as, from a reading of its fields. -/
def assemble (fs : List Fld) (rd : Fld → Nat) : Nat :=
  fs.foldl (fun a f => a + (if f.acc = .wo ∨ f.acc = .w1s then 0 else rd f % 2 ^ f.width) * 2 ^ f.lo) 0

/-- A field lies wholly within the accessed half or word (R6): `off4` is 4 for the upper half, `size` 4 or 8 bytes. -/
def Fld.within (f : Fld) (off4 size : Nat) : Bool :=
  decide (off4 * 8 ≤ f.lo) && decide (f.lo + f.width ≤ (off4 + size) * 8)

/-- A register access: 4 or 8 bytes, in the lower or (`off4` = 4) the upper half, with its data (R6). -/
structure Access where
  off4 : Nat
  size : Nat
  data : Word
deriving DecidableEq, Repr

/-- A 64-bit access. -/
def Access.full (v : Word) : Access := ⟨0, 8, v⟩
/-- The register bits the access carries, in place. -/
def Access.word (a : Access) : Nat := a.data.toNat % 2 ^ (8 * a.size) * 2 ^ (8 * a.off4)
/-- The access writes field `f` (R6). -/
def Access.hits (a : Access) (f : Fld) : Bool := f.within a.off4 a.size
/-- The bits the access carries for field `f`. -/
def Access.val (a : Access) (f : Fld) : Nat := bits a.word f.lo f.width
/-- The field's value after the access, were it stored: its old value where the access does not reach it or carries a
reserved encoding (R6, R9). -/
def Access.new (a : Access) (f : Fld) (old : Nat) : Nat :=
  if a.hits f && !(f.isReserved (a.val f)) then a.val f else old

/-- A write that only stores: RW fields take their bits, W1C bits clear; RO, RC, RSVD, W1S and WO fields are left (R7). -/
def RegFile.store (r : RegFile) (reg : Reg) (i j cycle : Nat) (a : Access) : RegFile :=
  reg.fields.foldl (fun r f =>
    if a.hits f = false then r
    else match f.acc with
      | .rw => if f.isReserved (a.val f) then r else r.wr f i j (a.val f)
      | .w1c => r.w1c reg.again f i j cycle (a.val f)
      | _ => r) r

/-- A read clears an RC field; the increments of this cycle stay (R7, R155, R263). -/
def RegFile.clearRc (r : RegFile) (f : Fld) (i j : Nat) : RegFile :=
  let b := (r.logOf f i j r.now).before
  let r1 := r.wr f i j (r.rd f i j - b)
  if b = r.rd f i j ∧ (r.log.find (f.id, i, j)).isNone then r1 else { r1 with log := r1.log.set (f.id, i, j) ⟨r.now, 0, 0, 0⟩ }

/-- The clearing a read brings: the RC fields wholly within the access (R6, R7). -/
def RegFile.readClear (r : RegFile) (reg : Reg) (i j off4 size : Nat) : RegFile :=
  reg.fields.foldl (fun r f => if f.acc = .rc ∧ f.within off4 size then r.clearRc f i j else r) r

end Sys2Proof.Machine
end

