-- ==== Sys2Proof/Machine/Crypto.lean ====
section
/-! DEFINITION. The published algorithms that the spec names: SHAKE256 and SHA3-256 (R398, R401, R403, R417) and the
verification of XMSS-SHAKE256_20_256 signatures (R401; RFC 8391, NIST SP 800-208). PRESUMED: their definitions are those
standards', not the spec's text (log entry 14). -/
namespace Sys2Proof.Machine

/-! ### The permutation of FIPS 202, on five columns of five lanes -/

/-- The 168 round-constant bits: what a register of 8 bits, fed back through x^8 + x^6 + x^5 + x^4 + 1 from 1 on, shows in its low bit. -/
def iotaBits : Nat → Nat → List Bool
  | 0, _ => []
  | n + 1, r => (r % 2 == 1) :: iotaBits n (if r < 128 then 2 * r else (2 * r) ^^^ 0x171)

/-- A round's constant from its seven bits: bit j stands at 2^j - 1. -/
def iotaWord (l : List Bool) : Word := l.zipIdx.foldl (fun w p => if p.1 then w ||| BitVec.twoPow 64 (2 ^ p.2 - 1) else w) 0

/-- The constants of `n` rounds. -/
def iotaWords : Nat → List Bool → List Word
  | 0, _ => []
  | n + 1, l => iotaWord (l.take 7) :: iotaWords n (l.drop 7)

/-- Where each lane goes and how far it turns: step t of the walk from column 1, row 0 turns by (t + 1)(t + 2) / 2, and the walk goes on
from where the lane lands. -/
def rhoPi : Nat → Nat → Nat → Nat → List ((Nat × Nat) × (Nat × Nat) × Nat)
  | 0, _, _, _ => []
  | n + 1, t, x, y => let y' := (2 * x + 3 * y) % 5
                      ((y, y'), (x, y), (t + 1) * (t + 2) / 2 % 64) :: rhoPi n (t + 1) y y'

abbrev Columns := List (List Word)

/-- A lane by its place; lanes that no column holds do not occur. -/
def laneAt (k : Columns) (at_ : Nat × Nat) : Word := (k.getD at_.1 []).getD at_.2 0

/-- Columns taken `n` to the right, cyclically. -/
def turned (n : Nat) (k : List α) : List α := k.drop n ++ k.take n

/-- θ: every lane takes up the parities of the columns beside it. -/
def mixColumns (k : Columns) : Columns :=
  let parity := k.map (List.foldl (· ^^^ ·) 0)
  let beside := List.zipWith (fun l r => l ^^^ BitVec.rotateLeft r 1) (turned 4 parity) (turned 1 parity)
  List.zipWith (fun col p => col.map (· ^^^ p)) k beside

/-- ρ and π. -/
def moveLanes (plan : List ((Nat × Nat) × (Nat × Nat) × Nat)) (k : Columns) : Columns :=
  (List.range 5).map fun x => (List.range 5).map fun y =>
    match plan.find? (fun e => e.1 == (x, y)) with
    | some (_, from_, n) => (laneAt k from_).rotateLeft n
    | none => laneAt k (x, y)

/-- χ. -/
def bendRows (k : Columns) : Columns :=
  List.zipWith (fun col p => List.zipWith (fun w q => w ^^^ (~~~q.1 &&& q.2)) col p) k
    (List.zipWith List.zip (turned 1 k) (turned 2 k))

/-- ι. -/
def addIota (c : Word) : Columns → Columns
  | (w :: col) :: k => ((w ^^^ c) :: col) :: k
  | k => k

def permute1600 (k : Columns) : Columns :=
  let plan := rhoPi 24 0 1 0
  (iotaWords 24 (iotaBits 168 1)).foldl (fun k c => addIota c (bendRows (moveLanes plan (mixColumns k)))) k

/-- Take up a block's words: word i belongs to column i mod 5, row i / 5. -/
def takeBlock (w : List Word) (k : Columns) : Columns :=
  k.zipIdx.map fun p => p.1.zipIdx.map fun q => q.1 ^^^ w.getD (p.2 + 5 * q.2) 0

/-- The 17 words of a 136-byte block. -/
def blockWords (l : List Byte) : List Word := (List.range 17).map (fun i => BitVec.ofNat 64 (leNat ((l.drop (8 * i)).take 8)))

/-- Absorb `n` blocks. -/
def absorb : Nat → List Byte → Columns → Columns
  | 0, _, k => k
  | n + 1, l, k => absorb n (l.drop 136) (permute1600 (takeBlock (blockWords l) k))

/-- The sponge of rate 136 bytes with a domain byte; 32 bytes out. -/
def sponge (dom : Byte) (m : List Byte) : List Byte :=
  let n := m.length / 136 + 1
  let pad := n * 136 - m.length
  let tail : List Byte := if pad = 1 then [dom ||| 0x80] else dom :: List.replicate (pad - 2) 0 ++ [0x80]
  let k := absorb n (m ++ tail) (List.replicate 5 (List.replicate 5 0))
  (List.range 4).flatMap (fun x => leBytes 8 (laneAt k (x, 0)).toNat)

/-- SHAKE256 with 256 bits of output. -/
def shake256 (m : List Byte) : List Byte := sponge 0x1F m
/-- SHA3-256. -/
def sha3 (m : List Byte) : List Byte := sponge 0x06 m

/-! ### XMSS-SHAKE256_20_256 verification -/

/-- The `n` big-endian bytes of a number. -/
def beBytes (n v : Nat) : List Byte := (leBytes n v).reverse
def beNat (l : List Byte) : Nat := leNat l.reverse

/-- A hash address: type, and its last four words. -/
structure Adrs where
  typ : Nat
  a : Nat
  b : Nat
  c : Nat
  mask : Nat
deriving DecidableEq, Repr

def Adrs.bytes (d : Adrs) : List Byte :=
  beBytes 12 0 ++ beBytes 4 d.typ ++ beBytes 4 d.a ++ beBytes 4 d.b ++ beBytes 4 d.c ++ beBytes 4 d.mask

def xorBytes (a b : List Byte) : List Byte := List.zipWith (· ^^^ ·) a b

def xmssPrf (seed : List Byte) (d : Adrs) : List Byte := shake256 (beBytes 32 3 ++ seed ++ d.bytes)

/-- One step of a WOTS+ chain. -/
def wotsStep (seed : List Byte) (d : Adrs) (x : List Byte) : List Byte :=
  shake256 (beBytes 32 0 ++ xmssPrf seed { d with mask := 0 } ++ xorBytes x (xmssPrf seed { d with mask := 1 }))

/-- `n` steps of chain from step `i`. -/
def wotsChain (seed : List Byte) (d : Adrs) : Nat → Nat → List Byte → List Byte
  | 0, _, x => x
  | n + 1, i, x => wotsChain seed d n (i + 1) (wotsStep seed { d with c := i } x)

def randHash (seed : List Byte) (d : Adrs) (l r : List Byte) : List Byte :=
  shake256 (beBytes 32 1 ++ xmssPrf seed { d with mask := 0 } ++ xorBytes l (xmssPrf seed { d with mask := 1 })
    ++ xorBytes r (xmssPrf seed { d with mask := 2 }))

/-- The 67 base-16 digits of a 32-byte digest and its checksum. -/
def wotsDigits (m : List Byte) : List Nat :=
  let ds := m.flatMap (fun b => [b.toNat / 16, b.toNat % 16])
  let cs := (ds.map (fun x => 15 - x)).sum
  ds ++ [cs / 256 % 16, cs / 16 % 16, cs % 16]

def chunks32 (n : Nat) (l : List Byte) : List (List Byte) := (List.range n).map (fun i => (l.drop (32 * i)).take 32)

/-- One level of an L-tree: pair up; an odd node goes up unchanged. -/
def ltreeLevel (seed : List Byte) (idx h : Nat) : Nat → List (List Byte) → List (List Byte)
  | i, l :: r :: rest => randHash seed ⟨1, idx, h, i, 0⟩ l r :: ltreeLevel seed idx h (i + 1) rest
  | _, l => l

def ltree (seed : List Byte) (idx : Nat) : Nat → Nat → List (List Byte) → List Byte
  | 0, _, l => l.headD []
  | n + 1, h, l => ltree seed idx n (h + 1) (ltreeLevel seed idx h 0 l)

/-- The root that a leaf and its authentication path give. -/
def authRoot (seed : List Byte) : List (List Byte) → Nat → Nat → List Byte → List Byte
  | [], _, _, node => node
  | p :: rest, h, i, node =>
    let d : Adrs := ⟨2, 0, h, i / 2, 0⟩
    authRoot seed rest (h + 1) (i / 2) (if i % 2 = 0 then randHash seed d node p else randHash seed d p node)

/-- A signature of 2,820 bytes under a public key of 68 (OID, root, seed) is valid for a message. -/
def xmssValid (pk sig msg : List Byte) : Bool :=
  let root := (pk.drop 4).take 32
  let seed := (pk.drop 36).take 32
  let idx := beNat (sig.take 4)
  let r := (sig.drop 4).take 32
  let m := shake256 (beBytes 32 2 ++ r ++ root ++ beBytes 32 idx ++ msg)
  let ends := ((chunks32 67 (sig.drop 36)).zip (wotsDigits m)).zipIdx.map (fun p =>
    wotsChain seed ⟨0, idx, p.2, 0, 0⟩ (15 - p.1.2) p.1.2 p.1.1)
  let leaf := ltree seed idx 7 0 ends
  pk.length == 68 && beNat (pk.take 4) == 0x12 && sig.length == 2820 &&
    authRoot seed (chunks32 20 (sig.drop 2180)) 0 idx leaf == root

end Sys2Proof.Machine
end

