-- ==== Sys2Proof/Machine/Delivered.lean ====
section
/-! DEFINITION. The NOR flash and the fused firmware key hash as the model's module is delivered (log entry 4): firmware
slot 0 with an empty body and a valid signature, configuration bank A valid and without entries, everything else erased
(0xFF). DESIGN CHOICE: the spec gives no contents. -/
namespace Sys2Proof.Machine

/-- The fused hash of key slot 0, words 0 to 3. -/
def deliveredKeyHash : List Nat :=
  [0x35f2931410ba9066, 0x6f49bd5f462a8861, 0x4d4198ae354ec7b9, 0x7749bdbe8325c52d]

def deliveredSig0 : List Byte := leBytes 188
  0x67d9ce2b62a7f8313794913a80aa014db1fb4e1c970d72e7f371f01fbbf96b4f085b1508f575de5efaea8de61b2c43cec35bc05671fd4e01cc57b28c99a5d1f57659653dd362846fe94d8fd77754c1c6a8fd6089f4947ed984f670befdb35eafdd50ef3ec49e1d4806f59df3a0b84dac6e78dbdd974c571926132fca5c53fec7e1a8e6c6ecbbe3e0b6f1869eb0dc89a8afa9459f27112efaa2c87a1ea74da3f929c9b7119c3f20fb6c3e88e83999a4c5eaf5ba17852f0db500000000

def deliveredSig1 : List Byte := leBytes 188
  0x1a2f14e4173ef5decd3b965cc02396d1e2238add2a81490cbd549ca0e6e2b7cd5686b6fc753d624348f86b51009d0cfed5352205d55815189c4e80a7c9ceaddbf2e6e450e6cdea917d24988ba226454c6065cd418d50e1848edd81308edb379d2d60b37623e49db054d5c608d7b41e28dda50c136e5c414e2ac8f8564fad3f7286e7e0f88a3ead30689e3dc32b1a90c4eab80fe4851401e1627817ddebddae9e76aba5fb51f5eabc3c2d6c01f8a2823384c74911cf4ead745b192989

def deliveredSig2 : List Byte := leBytes 188
  0x3d056671d20b11e3ac867d22a495ba032517805955c0ab0b2fc0dcf9eb6c4db8650fd09819bda51aff8dece6c8f9e5323f445f7542655504853febfe9633c5e1fcdd5aaeabb3f8d8fb3a14bf6dd406903e246ebe283b81842754d28fc3aa22bee7cf4c933c71c4b470071b4062a24ae17e2af9aa4b53cdd4da1df685c9f234ecca27cb7088d5a74023bd31af11b6d4c77a370dc3fbb7db6a113a805c13552b597d48432a7537b2c97a029f84a6151d18443df9282990e102e683901e

def deliveredSig3 : List Byte := leBytes 188
  0xe1fd7e2786c48044be97fa55122aab3f1952f858a600511e8e36cd8bad8e4a9641eb5b60cfc3faf07f3e0582a00bd699604bc09518bcc88f27d3b21a08f7f4ffd76c77be87d01667be7d749530b7dc77626d06992dcf35ae751503ac7dc01fa97b94d270fb7b36091e2e8b364ef780308de439a765eaf27dc856aa5e53c483657122c1a787e1b85661cfbc8babb6f59204b72a59d284531544dce5c5e62493010310f2c6f7e05ff8d47c67f3abc57b108a0126d110ec06a61a9a67b9

def deliveredSig4 : List Byte := leBytes 188
  0xbc1c51c5d8cd68c4bfe93b506279877580d419296788c349e9198d91a01c57ca6d0f1cc4101bbd9e24c844a39c5dadd80dcf81ab767287ed9230760b0d2f8ebd01f744b61908e68bee15f9973ea4647cb4309bed27c02a9f9fe277c305031e7f894aded134ce7be43fc134896edb6ec14e01b36c926c30d9fa02079aec4aa25740afcadf717c7c66b96e4fa9e2679f1a6da9f184b4b63550539b1f900a9f95be7a3042f92c9f19f18de6c1925dfce8e1cad44479d64d55732d5d707b

def deliveredSig5 : List Byte := leBytes 188
  0x0fc1ccff565918eca6e7f5a56ca49bef480fe10f09cde2a38470346ab327d11e24ffc2d0c61ee69e3572c426d073a20cfd9b00c22d5d40191e434c44ae978dd4c79f37152e7dc4bdd7423a17c9edb8126e31b4a2c4a733bb78ab41f6c7e7573332f972275c90e3ced38e5934e825dcc7525de2145720965077b4cefab09382f80b8be8160d2ae43ce3213cd7d7209451eb0036515e845195128287345831f1ea3d4cb92a25daf589cf6f076446eef261fcab0408787f8424daf085b3

def deliveredSig6 : List Byte := leBytes 188
  0x5d3f97348c23d0a5c2e4c5f887ce3e80f68f6c95e952bf37c9c719be462ee72be5ab16cb287a426419f70b41ec677efb1105531980a75407baeb7fa3df856242f81fed2650460149e0701855b4f059613edbe902a2b5113e7406a514690656394bd7bad7bfd3b2d4dcb2e074a9eca54d92ce774ccf7d5027fee79e2c29cef406da5901567944aba3edf131607655b7c157a9d834bdb6ff899ef9b3d30ba1ef863f73e2e9c2d404ae84fdedb4859c286a3b6635988663bd48ff1948cc

def deliveredSig7 : List Byte := leBytes 188
  0xd8566b5d57199e069c5c4f6932ab2c30d5e9d5fe77ed48453cfab3f8f89e81a451d5ca288b3c5d2c8b558f554ef8b83abbb4353a4ea8a62889cf7a7a4199a31d32c340099d3b288b7f1977bcaa39eeb42cc4731f4375f1511d0e462830ca3de552821cf59ac0dfe1927ac0ef00ca23fbf5a17d88d243a6e6572eed3d6a4b17627783adea77bc1508ac598faa6470e55290e907fe7d562e25595e99af1ab9564176a4a9a7681ac5810ac218ba1b1980cc85f79bcea7d20144ab36d411

def deliveredSig8 : List Byte := leBytes 188
  0xa64e45ddde72a1aada2ea24f105156608c79ff6a4c463ade4b8696a492e2a1b797d3c1204f2578314cf5ff9722b4f8c3aa2f85e8a96f6fbaabdc64c101bd8de88f5ddbb68fc00a2733a09dad04b63d1b47d6bf3f0298c2efc6651daaa83198bf8147c1b48e77f458c6863a2d49ff35aa85c81fb51721dfcf2ddabe28c0734a0c95ce767f26f443cd05fc3cafcc5f2bfc82ea77e82796bf5de9bbd228769a0e8fbab1f95260627fb0f16749679c268c34397d775ff99044feebcfc9e5

def deliveredSig9 : List Byte := leBytes 188
  0x8a5e6de757a775535372bd6aefad3f3f242297609aa58a4d7ee1621b6ad931d0ce1b139947bba4370dd799ba15cc45615747c544b291ec9f447f1707efccc5f0afb5a913dba881a5a58722fa7587d69b93ab3d935b279cdb724dbaf0553890deea346425910318d910f9c73abb5cd3f24c804f98be031d78ca779e89bcb78be1b30ca666c665345d71344bd98686b4a362ea67ac9cd9d23632d9f2f52682f4c93a291cbe14cf34625e0e35f8f1cdf3fd2069e3286e98033323557bcf

def deliveredSig10 : List Byte := leBytes 188
  0xf922cf821a6e70b792813400dab63b523f28dd10f170c540f9bc580b6a91ef6dfc327d097b904c0b0aa47c048c0bf506126ec978b2bf5546c1bef31c124bd694f5491fad62511c4f3dbb595ce7db0e71662255cfdb61d48232cbb07fd2e670f6b43639acc1a1bdb2cfe1186b18e80dafd4c257c1c73417e0d05f5f9b24c0333a24947c8f400d8c5299694b61aaeafadce12cbf366afbcb523c153bcfbd88454fd26908519ef6609b1268de2599126eb60f89af8499009b3cb0954391

def deliveredSig11 : List Byte := leBytes 188
  0xd23cd17665ae40772ea3d56ed77a759402839c60ef1f8af1b11f9bd1e26fbc5ed695948f76c79a133fc2423d10983194462d324657db6ac34b5cc7ea6e6e538c0c1491913195eb08d4f4a4cef5378b3d4c7024315136c715a8c744ff79174e0f9d4a7663d7fe7d011f8bb15fedcb9f16b786f81daa3c497f3897cdb4718c6849112216edd477ee1d88a5eb8627a0a4c7a6ba40de1dbfb798b18dc9cb643efc29d301be5952f3726d22ac3124d4ff552ae0018899a6995c4d6baefdf0

def deliveredSig12 : List Byte := leBytes 188
  0x76a4fddce98d594ba6919c00a4a56d9e38c69db7471973a7a1047d8fe15640c0deac7f23aabe24227165213ff7251698dcf600c8f62551d12482f44f2b19df96019cd150b66d429c2ddb925cc72ff9719eb4f61e4f9c6e7bbea7bfb509627bd90dbb810a1bdaa12604289cf618108f82719c70a6600d22e518644038e57902dd665b33d0346caf530d03477f0460e214c10f4bbbbdf2ca36f8e63f02a3b912e14f824b13e1507efc399f765614c550218a89df5a59125268ee21d664

def deliveredSig13 : List Byte := leBytes 188
  0x0923d5898916646cf4a3f6e68b5d5d8cd477e6b9c251e87ca6f708f7279ce13eee44cdc549e37f170ffcdd8738f6630f298d409135688951f0d17a3f75c0659a16a491d14e16d6ff3e5ba47e5f817a9fe48bd815a098e409d40af45a1ed5cd5c630a9fd2a36b8c05451bc44570e51896c263038831429b723375b520b3690e39eb0ee086ada6bc81b17b94e79d2fe0d1e35c76fb48ebbce60b60555319597b76365a10f0ab36535e463516c6a3914264f2d3d23568279446f3c99333

def deliveredSig14 : List Byte := leBytes 188
  0x126734045dfd9523e1a49ab6a673c59348e9c522e09a06b7d0b159df6accc7c9f8ee2969462891794b2a9916d58373147af6b432cd10d478a8d3456f2dcada105b536bdff661a14faf0d8c6037886696db64f61c300d05c0f11408feae14fcdc209c7cf9db9ac175f89f8ba718f793c5532ef65c7246ddd8ddac8d8246a589f7722b8916d12dbb19c58013070967bd6974b8f8ce7cfaa55378ae325dec9de29769e1168e7190595ff11bd98ae6258182ac9056435b56cc95569a3479

/-- The XMSS public key of the delivered firmware: OID, root, seed. -/
def deliveredKey : List Byte := leBytes 68
  0xc3dfeab0a3fcabeb640fccd1d71293135269c89ccad21bba21509a7da3303adb6d31e7ad73cb853e1ecb9596b175e3700faa9689c927157783decc92505bb8a712000000

def deliveredSig : List Byte :=
  deliveredSig0 ++ deliveredSig1 ++ deliveredSig2 ++ deliveredSig3 ++ deliveredSig4 ++
  deliveredSig5 ++ deliveredSig6 ++ deliveredSig7 ++ deliveredSig8 ++ deliveredSig9 ++
  deliveredSig10 ++ deliveredSig11 ++ deliveredSig12 ++ deliveredSig13 ++ deliveredSig14

/-- The header of firmware slot 0 (Table 12-3): magic, version 1, key slot 0, svn 0, fw_version 1, an empty body. -/
def deliveredFirmware : List Byte :=
  leBytes 4 0x4638344E ++ [1, 0, 0, 0] ++ leBytes 4 1 ++ leBytes 4 0 ++ deliveredKey ++ List.replicate 0xAC 0 ++ deliveredSig
    ++ List.replicate 0x3FC 0

/-- Configuration bank A (Table 12-4): no flags, seq 0, no entries. -/
def deliveredBank : List Byte :=
  leBytes 64 0x000000000000000000000000000000006eea0f6a3797fb943e2167ae2ec6ecbc62b066078421c5c91db3c8b96917f5f80000000000000000000000014746434e

/-- The NOR flash as delivered. -/
def deliveredFlash : Mem :=
  Mem.putBytes 0xFF (Mem.putBytes 0xFF [] 0x01000000 deliveredFirmware) 0x00400000 deliveredBank

end Sys2Proof.Machine
end

