-- ==== Sys2Proof/Config.lean ====
section
/-! DEFINITION. What the spec leaves to the implementation: opaque constants that nothing in Lean can evaluate (free
values), and the values the model names for what manufacture fixes (log entries 3 and 4). -/
namespace Sys2Proof.Config

/-- Which of the encodings within 1 ulp an XF result is (R130 gives the bound and the special cases, not the bits): operation code,
operand, rounding mode and random word. Free value (log entry 10). -/
opaque xf : Nat → BitVec 32 → Nat → Nat → BitVec 32

/-- The 4-byte Reed–Solomon code of a line (R267 gives what it covers and what it corrects, not its field or generator): channel line
index and line. Free value (log entry 88). -/
opaque eccCode : Nat → BitVec 512 → BitVec 32

/-- What the check of R267 comes to for an error that reaches more than three bytes: line index, line, and the error over the line and
its code. Bits 1:0 are 2 where it passes, 3 where it corrects, else it fails; bits 513:2 the line it then gives. Free value (log entry
88). -/
opaque eccFar : Nat → BitVec 512 → BitVec 544 → BitVec 514

/-- A fresh 64-bit value the spec leaves open; the argument is the model's counter `State.fresh` (log entry 7). -/
opaque freeWord : Nat → BitVec 64

/-- The known-answer kernels of a test content version as they are loaded into a tile from address 0 (R437, R491). Free
value (log entry 48). -/
opaque kernelImage : Nat → List (BitVec 8)

/-- The unit that a known-answer kernel of a content version tests: its unit_type in bits 7:0 and its unit_index in bits 15:8
(R422, R438). Free value (log entry 48). -/
opaque kernelUnit : Nat → Nat → BitVec 16

/-- The program by which a tile copies a mirror in an adoption, as firmware loads it from address 0: sender (1) or receiver
(0) (R497). Free value (log entry 48). -/
opaque copyProgram : Nat → List (BitVec 8)

/-- The XMSS signature that the security engine makes with an index over a message: 2,820 bytes of a key that never leaves
it (R413, R416, R418). Free value (log entry 49). -/
opaque signature : Nat → List (BitVec 8) → List (BitVec 8)

/-- The digest of the boot ROM (Table 12-7, measurement 1). Free value (log entry 49). -/
opaque romDigest : List (BitVec 8)

/-- The certificate chain of the identity region (Table 12-1). Free value (log entry 49). -/
opaque certChain : List (BitVec 8)

end Sys2Proof.Config
end

