-- ==== Sys2Proof/Machine/Num.lean ====
section
/-! DEFINITION. Number formats, conversion, rounding and exact accumulation (chapter 2), with the published
algorithms the spec names: Philox-4x32-10 (R67), CRC-32C (R138) and CRC-64 (R432). -/
namespace Sys2Proof.Machine

/-! ### Formats (R40 to R48) -/

/-- Width in bits of a format code, Table 2-1; 0 for the reserved code. -/
def fmtWidth : Nat → Nat
  | 0 => 32 | 1 => 16 | 2 => 16 | 3 => 8 | 4 => 8 | 5 => 6 | 6 => 6 | 7 => 4 | 8 => 8
  | 9 => 32 | 10 => 16 | 11 => 8 | 12 => 4 | 13 => 8 | 14 => 128 | _ => 0

/-- Exponent bits, fraction bits and bias of a float format, Table 2-2. -/
def fmtFloat : Nat → Option (Nat × Nat × Nat)
  | 0 => some (8, 23, 127) | 1 => some (5, 10, 15) | 2 => some (8, 7, 127) | 3 => some (5, 2, 15)
  | 4 => some (4, 3, 7) | 5 => some (3, 2, 3) | 6 => some (2, 3, 1) | 7 => some (2, 1, 1) | _ => none

/-- The format has infinities (R42). -/
def fmtHasInf (f : Nat) : Bool := decide (f ≤ 3)
/-- The format has a NaN (R42, R43). -/
def fmtHasNaN (f : Nat) : Bool := decide (f ≤ 4)

/-- The encoding of the largest finite magnitude, Table 2-2. -/
def fmtMax : Nat → Nat
  | 0 => 0x7F7FFFFF | 1 => 0x7BFF | 2 => 0x7F7F | 3 => 0x7B | 4 => 0x7E | 5 => 0x1F | 6 => 0x1F | 7 => 0x7 | _ => 0

/-- The canonical NaN of a format (R44). -/
def fmtNaN : Nat → Nat
  | 0 => 0x7FC00000 | 1 => 0x7E00 | 2 => 0x7FC0 | 3 => 0x7F | 4 => 0x7F | 8 => 0xFF | _ => 0

/-- A number read exactly: NaN, an infinity, or (−1)^s × m × 2^e with the sign of zero kept (R41, R46). -/
inductive FVal where
  | nan
  | inf (s : Bool)
  | fin (s : Bool) (m : Nat) (e : Int)
deriving DecidableEq, Repr

def signBit (s : Bool) (w : Nat) : Nat := if s then 2 ^ (w - 1) else 0

/-- The value of a float encoding (R41 to R43). -/
def floatVal (f b : Nat) : FVal :=
  match fmtFloat f with
  | none => .nan
  | some (eb, fb, bias) =>
    let s := decide (b / 2 ^ (eb + fb) % 2 = 1)
    let E := b / 2 ^ fb % 2 ^ eb
    let F := b % 2 ^ fb
    if fmtHasInf f && E == 2 ^ eb - 1 then (if F = 0 then .inf s else .nan)
    else if f == 4 && b % 128 == 127 then .nan
    else if E = 0 then .fin s F (1 - (bias : Int) - fb)
    else .fin s (2 ^ fb + F) ((E : Int) - bias - fb)

/-- The value of a two's complement integer of `w` bits. -/
def intVal (w b : Nat) : FVal :=
  if 2 ^ (w - 1) ≤ b % 2 ^ w then .fin true (2 ^ w - b % 2 ^ w) 0 else .fin false (b % 2 ^ w) 0

/-! ### X96 (R58, R59) -/

/-- The 16-byte container as a number, Table 2-5. -/
def X96.toNat (x : X96) : Nat :=
  x.n.toNat + x.e.toNat * 2 ^ 96 + x.special.toNat * 2 ^ 112 + x.exactRange.toNat * 2 ^ 113 + x.mismatch.toNat * 2 ^ 114

def X96.ofNat (b : Nat) : X96 :=
  { n := BitVec.ofNat 96 b, e := BitVec.ofNat 16 (b / 2 ^ 96), special := decide (b / 2 ^ 112 % 2 = 1),
    exactRange := decide (b / 2 ^ 113 % 2 = 1), mismatch := decide (b / 2 ^ 114 % 2 = 1) }

/-- Every X96 addition of the device (R59). -/
def X96.add (a b : X96) : X96 :=
  if a.mismatch || b.mismatch || a.e != b.e then
    { n := 0, e := 0x8000, special := a.special || b.special, exactRange := a.exactRange || b.exactRange, mismatch := true }
  else
    { n := a.n + b.n, e := a.e, special := a.special || b.special, exactRange := a.exactRange || b.exactRange,
      mismatch := false }

/-- The addition produced the mismatch result by combining different e, or met one (x96_mismatch, R165). -/
def X96.mismatches (a b : X96) : Bool := (X96.add a b).mismatch

/-- An X96 value as a number: NaN under special or mismatch (R58), +0 for zero (R46). -/
def X96.val (x : X96) : FVal :=
  if x.special || x.mismatch then .nan
  else if x.n.msb then .fin true (2 ^ 96 - x.n.toNat) x.e.toInt else .fin false x.n.toNat x.e.toInt

/-- The value of an element of any format (R47, R48). -/
def elemVal (f b : Nat) : FVal :=
  if f ≤ 7 then floatVal f b
  else match f with
    | 8 => if b = 255 then .nan else .fin false 1 ((b : Int) - 127)
    | 9 => intVal 32 b | 10 => intVal 16 b | 11 => intVal 8 b | 12 => intVal 4 b
    | 13 => .fin false (b % 256) 0
    | 14 => (X96.ofNat b).val
    | _ => .nan

/-! ### Rounding (R66, R69) -/

/-- The multiple of 2^qe to which m × 2^e rounds: to nearest even (0), toward zero (1) or stochastically with the
random word `r` (2). -/
def roundAt (m : Nat) (e qe : Int) (rm r : Nat) : Nat :=
  if qe ≤ e then m * 2 ^ (e - qe).toNat
  else
    let d := 2 ^ (qe - e).toNat
    let q := m / d
    let rem := m % d
    match rm with
    | 0 => if 2 * rem > d ∨ (2 * rem = d ∧ q % 2 = 1) then q + 1 else q
    | 1 => q
    | _ => if r < rem * 2 ^ 32 / d then q + 1 else q

/-- The magnitude encoding of m × 2^e rounded to `fb` fraction bits, with an exponent field that is not bounded
above; subnormals are values (R45). -/
def encodeMag (fb bias m : Nat) (e : Int) (rm r : Nat) : Nat :=
  if m = 0 then 0 else
  let emin : Int := 1 - (bias : Int) - fb
  let qe := max ((Nat.log2 m : Int) + e - fb) emin
  let q := roundAt m e qe rm r
  if q < 2 ^ fb then q else ((qe - emin).toNat) * 2 ^ fb + q

/-- Conversion to a float format: encoding, cvt_overflow, cvt_nan (Table 2-6, R64). Under round toward zero nothing
overflows (R537; log entry 11). -/
def toFloat (f rm r : Nat) (sat : Bool) (v : FVal) : Nat × Bool × Bool :=
  match fmtFloat f with
  | none => (0, false, false)
  | some (eb, fb, bias) =>
    let w := eb + fb + 1
    let infEnc := (2 ^ eb - 1) * 2 ^ fb
    match v with
    | .nan => if fmtHasNaN f then (fmtNaN f, false, false) else (0, false, true)
    | .inf s =>
      if fmtHasInf f && !sat then (signBit s w + infEnc, false, false)
      else if f == 4 && !sat then (fmtNaN 4, true, false)
      else (signBit s w + fmtMax f, true, false)
    | .fin s m e =>
      let b := encodeMag fb bias m e rm r
      if b ≤ fmtMax f then (signBit s w + b, false, false)
      else if rm = 1 then (signBit s w + fmtMax f, false, false)
      else if sat || f == 5 || f == 6 || f == 7 then (signBit s w + fmtMax f, true, false)
      else if f == 4 then (fmtNaN 4, true, false)
      else (signBit s w + infEnc, true, false)

/-- Conversion to an integer between `lo` and `hi`, as a `w`-bit encoding (R63, R65). A value that Table 2-6 clamps sets cvt_overflow;
so a negative value bound for UINT8 does, whose magnitude R63 does not compare with the sign in sight, and −2^(w−1) of a signed
format does not, being in range (DESIGN CHOICE, log entry 11). -/
def toInt (w : Nat) (lo hi : Int) (rm r : Nat) (v : FVal) : Nat × Bool × Bool :=
  let put (i : Int) : Nat := (i % (2 ^ w : Int)).toNat
  match v with
  | .nan => (0, false, true)
  | .inf s => (put (if s then lo else hi), true, false)
  | .fin s m e =>
    let q : Int := roundAt m e 0 rm r
    let i := if s then -q else q
    if i < lo then (put lo, true, false) else if hi < i then (put hi, true, false) else (put i, false, false)

/-- Conversion to a scale (R65): the magnitude rounded to a power of two, a tie to the larger exponent. -/
def toE8M0 (rm r : Nat) (v : FVal) : Nat × Bool × Bool :=
  match v with
  | .nan => (0xFF, false, false)
  | .inf _ => (0xFE, true, false)
  | .fin _ m e =>
    if m = 0 then (0, false, false) else
    let l := Nat.log2 m
    let rem := m - 2 ^ l
    let up := match rm with
      | 0 => decide (2 ^ l ≤ 2 * rem)
      | 1 => false
      | _ => decide (r < rem * 2 ^ 32 / 2 ^ l)
    let k : Int := (l : Int) + e + (if up then 1 else 0)
    if k < -127 then (0, false, false) else if 127 < k then (0xFE, true, false) else ((k + 127).toNat, false, false)

/-- Conversion of a float to X96 (R65): a multiple of 2^−32, e = −32. -/
def toX96 (rm r : Nat) (sat : Bool) (v : FVal) : Nat × Bool × Bool :=
  let mk (n : Int) (sp : Bool) : Nat := (n % (2 ^ 96 : Int)).toNat + 0xFFE0 * 2 ^ 96 + sp.toNat * 2 ^ 112
  match v with
  | .nan => (mk 0 true, false, false)
  | .inf _ => (mk 0 true, false, false)
  | .fin s m e =>
    let q : Int := roundAt m e (-32) rm r
    let n := if s then -q else q
    if -(2 ^ 95 : Int) ≤ n ∧ n < 2 ^ 95 then (mk n false, false, false)
    else if sat then (mk (if s then -(2 ^ 95 : Int) else 2 ^ 95 - 1) false, true, false)
    else (mk 0 true, true, false)

/-- Every conversion of the device (R63 to R65): encoding, cvt_overflow, cvt_nan. X96 to X96 passes unchanged: the reserved bits 127:115,
which Table 2-5 has written 0 and R65 passed, stay as they are (DESIGN CHOICE, log entry 11). A zero result converted from X96 is +0
(R46). -/
def convert (src dst rm r : Nat) (sat : Bool) (b : Nat) : Nat × Bool × Bool :=
  if src = 14 ∧ dst = 14 then (b, false, false) else
  let v := elemVal src b
  if dst ≤ 7 then
    let q := toFloat dst rm r sat v
    if src = 14 ∧ q.1 = signBit true (fmtWidth dst) then (0, q.2) else q
  else match dst with
    | 8 => toE8M0 rm r v
    | 9 => toInt 32 (-(2 ^ 31)) (2 ^ 31 - 1) rm r v
    | 10 => toInt 16 (-(2 ^ 15)) (2 ^ 15 - 1) rm r v
    | 11 => toInt 8 (-128) 127 rm r v
    | 12 => toInt 4 (-8) 7 rm r v
    | 13 => toInt 8 0 255 rm r v
    | 14 => toX96 rm r sat v
    | _ => (0, false, false)

/-! ### Exact sums and products -/

def fneg : FVal → FVal
  | .nan => .nan
  | .inf s => .inf (!s)
  | .fin s m e => .fin (!s) m e

/-- Exact product, with the IEEE 754 special cases. -/
def fmul : FVal → FVal → FVal
  | .nan, _ => .nan
  | _, .nan => .nan
  | .inf s, .inf t => .inf (s != t)
  | .inf s, .fin t m _ => if m = 0 then .nan else .inf (s != t)
  | .fin s m _, .inf t => if m = 0 then .nan else .inf (s != t)
  | .fin s m e, .fin t n f => .fin (s != t) (m * n) (e + f)

/-- The signed integer of a finite value in units of 2^q, q not above its exponent. -/
def inUnits (s : Bool) (m : Nat) (e q : Int) : Int :=
  let v : Int := m * 2 ^ (e - q).toNat
  if s then -v else v

/-- Exact sum; a zero sum is +0 unless both operands are −0 (R46). -/
def fadd : FVal → FVal → FVal
  | .nan, _ => .nan
  | _, .nan => .nan
  | .inf s, .inf t => if s = t then .inf s else .nan
  | .inf s, .fin _ _ _ => .inf s
  | .fin _ _ _, .inf t => .inf t
  | .fin s m e, .fin t n f =>
    let q := min e f
    let v := inUnits s m e q + inUnits t n f q
    if v = 0 then .fin (s && t && m == 0 && n == 0) 0 q else .fin (decide (v < 0)) v.natAbs q

/-- Exact order of two values, NaN excluded: a < b. -/
def flt : FVal → FVal → Bool
  | .nan, _ => false
  | _, .nan => false
  | .inf s, .inf t => s && !t
  | .inf s, .fin _ _ _ => s
  | .fin _ _ _, .inf t => !t
  | .fin s m e, .fin t n f => decide (inUnits s m e (min e f) < inUnits t n f (min e f))

def feq : FVal → FVal → Bool
  | .nan, _ => false
  | _, .nan => false
  | .inf s, .inf t => s == t
  | .inf _, .fin _ _ _ => false
  | .fin _ _ _, .inf _ => false
  | .fin s m e, .fin t n f => decide (inUnits s m e (min e f) = inUnits t n f (min e f))

def FVal.isNaN : FVal → Bool
  | .nan => true
  | _ => false

def FVal.isInf : FVal → Bool
  | .inf _ => true
  | _ => false

/-- Round an exact result of binary32 arithmetic (R129, R537): a result that is infinite because an operand is, is
passed whatever sat holds and sets nothing. -/
def arith32 (rm r : Nat) (sat : Bool) (v : FVal) : Nat × Bool :=
  match v with
  | .inf s => (signBit s 32 + 0x7F800000, false)
  | v => let (b, o, _) := toFloat 0 rm r sat v; (b, o)

/-- Lane-wise minimum on binary32 encodings: NaN gives the canonical NaN; −0 counts below +0. -/
def min32 (a b : Nat) : Nat :=
  let x := floatVal 0 a; let y := floatVal 0 b
  if x.isNaN || y.isNaN then fmtNaN 0
  else if flt x y then a else if flt y x then b else if a ≥ 2 ^ 31 then a else b

def max32 (a b : Nat) : Nat :=
  let x := floatVal 0 a; let y := floatVal 0 b
  if x.isNaN || y.isNaN then fmtNaN 0
  else if flt x y then b else if flt y x then a else if a ≥ 2 ^ 31 then b else a

/-- A 32-bit encoding as a signed integer. -/
def int32 (a : Nat) : Int := if 2 ^ 31 ≤ a % 2 ^ 32 then (a % 2 ^ 32 : Int) - 2 ^ 32 else (a % 2 ^ 32 : Int)
def ofInt32 (i : Int) : Nat := (i % (2 ^ 32 : Int)).toNat

/-! ### Philox-4x32-10 (R67) -/

structure Philox where
  c0 : Nat
  c1 : Nat
  c2 : Nat
  c3 : Nat
deriving DecidableEq, Repr

/-- One round under key words k0, k1. -/
def philoxRound (k0 k1 : Nat) (c : Philox) : Philox :=
  let p0 := 0xD2511F53 * c.c0
  let p1 := 0xCD9E8D57 * c.c2
  { c0 := (p1 / 2 ^ 32) ^^^ c.c1 ^^^ k0, c1 := p1 % 2 ^ 32, c2 := (p0 / 2 ^ 32) ^^^ c.c3 ^^^ k1, c3 := p0 % 2 ^ 32 }

def philoxRun : Nat → Nat → Nat → Philox → Philox
  | 0, _, _, c => c
  | n + 1, k0, k1, c =>
    philoxRun n ((k0 + 0x9E3779B9) % 2 ^ 32) ((k1 + 0xBB67AE85) % 2 ^ 32) (philoxRound k0 k1 c)

/-- The four words of one call of the generator: seed, unit counter, tile index, rounding unit. -/
def philox (seed ctr tile u : Nat) : List Nat :=
  let r := philoxRun 10 (seed % 2 ^ 32) (seed / 2 ^ 32) ⟨ctr % 2 ^ 32, ctr / 2 ^ 32 % 2 ^ 32, tile, u⟩
  [r.c0, r.c1, r.c2, r.c3]

/-- The words of ⌈k/4⌉ calls in order (R68). -/
def philoxWords (seed tile u : Nat) : Nat → Nat → List Nat
  | 0, _ => []
  | n + 1, ctr => philox seed (ctr % 2 ^ 64) tile u ++ philoxWords seed tile u n (ctr + 1)

/-! ### Checks -/

/-- One bit step of a reflected CRC-32C (polynomial 0x1EDC6F41, reflected 0x82F63B78). -/
def crc32cBit (c : Nat) : Nat := if c % 2 = 1 then (c / 2) ^^^ 0x82F63B78 else c / 2

def crc32cByte (c : Nat) (b : Byte) : Nat :=
  let x := c ^^^ b.toNat
  crc32cBit (crc32cBit (crc32cBit (crc32cBit (crc32cBit (crc32cBit (crc32cBit (crc32cBit x)))))))

def crc32c (l : List Byte) : Nat := (l.foldl crc32cByte 0xFFFFFFFF) ^^^ 0xFFFFFFFF

/-- One bit step of the CRC-64 of R432. -/
def crc64Bit (c : Word) : Word := if c.msb then (c <<< 1) ^^^ 0x42F0E1EBA9EA3693#64 else c <<< 1

def crc64Byte (c : Word) (b : Byte) : Word :=
  let x := c ^^^ (b.setWidth 64 <<< 56)
  crc64Bit (crc64Bit (crc64Bit (crc64Bit (crc64Bit (crc64Bit (crc64Bit (crc64Bit x)))))))

/-- CRC-64 of a list of bytes from a running value (R432). -/
def crc64 (c : Word) (l : List Byte) : Word := l.foldl crc64Byte c

/-! ### Microscaling (R50) -/

/-- The emax of an element format; MXINT8 has 0. -/
def mxEmax : Nat → Int
  | 3 => 15 | 4 => 8 | 5 => 4 | 6 => 2 | 7 => 2 | _ => 0

/-- ⌊log₂⌋ of a finite non-zero value. -/
def flog2 : FVal → Int
  | .fin _ m e => (Nat.log2 m : Int) + e
  | _ => 0

/-- Quantise one block of 32 values into element format `f`: elements, scale, cvt_overflow, cvt_nan. -/
def quantise (f rm : Nat) (words : List Nat) (vals : List FVal) : List Nat × Nat × Bool × Bool :=
  if vals.any (fun v => v.isNaN || v.isInf) then
    (vals.map (fun _ => if fmtHasNaN f then fmtNaN f else 0), 0xFF, false, false)
  else
    let nz := vals.filter (fun v => match v with | .fin _ m _ => m != 0 | _ => false)
    match nz with
    | [] => (vals.map (fun _ => 0), 0, false, false)
    | v0 :: rest =>
      let m := rest.foldl (fun a v => max a (flog2 v)) (flog2 v0)
      let X := max (-127) (min 127 (m - mxEmax f))
      let one (v : FVal) (r : Nat) : Nat × Bool × Bool :=
        match v with
        | .fin s mm e => if f = 11 then toInt 8 (-128) 127 rm r (.fin s mm (e - X + 6))
                         else toFloat f rm r true (.fin s mm (e - X))
        | v => toFloat f rm r true v
      let es := (vals.zipIdx).map (fun p => one p.1 (words.getD p.2 0))
      (es.map (·.1), (X + 127).toNat, es.any (·.2.1), es.any (·.2.2))

/-! ### Packing (R48) -/

/-- Elements of width `w` packed from bit 0 upward. -/
def packElems (w : Nat) : List Nat → Nat
  | [] => 0
  | x :: r => x % 2 ^ w + 2 ^ w * packElems w r

/-- The first `k` elements of width `w` of a packed value. -/
def unpackElems (w : Nat) : Nat → Nat → List Nat
  | 0, _ => []
  | k + 1, v => v % 2 ^ w :: unpackElems w k (v / 2 ^ w)

/-- How many elements of a format a 64-byte token holds (chapter 4, Tokens). -/
def fmtPerToken : Nat → Nat
  | 0 => 16 | 9 => 16 | 1 => 32 | 2 => 32 | 10 => 32 | 5 => 84 | 6 => 84 | 7 => 128 | 12 => 128 | 14 => 4 | _ => 64

end Sys2Proof.Machine
end

