-- ==== Sys2Proof/Machine/Flags.lean ====
section
/-! DEFINITION. Status flags and traps' pending bits of a tile: how hardware sets a status bit of each block
(R10, R11) and which asynchronous trap a set raises (R91, R100, R101). -/
namespace Sys2Proof.Machine

/-- The stored value of a field of the tile's window. -/
def Tile.rd (tl : Tile) (f : Fld) (j : Nat) : Nat := tl.regs.rd f 0 j
def Tile.wr (tl : Tile) (f : Fld) (j v : Nat) : Tile := { tl with regs := tl.regs.wr f 0 j v }
def Tile.addSat (tl : Tile) (f : Fld) (j n : Nat) : Tile := { tl with regs := tl.regs.addSat f 0 j n }
def Tile.addWrap (tl : Tile) (f : Fld) (j n : Nat) : Tile := { tl with regs := tl.regs.addWrap f 0 j n }

/-- A stored register of the tile's window as a word. -/
def Tile.word (tl : Tile) (r : Reg) (j : Nat) : Word := BitVec.ofNat 64 (assemble r.fields (fun f => tl.rd f j))

/-- A tile status bit set by hardware. -/
def Tile.flag (c : Ctx) (again f : Fld) (m : Nat) (tl : Tile) : Tile :=
  { tl with regs := tl.regs.hwSet again f 0 0 c.cycle m }

def Tile.seqFlag (c : Ctx) (f : Fld) (tl : Tile) : Tile := tl.flag c F.TIL_SEQ_STATUS.again_count f 1
def Tile.latFlag (c : Ctx) (f : Fld) (tl : Tile) : Tile := tl.flag c F.TIL_LAT_STATUS.again_count f 1
def Tile.merFlag (c : Ctx) (f : Fld) (tl : Tile) : Tile := tl.flag c F.TIL_MER_STATUS.again_count f 1
def Tile.vspFlag (c : Ctx) (f : Fld) (tl : Tile) : Tile := tl.flag c F.TIL_VSP_STATUS.again_count f 1

/-- Raise an asynchronous trap cause in this cycle (R99). -/
def Tile.raise (c : Ctx) (code : Nat) (arg : Word) (tl : Tile) : Tile :=
  { tl with seq := { tl.seq with pend := tl.seq.pend ++ [⟨code, arg, c.cycle⟩] } }

/-- Set a bit of TIL_NUM_STATUS; the NUMERIC trap becomes pending if its trap_en bit is 1, once however many sets
come before it is taken (R101). -/
def Tile.numFlag (c : Ctx) (f : Fld) (tl : Tile) : Tile :=
  let t1 := tl.flag c F.TIL_NUM_STATUS.again_count f 1
  if bits (tl.rd F.TIL_NUM_TRAP_EN.trap_en 0) f.lo 1 = 1 ∧ tl.seq.pend.all (fun p => p.code != 0x11) then
    t1.raise c 0x11 0
  else t1

def Tile.numFlagIf (c : Ctx) (b : Bool) (f : Fld) (tl : Tile) : Tile := if b then tl.numFlag c f else tl

/-- A write that the tile's state does not allow (R113). -/
def Tile.cfgIgnored (c : Ctx) (tl : Tile) : Tile := tl.seqFlag c F.TIL_SEQ_STATUS.cfg_ignored

/-- A send of the tile completed CLOSED: closed_send, the entry's count, and SEND_CLOSED if enabled (R91, R257). -/
def Tile.closedSend (c : Ctx) (entry : Nat) (tl : Tile) : Tile :=
  let t1 := (tl.seqFlag c F.TIL_SEQ_STATUS.closed_send).addSat F.TIL_CHS_STATE.closed entry 1
  if tl.rd F.TIL_SEQ_TRAP_EN.closed_trap 0 = 1 then t1.raise c 0x10 (BitVec.ofNat 64 entry) else t1

/-- Tokens discarded under R134 and R144 to R151: TIL_PHASE_DISCARD and its status bit. -/
def Tile.phaseDiscard (c : Ctx) (n : Nat) (tl : Tile) : Tile :=
  if n = 0 then tl
  else (tl.addSat F.TIL_PHASE_DISCARD.count 0 n).latFlag c F.TIL_LAT_STATUS.discard

end Sys2Proof.Machine
end

