-- ==== Sys2Proof/Machine/Operands.lean ====
section
/-! DEFINITION. Operand forms: instruction words of the tile sequencer (Tables 3-2 to 3-8), operand checks of its
commands (R90), stream addresses (R176, R181) and the LPDDR address map (R268). -/
namespace Sys2Proof.Machine

/-! ### Instruction words -/

/-- A word from its 6-bit opcode, the fields at bits 25:21 and 20:16 and its low 16 bits (Table 3-2). -/
def encWord (op : Nat) (a b : BitVec 5) (low : BitVec 16) : BitVec 32 :=
  BitVec.ofNat 6 op ++ a ++ b ++ low

/-- Reg format of the ALU: rb, the must-be-0 bits 10:6 and the 6-bit function. -/
def encAlu (func : Nat) (rd ra rb : BitVec 5) (z : BitVec 5) : BitVec 32 :=
  encWord 0x01 rd ra (rb ++ z ++ BitVec.ofNat 6 func)

/-- Reg format of the atomics. -/
def encAtom (func : Nat) (rd ra rb : BitVec 5) : BitVec 32 := encWord 0x1C rd ra (rb ++ BitVec.ofNat 11 func)

/-- SHIFTI: function at bits 15:14, must-be-0 bits 13:6, amount. -/
def encShifti (func : Nat) (rd ra : BitVec 5) (z : BitVec 8) (amt : BitVec 6) : BitVec 32 :=
  encWord 0x08 rd ra (BitVec.ofNat 2 func ++ z ++ amt)

/-- SYS: function at bits 15:12 and the rest of imm16 (Table 3-6). -/
def encSys (func : Nat) (rd ra : BitVec 5) (low : BitVec 12) : BitVec 32 :=
  encWord 0x2E rd ra (BitVec.ofNat 4 func ++ low)

/-- Link format: rd and off21. -/
def encLink (op : Nat) (rd : BitVec 5) (off : BitVec 21) : BitVec 32 := BitVec.ofNat 6 op ++ rd ++ off

/-- Cmd format (Table 3-8). -/
def encCmd (cop : Nat) (rd ra rb : BitVec 5) (imm : BitVec 5) : BitVec 32 :=
  encWord 0x30 rd ra (rb ++ BitVec.ofNat 6 cop ++ imm)

/-- The opcodes, functions and commands of Tables 3-3, 3-4, 3-6 and 3-8; every other value is reserved (R82). -/
def wordReserved (w : BitVec 32) : Bool :=
  let n := w.toNat
  let op := bits n 26 6
  let low := bits n 0 16
  if op = 0x01 then
    !([0, 1, 2, 3, 4, 5, 6, 7, 8, 9, 10, 11, 12, 13, 16, 17, 18, 20, 21, 28, 29, 30].contains (bits low 0 6))
  else if op = 0x08 then bits low 14 2 == 3
  else if op = 0x1C then !(decide (bits low 0 11 ≤ 3))
  else if op = 0x2E then !([0, 1, 2, 3, 8, 9, 10, 11].contains (bits low 12 4))
  else if op = 0x30 then
    !([0, 1, 2, 3, 4, 5, 8, 9, 12, 13, 14, 15, 20, 21, 24, 25, 26, 28, 29, 32, 33].contains (bits low 5 6))
  else !([2, 3, 4, 5, 6, 7, 9, 16, 17, 18, 19, 20, 21, 22, 24, 25, 26, 27, 32, 33, 34, 35, 36, 37, 38, 39].contains op)

/-! ### Sequencer operands -/

/-- The scratchpad size S (R156). -/
def Tile.size (tl : Tile) : Nat := tl.rd F.TIL_SCRATCH_SIZE.size 0

/-- A general register; g0 reads 0 (R76). -/
def Seq.get (q : Seq) (r : BitVec 5) : Word := if r = 0 then 0 else q.g[r.toNat]
/-- Write a general register; g0 discards (R76). -/
def Seq.put (q : Seq) (r : BitVec 5) (v : Word) : Seq :=
  if r = 0 then q else { q with g := q.g.set r.toNat v }

def Tile.gr (tl : Tile) (r : BitVec 5) : Word := tl.seq.get r

def sext16 (i : BitVec 16) : Word := i.signExtend 64
def zext16 (i : BitVec 16) : Word := i.setWidth 64

/-- An address operand: aligned to `al` and with `len` bytes inside the scratchpad (R90). -/
def Tile.addrOk (tl : Tile) (v : Word) (al len : Nat) : Bool :=
  decide (v.toNat % al = 0) && decide (v.toNat + len ≤ tl.size)

/-- An arrival counter c has reached a target v (R92). -/
def reached (c v : Nat) : Bool := decide ((c + 2 ^ 32 - v % 2 ^ 32) % 2 ^ 32 < 2 ^ 31)

/-! ### Stream addresses -/

/-- The usable LPDDR range for the channels in service: n × 7.5 GiB (R269). -/
def lpddrTop (c : Ctx) : Nat := c.chans.length * 8053063680

/-- A stream address is out of range in its space (R176, R269, R348). -/
def streamRange (c : Ctx) (tl : Tile) (space : Nat) (a : Word) (ctrEn : Bool) (ctr : Nat) : Bool :=
  let n := a.toNat
  match space with
  | 0 => decide (tl.size ≤ n)
  | 1 => decide (n / 2 ^ 44 ≠ 0) || decide (bits n 21 11 ≠ 0) || decide (2304 ≤ bits n 32 12) || decide (tl.size ≤ bits n 0 21)
  | 2 => decide (lpddrTop c ≤ n)
  | 3 => decide (lpddrTop c ≤ n)
  | 4 => decide (n / 2 ^ 47 ≠ 0) || decide (2304 ≤ bits n 21 12) || decide (tl.size ≤ bits n 0 21) || (ctrEn && decide (14 < ctr))
  | _ => false

/-- The logical channel's physical number and the channel line index of a usable byte address (R268). -/
def lpddrMap (chans : List Nat) (a : Nat) : Nat × Nat :=
  let l := a / 64
  (chans.getD (l % chans.length) 0, l / chans.length)

/-- Bank of a channel line: rank × 16 + bank index, and the block of its code line (R268). -/
def lpddrBank (m : Nat) : Nat := m % 2 * 16 + m / 2 % 16
def lpddrBlock (m : Nat) : Nat := m / 32 / 15
/-- Line within the block, row of the bank and half of the row (R268), and back: the channel line index at a bank, block and
position. -/
def lpddrPos (m : Nat) : Nat := m / 32 % 15
def lpddrRow (m : Nat) : Nat := lpddrBlock m / 2
def lpddrHalf (m : Nat) : Nat := lpddrBlock m % 2
def lpddrLine (bank row half pos : Nat) : Nat := 32 * (15 * (2 * row + half) + pos) + 2 * (bank % 16) + bank / 16

/-! ### Meridian headers -/

/-- DATA header of a beat to another tile (R200, R202). -/
def hdrData (tile line ctr cast atomic src : Nat) (ctrEn : Bool) : Word :=
  BitVec.ofNat 64 (tile % 48 * 2 ^ 3 + tile / 48 * 2 ^ 9 + cast * 2 ^ 15 + ctrEn.toNat * 2 ^ 17 + ctr * 2 ^ 18
    + atomic * 2 ^ 24 + line * 2 ^ 26 + src * 2 ^ 41)

/-- SIGNAL header (R200). -/
def hdrSignal (tile ctr amount src : Nat) : Word :=
  BitVec.ofNat 64 (1 + tile % 48 * 2 ^ 3 + tile / 48 * 2 ^ 9 + 2 ^ 17 + ctr * 2 ^ 18 + amount * 2 ^ 25 + src * 2 ^ 41)

/-- The position beside a memory channel's port (R30). -/
def chanX (ch : Nat) : Nat := ch % 48
def chanY (ch : Nat) : Nat := if ch < 48 then 0 else 47

/-- MEM_READ header (Table 8-2). -/
def hdrMemRead (ch line ctr atomic src slot : Nat) (ctrEn : Bool) : Word :=
  BitVec.ofNat 64 (2 + chanX ch * 2 ^ 3 + chanY ch * 2 ^ 9 + ctrEn.toNat * 2 ^ 17 + ctr * 2 ^ 18 + atomic * 2 ^ 24
    + line * 2 ^ 26 + src * 2 ^ 41 + slot * 2 ^ 53)

/-- MEM_WRITE header (Table 8-2). -/
def hdrMemWrite (ch m src slot : Nat) : Word :=
  BitVec.ofNat 64 (3 + chanX ch * 2 ^ 3 + chanY ch * 2 ^ 9 + m % 2 ^ 24 * 2 ^ 17 + src * 2 ^ 41 + slot * 2 ^ 53
    + m / 2 ^ 24 * 2 ^ 56)

/-- EDGE_OUT header (Table 10-5, R347). -/
def hdrEdgeOut (tile eid dst line atomic ctrc : Nat) : Word :=
  BitVec.ofNat 64 (5 + (if tile % 48 < 24 then 0 else 47) * 2 ^ 3 + tile / 48 * 2 ^ 9 + eid * 2 ^ 17 + dst * 2 ^ 31
    + line * 2 ^ 43 + atomic * 2 ^ 58 + ctrc * 2 ^ 60)

/-- Fields of a Meridian header (Table 6-2). -/
def hKind (h : Word) : Nat := bits h.toNat 0 3
def hDx (h : Word) : Nat := bits h.toNat 3 6
def hDy (h : Word) : Nat := bits h.toNat 9 6
def hCast (h : Word) : Nat := bits h.toNat 15 2
def hCtrEn (h : Word) : Bool := decide (bits h.toNat 17 1 = 1)
def hCtr (h : Word) : Nat := bits h.toNat 18 6
def hAtomic (h : Word) : Nat := bits h.toNat 24 2
def hLine (h : Word) : Nat := bits h.toNat 26 15
def hSrc (h : Word) : Nat := bits h.toNat 41 12
def hAmount (h : Word) : Nat := bits h.toNat 25 16

end Sys2Proof.Machine
end

