-- ==== Sys2Proof/Machine/TileOps.lean ====
section
/-! DEFINITION. The named operations of one tile that every family of commands shares: completing and blocking an
instruction, the wait word, taking a trap and stopping, arrival counters, bank atomics. Each is a function of the tile alone;
what leaves the tile is a list of `Out`. -/
namespace Sys2Proof.Machine

/-! ### Slots and counters -/

def Tile.slot (tl : Tile) (i : Nat) : Slot := tl.slots.get i .reset
def Tile.setSlot (tl : Tile) (i : Nat) (sl : Slot) : Tile := { tl with slots := tl.slots.set i sl }
def Tile.fslot (tl : Tile) (i : Nat) : Fused := tl.fused.get i .reset
def Tile.setFslot (tl : Tile) (i : Nat) (f : Fused) : Tile := { tl with fused := tl.fused.set i f }

/-- A slot is armed while ARMING, RUNNING or PARKED (R169). -/
def SlotState.armed : SlotState → Bool
  | .arming => true | .running => true | .parked => true | _ => false

/-- A slot counts as idle for SWAIT and HALT (R175). -/
def SlotState.atRest : SlotState → Bool
  | .idle => true | .parked => true | _ => false

def Tile.slotsAll (tl : Tile) (p : Slot → Bool) : Bool := (List.range 8).all (fun i => p (tl.slot i))
def Tile.fusedAll (tl : Tile) (p : Fused → Bool) : Bool := (List.range 4).all (fun i => p (tl.fslot i))

/-- All additions of one cycle are summed (R166); a CTRSET of the same cycle keeps them (R92). -/
def Tile.ctrAdd (c : Ctx) (j n : Nat) (tl : Tile) : Tile :=
  let t1 := tl.addWrap F.TIL_ARRIVAL.count j n
  let a := tl.ctrAdds.get j (c.cycle, 0)
  { t1 with ctrAdds := tl.ctrAdds.set j (c.cycle, (if a.1 = c.cycle then a.2 else 0) + n) }

/-- CTRSET, and a write of TIL_ARRIVAL: the value plus the additions of this cycle (R92, R168). -/
def Tile.ctrSet (c : Ctx) (j v : Nat) (tl : Tile) : Tile :=
  let a := tl.ctrAdds.get j (c.cycle, 0)
  tl.wr F.TIL_ARRIVAL.count j (v + (if a.1 = c.cycle then a.2 else 0))

/-! ### Scratchpad -/

def Tile.load (tl : Tile) (a n : Nat) : Nat := Mem.num 0 tl.spad a n
def Tile.bytes (tl : Tile) (a n : Nat) : List Byte := Mem.bytes 0 tl.spad a n
def Tile.store (a n v : Nat) (tl : Tile) : Tile := { tl with spad := Mem.putNum 0 tl.spad a n v }
def Tile.storeBytes (a : Nat) (l : List Byte) (tl : Tile) : Tile := { tl with spad := Mem.putBytes 0 tl.spad a l }

/-- One atomic element at the bank (R164): 1 ADD32, 2 ADD64, 3 ADDX96. -/
def atomicElem (kind old v : Nat) : Nat :=
  match kind with
  | 1 => (old + v) % 2 ^ 32
  | 2 => (old + v) % 2 ^ 64
  | _ => ((X96.ofNat old).add (X96.ofNat v)).toNat

def atomicWidth (kind : Nat) : Nat := match kind with | 1 => 4 | 2 => 8 | _ => 16

/-- The atomic operations of a beat, lowest address first. -/
def Tile.atomics (kind : Nat) : Nat → Nat → List Byte → Tile → Tile
  | 0, _, _, tl => tl
  | n + 1, a, l, tl =>
    let w := atomicWidth kind
    Tile.atomics kind n (a + w) (l.drop w) (tl.store a w (atomicElem kind (tl.load a w) (leNat (l.take w))))

/-- One of a beat's ADDX96 operations gives the mismatch result of R59. -/
def anyMismatch (tl : Tile) : Nat → Nat → List Byte → Bool
  | 0, _, _ => false
  | n + 1, a, l =>
    X96.mismatches (X96.ofNat (tl.load a 16)) (X96.ofNat (leNat (l.take 16))) || anyMismatch tl n (a + 16) (l.drop 16)

/-! ### Slot buffers (R175) -/

/-- Bytes on their way to the buffer that have reached it. -/
def Slot.absorb (c : Ctx) (sl : Slot) : Slot :=
  let come := sl.incoming.filter (fun p => decide (p.1 ≤ c.cycle))
  { sl with buf := sl.buf ++ come.flatMap (·.2.2), arr := sl.arr ++ come.map (fun p => (p.1, p.2.2.length)),
            incoming := sl.incoming.filter (fun p => decide (c.cycle < p.1)) }

/-- The record of arrivals after the `n` oldest bytes have been taken. -/
def dropArr : Nat → List (Nat × Nat) → List (Nat × Nat)
  | _, [] => []
  | n, (k, m) :: r => if m ≤ n then dropArr (n - m) r else (k, m - n) :: r

/-- Take the `n` oldest bytes of the buffer. -/
def Slot.takeBuf (n : Nat) (sl : Slot) : Slot := { sl with buf := sl.buf.drop n, arr := dropArr n sl.arr }

/-- The cycle in which the last of the `n` oldest bytes of the buffer came. -/
def Slot.cameBy (n : Nat) (sl : Slot) : Nat := match dropArr (n - 1) sl.arr with | (k, _) :: _ => k | [] => 0

/-- Bytes in the buffer and on their way to it. -/
def Slot.fill (sl : Slot) : Nat := sl.buf.length + (sl.incoming.map (fun p => p.2.2.length)).sum

/-! ### Sequencer -/

/-- The instruction word at pc (R77). -/
def Tile.fetch (tl : Tile) : BitVec 32 := BitVec.ofNat 32 (tl.load tl.seq.pc.toNat 4)

/-- Leave the wait: its cycles count in TIL_STALL (Table 3-27) and the wait word returns to NONE (R94). -/
def Seq.endWait (c : Ctx) (q : Seq) : Seq :=
  { q with blk := none, since := 0, sinceCycle := c.cycle,
           stall := if q.blk.isSome then q.stall + BitVec.ofNat 64 (c.cycle - q.sinceCycle) else q.stall }

/-- Complete the instruction in progress: its result, the next pc, one more instruction retired. -/
def Tile.complete (c : Ctx) (rd : BitVec 5) (v : Word) (tl : Tile) : Tile :=
  let q := (tl.seq.endWait c).put rd v
  { tl with seq := { q with pc := q.pc + 4, retired := q.retired + 1 } }

/-- Block on a wait that begins in this cycle (R94). -/
def Tile.block (c : Ctx) (rd : BitVec 5) (w : Wait) (tl : Tile) : Tile :=
  { tl with seq := { tl.seq with blk := some ⟨w, rd⟩, since := c.sidereal, sinceCycle := c.cycle } }

/-- The wait word (Table 3-9). Of a tile that went into TRANSIT from IDLE the spec does not say which kind shows: it is
TRANSIT, and its cycles count in TIL_STALL (DESIGN CHOICE, log entry 17). -/
def Tile.waitWord (tl : Tile) : Nat :=
  let busy : Nat := match tl.seq.blk with
    | none => if tl.st = .transit then 0xA else 0
    | some b =>
      match b.wait with
      | .recv q _ => 0x1 + q * 2 ^ 4
      | .send e => 0x2 + tl.rd F.TIL_CHS_CFG.queue e * 2 ^ 4
          + (if tl.rd F.TIL_CHS_CFG.remote e = 1 then 0xFFF else tl.rd F.TIL_CHS_CFG.tile e) * 2 ^ 10
      | .counter k _ => 0x3 + k * 2 ^ 4
      | .barrier i => 0x4 + i * 2 ^ 4
      | .sidereal _ => 0x5
      | .streamStop s => 0x6 + s * 2 ^ 4
      | .stream s => 0x6 + s * 2 ^ 4
      | .lattice => 0x7
      | .fused f => 0x8 + f * 2 ^ 4
      | .vld => 0x9
      | .vsync => 0x9
      | .transit => 0xA
      | .haltDrain => 0xB
  match tl.st with
  | .offline => 0xD
  | .fenced => 0xD
  | .retired => 0xD
  | .idle => 0xC
  | _ => busy

/-- The control registers elapsed and TIL_STALL as they read now. -/
def Tile.elapsed (c : Ctx) (tl : Tile) : Word :=
  match tl.seq.entered with
  | some e => BitVec.ofNat 64 (c.cycle - e)
  | none => 0

def Tile.stallNow (c : Ctx) (tl : Tile) : Word :=
  if tl.seq.blk.isSome || tl.st == .transit then tl.seq.stall + BitVec.ofNat 64 (c.cycle - tl.seq.sinceCycle) else tl.seq.stall

/-- The phase of the last LLOAD is in force, or its load was refused (R143, R147). -/
def Lattice.loadDone (c : Ctx) (l : Lattice) : Bool :=
  match l.load with
  | none => true
  | some d =>
    match d.st with
    | .committing => decide (d.inForce ≤ c.cycle)
    | .flushing => true
    | _ => false

/-- The condition on which a blocked instruction completes by itself holds (Table 3-8). -/
def Tile.waitOver (c : Ctx) (tl : Tile) : Wait → Bool
  | .counter k v => reached (tl.rd F.TIL_ARRIVAL.count k) v
  | .stream s => (tl.slot s).st.atRest
  | .lattice => tl.lat.loadDone c
  | .fused f => !(tl.fslot f).busy
  | .vsync => decide (tl.seq.vstOut = 0)
  | _ => false

/-- Complete the blocked instruction if its condition has come to hold. A tile that is not RUNNING completes none, nor does a gated
sequencer (R517). -/
def Tile.settle (c : Ctx) (tl : Tile) : Tile :=
  if tl.st = .running ∧ c.gated = false then
    match tl.seq.blk with
    | some b => if tl.waitOver c b.wait then tl.complete c b.rd 0 else tl
    | none => tl
  else tl

/-- A tile in one of these states takes part in nothing: it discards replies addressed to it (R259), and its units stand still
(R152, R196). -/
def Tile.deaf (tl : Tile) : Bool := tl.st == .offline || tl.st == .fenced || tl.st == .retired

/-! ### Stopping and traps (R96, R102 to R106) -/

/-- TIL_STOP as a word. -/
def Tile.stopWord (tl : Tile) : Word :=
  BitVec.ofNat 64 (tl.rd F.TIL_STOP.stop_pc 0 * 2 ^ 32 + tl.rd F.TIL_STOP.stop_reason 0 * 2 ^ 8 + tl.rd F.TIL_STOP.stop_cause 0)

def Tile.setStop (reason cause pc : Nat) (tl : Tile) : Tile :=
  ((tl.wr F.TIL_STOP.stop_reason 0 reason).wr F.TIL_STOP.stop_cause 0 cause).wr F.TIL_STOP.stop_pc 0 pc

/-- The waits for a credit of a tile's sends end with the tile's RUNNING: their cycles count (Table 7-8). -/
def Tile.sendsEnd (c : Ctx) (tl : Tile) : Tile :=
  (tl.sends.filter (fun x => x.handed == none)).foldl (fun t x => t.addSat F.TIL_CHS_STATE.stall x.entry (c.cycle - x.began))
    { tl with sends := [], refusing := [] }

/-- Enter FENCED: the instruction in progress is abandoned; registers, slots, lattice and queues keep their values
(R106, R152, R196, R256). -/
def Tile.toFenced (c : Ctx) (tl : Tile) : Tile :=
  let t1 := tl.sendsEnd c
  { t1 with st := .fenced, goAt := none, seq := { (t1.seq.endWait c) with since := c.sidereal } }

/-- A double trap or a trap without a vector stops the tile (R104). -/
def Tile.stopTrap (c : Ctx) (reason code : Nat) (f : Fld) (tl : Tile) : Tile × List Out :=
  let t1 := ((tl.setStop reason code (tl.seq.pc.toNat % 2 ^ 21)).seqFlag c f).toFenced c
  (t1, [.record 0x02 1 0 0 t1.stopWord 0 0 2])

/-- Trap entry (R102), or the stop of R104. hbase is judged with bits 8:0 ignored (log entry 12). A synchronous trap in the handler while
hbase is 0 meets both conditions of R104, which gives no order: DOUBLE_TRAP is reported (DESIGN CHOICE, log entry 12). -/
def Tile.takeTrap (c : Ctx) (code : Nat) (async : Bool) (resume arg : Word) (tl : Tile) : Tile × List Out :=
  let base := tl.seq.hbase &&& 0xFFFFFFFFFFFFFE00#64
  if tl.seq.inHandler && !async then tl.stopTrap c 2 code F.TIL_SEQ_STATUS.double_trap
  else if base = 0 then tl.stopTrap c 3 code F.TIL_SEQ_STATUS.no_vector
  else
    let q := { tl.seq with hresume := resume, hcode := BitVec.ofNat 64 (code + (if async then 256 else 0)), harg := arg,
                           inHandler := true, pc := base + BitVec.ofNat 64 (16 * code) }
    (({ tl with seq := q }).seqFlag c F.TIL_SEQ_STATUS.trap_taken, [])

/-- The order of pending causes: lowest code first, and among STREAM_ABORTs the lowest slot (R103, R188). -/
def Pend.rank (p : Pend) : Nat := p.code * 16 + (if p.code = 0x12 then p.arg.toNat % 16 else 0)

def leastPend : List Pend → Option Pend
  | [] => none
  | p :: r => match leastPend r with
    | none => some p
    | some q => if q.rank < p.rank then some q else some p

/-- The asynchronous trap to be taken at a boundary in this cycle: raised in an earlier cycle, and not in a handler
(R99, R103). -/
def Tile.dueTrap (c : Ctx) (tl : Tile) : Option Pend :=
  if tl.seq.inHandler then none else leastPend (tl.seq.pend.filter (fun p => decide (p.cycle < c.cycle)))

/-- Take a pending asynchronous trap: it is no longer pending; NUMERIC's argument is read now (Table 3-11). -/
def Tile.takeAsync (c : Ctx) (p : Pend) (tl : Tile) : Tile × List Out :=
  let t1 := { tl with seq := { tl.seq with pend := tl.seq.pend.erase p } }
  let arg := if p.code = 0x11 then BitVec.ofNat 64 ((t1.word .TIL_NUM_STATUS 0).toNat % 2 ^ 8)
    else p.arg
  t1.takeTrap c p.code true t1.seq.pc arg

/-- SLIP (R96): record the target and the lateness, stop the tile, and drive the fault line. -/
def Tile.slip (c : Ctx) (target : Nat) (late : Nat) (cause pc : Nat) (tl : Tile) : Tile × List Out :=
  let lt := min late (2 ^ 32 - 1)
  let t1 := (tl.wr F.TIL_SLIP.target_lo 0 target).wr F.TIL_SLIP.lateness 0 lt
  let t2 := (((t1.seqFlag c F.TIL_SEQ_STATUS.slip).setStop 1 cause pc)).toFenced c
  (t2, [.faultLine, .record 0x01 1 0 0 (BitVec.ofNat 64 (target % 2 ^ 32 * 2 ^ 32 + lt)) 0 0 3])

/-- A slip of stream slot `s` (R96, R184): the sequencer's pc and cause 0x10 + s. -/
def Tile.slipSlot (c : Ctx) (s target late : Nat) (tl : Tile) : Tile × List Out :=
  tl.slip c target late (0x10 + s) (tl.seq.pc.toNat % 2 ^ 21)

end Sys2Proof.Machine
end

