-- ==== Sys2Proof/Machine/Ports.lean ====
section
/-! DEFINITION. The bank ports of a tile (R157 to R165, R197): master classes, owners, the grant of a port in a cycle, what a
delayed access moves, plain writes and atomics at the bank; and the issue of an instruction, whose fetch is an access. -/
namespace Sys2Proof.Machine

/-- The context of an earlier or later cycle of the same run. -/
def Ctx.back (c : Ctx) (k : Nat) : Ctx := { c with cycle := k, sidereal := c.sidereal + k - c.cycle }

/-! ### Classes and their order (Table 5-1, R159) -/

def BankUnit.cls : BankUnit → BankClass
  | .fetch => .seq | .data => .seq | .chan => .seq | .vesper => .seq
  | .slot _ => .str | .fused _ => .str
  | .load => .lat | .transit => .lat
  | .landing => .lnd

/-- The code of a class, Table 5-1. -/
def BankClass.code : BankClass → Nat
  | .seq => 0 | .str => 1 | .lat => 2 | .lnd => 3

/-- The place of a unit inside its class. -/
def BankUnit.sub : BankUnit → Nat
  | .fetch => 0 | .data => 1 | .chan => 2 | .vesper => 3
  | .slot s => s | .fused f => 8 + f
  | .load => 0 | .transit => 1
  | .landing => 0

/-- The bank of a byte address (R156), and those that `n` bytes touch. -/
def Tile.bankOf (tl : Tile) (a : Nat) : Nat := a / (tl.size / 4)
def Tile.banksOf (tl : Tile) (a n : Nat) : List Nat := [tl.bankOf a, tl.bankOf (a + n - 1)].dedup

def ownerField : Nat → Fld
  | 0 => F.TIL_BANK_OWNER.owner0 | 1 => F.TIL_BANK_OWNER.owner1 | 2 => F.TIL_BANK_OWNER.owner2 | _ => F.TIL_BANK_OWNER.owner3

/-- The owner class of a bank in cycle `k`: a write of TIL_BANK_OWNER counts from the cycle after it (R197). -/
def Tile.owner (k b : Nat) (tl : Tile) : Nat :=
  match tl.bank.ownerWas with
  | some (w, v) => if k ≤ w then bits v (2 * b) 2 else tl.rd (ownerField b) 0
  | none => tl.rd (ownerField b) 0

/-- The order in which a bank's ports grant in cycle `k`, least first (R159): LND, the owner class, then STR, LAT, SEQ. -/
def Tile.prio (k b : Nat) (u : BankUnit) (tl : Tile) : Nat :=
  match u.cls with
  | .lnd => u.sub
  | .str => (if tl.owner k b = 1 then 16 else 32) + u.sub
  | .lat => (if tl.owner k b = 2 then 16 else 64) + u.sub
  | .seq => (if tl.owner k b = 0 then 16 else 96) + u.sub

/-! ### Grants and delays (R159, R160) -/

def Tile.setBank (tl : Tile) (b : BankSt) : Tile := { tl with bank := b }

/-- The grant of a port in cycle `k`. -/
def Tile.grant? (k b : Nat) (write : Bool) (tl : Tile) : Option Grant :=
  tl.bank.grants.find? (fun g => g.at_ == k && g.bank == b && g.write == write)

/-- The port can serve a unit in cycle `k`: it is free, or what it serves comes after the unit. -/
def Tile.grants (k b : Nat) (write : Bool) (u : BankUnit) (tl : Tile) : Bool :=
  match tl.grant? k b write with
  | none => true
  | some g => decide (tl.prio k b u < tl.prio k b g.by_)

/-- TIL_BANK_WAIT counts a cycle in which an access waits, once (R160, Table 5-14). -/
def Tile.bankWait (k b : Nat) (write : Bool) (u : BankUnit) (tl : Tile) : Tile :=
  if tl.bank.waits.contains (k, b, write, u) then tl
  else
    let t1 := tl.setBank { tl.bank with waits := (k, b, write, u) :: tl.bank.waits.filter (fun x => decide (k ≤ x.1)) }
    match u.cls with
    | .seq => t1.addSat F.TIL_BANK_WAIT.seq b 1
    | .str => t1.addSat F.TIL_BANK_WAIT.str b 1
    | .lat => t1.addSat F.TIL_BANK_WAIT.lat b 1
    | .lnd => tl

/-- An access of a slot has waited in cycle `k`: its own completion and every event after it in the slot come one cycle later (R160).
What is due after `k` comes after a write that waited; after a read that waited comes what is due after `k + 1`, for the beat before it
completes in that cycle, and its own completion lies two cycles after it. -/
def Slot.later (k : Nat) (write : Bool) (sl : Slot) : Slot :=
  let n (a : Nat) : Nat := if k < a then a + 1 else a
  let m (a : Nat) : Nat := if (if write then k else k + 1) < a then a + 1 else a
  { sl with
    due := n sl.due
    incoming := sl.incoming.map (fun p => (m p.1, p.2))
    writes := sl.writes.map (fun w => { w with at_ := m w.at_ })
    baseAt := sl.baseAt.map n
    rows := sl.rows.map (fun r => { r with next := n r.next })
    out := sl.out.map (fun p => (m p.1, p.2)) }

/-- An access of a unit has waited in cycle `k`: what the unit does after it comes one cycle later (R160). In a timed section of a
stream that is later than R182 places it, and raises SLIP (R184). -/
def Tile.delayed (c : Ctx) (k : Nat) (u : BankUnit) (write timed : Bool) (tl : Tile) : Tile × List Out :=
  match u with
  | .slot s =>
    let t1 : Tile := { tl.setSlot s ((tl.slot s).later k write) with
      inj := tl.inj.map (fun i => if i.slot = s ∧ k + 1 < i.h then { i with h := i.h + 1 } else i) }
    if timed ∧ t1.st = .running then t1.slipSlot (c.back k) s (c.back k).sidereal 1 else (t1, [])
  | .fused f => (tl.setFslot f { (tl.fslot f) with due := (tl.fslot f).due + 1 }, [])
  | .load => match tl.lat.load with
    | some d => ({ tl with lat := { tl.lat with load := some { d with issued := d.issued + 1 } } }, [])
    | none => (tl, [])
  | .fetch => (tl.setBank { tl.bank with hold := max tl.bank.hold (k + 2) }, [])
  | .data => (tl.setBank { tl.bank with hold := max tl.bank.hold (k + 2) }, [])
  | .chan => (tl.setBank { tl.bank with hold := max tl.bank.hold (k + 2) }, [])
  | _ => (tl, [])

/-- The write of an atomic moves with its grant. -/
def Atom.moved (tl : Tile) (g : Grant) (x : Atom) : Atom :=
  if g.write ∧ x.at_ = g.at_ ∧ x.by_ = g.by_ ∧ tl.bankOf x.addr = g.bank then { x with at_ := x.at_ + 1 } else x

/-- A grant gives way to an access that comes before it: it waits, its unit's later events move, and it is offered in the next
cycle, where it may make another give way. -/
def Tile.giveWay (c : Ctx) : Nat → Grant → Tile → Tile × List Out
  | 0, _, tl => (tl, [])
  | n + 1, g, tl =>
    let t1 := tl.bankWait g.at_ g.bank g.write g.by_
    let t2 := t1.setBank { t1.bank with atoms := t1.bank.atoms.map (Atom.moved t1 g), grants := t1.bank.grants.erase g }
    let r := t2.delayed c g.at_ g.by_ g.write g.timed
    let g1 : Grant := { g with at_ := g.at_ + 1 }
    match r.1.grant? g1.at_ g1.bank g1.write with
    | none => (r.1.setBank { r.1.bank with grants := r.1.bank.grants ++ [g1] }, r.2)
    | some h =>
      if r.1.prio g1.at_ g1.bank g1.by_ < r.1.prio g1.at_ g1.bank h.by_ then
        let q := Tile.giveWay c n h r.1
        (q.1.setBank { q.1.bank with grants := q.1.bank.grants ++ [g1] }, r.2 ++ q.2)
      else
        let q := Tile.giveWay c n g1 r.1
        (q.1, r.2 ++ q.2)

/-- Grant a port in cycle `k` to a unit that it can serve; what it was granted to before gives way. -/
def Tile.takePort (c : Ctx) (k : Nat) (u : BankUnit) (timed write : Bool) (a : Nat) (l : List Byte) (b : Nat) (tl : Tile) : Tile × List Out :=
  let r := match tl.grant? k b write with
    | some h => tl.giveWay c 8 h
    | none => (tl, [])
  (r.1.setBank { r.1.bank with grants := r.1.bank.grants ++ [⟨b, write, k, u, timed, a, l⟩] }, r.2)

/-- Sequence two steps of a tile. -/
def andThen (a : Tile × List Out) (f : Tile → Tile × List Out) : Tile × List Out :=
  let b := f a.1
  (b.1, a.2 ++ b.2)

/-- Ask the ports of banks `bs` in cycle `k` (R159). Where one does not serve the access, the access waits and is to be offered
again in the next cycle: `error` holds the tile with the wait counted. -/
def Tile.askBanks (c : Ctx) (k : Nat) (u : BankUnit) (timed write : Bool) (a : Nat) (l : List Byte) (bs : List Nat) (tl0 : Tile) :
    Except Tile (Tile × List Out) :=
  let tl := tl0.setBank { tl0.bank with grants := tl0.bank.grants.filter (fun g => decide (c.cycle ≤ g.at_)) }
  let no := bs.filter (fun b => !(tl.grants k b write u))
  if no = [] then .ok (bs.foldl (fun p b => andThen p (Tile.takePort c k u timed write a l b)) (tl, []))
  else .error (no.foldl (fun t b => t.bankWait k b write u) tl)

/-- Ask the ports of the banks that `n` bytes at `a` touch. -/
def Tile.ask (c : Ctx) (k : Nat) (u : BankUnit) (timed write : Bool) (a n : Nat) (l : List Byte) (tl : Tile) : Except Tile (Tile × List Out) :=
  tl.askBanks c k u timed write a l (tl.banksOf a n)

/-! ### Plain writes (R161, R165) -/

/-- Bytes written at the bank; a write into the line of the fetch buffer invalidates it (R87). -/
def Tile.put (a : Nat) (l : List Byte) (tl : Tile) : Tile :=
  let t1 := tl.storeBytes a l
  match tl.bank.line with
  | some k => if a < 64 * k + 64 ∧ 64 * k < a + l.length then t1.setBank { t1.bank with line := none } else t1
  | none => t1

/-- An atomic in progress covers a byte of the range (R165). -/
def Tile.inAtomic (k a n : Nat) (tl : Tile) : Bool :=
  tl.bank.atoms.any (fun x => decide (k < x.at_) && decide (x.addr < a + n) && decide (a < x.addr + x.bytes.length))

/-- Writes that gave way in cycle `k` are granted after it: their bytes stand (R161). -/
def Tile.writesAfter (k : Nat) (tl : Tile) : Tile :=
  [1, 2, 3].foldl (fun t j => (t.bank.grants.filter (fun g => g.write && g.at_ == k + j)).foldl (fun t g => t.put g.addr g.bytes) t) tl

/-- A plain write in cycle `k`: one of SEQ, STR or LAT is held while an atomic is in progress on its bytes (R165); a landing is never
held or delayed (R160). -/
def Tile.plainWrite (c : Ctx) (k : Nat) (u : BankUnit) (timed : Bool) (a : Nat) (l : List Byte) (tl : Tile) : Except Tile (Tile × List Out) :=
  if u.cls ≠ .lnd ∧ tl.inAtomic k a l.length then
    .error ((tl.banksOf a l.length).foldl (fun t b => t.bankWait k b true u) tl)
  else match tl.ask c k u timed true a l.length l with
    | .ok r => .ok ((r.1.put a l).writesAfter k, r.2)
    | .error t => if u.cls = .lnd then .ok ((tl.put a l).writesAfter k, []) else .error t

/-! ### Atomics (R164, R165) -/

/-- The scratchpad as it will be once every atomic in progress has written. -/
def Tile.withAtoms (tl : Tile) : Tile := tl.bank.atoms.foldl (fun t x => t.storeBytes x.addr x.bytes) tl

/-- An atomic accepted in this cycle: its result is written in cycle c + 2, on the write port. -/
def Tile.pendAtomic (c : Ctx) (u : BankUnit) (a : Nat) (res : List Byte) (ctr landing : Option Nat) (tl : Tile) : Tile :=
  let bs := tl.banksOf a res.length
  let w := ([2, 3, 4].find? (fun j => bs.all (fun b => (tl.grant? (c.cycle + j) b true).isNone))).getD 2 + c.cycle
  tl.setBank { tl.bank with
    atoms := tl.bank.atoms ++ [⟨w, a, res, u, ctr, landing⟩]
    grants := tl.bank.grants ++ bs.map (fun b => ⟨b, true, w, u, false, a, []⟩) }

/-- The atomic operations of a beat are accepted (R164): each sees the results of those accepted before it (R165). An X96 mismatch
sets x96_mismatch. -/
def Tile.acceptAtomic (c : Ctx) (u : BankUnit) (kind a : Nat) (l : List Byte) (ctr landing : Option Nat) (tl : Tile) : Tile :=
  let n := l.length / atomicWidth kind
  let v := tl.withAtoms
  let t1 := tl.pendAtomic c u a ((Tile.atomics kind n a l v).bytes a l.length) ctr landing
  if kind = 3 then t1.numFlagIf c (anyMismatch v n a l) F.TIL_NUM_STATUS.x96_mismatch else t1

/-- An atomic writes its result; the counter that it counts on increases (R164, R167). -/
def Tile.writeAtomic (c : Ctx) (x : Atom) (tl : Tile) : Tile :=
  let t1 := (tl.setBank { tl.bank with
    atoms := tl.bank.atoms.erase x
    grants := tl.bank.grants.map (fun g => if g.write ∧ g.at_ = x.at_ ∧ g.by_ = x.by_ ∧ g.addr = x.addr then { g with bytes := x.bytes } else g)
    }).put x.addr x.bytes
  match x.ctr with
  | some k => t1.ctrAdd c k 1
  | none => t1

/-! ### Message copies (Table 5-1, R251) -/

/-- The channel endpoint, or Vesper, reads or writes bytes 64 at a time, in each cycle from `k` on, or later where its port is
taken: the tile, and the cycle of the last access. `fuel` bounds the cycles. -/
def Tile.copyLines (c : Ctx) (u : BankUnit) (write : Bool) : Nat → Nat → Nat → List Byte → Tile → (Tile × List Out) × Nat
  | 0, k, a, l, tl => (if write then (tl.put a l, []) else (tl, []), k)
  | _, k, _, [], tl => ((tl, []), k - 1)
  | n + 1, k, a, b :: r, tl =>
    let x := (b :: r).take 64
    match (if write then tl.plainWrite c k u false a x else tl.ask c k u false false a x.length []) with
    | .ok p => let q := Tile.copyLines c u write n (k + 1) (a + 64) ((b :: r).drop 64) p.1
               ((q.1.1, p.2 ++ q.1.2), q.2)
    | .error t => Tile.copyLines c u write n (k + 1) a (b :: r) t

/-- A message's bytes written into the scratchpad by the channel endpoint, from the next cycle on. -/
def Tile.writeMsg (c : Ctx) (a : Nat) (l : List Byte) (tl : Tile) : (Tile × List Out) × Nat := tl.copyLines c .chan true 256 (c.cycle + 1) a l
/-- The channel endpoint reads the message at `a`, from the next cycle on. -/
def Tile.readMsg (c : Ctx) (a n : Nat) (tl : Tile) : Tile × List Out := (tl.copyLines c .chan false 256 (c.cycle + 1) a (tl.bytes a n)).1

/-! ### Issue (R77, R87, R99, R103) -/

/-- What an instruction at its boundary does: its effect, a synchronous trap (R99), a SLIP (R95), or, where its bank access is not
granted in this cycle, a wait: it is to be offered again in the next (R159). -/
inductive Act where
  | done (tl : Tile) (outs : List Out)
  | trap (code : Nat) (resume arg : Word)
  | slip (target late : Nat)
  | wait (tl : Tile)

/-- The fetch of the line that holds pc: none where the fetch buffer holds it, or has prefetched it (R87); else an access. -/
def Tile.fetchLine (c : Ctx) (tl : Tile) : Except Tile (Tile × List Out) :=
  let k := tl.seq.pc.toNat / 64
  if tl.bank.line = some k then .ok (tl, [])
  else if tl.bank.line.any (fun j => j + 1 == k) then .ok (tl.setBank { tl.bank with line := some k }, [])
  else match tl.ask c c.cycle .fetch false false (64 * k) 64 [] with
    | .ok r => .ok (r.1.setBank { r.1.bank with line := some k }, r.2)
    | .error t => .error t

/-- An effect that needs a granted access. A SLIP that the access brings about (R184) ends it. -/
def withPort (r : Except Tile (Tile × List Out)) (f : Tile → Act) : Act :=
  match r with
  | .error t => .wait t
  | .ok (t, o) => if t.st = .running then match f t with
      | .done t1 o1 => .done t1 (o ++ o1)
      | a => a
    else .done t o

/-- The sequencer is at an instruction boundary and no delayed access holds it (R77, R160). -/
def Tile.atBoundary (c : Ctx) (tl : Tile) : Bool := tl.st == .running && tl.seq.blk == none && decide (tl.bank.hold ≤ c.cycle)

/-- What an instruction's act comes to at a boundary: its synchronous trap comes before a pending asynchronous one, which comes
before its effect (R99, R103). -/
def Tile.perform (c : Ctx) (tl : Tile) (a : Act) : Tile × List Out :=
  match a with
  | .trap code resume arg => tl.takeTrap c code false resume arg
  | a => match tl.dueTrap c with
    | some p => tl.takeAsync c p
    | none => match a with
      | .done t1 outs => (t1, outs)
      | .slip target late => tl.slip c target late 0 (tl.seq.pc.toNat % 2 ^ 21)
      | .wait t1 => (t1, [])
      | .trap code resume arg => tl.takeTrap c code false resume arg

/-- Issue the instruction whose word is `w` (R77, R82): only on a RUNNING tile that is at an instruction boundary and whose next word
is `w`; a fetch beyond the scratchpad raises FETCH_RANGE. -/
def Tile.issue (c : Ctx) (w : BitVec 32) (act : Tile → Act) (tl0 : Tile) : Tile × List Out :=
  let tl := tl0.settle c
  if tl.atBoundary c = false then (tl, [])
  else if tl.size ≤ tl.seq.pc.toNat then tl.takeTrap c 0x03 false tl.seq.pc tl.seq.pc
  else if tl.fetch ≠ w then (tl, [])
  else match tl.fetchLine c with
    | .error t => (t, [])
    | .ok (t, o) => if t.st = .running then andThen (t, o) (fun t => t.perform c (act t)) else (t, o)

/-- The ILLEGAL trap of the instruction at pc (R82). -/
def illegal (w : BitVec 32) (tl : Tile) : Act := .trap 0x01 tl.seq.pc (w.setWidth 64)
/-- The CMD_OPERAND trap with the failing operand value (R90). -/
def badOperand (v : Word) (tl : Tile) : Act := .trap 0x08 tl.seq.pc v

end Sys2Proof.Machine
end

