-- ==== Sys2Proof/Machine/TileMsg.lean ====
section
/-! DEFINITION. The named operations of one tile on messages and on aborts: returning credits, sending and receiving messages,
aborting stream and fused slots. -/
namespace Sys2Proof.Machine

/-! ### Steps of a fused command (R190) -/

def FDesc.has (d : FDesc) (k : Nat) : Bool := bits d.flags k 1 == 1

/-- The descriptor asks for step `j`: its flag is set, and wait is whenever in or out is (R190). -/
def FDesc.asks (d : FDesc) (j : Nat) : Bool := match j with
  | 1 => d.has 0 | 2 => d.has 1 | 3 => d.has 2 | 4 => d.has 1 || d.has 2 | 5 => d.has 3 | 6 => d.has 4 | _ => d.has 7

/-- The next step of a descriptor after step `k`; 8 at the end (R190). -/
def FDesc.after (d : FDesc) (k : Nat) : Nat := ([1, 2, 3, 4, 5, 6, 7].find? (fun j => decide (k < j) && d.asks j)).getD 8

/-- The step before step `k`; 0, the validation, where there is none. -/
def FDesc.before (d : FDesc) (k : Nat) : Nat := ([7, 6, 5, 4, 3, 2, 1].find? (fun j => decide (j < k) && d.asks j)).getD 0

/-- The step in progress in a cycle: a step goes on until the next one begins (R190). -/
def Fused.stepNow (k : Nat) (x : Fused) : Nat := match x.desc with | some d => if k < x.due then d.before x.step else x.step | none => x.step

/-- A fused slot goes on after its step `k`, its next step beginning in cycle `due`. -/
def Fused.goOn (k due : Nat) (x : Fused) : Fused :=
  match x.desc with
  | some d => { x with step := d.after k, due := due, sent := false, sinceRecv := due,
                       done := if d.after k = 8 then (x.done + 1) % 2 ^ 32 else x.done }
  | none => x

/-! ### Messages: sending (R244, R248) -/

/-- The order in which senders of one entry are served. -/
def Sender.rank : Sender → Nat
  | .csend => 0 | .fused f => 1 + f | .cp => 5

def Tile.unit (tl : Tile) (u : Nat) : LUnit := tl.lat.units.get u .reset
def Tile.setUnit (u : Nat) (x : LUnit) (tl : Tile) : Tile := { tl with lat := { tl.lat with units := tl.lat.units.set u x } }

/-- A send has ended, OK or CLOSED: CSEND completes, a fused slot goes on to its signal step, CP collects again. -/
def Tile.sendEnds (c : Ctx) (who : Sender) (ok : Bool) (tl : Tile) : Tile :=
  match who with
  | .csend => match tl.seq.blk with
    | some b => tl.complete c b.rd (if ok then 0 else 1)
    | none => tl
  | .fused f => let x := tl.fslot f
    if x.busy ∧ x.step = 5 then tl.setFslot f (x.goOn 5 (c.cycle + 1)) else tl
  | .cp => tl.setUnit 3 { tl.unit 3 with cpSending := false }

def pickSend : List SendSt → Option SendSt
  | [] => none
  | p :: r => match pickSend r with
    | none => some p
    | some q => if q.who.rank < p.who.rank then some q else some p

/-- What the channel endpoint hands over, or frees, in cycle `k` (R249, R252 to R254). -/
def Tile.hand (k q : Nat) (frees : Bool) (o : Out) (tl : Tile) : Tile := { tl with outbox := tl.outbox ++ [⟨k, q, frees, o⟩] }

/-- Hand over waiting sends of an entry while it holds credits, at most `n` of them (R244 steps 2 to 4): the endpoint reads the message
from the next cycle on, and the head flit goes out in the second (Table 7-3). The sends that are handed over stand in that order. -/
def Tile.serveSends (c : Ctx) (e : Nat) : Nat → Tile → Tile × List Out
  | 0, tl => (tl, [])
  | n + 1, tl =>
    match pickSend (tl.sends.filter (fun x => x.entry == e && x.handed == none)) with
    | none => (tl, [])
    | some x =>
      let cr := tl.rd F.TIL_CHS_STATE.credit e
      if cr = 0 ∨ tl.rd F.TIL_CHS_STATE.state e ≠ 1 then (tl, [])
      else
        let body := if x.who = .cp then x.bytes else tl.bytes x.addr x.len
        let t1 := (tl.wr F.TIL_CHS_STATE.credit e (cr - 1)).addSat F.TIL_CHS_STATE.stall e (c.cycle - x.began)
        let t2 := { t1 with sends := t1.sends.erase x ++ [{ x with handed := some (c.cycle + 2) }] }
        let p := if x.who = .cp then (t2, []) else t2.readMsg c x.addr x.len
        let t3 := p.1.hand (c.cycle + 2) 0 false (.chanMsg (tl.rd F.TIL_CHS_CFG.remote e == 1) (tl.rd F.TIL_CHS_CFG.eid e)
          (tl.rd F.TIL_CHS_CFG.tile e) (tl.rd F.TIL_CHS_CFG.queue e) e body)
        let r := Tile.serveSends c e n t3
        (r.1, p.2 ++ r.2)

/-- Begin a send on entry `e`: CLOSED in the next cycle on a BROKEN entry, else wait for a credit (R244). -/
def Tile.startSend (c : Ctx) (who : Sender) (e addr len : Nat) (body : List Byte) (tl : Tile) : Tile × List Out :=
  if tl.rd F.TIL_CHS_STATE.state e = 2 then ({ tl with refusing := tl.refusing ++ [(c.cycle + 1, who, e)] }, [])
  else
    let t1 : Tile := { tl with sends := tl.sends ++ [⟨who, e, addr, len, body, none, c.cycle⟩] }
    t1.serveSends c e 6

/-- Sends on a BROKEN entry complete CLOSED in the cycle after they began (R244 step 1). -/
def Tile.endRefused (c : Ctx) (tl : Tile) : Tile :=
  (tl.refusing.filter (fun x => decide (x.1 ≤ c.cycle))).foldl (fun t x => (t.closedSend c x.2.2).sendEnds c x.2.1 false)
    { tl with refusing := tl.refusing.filter (fun x => decide (c.cycle < x.1)) }

/-- The send of entry `e` that was handed over first. -/
def Tile.handedSend (tl : Tile) (e : Nat) : Option SendSt :=
  tl.sends.find? (fun x => x.entry == e && x.handed.isSome)

/-- Credits come back to an entry: never more than its credits field; an excess is discarded with an error record
(R241). -/
def Tile.returnCredit (c : Ctx) (e n : Nat) (tl : Tile) : Tile × List Out :=
  let have_ := tl.rd F.TIL_CHS_STATE.credit e + n
  let lim := tl.rd F.TIL_CHS_CFG.credits e
  let r := (tl.wr F.TIL_CHS_STATE.credit e (min have_ lim)).serveSends c e 6
  (r.1, (if lim < have_ then [.record 0x08 5 0 0 (BitVec.ofNat 64 (e * 2 ^ 8)) 0 0 0] else []) ++ r.2)

/-- A reply reaches the sender (R246, R257 to R259): `code` of Table 7-2. -/
def Tile.reply (c : Ctx) (code e returned : Nat) (tl : Tile) : Tile × List Out :=
  if tl.deaf ∨ tl.rd F.TIL_CHS_STATE.state e ≠ 1 then (tl, [])
  else if code = 3 then tl.returnCredit c e returned
  else match tl.handedSend e with
    | none => if code = 0 then (tl, []) else tl.returnCredit c e returned
    | some x =>
      let t1 := { tl with sends := tl.sends.erase x }
      if code = 0 then ((t1.addSat F.TIL_CHS_STATE.sent e 1).sendEnds c x.who true, [])
      else
        let r := t1.returnCredit c e returned
        ((r.1.closedSend c e).sendEnds c x.who false, r.2)

/-! ### Messages: receiving (R249 to R254) -/

def Tile.queue (tl : Tile) (q : Nat) : List Msg := tl.queues.get q []

/-- The slots of a queue that are not free: its messages, and those taken whose slots are still to be freed (R252). -/
def Tile.slotsHeld (tl : Tile) (q : Nat) : Nat := (tl.queue q).length + (tl.outbox.filter (fun l => l.frees && l.queue == q)).length

/-- Replace a queue's messages; the maximum of held follows (Table 7-5). -/
def Tile.setQueue (q : Nat) (l : List Msg) (tl : Tile) : Tile :=
  let t1 : Tile := { tl with queues := tl.queues.set q l }
  t1.wr F.TIL_CHQ_STATE.max_held q (max (tl.rd F.TIL_CHQ_STATE.max_held q) (t1.slotsHeld q))

/-- The reply that frees a message's slot (R252). -/
def Msg.credit (m : Msg) : Out := .chanReply m.remote m.srcEid m.src 3 m.sendIndex 1

/-- Take the oldest message of a queue: it counts in taken (R251). -/
def Tile.takeMsg (q : Nat) (tl : Tile) : Tile × Option Msg :=
  match tl.queue q with
  | [] => (tl, none)
  | m :: r => (({ tl with queues := tl.queues.set q r } : Tile).addSat F.TIL_CHQ_STATE.taken q 1, some m)

/-- A taken message is written to a buffer; its slot is freed, with a CREDIT reply, in the cycle after its last bytes are written
(R251, R252). The tile, and the cycle of the last bytes. -/
def Tile.deliver (c : Ctx) (q a : Nat) (m : Msg) (tl : Tile) : (Tile × List Out) × Nat :=
  let p := tl.writeMsg c a m.bytes
  ((p.1.1.hand (p.2 + 1) q true m.credit, p.1.2), p.2)

/-- The result word of CRECV and CPOLL with a message (Table 3-7). -/
def recvWord (n : Nat) : Word := BitVec.ofNat 64 (n * 2 ^ 16)

/-- The sequencer issues its next instruction in cycle `k` at the earliest. -/
def Tile.holdTo (k : Nat) (tl : Tile) : Tile := tl.setBank { tl.bank with hold := max tl.bank.hold k }

/-- A fused recv step waits on queue `q` since before cycle `k` (R253). -/
def Tile.recvAhead (tl : Tile) (q k : Nat) : Bool :=
  (List.range 4).any (fun f => let x := tl.fslot f
    x.busy && x.step == 1 && (x.desc.map (fun d => d.recvQueue)) == some q && decide (x.sinceRecv < k))

/-- CRECV or CPOLL takes message `m`: its bytes are written from the next cycle on, and the next instruction issues after the last of
them (R251, Table 7-3; log entry 15). -/
def Tile.received (c : Ctx) (q a : Nat) (m : Msg) (tl : Tile) : Tile × List Out :=
  let p := tl.deliver c q a m
  (p.1.1.holdTo (p.2 + 1), p.1.2)

/-- Serve a waiting CRECV on queue `q`, unless a fused recv step began to wait on it earlier (R251, R253). -/
def Tile.serveRecv (c : Ctx) (q : Nat) (tl : Tile) : Tile × List Out :=
  match tl.seq.blk with
  | some ⟨.recv q' buf, rd⟩ =>
    if q' = q ∧ tl.recvAhead q tl.seq.sinceCycle = false then
      match tl.takeMsg q with
      | (t1, some m) => let p := t1.received c q buf m
                        (p.1.complete c rd (recvWord m.bytes.length), p.2)
      | (t1, none) => (t1, [])
    else (tl, [])
  | _ => (tl, [])

/-- The reply to a message: its code and the credits it returns (Table 7-2). -/
def Msg.answer (m : Msg) (code : Nat) : Out :=
  .chanReply m.remote m.srcEid m.src code m.sendIndex (if code = 0 then 0 else 1)

/-- A message of a queue that closes (R254): one that arrived in this very cycle meets a CLOSED queue, and its reply is CLOSED in place
of ACCEPTED; the sender of any other gets a CREDIT. -/
def Tile.closeMsg (c : Ctx) (q : Nat) (tl : Tile) (m : Msg) : Tile :=
  let ok : Later := ⟨c.cycle + 1, q, false, m.answer 0⟩
  if m.at_ = c.cycle ∧ tl.outbox.contains ok then
    { tl with outbox := tl.outbox.erase ok ++ [⟨c.cycle + 1, q, false, m.answer 1⟩] }
  else tl.hand (c.cycle + 1) q false m.credit

/-- The messages of a queue are discarded and answered, oldest first. -/
def Tile.emptyQueue (c : Ctx) (q : Nat) (tl : Tile) : Tile := (tl.queue q).foldl (Tile.closeMsg c q) (tl.setQueue q [])

/-- Close a queue (R254): its messages are discarded and counted. -/
def Tile.closeQueue (c : Ctx) (q : Nat) (tl : Tile) : Tile :=
  ((tl.emptyQueue c q).addSat F.TIL_CHQ_STATE.discarded q (tl.queue q).length).wr F.TIL_CHQ_STATE.state q 2

/-- Close every OPEN queue of the tile, in order (R110, R254). -/
def Tile.closeAll (c : Ctx) (qs : List Nat) (tl : Tile) : Tile :=
  qs.foldl (fun t q => if t.rd F.TIL_CHQ_STATE.state q = 1 then t.closeQueue c q else t) tl

/-- The queue is taken by the active inbound side of a CP of the phase in force (R134, R250). -/
def Tile.cpInbound (tl : Tile) : Option Nat :=
  match tl.lat.cfg.ops.find? (fun o => o.unit == 3) with
  | none => none
  | some o =>
    if tl.lat.cfg.sels.any (fun s => bits s 15 1 == 1 && bits s 14 1 == 0 && bits s 8 4 == 3) then some o.slot else none

/-! ### Aborts of stream and fused slots (R188, R193) -/

/-- A slot stopped: nothing more is issued, its buffer is discarded, answers still to come are not wanted. -/
def Slot.stopped (sl : Slot) (st : SlotState) : Slot :=
  { sl with st := st, buf := [], arr := [], incoming := [], move := none, ended := none, calOut := 0, epoch := sl.epoch + 1, timed := false, rows := none, out := [],
            got := [], baseAt := none,
            reqs := sl.reqs.map (fun r => { r with live := false }) }

/-- A slot dropped to IDLE: its program and base table are discarded. -/
def Slot.dropped (sl : Slot) : Slot := { sl.stopped .idle with prog := [], base := [], heldBy := none }

def streamAbortWord (c : Ctx) (slot reason ip : Nat) : Word :=
  BitVec.ofNat 64 (c.sidereal % 2 ^ 32 * 2 ^ 32 + reason * 2 ^ 16 + ip * 2 ^ 8 + slot)

/-- Record an abort: status bit, TIL_STREAM_ABORT, stream_abort, the trap, the error record (R100, R188). -/
def Tile.recordAbort (c : Ctx) (slot reason ip : Nat) (tl : Tile) : Tile × List Out :=
  let t1 := if slot < 8 then tl.flag c F.TIL_STREAM_STATUS.again_count F.TIL_STREAM_STATUS.slot_abort (2 ^ slot)
            else tl.flag c F.TIL_STREAM_STATUS.again_count F.TIL_STREAM_STATUS.fused_abort (2 ^ (slot - 8))
  let t2 := (((t1.wr F.TIL_STREAM_ABORT.since_lo 0 c.sidereal).wr F.TIL_STREAM_ABORT.reason 0 reason).wr
    F.TIL_STREAM_ABORT.ip 0 ip).wr F.TIL_STREAM_ABORT.slot 0 slot
  ((t2.seqFlag c F.TIL_SEQ_STATUS.stream_abort).raise c 0x12 (BitVec.ofNat 64 (slot + reason * 256)),
   [.record 0x06 3 slot 0 (streamAbortWord c slot reason ip) 0 0 0])

/-- A fused slot becomes idle. -/
def Fused.idleNow (x : Fused) : Fused := { x with busy := false, step := 0, desc := none, line := none, sent := false }

/-- Release the stream slots a fused slot holds. -/
def Tile.unhold (f : Nat) (tl : Tile) : Tile :=
  { tl with slots := tl.slots.mapVals (fun _ sl => if sl.heldBy = some f then { sl with heldBy := none } else sl) }

/-- Stop the slots that fused slot `f` holds, other than `s`, under R174. -/
def Tile.stopHeld (c : Ctx) (f s : Nat) (tl : Tile) : Tile :=
  { tl with slots := tl.slots.mapVals (fun i sl =>
      if sl.heldBy = some f ∧ i ≠ s ∧ sl.st ≠ .idle then { sl.stopped .stopping with due := c.cycle + 1 } else sl) }

/-- Abort a fused slot with a reason at its present step (R188, R193). -/
def Tile.abortFused (c : Ctx) (f reason : Nat) (tl : Tile) : Tile × List Out :=
  let x := tl.fslot f
  let t1 := (tl.setFslot f x.idleNow).unhold f
  let t2 : Tile :=
    { t1 with
      sends := t1.sends.filter (fun y => y.who != Sender.fused f)
      refusing := t1.refusing.filter (fun y => y.2.1 != Sender.fused f) }
  let r := t2.recordAbort c (8 + f) reason x.step
  (r.1.settle c, r.2)

/-- Abort stream slot `s` (R188); a fused slot that holds it stops its partner and aborts with PARTNER_ABORT (R193). -/
def Tile.abortSlot (c : Ctx) (s reason : Nat) (tl : Tile) : Tile × List Out :=
  let sl := tl.slot s
  let a := (tl.setSlot s sl.dropped).recordAbort c s reason sl.ip
  match sl.heldBy with
  | none => (a.1.settle c, a.2)
  | some f => let b := (a.1.stopHeld c f s).abortFused c f 9
    (b.1, a.2 ++ b.2)

end Sys2Proof.Machine
end

