-- ==== Sys2Proof/Machine/SeqAlu.lean ====
section
/-! DEFINITION. The tile sequencer's arithmetic, immediate, memory and branch instructions (R82 to R85), each as what
it does at its boundary (`Act`). -/
namespace Sys2Proof.Machine

/-- The instruction ends here: next pc, one more retired, no result. -/
def Tile.advance (tl : Tile) : Tile :=
  { tl with seq := { tl.seq with pc := tl.seq.pc + 4, retired := tl.seq.retired + 1 } }

/-- The instruction ends here with a result. -/
def Tile.result (rd : BitVec 5) (v : Word) (tl : Tile) : Tile := { tl with seq := tl.seq.put rd v }.advance

/-- The instruction ends here with a jump. -/
def Tile.jump (target : Word) (tl : Tile) : Tile :=
  { tl with seq := { tl.seq with pc := target, retired := tl.seq.retired + 1 } }

/-! ### ALU (Table 3-4, R83) -/

def wLt (a b : Word) : Word := if a.slt b then 1 else 0
def wLtu (a b : Word) : Word := if a.ult b then 1 else 0
def wShl (a b : Word) : Word := a <<< (b.toNat % 64)
def wShr (a b : Word) : Word := a >>> (b.toNat % 64)
def wSar (a b : Word) : Word := a.sshiftRight (b.toNat % 64)
def wMin (a b : Word) : Word := if b.slt a then b else a
def wMax (a b : Word) : Word := if a.slt b then b else a
def wMinu (a b : Word) : Word := if b.ult a then b else a
def wMaxu (a b : Word) : Word := if a.ult b then b else a
/-- High 64 bits of the signed product (MULX). -/
def wMulx (a b : Word) : Word := BitVec.ofInt 64 (a.toInt * b.toInt / 2 ^ 64)
/-- High 64 bits of the unsigned product (MULXU). -/
def wMulxu (a b : Word) : Word := BitVec.ofNat 64 (a.toNat * b.toNat / 2 ^ 64)
def wAdd32 (a b : Word) : Word := sextFrom 32 (a + b)
def wSub32 (a b : Word) : Word := sextFrom 32 (a - b)

/-- Leading zeros among the `n` low bits of a number, 0 to `n`. -/
def clzN : Nat → Nat → Nat
  | 0, _ => 0
  | n + 1, v => if v / 2 ^ n % 2 = 1 then 0 else 1 + clzN n v

/-- Trailing zeros among the `n` low bits. -/
def ctzN : Nat → Nat → Nat
  | 0, _ => 0
  | n + 1, v => if v % 2 = 1 then 0 else 1 + ctzN n (v / 2)

def wClz (a : Word) : Word := BitVec.ofNat 64 (clzN 64 a.toNat)
def wCtz (a : Word) : Word := BitVec.ofNat 64 (ctzN 64 a.toNat)
def wPopc (a : Word) : Word := BitVec.ofNat 64 (popc 64 a.toNat)

/-- An ALU instruction of two operands: a non-zero func bits 10:6 raises ILLEGAL (R82). -/
def aluOp (w : BitVec 32) (z : BitVec 5) (rd ra rb : BitVec 5) (f : Word → Word → Word) (tl : Tile) : Act :=
  if z ≠ 0 then illegal w tl else .done (tl.result rd (f (tl.gr ra) (tl.gr rb))) []

/-- CLZ, CTZ and POPC: rb must be 0. -/
def aluOp1 (w : BitVec 32) (z : BitVec 5) (rd ra rb : BitVec 5) (f : Word → Word) (tl : Tile) : Act :=
  if z ≠ 0 ∨ rb ≠ 0 then illegal w tl else .done (tl.result rd (f (tl.gr ra))) []

/-- An immediate instruction (Table 3-3). -/
def immOp (rd ra : BitVec 5) (f : Word → Word) (tl : Tile) : Act := .done (tl.result rd (f (tl.gr ra))) []

/-- SHIFTI: bits 13:6 must be 0. -/
def shiftOp (w : BitVec 32) (z : BitVec 8) (rd ra : BitVec 5) (f : Word → Word) (tl : Tile) : Act :=
  if z ≠ 0 then illegal w tl else .done (tl.result rd (f (tl.gr ra))) []

/-- LIH: ra must be 0. -/
def lihOp (w : BitVec 32) (rd ra : BitVec 5) (imm : BitVec 16) (tl : Tile) : Act :=
  if ra ≠ 0 then illegal w tl else .done (tl.result rd (sext16 imm <<< 16)) []

/-! ### Loads, stores and atomics (R84) -/

/-- The fault of an access of `n` bytes at `a`: misaligned before out of range; `st` for stores and atomics. -/
def accessFault (tl : Tile) (st : Bool) (a : Word) (n : Nat) : Option Nat :=
  if a.toNat % n ≠ 0 then some (if st then 0x06 else 0x04)
  else if tl.size < a.toNat + n then some (if st then 0x07 else 0x05)
  else none

/-- A load of `n` bytes, the loaded number widened by `ext`, through the read port of its bank. -/
def loadOp (c : Ctx) (rd ra : BitVec 5) (imm : BitVec 16) (n : Nat) (ext : Word → Word) (tl : Tile) : Act :=
  let a := tl.gr ra + sext16 imm
  match accessFault tl false a n with
  | some code => .trap code tl.seq.pc a
  | none => withPort (tl.ask c c.cycle .data false false a.toNat n []) fun t =>
      .done (t.result rd (ext (BitVec.ofNat 64 (t.load a.toNat n)))) []

/-- A store of the low `n` bytes of rs, through the write port of its bank. -/
def storeOp (c : Ctx) (rs ra : BitVec 5) (imm : BitVec 16) (n : Nat) (tl : Tile) : Act :=
  let a := tl.gr ra + sext16 imm
  match accessFault tl true a n with
  | some code => .trap code tl.seq.pc a
  | none => withPort (tl.plainWrite c c.cycle .data false a.toNat (leBytes n (tl.gr rs).toNat)) fun t => .done t.advance []

/-- An atomic of `n` bytes: rd takes the old value, the bank takes `f old operand` two cycles later (R164). -/
def atomOp (c : Ctx) (rd ra rb : BitVec 5) (n : Nat) (ext : Word → Word) (f : Nat → Nat → Nat) (tl : Tile) : Act :=
  let a := tl.gr ra
  match accessFault tl true a n with
  | some code => .trap code tl.seq.pc a
  | none => withPort (tl.ask c c.cycle .data false false a.toNat n []) fun t =>
      let old := t.withAtoms.load a.toNat n
      .done ((t.pendAtomic c .data a.toNat (leBytes n (f old (t.gr rb).toNat)) none none).result rd (ext (BitVec.ofNat 64 old))) []

/-! ### Branches, jumps and links (R85) -/

/-- A branch: a taken branch to a misaligned target raises FETCH_MISALIGNED. Targets of Branch and Link formats are
pc plus a multiple of 4. -/
def branchOp (ra rb : BitVec 5) (off : BitVec 16) (cond : Word → Word → Bool) (tl : Tile) : Act :=
  if cond (tl.gr ra) (tl.gr rb) then
    let target := tl.seq.pc + (sext16 off <<< 2)
    if target.toNat % 4 ≠ 0 then .trap 0x02 tl.seq.pc target else .done (tl.jump target) []
  else .done tl.advance []

/-- CALL and CALLR: a misaligned target raises FETCH_MISALIGNED and writes no link register. -/
def callTo (rd : BitVec 5) (target : Word) (tl : Tile) : Act :=
  if target.toNat % 4 ≠ 0 then .trap 0x02 tl.seq.pc target
  else .done (({ tl with seq := tl.seq.put rd (tl.seq.pc + 4) } : Tile).jump target) []

/-! ### Control registers and system instructions (Table 3-1, Table 3-6) -/

/-- Read a control register; none where the number is unlisted (R79). -/
def ctlReg (c : Ctx) (tl : Tile) (n : Nat) : Option Word :=
  match n with
  | 0x00 => some (tl.elapsed c)
  | 0x01 => some (BitVec.ofNat 64 c.sidereal)
  | 0x02 => some (BitVec.ofNat 64 (c.tile + c.tile % 48 * 2 ^ 16 + c.tile / 48 * 2 ^ 24))
  | 0x03 => some (BitVec.ofNat 64 tl.seq.job)
  | 0x04 => some tl.seq.start
  | 0x08 => some tl.seq.hbase
  | 0x09 => some tl.seq.hcode
  | 0x0A => some tl.seq.hresume
  | 0x0B => some tl.seq.harg
  | 0x0C => some (if tl.seq.inHandler then 1 else 0)
  | 0x10 => some tl.seq.hsave0
  | 0x11 => some tl.seq.hsave1
  | 0x18 => some tl.seq.retired
  | _ => none

/-- Write an RW control register; none where the number is RO or unlisted (R79). hcode keeps bits 8:0 only. hbase and hresume keep the
bits that Table 3-1 ignores, and a read gives them back (DESIGN CHOICE, log entry 12). -/
def ctlPut (q : Seq) (n : Nat) (v : Word) : Option Seq :=
  match n with
  | 0x08 => some { q with hbase := v }
  | 0x09 => some { q with hcode := v &&& 0x1FF }
  | 0x0A => some { q with hresume := v }
  | 0x0B => some { q with harg := v }
  | 0x10 => some { q with hsave0 := v }
  | 0x11 => some { q with hsave1 := v }
  | _ => none

/-- GETC: ra and imm16 11:8 must be 0. -/
def getcOp (c : Ctx) (w : BitVec 32) (rd ra : BitVec 5) (z : BitVec 4) (n : BitVec 8) (tl : Tile) : Act :=
  if ra ≠ 0 ∨ z ≠ 0 then illegal w tl
  else match ctlReg c tl n.toNat with
    | none => illegal w tl
    | some v => .done (tl.result rd v) []

/-- XCHC, ORC and ANDNC: rd takes the old value, the register takes `f old ra`. -/
def ctlOp (c : Ctx) (w : BitVec 32) (rd ra : BitVec 5) (z : BitVec 4) (n : BitVec 8) (f : Word → Word → Word)
    (tl : Tile) : Act :=
  if z ≠ 0 then illegal w tl
  else match ctlReg c tl n.toNat with
    | none => illegal w tl
    | some old => match ctlPut tl.seq n.toNat (f old (tl.gr ra)) with
      | none => illegal w tl
      | some q => .done (({ tl with seq := q } : Tile).result rd old) []

/-- HRET (R88): back to hresume, whose bits 1:0 are ignored. -/
def hretOp (w : BitVec 32) (rd ra : BitVec 5) (z : BitVec 12) (tl : Tile) : Act :=
  if rd ≠ 0 ∨ ra ≠ 0 ∨ z ≠ 0 ∨ tl.seq.inHandler = false then illegal w tl
  else .done (({ tl with seq := { tl.seq with inHandler := false } } : Tile).jump (tl.seq.hresume &&& 0xFFFFFFFFFFFFFFFC#64)) []

/-- TRAP raises SOFTWARE with resume at the next instruction. -/
def trapOp (w : BitVec 32) (rd ra : BitVec 5) (z : BitVec 4) (arg : BitVec 8) (tl : Tile) : Act :=
  if rd ≠ 0 ∨ ra ≠ 0 ∨ z ≠ 0 then illegal w tl else .trap 0x09 (tl.seq.pc + 4) (arg.setWidth 64)

/-- HALT, steps 1 (R110, R175): PARKED slots are disarmed and the tile waits for its slots. -/
def haltOp (c : Ctx) (w : BitVec 32) (rd ra : BitVec 5) (z : BitVec 12) (tl : Tile) : Act :=
  if rd ≠ 0 ∨ ra ≠ 0 ∨ z ≠ 0 then illegal w tl
  else
    let t1 : Tile := { tl with slots := tl.slots.mapVals (fun _ sl => if sl.st = .parked then sl.dropped else sl) }
    .done (t1.block c 0 .haltDrain) []

/-- HALT, steps 2 to 4 (R110, R175): once every slot is idle or PARKED, close the queues, set halted, enter IDLE with release 0. A slot that
has become PARKED since HALT issued is disarmed. -/
def Tile.haltEnds (c : Ctx) (tl : Tile) : Tile × List Out :=
  match tl.seq.blk with
  | some ⟨.haltDrain, _⟩ =>
    if tl.st = .running ∧ tl.slotsAll (fun sl => sl.st.atRest) ∧ tl.fusedAll (fun x => !x.busy) then
      let t0 : Tile := { tl with slots := tl.slots.mapVals (fun _ sl => if sl.st = .parked then sl.dropped else sl) }
      let t1 := (((t0.closeAll c (List.range 64)).seqFlag c F.TIL_SEQ_STATUS.halted).wr F.TIL_ENTRY.release 0 0).complete c 0 0
      ({ t1 with st := .idle, seq := { t1.seq with since := c.sidereal } }, [])
    else (tl, [])
  | _ => (tl, [])

/-- VSYNC: wait until every VST has reached its target. -/
def vsyncOp (c : Ctx) (w : BitVec 32) (rd ra : BitVec 5) (z : BitVec 12) (tl : Tile) : Act :=
  if rd ≠ 0 ∨ ra ≠ 0 ∨ z ≠ 0 then illegal w tl
  else if tl.seq.vstOut = 0 then .done tl.advance []
  else .done (tl.block c 0 .vsync) []

end Sys2Proof.Machine
end

