-- ==== Sys2Proof/Machine/LatLoad.lean ====
section
/-! DEFINITION. Configuration bundles: their layout (R138 to R140), their validation with the condition that decides a
refusal (R142, Table 4-8), the networks of outputs and inputs (R538), and the steps of a phase switch (R143 to R149). -/
namespace Sys2Proof.Machine

/-- Kinds of lattice unit, Table 4-1. -/
inductive UKind where
  | ld | cp | vx | mx | sq | xf | st | sv
deriving DecidableEq, Repr

def uKind : Nat → UKind
  | 0 => .ld | 1 => .ld | 2 => .ld | 3 => .cp | 4 => .vx | 5 => .mx | 6 => .vx | 7 => .sq | 8 => .vx | 9 => .xf
  | 10 => .vx | 11 => .sq | 12 => .st | 13 => .sv | 14 => .sv | _ => .st

/-- The inputs a unit has (Table 4-1): 0 to 2 data, 3 ctl. -/
def UKind.inputs : UKind → List Nat
  | .ld => [3] | .cp => [0] | .vx => [0, 1, 2, 3] | .mx => [0, 1, 2, 3] | .sq => [3] | .xf => [0, 3]
  | .st => [0, 1, 3] | .sv => [0, 1, 3]

/-- The outputs a unit has: 0 out0, 1 out1, 2 ctlout. -/
def UKind.outputs : UKind → List Nat
  | .ld => [0, 2] | .cp => [0] | .vx => [0, 2] | .mx => [0] | .sq => [0, 2] | .xf => [0] | .st => [0, 1] | .sv => []

/-- The op codes of Table 4-3 and R131 to R135. -/
def UKind.ops : UKind → List Nat
  | .vx => [1, 2, 3, 4, 5, 6, 7, 8, 9, 10, 11, 12, 13, 14] | .xf => [1, 2, 3, 4, 5] | .st => [1, 2, 3, 4, 5]
  | .sv => [1, 2] | _ => [1]

/-- The inputs an op needs connected. -/
def opNeeds (k : UKind) (op : Nat) : List Nat :=
  match k with
  | .vx => if op = 4 then [0, 1, 2] else if op = 7 ∨ op = 10 ∨ op = 11 ∨ op = 14 then [0] else [0, 1]
  | .xf => [0]
  | .st => match op with | 1 => [0, 1, 3] | 2 => [0, 3] | 3 => [0, 1, 3] | 4 => [0, 3] | _ => [0]
  | .sv => if op = 2 then [0, 1] else [0]
  | .mx => [0, 1]
  | _ => []

/-- Selector fields (Table 4-6). -/
def selOn (s : Nat) : Bool := bits s 15 1 == 1
def selConst (s : Nat) : Bool := bits s 14 1 == 1
def selSrc (s : Nat) : Nat := bits s 8 5
def selOut (s : Nat) : Nat := bits s 4 2
def selNet (s : Nat) : Nat := bits s 0 2

def Bundle.op? (b : Bundle) (u : Nat) : Option OpBlk := b.ops.find? (fun o => o.unit == u)
def Bundle.sel (b : Bundle) (u i : Nat) : Nat := b.sels.getD (4 * u + i) 0
/-- Input `i` of unit `u` is connected. -/
def Bundle.on (b : Bundle) (u i : Nat) : Bool := selOn (b.sel u i)

/-- The network an output carries (Table 4-19); an ST output has that of its in0. -/
def Bundle.outNet (b : Bundle) (u out : Nat) : Nat :=
  if out = 2 then 2 else
  match uKind u, b.op? u with
  | .ld, some o => if o.mode % 2 = 1 then 0 else 1
  | .sq, _ => 0
  | .vx, some o => if o.op = 10 ∨ o.op = 11 then 0 else 1
  | .st, _ => selNet (b.sel u 0)
  | _, _ => 1

/-- An input accepts a network (Table 4-19). -/
def inputAccepts (b : Bundle) (u i net : Nat) : Bool :=
  if i = 3 then net == 2 else
  match uKind u with
  | .vx => net == 0 || net == 1
  | .xf => net == 0 || net == 1
  | .sv => (match b.op? u with | some o => if o.op = 2 then net == 1 else (net == 0 || net == 1) | none => true)
  | .st => i == 0 || net == selNet (b.sel u 0)
  | _ => net == 1

/-- One parsed op block with its byte offset in the bundle and its raw bytes. -/
structure RawOp where
  off : Nat
  u : Nat
  blk : OpBlk
  raw : List Byte

def byteAt (l : List Byte) (i : Nat) : Nat := (l.getD i 0).toNat
def numAt (l : List Byte) (i n : Nat) : Nat := leNat ((l.drop i).take n)

def parseOp (u : Nat) (l : List Byte) (consts : List Line) : OpBlk :=
  { unit := u, op := byteAt l 1, fmtIn := byteAt l 2 % 16, fmtOut := byteAt l 2 / 16, fmtB := byteAt l 3 % 16,
    rmode := bits (byteAt l 3) 4 2, sat := bits (byteAt l 3) 6 1 == 1, mode := byteAt l 4,
    tag0 := BitVec.ofNat 8 (byteAt l 5), tag1 := BitVec.ofNat 8 (byteAt l 6), rate := byteAt l 7, slot := byteAt l 8,
    count := numAt l 12 4, param := numAt l 16 4, consts := consts }

/-- Constant vectors that follow a VX op block. -/
def takeLines : Nat → List Byte → List Line
  | 0, _ => []
  | n + 1, l => lineOf (padTo 64 l) :: takeLines n (l.drop 64)

/-- Walk the op blocks of the units in `us` from byte offset `off`; a bundle has room for fewer than 256 constant vectors. -/
def walkOps (off : Nat) (l : List Byte) : List Nat → List RawOp
  | [] => []
  | u :: r =>
    let n := if uKind u = .vx then min 256 (numAt l 20 2) else 0
    ⟨off, u, parseOp u l (takeLines n (l.drop 64)), padTo 64 l⟩ :: walkOps (off + 64 * (1 + n)) (l.drop (64 * (1 + n))) r

/-- A condition of Table 4-8 that holds: the offset it is charged to, its place in the table, its status. -/
abbrev Breach := Nat × Nat × Nat

/-- A must-be-0 range that is not zero: charged to the lowest offset of the field (R142). -/
def nonZeroIn (l : List Byte) (lo hi order : Nat) : List Breach :=
  if (List.range (hi + 1 - lo)).any (fun k => byteAt l (lo + k) != 0) then [(lo, order, 2)] else []

def breachIf (b : Bool) (x : Breach) : List Breach := if b then [x] else []

/-- The formats of Table 2-4 that carry block scales (R51). -/
def mxScaled (f : Nat) : Bool := [3, 4, 5, 6, 7, 11].contains f
def mx8 (f : Nat) : Bool := [3, 4, 11, 13].contains f
def mxNarrow (f : Nat) : Bool := [5, 6, 7, 12].contains f
def mxFp6 (f : Nat) : Bool := f == 5 || f == 6

/-- INT4 and UINT8 carry no block scales (R51), and nor do 16-bit operands (log entry 25). -/
def mxUnscaled (f : Nat) : Bool := f == 12 || f == 13
def mxHalf (f : Nat) : Bool := f == 1 || f == 2

/-- The operand pair is in Table 2-4. -/
def mxPairOk (a b : Nat) : Bool :=
  (mx8 a && (mx8 b || mxNarrow b)) || (mxNarrow a && (mx8 b || mxNarrow b)) || (a == 1 && b == 1) || (a == 2 && b == 2)

/-- K indices per pair, pairs per K step and cycles between firings (Table 4-4, R135). -/
def mxShape (a b pace : Nat) : Nat × Nat × Nat :=
  if a = 1 ∨ a = 2 then (1, 32, 4)
  else if mx8 a || mx8 b then (2, 16, 2)
  else if mxFp6 a || mxFp6 b then (2, 16, if pace = 0 then 1 else 2)
  else (4, 8, 2)

/-- Which input formats an op takes (R129). -/
def fmtInOk (k : UKind) (op f : Nat) : Bool :=
  match k with
  | .vx => if op = 8 then f == 0 else if op = 7 then true else if op = 9 ∨ op = 14 then true else f == 0 || f == 9
  | .sv => if op = 2 then f == 0 else true
  | _ => true

/-- The op rounds under the op block's rounding mode (R68); where it does not, the field must be 0 (R140). -/
def roundsUnder (k : UKind) (op : Nat) : Bool := k != .vx || [1, 2, 3, 4, 7, 8].contains op
/-- The op has a result that sat decides (R63, R537); where it has none, or saturates whatever sat holds (QMX, R50), the bit must be 0
(R140). -/
def satUsed (k : UKind) (op : Nat) : Bool :=
  match k with
  | .vx => [1, 2, 3, 4, 7, 10].contains op
  | .xf => false
  | .sv => op != 2
  | _ => true
/-- The op reads its input format; where it does not (XADD, PASS, XF), the bits must be 0 (R140). -/
def inFmtUsed (k : UKind) (op : Nat) : Bool := k != .xf && !(k == .vx && (op == 9 || op == 14))
/-- The op reads its output format; where it does not, the bits must be 0 (R140). -/
def outFmtUsed (k : UKind) (op : Nat) : Bool := k != .xf && (k != .vx || op == 7 || op == 8)

/-- The conditions charged to one op block. A QMX output format that is no MX element format is a reserved encoding of the fmt byte,
BAD_ARGUMENT, where R50 does not say which condition it breaks (DESIGN CHOICE, log entry 26). -/
def opBreaches (b : Bundle) (x : RawOp) : List Breach :=
  let o := x.blk
  let k := uKind x.u
  let at_ (i : Nat) := x.off + i
  let z (i : Nat) : List Breach := breachIf (byteAt x.raw i != 0) (at_ i, 5, 2)
  let sh := nonZeroIn x.raw 22 63 5 ++ nonZeroIn x.raw 9 11 5
  let shifted := sh.map (fun q => (x.off + q.1, q.2.1, q.2.2))
  let usesFmt := k == .vx || k == .mx || k == .sv || k == .xf
  let mxOn2 := b.on x.u 2
  let shape := mxShape o.fmtIn o.fmtB (bits o.mode 2 2)
  breachIf (byteAt x.raw 0 != x.u) (at_ 0, 5, 2) ++
  breachIf (!(k.ops.contains o.op)) (at_ 1, 5, 2) ++
  (if usesFmt then
    breachIf (!(fmtInOk k o.op o.fmtIn)) (at_ 2, 5, 2) ++
    breachIf (!(inFmtUsed k o.op) && o.fmtIn != 0 || !(outFmtUsed k o.op) && o.fmtOut != 0) (at_ 2, 5, 2) ++
    breachIf (o.fmtIn == 15 || o.fmtOut == 15) (at_ 2, 6, 2) ++
    breachIf (o.rmode == 3) (at_ 3, 6, 2) ++
    breachIf (bits (byteAt x.raw 3) 7 1 == 1) (at_ 3, 5, 2) ++
    breachIf (!(roundsUnder k o.op) && o.rmode != 0 || !(satUsed k o.op) && o.sat) (at_ 3, 5, 2) ++
    (if k == .mx then breachIf (o.fmtB == 15) (at_ 3, 6, 2) else breachIf (o.fmtB != 0) (at_ 3, 5, 2)) ++
    breachIf ((k == .vx && o.op == 8 || k == .sv && o.op == 2) && !([3, 4, 5, 6, 7, 11, 12, 13].contains o.fmtOut)) (at_ 2, 5, 2) ++
    breachIf ((k == .vx && o.op == 8 || k == .sv && o.op == 2) && (o.fmtOut == 12 || o.fmtOut == 13)) (at_ 2, 8, 4)
   else z 2 ++ z 3) ++
  (match k with
   | .mx =>
     breachIf (2 ≤ o.mode % 4 || 2 ≤ bits o.mode 2 2 ||
       (bits o.mode 2 2 == 1 && !(!(mx8 o.fmtIn) && !(mx8 o.fmtB) && (mxFp6 o.fmtIn || mxFp6 o.fmtB)))) (at_ 4, 6, 2) ++
     breachIf (16 ≤ o.mode) (at_ 4, 5, 2) ++
     breachIf (!(mxPairOk o.fmtIn o.fmtB)) (at_ 2, 7, 2) ++
     breachIf (o.mode % 4 == 0 && (o.fmtIn == 1 || o.fmtIn == 2)) (at_ 2, 7, 2) ++
     breachIf (o.mode % 4 == 1 && o.fmtOut == 14) (at_ 2, 7, 2) ++
     breachIf (mxOn2 && (mxUnscaled o.fmtIn || mxUnscaled o.fmtB || (mxHalf o.fmtIn && o.fmtB == o.fmtIn))) (min (at_ 2) (0x40 + 2 * (4 * x.u + 2)), 8, 4) ++
     breachIf (!(b.on x.u 3) && (o.count == 0 || o.count % shape.2.1 != 0)) (at_ 12, 11, 2) ++
     breachIf (let a := o.param % 65536
               65536 ≤ o.param || (254 < a && a < 65536 - 254)) (at_ 16, 11, 2)
   | .ld => breachIf (2 ≤ o.mode) (at_ 4, 5, 2)
   | _ => z 4) ++
  (if k == .ld || k == .mx || k == .sq || k == .cp || k == .sv then [] else z 5) ++
  (if k == .mx then [] else z 6) ++
  (if k == .sq then [] else z 7) ++
  (match k with
   | .ld => breachIf (8 ≤ o.slot) (at_ 8, 5, 2)
   | .sv => breachIf ((if o.op == 2 then 64 else 8) ≤ o.slot) (at_ 8, 5, 2)
   | .cp => breachIf (64 ≤ o.slot) (at_ 8, 5, 2)
   | _ => z 8) ++
  (match k with
   | .sq => []
   | .mx => []
   | .cp => breachIf (o.count == 0 || 64 < o.count) (at_ 12, 11, 2)
   | .st => if o.op == 5 then breachIf (o.count == 0 || 32 < o.count) (at_ 12, 11, 2)
            else breachIf (o.count != 0) (at_ 12, 5, 2)
   | _ => breachIf (o.count != 0) (at_ 12, 5, 2)) ++
  (match k with
   | .sq => []
   | .mx => []
   | .cp => breachIf (64 ≤ o.param) (at_ 16, 5, 2)
   | _ => breachIf (o.param != 0) (at_ 16, 5, 2)) ++
  (if k == .vx then breachIf (32 < numAt x.raw 20 2) (at_ 20, 5, 2) else breachIf (numAt x.raw 20 2 != 0) (at_ 20, 5, 2)) ++
  shifted ++
  -- an input the op needs is not connected
  (opNeeds k o.op).flatMap (fun i => breachIf (!(b.on x.u i)) (0x40 + 2 * (4 * x.u + i), 10, 2))

/-- The conditions charged to one selector (Table 4-6, R538). -/
def selBreaches (b : Bundle) (u i : Nat) : List Breach :=
  let s := b.sel u i
  let off := 0x40 + 2 * (4 * u + i)
  if !(selOn s) then breachIf (s != 0) (off, 5, 2)
  else
    let k := uKind u
    let dly := k == .st && (match b.op? u with | some o => o.op == 5 | none => false) && (i == 1 || i == 3)
    breachIf (bits s 13 1 != 0 || bits s 6 2 != 0 || bits s 2 2 != 0 || selNet s == 3 || selOut s == 3 ||
      (!(selConst s) && bits s 12 1 != 0) ||
      (selConst s && (selOut s != 0 || selNet s != 1 || k != .vx || i == 3))) (off, 5, 2) ++
    breachIf (!(k.inputs.contains i) || dly) (off, 9, 2) ++
    (if selConst s then
      breachIf (match b.op? u with | some o => decide (o.consts.length ≤ selSrc s) | none => false) (off, 9, 2)
     else
      breachIf ((b.op? (selSrc s)).isNone || !((uKind (selSrc s)).outputs.contains (selOut s)) ||
        b.outNet (selSrc s) (selOut s) != selNet s || !(inputAccepts b u i (selNet s))) (off, 9, 2)) ++
    breachIf (k == .mx && i != 3 && selNet s != 1) (off, 10, 2)

/-- Two LD units, or two SV units, that name one stream slot: charged to the lower of their slot bytes. -/
def slotClashes : List RawOp → List Breach
  | [] => []
  | x :: r => (r.filter (fun y =>
      let sx := if x.blk.op = 2 then [x.blk.slot % 8, x.blk.slot / 8 % 8] else [x.blk.slot % 8]
      let sy := if y.blk.op = 2 then [y.blk.slot % 8, y.blk.slot / 8 % 8] else [y.blk.slot % 8]
      uKind x.u == uKind y.u && (uKind x.u == .ld || uKind x.u == .sv) && sx.any (fun a => sy.contains a))).map
        (fun y => (min x.off y.off + 8, 12, 2)) ++ slotClashes r

/-- The breach that decides a refusal: the lowest offset, then the first in the table (R142). -/
def worst : List Breach → Option Breach
  | [] => none
  | x :: r => match worst r with
    | none => some x
    | some y => if y.1 < x.1 ∨ (y.1 = x.1 ∧ y.2.1 < x.2.1) then some y else some x

/-- Parse and validate a bundle of `lines` lines while phase `cur` is in force: the configuration, and the status and
err_offset that the load records (0 and 0xFFFF when no condition of Table 4-8 holds). -/
def validateBundle (cur : BitVec 8) (l : List Byte) (lines : Nat) : Bundle × Nat × Nat :=
  let mask := numAt l 6 2
  let us := (List.range 16).filter (fun u => bits mask u 1 == 1)
  let raws := walkOps 0xC0 (l.drop 0xC0) us
  let sels := (List.range 64).map (fun k => numAt l (0x40 + 2 * k) 2)
  let b : Bundle := { phase := BitVec.ofNat 8 (byteAt l 2), sels := sels, ops := raws.map (·.blk) }
  let consts := raws.foldl (fun a x => a + x.blk.consts.length) 0
  let crcOk := crc32c (l.take 8 ++ [0, 0, 0, 0] ++ l.drop 12) == numAt l 8 4
  let all :=
    breachIf (numAt l 0 2 != 1) (0, 1, 4) ++ breachIf (!crcOk) (8, 2, 2) ++ breachIf (b.phase == cur) (2, 3, 2) ++
    breachIf (lines != 3 + us.length + consts) (4, 4, 2) ++ breachIf (byteAt l 3 != 0) (3, 5, 2) ++
    nonZeroIn l 12 63 5 ++ raws.flatMap (opBreaches b) ++
    (List.range 64).flatMap (fun k => selBreaches b (k / 4) (k % 4)) ++ slotClashes raws
  match worst all with
  | none => (b, 0, 0xFFFF)
  | some x => (b, x.2.2, x.1)

/-! ### Loading and changing phase -/

/-- LLOAD at its boundary (R141): the lattice reads the header line in this cycle, and line k of the bundle in cycle k after it; a BUSY
load changes nothing. -/
def lloadOp (c : Ctx) (w : BitVec 32) (cut : Bool) (rd ra rb : BitVec 5) (hi : BitVec 4) (tl : Tile) : Act :=
  if rb ≠ 0 ∨ hi ≠ 0 then illegal w tl
  else
    let a := tl.gr ra
    if ¬ tl.addrOk a 64 64 then badOperand a tl
    else withPort (tl.ask c c.cycle .load false false a.toNat 64 []) fun tl =>
      let lines := tl.load (a.toNat + 4) 2
      if lines < 3 ∨ 256 < lines ∨ tl.size < a.toNat + 64 * lines then badOperand a tl
      else if tl.lat.load.isSome then .done (tl.result rd 2) []
      else
        let ld : LatLoad := {
          st := .loading, issued := c.cycle, addr := a.toNat, lines := lines, got := tl.bytes a.toNat 64, told := false, cut := cut,
          shadow := BitVec.ofNat 8 (tl.load (a.toNat + 2) 1), status := 0, errOff := 0xFFFF, bundle := ⟨0, [], []⟩, inForce := 0 }
        let t1 : Tile := { tl with lat := { tl.lat with load := some ld } }
        let t2 := (t1.wr F.TIL_LAT_LOAD.addr 0 (a.toNat / 64)).wr F.TIL_LAT_LOAD.drain_forced 0 0
        .done ((t2.wr F.TIL_LAT_PHASE.mode 0 cut.toNat).result rd 0) []

/-- A unit as a new phase finds it: tables and queues empty, tags at tag0 and tag1, SQ loops ready (R147). -/
def LUnit.fresh (o : Option OpBlk) (ctlOn : Bool) (inForce : Nat) : LUnit :=
  match o with
  | none => { LUnit.reset with pumped := inForce - 1 }
  | some o =>
    { LUnit.reset with
        pumped := inForce - 1, expTag := o.tag0, genTag := (if uKind o.unit = .mx then o.tag1 else o.tag0),
        sqLoop := (if uKind o.unit = .sq ∧ ctlOn = false then some ⟨0, inForce + 1⟩ else none) }

/-- Tokens a unit holds on its inputs and in its match table. -/
def LUnit.held (u : LUnit) : Nat :=
  u.inq.length + (u.table.map (fun e => e.ops.length)).sum

/-- The tokens of the matrix unit: those of the pairs that its accumulating bank holds, and those a readout has still to emit
(R145, R147; log entry 25). -/
def LUnit.inMx (o : Option OpBlk) (u : LUnit) : Nat :=
  let total := match o with
    | some o => (1024 + fmtPerToken o.fmtOut - 1) / fmtPerToken o.fmtOut
    | none => 0
  u.mxBank.tokens + (u.mxOut.map (fun r => total - r.emitted)).sum

/-- An inbound CP stopped part-way through a message: its slot is freed with a CREDIT reply in the next cycle, and the tokens it did
not emit are counted; a message of which no token has left stays in its queue (R134). -/
def Tile.cpCut (c : Ctx) (tl : Tile) : Tile :=
  let u := tl.unit 3
  match u.cpIn with
  | none => tl
  | some (rest, q, _) =>
    let t1 := tl.setUnit 3 { u with cpIn := none }
    if (tl.queue q).head?.any (fun m => m.bytes.length == rest.length) then t1
    else match (t1.phaseDiscard c ((rest.length + 63) / 64)).takeMsg q with
      | (t2, some m) => t2.hand (c.cycle + 1) q true m.credit
      | (t2, none) => t2

/-- Unit `u` is an ST with op DLY. -/
def Tile.delays (tl : Tile) (u : Nat) : Bool := uKind u == .st && (tl.lat.cfg.op? u).any (fun o => o.op == 5)

/-- Every token of unit `u`, wherever it is. -/
def Tile.unitTokens (tl : Tile) (u : Nat) : Nat := (tl.unit u).held + (tl.unit u).pipe.length + (tl.unit u).inMx (tl.lat.cfg.op? u)

/-- Commit of a configuration (R147): every token held in a queue, match table, DLY or MX bank is discarded and counted (what an MX
bank counts is log entry 25's); tokens still on a link or in a pipeline stay if `keep` (CUT) and meet R148, and are
discarded and counted otherwise. A CP that is sending goes on sending (R134). -/
def Tile.commit (c : Ctx) (b : Bundle) (inForce : Nat) (keep : Bool) (tl : Tile) : Tile :=
  let r := tl.cpCut c
  let stays (u : Nat) : List (Nat × Nat × Tok) := if keep && !(r.delays u) then (r.unit u).pipe else []
  let flying (u : Nat) : List (Nat × Nat × Tok) :=
    if keep then (r.unit u).inq.filter (fun q => decide (inForce ≤ q.2.1)) else []
  let n := (List.range 16).foldl (fun a u => a + (r.unitTokens u - (stays u).length - (flying u).length)) 0
  let units : Tab Nat LUnit := ⟨(List.range 16).map (fun u =>
    (u, { LUnit.fresh (b.op? u) (b.on u 3) inForce with
            inq := flying u, pipe := stays u, cpSending := (r.unit u).cpSending }))⟩
  let t1 : Tile := { r with lat := { r.lat with cfg := b, units := units, stopped := false, hang := false } }
  (t1.wr F.TIL_LAT_PHASE.phase 0 b.phase.toNat).phaseDiscard c n

def Tile.setLoad (d : Option LatLoad) (tl : Tile) : Tile := { tl with lat := { tl.lat with load := d } }

/-- Begin the commit of the load in progress with D = `d` (R147): in force from D + 5. -/
def Tile.commitLoad (c : Ctx) (d : Nat) (ld : LatLoad) (tl : Tile) : Tile :=
  (tl.commit c ld.bundle (d + 5) ld.cut).setLoad (some { ld with st := .committing, inForce := d + 5 })

/-- The result of a load is recorded in cycle lines + 3 after it issued (R143). -/
def Tile.loadResult (c : Ctx) (tl : Tile) : Tile × List Out :=
  match tl.lat.load with
  | some ld =>
    if tl.deaf ∨ ld.st ≠ .loading ∨ ld.told ∨ ld.got.length < 64 * ld.lines ∨ c.cycle < ld.issued + ld.lines + 3 then (tl, [])
    else
      let r := validateBundle tl.lat.cfg.phase ld.got ld.lines
      let t1 := (tl.wr F.TIL_LAT_LOAD.status 0 r.2.1).wr F.TIL_LAT_LOAD.err_offset 0 r.2.2
      let t2 := t1.setLoad (some { ld with told := true, status := r.2.1, errOff := r.2.2, bundle := r.1 })
      if r.2.1 = 0 then (t2, [])
      else (t2.latFlag c F.TIL_LAT_STATUS.load_refused, [.record 0x04 2 0 0 (BitVec.ofNat 64 (r.2.1 * 2 ^ 48 + r.2.2 * 2 ^ 32
          + t2.rd F.TIL_LAT_LOAD.addr 0 * 2 ^ 6)) 0 0 0])
  | none => (tl, [])

/-- The sources of the old phase stop (R144): loops with iterations left set sources_cut; a CP part-way through a message stops. -/
def Tile.startDrain (c : Ctx) (ld : LatLoad) (tl : Tile) : Tile :=
  let cutIt := (List.range 16).any (fun u => uKind u == .sq && (tl.unit u).sqLoop.isSome)
  let t2 : Tile := { tl with lat := { tl.lat with
    stopped := true, load := some { ld with st := .draining },
    units := tl.lat.units.mapVals (fun _ x => { x with sqLoop := none }) } }
  (if cutIt then t2.latFlag c F.TIL_LAT_STATUS.sources_cut else t2).cpCut c

/-- The cycle in which the load in progress next does something of itself: reads a line (R141), ends after a refusal, begins its drain
or its CUT commit (R143, R144, R146), or has its phase in force (R147). -/
def Lattice.loadNext (l : Lattice) : Option Nat :=
  match l.load with
  | none => none
  | some d => match d.st with
    | .loading =>
      if d.got.length < 64 * d.lines then some (d.issued + d.got.length / 64)
      else if d.told then some (d.issued + d.lines + 4) else none
    | .committing => some d.inForce
    | _ => none

/-- What the load does in the cycle of `loadNext`. A line that the bank does not serve is read a cycle later (R141). -/
def Tile.loadRun (c : Ctx) (tl : Tile) : Tile × List Out :=
  match tl.lat.load with
  | none => (tl, [])
  | some d => match d.st with
    | .loading =>
      if d.got.length < 64 * d.lines then
        let a := d.addr + d.got.length
        match tl.ask c c.cycle .load false false a 64 [] with
        | .ok (t, o) => (t.setLoad (t.lat.load.map (fun d => { d with got := d.got ++ tl.bytes a 64 })), o)
        | .error t => t.delayed c c.cycle .load false false
      else if d.status ≠ 0 then (tl.setLoad none, [])
      else if d.cut then (tl.commitLoad c (d.issued + d.lines + 3) d, [])
      else (tl.startDrain c d, [])
    | .committing => (tl.setLoad (if d.cut then some { d with st := .flushing } else none), [])
    | _ => (tl, [])

/-- No old-phase token remains in any link, queue, match table, pipeline or MX bank (R144). -/
def Tile.latticeEmpty (tl : Tile) : Bool :=
  (List.range 16).all (fun u => let x := tl.unit u
    x.held == 0 && x.pipe.isEmpty && x.mxOut.isEmpty && x.mxSince == 0)

/-- DRAIN_END (R144): in the first cycle in which no old-phase token remains, 7,995 after LLOAD issued at the latest (R145). -/
def Tile.drainEnd (c : Ctx) (tl : Tile) : Tile × List Out :=
  match tl.lat.load with
  | some ld =>
    if tl.deaf = false ∧ ld.st = .draining ∧ ld.issued + ld.lines + 4 ≤ c.cycle ∧ c.cycle ≤ ld.issued + 7995 ∧ tl.latticeEmpty then
      (tl.commitLoad c c.cycle ld, [])
    else (tl, [])
  | none => (tl, [])

/-- DRAIN_FORCED (R145): in cycle 7,995 the lattice discards what remains. -/
def Tile.drainForced (c : Ctx) (tl : Tile) : Tile × List Out :=
  match tl.lat.load with
  | some ld =>
    if tl.deaf = false ∧ ld.st = .draining ∧ ld.issued + 7995 ≤ c.cycle then
      let t1 := tl.latFlag c F.TIL_LAT_STATUS.drain_forced
      ((t1.wr F.TIL_LAT_LOAD.drain_forced 0 1).commitLoad c (ld.issued + 7995) { ld with cut := false }, [])
    else (tl, [])
  | none => (tl, [])

/-- FLUSH_END (R149): a CUT load ends 64 cycles after its phase is in force; a DRAIN load has ended by itself in that cycle. -/
def Tile.flushEnd (c : Ctx) (tl : Tile) : Tile × List Out :=
  match tl.lat.load with
  | some ld => if tl.deaf = false ∧ ld.st = .flushing ∧ ld.inForce + 64 ≤ c.cycle then (tl.setLoad none, []) else (tl, [])
  | none => (tl, [])

end Sys2Proof.Machine
end

