-- ==== Sys2Proof/Machine/SeqCmd.lean ====
section
/-! DEFINITION. The command-issuing instructions of the tile sequencer (R89 to R98, Table 3-8), each as what it does at
its boundary. A must-be-0 field that is not 0 raises ILLEGAL; a register operand out of range raises CMD_OPERAND. -/
namespace Sys2Proof.Machine

/-- Result BUSY (Table 3-7). -/
def busyWord : Word := 2

/-! ### Stream slots (R171 to R175, R192, R193) -/

/-- Arm a slot with a program and a base table (R171): its first line is read in the next cycle. -/
def Tile.arm (c : Ctx) (s prog base : Nat) (held : Option Nat) (tl : Tile) : Tile :=
  tl.setSlot s { Slot.reset with
    st := .arming, progAddr := prog, baseAddr := base, due := c.cycle + 1, heldBy := held,
    buf := (tl.slot s).buf, arr := (tl.slot s).arr, incoming := (tl.slot s).incoming, writes := (tl.slot s).writes,
    reqs := (tl.slot s).reqs.map (fun r => { r with live := false }), epoch := (tl.slot s).epoch, passes := (tl.slot s).passes }

/-- Base table entries: eight 64-bit words. -/
def Tile.baseTable (tl : Tile) (a : Nat) : List Word := (List.range 8).map (fun b => BitVec.ofNat 64 (tl.load (a + 8 * b) 8))

/-- The start of a pass (R179): every level has count 1 and strides 0; no source or destination is set. -/
def Slot.startPass (sl : Slot) (due : Nat) : Slot :=
  { sl with st := .running, ip := 0, due := due, timed := false, srcI := none, dstI := none,
            loops := List.replicate 6 ⟨1, 0, 0⟩, move := none, ended := none, first := true, beats := 0 }

/-- Re-arm a PARKED slot (R173): the base table is read in the next cycle and the pass begins in the one after. -/
def Tile.rearm (c : Ctx) (s base : Nat) (held : Option Nat) (tl : Tile) : Tile :=
  tl.setSlot s ({ (tl.slot s) with baseAddr := base, baseAt := some (c.cycle + 1), heldBy := held }.startPass (c.cycle + 2))

/-- A fused arm step armed or re-armed slot `s` in this very cycle: the sequencer's command is taken first, and the step finds the slot
in the wrong state (R192): the fused slot aborts with SLOT_BUSY, and the slot is as it was for the sequencer. -/
def Tile.yieldArm (c : Ctx) (s : Nat) (re : Bool) (tl : Tile) : Tile × List Out :=
  let sl := tl.slot s
  match sl.heldBy with
  | none => (tl, [])
  | some f =>
    let now := if re then sl.baseAt == some (c.cycle + 1) else sl.st == .arming && sl.got.isEmpty && sl.due == c.cycle + 1
    if now then
      let x := tl.fslot f
      let step := if x.desc.any (fun d => d.outSlot == s && d.has 2) then 3 else 2
      let t1 := tl.setSlot s { sl with st := (if re then .parked else .idle), heldBy := none, baseAt := none }
      (t1.setFslot f { x with step := step }).abortFused c f 7
    else (tl, [])

/-- SARM: OK, or BUSY if the slot is armed or held. -/
def sarmOp (c : Ctx) (w : BitVec 32) (rd ra rb imm : BitVec 5) (tl : Tile) : Act :=
  let s := imm.toNat % 8
  let p := tl.gr ra
  let b := tl.gr rb
  if 8 ≤ imm.toNat then illegal w tl
  else if ¬ tl.addrOk p 64 64 then badOperand p tl
  else if ¬ tl.addrOk b 64 64 then badOperand b tl
  else
    let r := tl.yieldArm c s false
    if (r.1.slot s).st.armed ∨ (r.1.slot s).heldBy.isSome then .done (r.1.result rd busyWord) r.2
    else .done ((r.1.arm c s p.toNat b.toNat none).result rd 0) r.2

/-- SREARM: OK, or BUSY if the slot is not PARKED or is held; ra must be g0. -/
def srearmOp (c : Ctx) (w : BitVec 32) (rd ra rb imm : BitVec 5) (tl : Tile) : Act :=
  let s := imm.toNat % 8
  let b := tl.gr rb
  if 8 ≤ imm.toNat ∨ ra ≠ 0 then illegal w tl
  else if ¬ tl.addrOk b 64 64 then badOperand b tl
  else
    let r := tl.yieldArm c s true
    if (r.1.slot s).st ≠ .parked ∨ (r.1.slot s).heldBy.isSome then .done (r.1.result rd busyWord) r.2
    else .done ((r.1.rearm c s b.toNat none).result rd 0) r.2

/-- SSTOP, steps 1 to 3 (R174): a fused slot that holds the slot skips its remaining steps and becomes idle with
fused_stopped set (R193). -/
def Tile.stopSlot (c : Ctx) (s : Nat) (tl : Tile) : Tile :=
  let sl := tl.slot s
  let t1 := tl.setSlot s { sl.stopped .stopping with due := c.cycle + 1 }
  match sl.heldBy with
  | none => t1
  | some f =>
    let t2 := (t1.setFslot f (t1.fslot f).idleNow).unhold f
    t2.flag c F.TIL_STREAM_STATUS.again_count F.TIL_STREAM_STATUS.fused_stopped 1

/-- SSTOP: at once if the slot is idle, else when it becomes idle. -/
def sstopOp (c : Ctx) (w : BitVec 32) (rd ra rb imm : BitVec 5) (tl : Tile) : Act :=
  let s := imm.toNat % 8
  if 8 ≤ imm.toNat ∨ ra ≠ 0 ∨ rb ≠ 0 then illegal w tl
  else if (tl.slot s).st = .idle then .done (tl.result rd 0) []
  else .done ((tl.stopSlot c s).block c rd (.streamStop s)) []

/-- SSTOP, step 4 (R174): once no write is in progress the slot enters IDLE and SSTOP completes. In a FENCED tile nothing moves (R196). -/
def Tile.stopEnds (c : Ctx) (s : Nat) (tl : Tile) : Tile × List Out :=
  let sl := tl.slot s
  if tl.deaf = false ∧ sl.st = .stopping ∧ sl.due ≤ c.cycle ∧ sl.writes = [] ∧ sl.reqs.all (fun r => !r.write) ∧
      tl.bank.atoms.all (fun x => x.by_ != .slot s) then
    let t1 := tl.setSlot s sl.dropped
    match t1.seq.blk with
    | some ⟨.streamStop s', rd⟩ => if s' = s ∧ t1.st = .running then (t1.complete c rd 0, []) else (t1.settle c, [])
    | _ => (t1.settle c, [])
  else (tl, [])

/-- A command that waits: complete at once if its condition holds already (Table 3-8). -/
def waitCmd (c : Ctx) (rd : BitVec 5) (x : Wait) (tl : Tile) : Act :=
  if tl.waitOver c x then .done (tl.result rd 0) [] else .done (tl.block c rd x) []

/-- SWAIT (R175). -/
def swaitOp (c : Ctx) (w : BitVec 32) (rd ra rb imm : BitVec 5) (tl : Tile) : Act :=
  if 8 ≤ imm.toNat ∨ ra ≠ 0 ∨ rb ≠ 0 then illegal w tl else waitCmd c rd (.stream (imm.toNat % 8)) tl

/-- LWAIT (R143, R147). -/
def lwaitOp (c : Ctx) (w : BitVec 32) (rd ra rb imm : BitVec 5) (tl : Tile) : Act :=
  if imm ≠ 0 ∨ ra ≠ 0 ∨ rb ≠ 0 then illegal w tl else waitCmd c rd .lattice tl

/-- FUSE (R190): the descriptor is read in the next cycle and validated in the one after. -/
def fuseOp (c : Ctx) (w : BitVec 32) (rd ra rb imm : BitVec 5) (tl : Tile) : Act :=
  let f := imm.toNat % 4
  let a := tl.gr ra
  if 4 ≤ imm.toNat ∨ rb ≠ 0 then illegal w tl
  else if ¬ tl.addrOk a 64 64 then badOperand a tl
  else if (tl.fslot f).busy then .done (tl.result rd busyWord) []
  else .done ((tl.setFslot f { tl.fslot f with
      busy := true, step := 0, addr := a.toNat, desc := none, line := none, due := c.cycle + 2, sent := false }).result rd 0) []

/-- FWAIT. -/
def fwaitOp (c : Ctx) (w : BitVec 32) (rd ra rb imm : BitVec 5) (tl : Tile) : Act :=
  if 4 ≤ imm.toNat ∨ ra ≠ 0 ∨ rb ≠ 0 then illegal w tl else waitCmd c rd (.fused (imm.toNat % 4)) tl

/-! ### Channels (R243 to R254) -/

/-- CSEND (R243, R244). -/
def csendOp (c : Ctx) (w : BitVec 32) (rd ra rb imm : BitVec 5) (tl : Tile) : Act :=
  let a := tl.gr ra
  let b := tl.gr rb
  let e := b.toNat % 64
  let len := b.toNat / 2 ^ 16
  if imm ≠ 0 then illegal w tl
  else if bits b.toNat 6 10 ≠ 0 ∨ len < 16 ∨ 4096 < len ∨ len % 16 ≠ 0 then badOperand b tl
  else if tl.rd F.TIL_CHS_STATE.state e = 0 ∨ tl.rd F.TIL_CHS_CFG.max_len e * 16 < len then badOperand b tl
  else if ¬ tl.addrOk a 16 len then badOperand a tl
  else let r := (tl.block c rd (.send e)).startSend c .csend e a.toNat len []
       .done r.1 r.2

/-- The checks that CRECV and CPOLL share (R250). -/
def recvBad (tl : Tile) (a b : Word) : Option Word :=
  let q := b.toNat % 64
  if 64 ≤ b.toNat then some b
  else if tl.rd F.TIL_CHQ_STATE.state q ≠ 1 ∨ tl.cpInbound = some q then some b
  else if ¬ tl.addrOk a 16 4096 then some a
  else none

/-- CRECV (R251): a held message is written and CRECV completes; otherwise it waits. A message for which a fused recv step has waited
since an earlier cycle is that step's (R253). -/
def crecvOp (c : Ctx) (w : BitVec 32) (rd ra rb imm : BitVec 5) (tl : Tile) : Act :=
  let a := tl.gr ra
  let q := (tl.gr rb).toNat % 64
  if imm ≠ 0 then illegal w tl
  else match recvBad tl a (tl.gr rb) with
    | some v => badOperand v tl
    | none =>
      if tl.recvAhead q c.cycle then .done (tl.block c rd (.recv q a.toNat)) []
      else match tl.takeMsg q with
      | (t1, some m) => let r := t1.received c q a.toNat m
                        .done (r.1.result rd (recvWord m.bytes.length)) r.2
      | (_, none) => .done (tl.block c rd (.recv q a.toNat)) []

/-- CPOLL (R251): as CRECV when a message is held, otherwise EMPTY at once. -/
def cpollOp (c : Ctx) (w : BitVec 32) (rd ra rb imm : BitVec 5) (tl : Tile) : Act :=
  let a := tl.gr ra
  let q := (tl.gr rb).toNat % 64
  if imm ≠ 0 then illegal w tl
  else match recvBad tl a (tl.gr rb) with
    | some v => badOperand v tl
    | none =>
      if tl.recvAhead q c.cycle then .done (tl.result rd 3) []
      else match tl.takeMsg q with
      | (t1, some m) => let r := t1.received c q a.toNat m
                        .done (r.1.result rd (recvWord m.bytes.length)) r.2
      | (_, none) => .done (tl.result rd 3) []

/-- A fused recv step waits on queue `q`. -/
def Tile.fusedWaits (tl : Tile) (q : Nat) : Bool :=
  (List.range 4).any (fun f => let x := tl.fslot f
    x.busy && x.step == 1 && (x.desc.map (fun d => d.recvQueue)) == some q)

/-- CCLOSE (R254): ra must be g0. -/
def ccloseOp (c : Ctx) (w : BitVec 32) (rd ra rb imm : BitVec 5) (tl : Tile) : Act :=
  let b := tl.gr rb
  let q := b.toNat % 64
  if imm ≠ 0 ∨ ra ≠ 0 then illegal w tl
  else if 64 ≤ b.toNat ∨ tl.rd F.TIL_CHQ_STATE.state q = 0 ∨ tl.fusedWaits q then badOperand b tl
  else if tl.rd F.TIL_CHQ_STATE.state q = 2 then .done (tl.result rd 0) []
  else .done ((tl.closeQueue c q).result rd 0) []

/-! ### Arrival counters (R92) -/

/-- CTRWAIT. -/
def ctrwaitOp (c : Ctx) (w : BitVec 32) (rd ra rb imm : BitVec 5) (tl : Tile) : Act :=
  let a := tl.gr ra
  let b := tl.gr rb
  if imm ≠ 0 then illegal w tl
  else if 2 ^ 32 ≤ a.toNat then badOperand a tl
  else if 64 ≤ b.toNat then badOperand b tl
  else waitCmd c rd (.counter b.toNat a.toNat) tl

/-- CTRSET. -/
def ctrsetOp (c : Ctx) (w : BitVec 32) (rd ra rb imm : BitVec 5) (tl : Tile) : Act :=
  let a := tl.gr ra
  let b := tl.gr rb
  if imm ≠ 0 then illegal w tl
  else if 2 ^ 32 ≤ a.toNat then badOperand a tl
  else if 64 ≤ b.toNat then badOperand b tl
  else .done ((tl.ctrSet c b.toNat a.toNat).result rd 0) []

/-! ### Barriers (R93, R227, R228, R433) -/

def bitOf (v i : Nat) : Bool := bits v i 1 == 1
def setBit (v i : Nat) : Nat := if bitOf v i then v else v + 2 ^ i
def clearBit (v i : Nat) : Nat := if bitOf v i then v - 2 ^ i else v

/-- A BARA on index `i` awaits its BARW. -/
def Tile.barPending (tl : Tile) (i : Nat) : Bool := bitOf (tl.rd F.TIL_PUL_STATE.pending_bara 0) i

/-- The digest contribution of an arrival: CRC-64 over the tile index and D (R433). -/
def Tile.arrivalDigest (c : Ctx) (tl : Tile) : Word := crc64 0 (leBytes 2 c.tile ++ leBytes 8 tl.digest.toNat)

/-- Mark the tile's arrival at index `i`; a participant sends its digest contribution. -/
def Tile.arrive (c : Ctx) (i : Nat) (tl : Tile) : Tile × List Out :=
  ({ tl with arrived := tl.arrived.set i c.cycle },
   if tl.rd F.TIL_PUL_BAR.participant i = 1 then [.digest i (tl.arrivalDigest c)] else [])

def barCheck (w : BitVec 32) (ra rb imm : BitVec 5) (tl : Tile) : Option Act :=
  if ra ≠ 0 ∨ rb ≠ 0 then some (illegal w tl)
  else if tl.rd F.TIL_PUL_BAR.enable imm.toNat ≠ 1 ∨ tl.barPending imm.toNat then
    some (badOperand (imm.setWidth 64) tl)
  else none

/-- BAR: arrive and wait for the release. -/
def barOp (c : Ctx) (w : BitVec 32) (rd ra rb imm : BitVec 5) (tl : Tile) : Act :=
  match barCheck w ra rb imm tl with
  | some a => a
  | none => let r := tl.arrive c imm.toNat
            .done (r.1.block c rd (.barrier imm.toNat)) r.2

/-- BARA: arrive and go on. -/
def baraOp (c : Ctx) (w : BitVec 32) (rd ra rb imm : BitVec 5) (tl : Tile) : Act :=
  match barCheck w ra rb imm tl with
  | some a => a
  | none => let r := tl.arrive c imm.toNat
            .done ((r.1.wr F.TIL_PUL_STATE.pending_bara 0
              (setBit (r.1.rd F.TIL_PUL_STATE.pending_bara 0) imm.toNat)).result rd 0) r.2

/-- BARW: at once after the release, else in the release cycle; without a BARA outstanding, CMD_OPERAND. -/
def barwOp (c : Ctx) (w : BitVec 32) (rd ra rb imm : BitVec 5) (tl : Tile) : Act :=
  let i := imm.toNat
  if ra ≠ 0 ∨ rb ≠ 0 then illegal w tl
  else if tl.barPending i = false then badOperand (imm.setWidth 64) tl
  else if bitOf (tl.rd F.TIL_PUL_STATE.released 0) i then
    let t1 := tl.wr F.TIL_PUL_STATE.pending_bara 0 (clearBit (tl.rd F.TIL_PUL_STATE.pending_bara 0) i)
    .done ((t1.wr F.TIL_PUL_STATE.released 0 (clearBit (tl.rd F.TIL_PUL_STATE.released 0) i)).result rd 0) []
  else .done (tl.block c rd (.barrier i)) []

/-- The release of index `i` reaches the tile (R227, R228): a waiting BAR or BARW completes; otherwise a BARA's release
is kept for its BARW. The node's arrival clears for the next episode. -/
def Tile.released (c : Ctx) (i : Nat) (tl : Tile) : Tile :=
  let t0 : Tile := { tl with arrived := tl.arrived.filter (fun k _ => k != i) }
  let waiting := match t0.seq.blk with
    | some ⟨.barrier j, rd⟩ => if j = i ∧ t0.st = .running then some rd else none
    | _ => none
  match waiting with
  | some rd =>
    (t0.wr F.TIL_PUL_STATE.pending_bara 0 (clearBit (t0.rd F.TIL_PUL_STATE.pending_bara 0) i)).complete c rd 0
  | none =>
    if t0.barPending i then t0.wr F.TIL_PUL_STATE.released 0 (setBit (t0.rd F.TIL_PUL_STATE.released 0) i) else t0

/-! ### Sidereal waits (R95, R96) -/

/-- WAITS: completes at t − 1; late in not-before form completes at once; late in deadline form raises SLIP. -/
def waitsOp (c : Ctx) (w : BitVec 32) (rd ra rb imm : BitVec 5) (tl : Tile) : Act :=
  let t := tl.gr ra
  if rb ≠ 0 ∨ 2 ≤ imm.toNat then illegal w tl
  else if t.toNat ≤ c.sidereal ∧ imm.toNat % 2 = 1 then .slip (t.toNat % 2 ^ 32) (c.sidereal - t.toNat + 1)
  else if t.toNat ≤ c.sidereal + 1 then .done (tl.result rd 0) []
  else .done (tl.block c rd (.sidereal t)) []

/-- WAITS completes in cycle t − 1 (R95). -/
def Tile.waitsEnds (c : Ctx) (tl : Tile) : Tile × List Out :=
  match tl.seq.blk with
  | some ⟨.sidereal t, rd⟩ =>
    if tl.st = .running ∧ t.toNat ≤ c.sidereal + 1 then (tl.complete c rd 0, []) else (tl, [])
  | _ => (tl, [])

/-! ### Transits, VLD and VST (R97, R98, R195) -/

/-- TRNS: BUSY if no transit window of this tile is open; otherwise the tile waits for the transit's entry. -/
def trnsOp (c : Ctx) (w : BitVec 32) (rd ra rb imm : BitVec 5) (tl : Tile) : Act :=
  if ra ≠ 0 ∨ rb ≠ 0 ∨ imm ≠ 0 then illegal w tl
  else if c.windowOpen = false then .done (tl.result rd busyWord) []
  else .done (tl.block c rd .transit) []

/-- A Vesper address of VLD and VST is allowed (R97). -/
def vspAddrOk (a : Word) : Bool :=
  let n := a.toNat
  let off := n % 2 ^ 28
  decide (n < 2 ^ 30) && decide (off % 8 = 0) &&
    (bits n 28 2 == 1 || (bits n 28 2 == 0 && decide (0x01000000 ≤ off) && decide (off ≤ 0x021FFFFF)))

/-- VLD: a register read over Vesper; the tile waits for the reply. -/
def vldOp (c : Ctx) (w : BitVec 32) (rd ra rb imm : BitVec 5) (tl : Tile) : Act :=
  let a := tl.gr ra
  if rb ≠ 0 ∨ imm ≠ 0 then illegal w tl
  else if vspAddrOk a = false then badOperand a tl
  else
    let tag := tl.nextTag
    let t1 : Tile := { tl with nextTag := (tag + 1) % 4096, seq := { tl.seq with vldTag := tag, vldAt := c.cycle, vldAddr := a } }
    .done (t1.block c rd .vld) [.regReq false (bits a.toNat 28 2 == 1) (a.toNat % 2 ^ 28) 0 tag]

/-- VST: posted; it completes at issue. -/
def vstOp (w : BitVec 32) (rd ra rb imm : BitVec 5) (tl : Tile) : Act :=
  let a := tl.gr ra
  if imm ≠ 0 then illegal w tl
  else if vspAddrOk a = false then badOperand a tl
  else
    let tag := tl.nextTag
    let t1 : Tile := { tl with nextTag := (tag + 1) % 4096, seq := { tl.seq with vstOut := tl.seq.vstOut + 1 } }
    .done (t1.result rd 0) [.regReq true (bits a.toNat 28 2 == 1) (a.toNat % 2 ^ 28) (tl.gr rb) tag]

/-- The reply of the VLD in progress arrives (R97, R224): an ERROR gives all ones and sets vld_error; an answer whose
tag is not the one waited for is discarded. -/
def Tile.vldReply (c : Ctx) (tag : Nat) (err : Bool) (v : Word) (tl : Tile) : Tile × List Out :=
  match tl.seq.blk with
  | some ⟨.vld, rd⟩ =>
    if tl.st = .running ∧ tag = tl.seq.vldTag then
      ((if err then tl.vspFlag c F.TIL_VSP_STATUS.vld_error else tl).complete c rd
        (if err then 0xFFFFFFFFFFFFFFFF#64 else v), [])
    else (tl, [])
  | _ => (tl, [])

/-- A VLD without a response for 400,000 cycles (R224). -/
def Tile.vldTimeout (c : Ctx) (tl : Tile) : Tile × List Out :=
  match tl.seq.blk with
  | some ⟨.vld, rd⟩ =>
    if tl.st = .running ∧ tl.seq.vldAt + 400000 ≤ c.cycle then
      let t1 := (tl.vspFlag c F.TIL_VSP_STATUS.vld_timeout).complete c rd 0xFFFFFFFFFFFFFFFF#64
      (t1, [.record 0x07 1 0 0 tl.seq.vldAddr (t1.word .TIL_VSP_STATUS 0) 0 0])
    else (tl, [])
  | _ => (tl, [])

/-- A VST of this tile has reached its target (R98). -/
def Tile.vstReached (c : Ctx) (tl : Tile) : Tile :=
  ({ tl with seq := { tl.seq with vstOut := tl.seq.vstOut - 1 } } : Tile).settle c

/-- CHAN_REPLY_TIMEOUT (R258): a send without a reply for 400,000 cycles puts the entry in BROKEN and completes CLOSED;
its credit is not returned. -/
def Tile.sendTimeout (c : Ctx) (e : Nat) (tl : Tile) : Tile × List Out :=
  match tl.sends.find? (fun x => x.entry == e && x.handed.any (fun h => decide (h + 400000 ≤ c.cycle))) with
  | some x =>
    if tl.deaf = false then
      let t1 : Tile := { tl with sends := tl.sends.erase x }
      let t2 := ((t1.wr F.TIL_CHS_STATE.state e 2).closedSend c e).sendEnds c x.who false
      (t2, [.record 0x08 5 0 0 (BitVec.ofNat 64 (2 + e * 2 ^ 8)) 0 0 0])
    else (tl, [])
  | none => (tl, [])

/-! ### The instruction at pc (R103) -/

/-- What the instruction `w` does at its boundary, as its mnemonic's command has it (Tables 3-3, 3-4, 3-6 and 3-8). -/
def Tile.actOf (c : Ctx) (w : BitVec 32) (tl : Tile) : Act :=
  let rd : BitVec 5 := w.extractLsb' 21 5
  let ra : BitVec 5 := w.extractLsb' 16 5
  let rb : BitVec 5 := w.extractLsb' 11 5
  let low : BitVec 16 := w.extractLsb' 0 16
  let z : BitVec 5 := w.extractLsb' 6 5
  let imm : BitVec 5 := w.extractLsb' 0 5
  if wordReserved w then illegal w tl
  else match (w.extractLsb' 26 6).toNat with
    | 0x01 => if (w.extractLsb' 0 6).toNat < 0x1C then aluOp w z rd ra rb (fun a _ => a) tl else aluOp1 w z rd ra rb id tl
    | 0x08 => shiftOp w (w.extractLsb' 6 8) rd ra id tl
    | 0x09 => lihOp w rd ra low tl
    | 0x10 => loadOp c rd ra low 1 id tl
    | 0x11 => loadOp c rd ra low 1 id tl
    | 0x12 => loadOp c rd ra low 2 id tl
    | 0x13 => loadOp c rd ra low 2 id tl
    | 0x14 => loadOp c rd ra low 4 id tl
    | 0x15 => loadOp c rd ra low 4 id tl
    | 0x16 => loadOp c rd ra low 8 id tl
    | 0x18 => storeOp c rd ra low 1 tl
    | 0x19 => storeOp c rd ra low 2 tl
    | 0x1A => storeOp c rd ra low 4 tl
    | 0x1B => storeOp c rd ra low 8 tl
    | 0x1C => atomOp c rd ra rb (if (w.extractLsb' 0 1).toNat = 0 then 4 else 8) id (fun a _ => a) tl
    | 0x20 => branchOp rd ra low (fun a b => a == b) tl
    | 0x21 => branchOp rd ra low (fun a b => a != b) tl
    | 0x22 => branchOp rd ra low (fun a b => a.slt b) tl
    | 0x23 => branchOp rd ra low (fun a b => !(a.slt b)) tl
    | 0x24 => branchOp rd ra low (fun a b => a.ult b) tl
    | 0x25 => branchOp rd ra low (fun a b => !(a.ult b)) tl
    | 0x26 => callTo rd (tl.seq.pc + ((w.extractLsb' 0 21).signExtend 64 <<< 2)) tl
    | 0x27 => callTo rd (tl.gr ra + sext16 low) tl
    | 0x2E =>
      let z4 : BitVec 4 := w.extractLsb' 8 4
      let n : BitVec 8 := w.extractLsb' 0 8
      let z12 : BitVec 12 := w.extractLsb' 0 12
      match (w.extractLsb' 12 4).toNat with
      | 0 => getcOp c w rd ra z4 n tl
      | 1 => ctlOp c w rd ra z4 n (fun _ v => v) tl
      | 2 => ctlOp c w rd ra z4 n (fun o v => o ||| v) tl
      | 3 => ctlOp c w rd ra z4 n (fun o v => o &&& ~~~v) tl
      | 8 => hretOp w rd ra z12 tl
      | 9 => trapOp w rd ra z4 n tl
      | 10 => haltOp c w rd ra z12 tl
      | _ => vsyncOp c w rd ra z12 tl
    | 0x30 => match (w.extractLsb' 5 6).toNat with
      | 0x00 => sarmOp c w rd ra rb imm tl
      | 0x01 => srearmOp c w rd ra rb imm tl
      | 0x02 => sstopOp c w rd ra rb imm tl
      | 0x03 => swaitOp c w rd ra rb imm tl
      | 0x04 => lloadOp c w ((w.extractLsb' 0 1).toNat == 1) rd ra rb (w.extractLsb' 1 4) tl
      | 0x05 => lwaitOp c w rd ra rb imm tl
      | 0x08 => fuseOp c w rd ra rb imm tl
      | 0x09 => fwaitOp c w rd ra rb imm tl
      | 0x0C => csendOp c w rd ra rb imm tl
      | 0x0D => crecvOp c w rd ra rb imm tl
      | 0x0E => cpollOp c w rd ra rb imm tl
      | 0x0F => ccloseOp c w rd ra rb imm tl
      | 0x14 => ctrwaitOp c w rd ra rb imm tl
      | 0x15 => ctrsetOp c w rd ra rb imm tl
      | 0x18 => barOp c w rd ra rb imm tl
      | 0x19 => baraOp c w rd ra rb imm tl
      | 0x1A => barwOp c w rd ra rb imm tl
      | 0x1C => waitsOp c w rd ra rb imm tl
      | 0x1D => trnsOp c w rd ra rb imm tl
      | 0x20 => vldOp c w rd ra rb imm tl
      | _ => vstOp w rd ra rb imm tl
    | _ => .done tl.advance []

/-- TRAP_ENTRY (R99, R102, R103): at a boundary, FETCH_RANGE, then the synchronous trap of the instruction at pc, then the pending
asynchronous trap with the lowest code. Any other instruction waits for its own command. -/
def Tile.trapEntry (c : Ctx) (tl0 : Tile) : Tile × List Out :=
  let tl := tl0.settle c
  if tl.atBoundary c = false then (tl, [])
  else if tl.size ≤ tl.seq.pc.toNat then tl.takeTrap c 0x03 false tl.seq.pc tl.seq.pc
  else match tl.actOf c tl.fetch with
    | .trap code resume arg => tl.takeTrap c code false resume arg
    | _ => match tl.dueTrap c with
      | some p => tl.takeAsync c p
      | none => (tl, [])

end Sys2Proof.Machine
end

