-- ==== Sys2Proof/Machine/Xf.lean ====
section
/-! DEFINITION. The transcendental unit XF (R130): the exact value of each function, enclosed by integer arithmetic of `xfP` fraction
bits, the binary32 encodings within 1 unit in the last place of it, and the special inputs. Which of those encodings a B0 module
gives is a free value (log entry 10). -/
namespace Sys2Proof.Machine

/-- Fraction bits of the enclosure: binary32 inputs are told apart from every rounding boundary by far fewer. -/
def xfP : Nat := 320

/-- 2^P × ln 2, as Σ 1 / (k 2^k). -/
def lnTwo : Nat := ((List.range xfP).map (fun k => 2 ^ (xfP - k - 1) / (k + 1))).sum

/-- `n` terms of the exponential series from term `t` = r^k / k! on, in units of 2^−P. -/
def expTerms (r : Nat) : Nat → Nat → Nat → Nat
  | 0, _, _ => 0
  | n + 1, k, t => t + expTerms r n (k + 1) (t * r / 2 ^ xfP / (k + 1))

/-- e^x for x = ±X × 2^−P, as a number and its power of two. -/
def expVal (neg : Bool) (X : Nat) : Nat × Int :=
  let k := X / lnTwo
  if neg then (expTerms ((k + 1) * lnTwo - X) 96 0 (2 ^ xfP), -(k : Int) - 1 - xfP)
  else (expTerms (X % lnTwo) 96 0 (2 ^ xfP), (k : Int) - xfP)

/-- `n` terms of atanh z = Σ z^(2j+1) / (2j + 1), in units of 2^−P; `t` is the power. -/
def atanhTerms (z2 : Nat) : Nat → Nat → Nat → Nat
  | 0, _, _ => 0
  | n + 1, j, t => t / (2 * j + 1) + atanhTerms z2 n (j + 1) (t * z2 / 2 ^ xfP)

/-- ln (m × 2^e) in units of 2^−P, m not 0. -/
def lnVal (m : Nat) (e : Int) : Int :=
  let l := Nat.log2 m
  let z := (m - 2 ^ l) * 2 ^ xfP / (m + 2 ^ l)
  2 * (atanhTerms (z * z / 2 ^ xfP) 128 0 z : Int) + ((l : Int) + e) * lnTwo

/-- The integer square root, `n` bits from the top: the largest r with r² ≤ v. -/
def sqrtBits (v : Nat) : Nat → Nat → Nat
  | 0, r => r
  | n + 1, r => sqrtBits v n (if (r + 2 ^ n) * (r + 2 ^ n) ≤ v then r + 2 ^ n else r)

/-- The encodings within 1 ulp of the value (−1)^s × m × 2^e; `exact` says that m × 2^e is the value and not cut below it. -/
def nearUlp (s exact : Bool) (m : Nat) (e : Int) : List Nat :=
  let lo := encodeMag 23 127 m e 1 0
  let isLo := exact && (match floatVal 0 lo with | .fin _ n f => decide (inUnits false n f (min e f) = inUnits false m e (min e f)) | _ => false)
  let mags := if fmtMax 0 < lo then [fmtMax 0, 0x7F800000] else if isLo then [lo - 1, lo, lo + 1] else [lo, lo + 1]
  mags.map (fun b => signBit s 32 + b)

/-- |v| in units of 2^−P. -/
def fixMag (m : Nat) (e : Int) : Nat := if 0 ≤ e + xfP then m * 2 ^ (e + xfP).toNat else m / 2 ^ (-(e + xfP)).toNat

/-- The encodings that the bound of R130 leaves to a lane with a finite input (−1)^s × m × 2^e. 1 EXP, 2 LOG, 3 RCP, 4 RSQ, 5 TANH. -/
def xfFinite (op : Nat) (s : Bool) (m : Nat) (e : Int) : List Nat :=
  let pinf := 0x7F800000
  match op with
  | 1 =>
    if m = 0 then nearUlp false true 1 0
    else if flt (.fin false 89 0) (.fin false m e) && !s then [pinf]
    else if flt (.fin false 104 0) (.fin false m e) && s then [0]
    else
      let v := expVal s (fixMag m e)
      if flt (floatVal 0 (fmtMax 0)) (.fin false v.1 v.2) then [pinf] else nearUlp false false v.1 v.2
  | 2 =>
    if m = 0 then [signBit true 32 + pinf] else if s then [fmtNaN 0]
    else
      let v := lnVal m e
      if feq (.fin false m e) (.fin false 1 0) then [0, signBit true 32, 1, signBit true 32 + 1]
      else nearUlp (decide (v < 0)) false v.natAbs (-(xfP : Int))
  | 3 => if m = 0 then [signBit s 32 + pinf] else nearUlp s (2 ^ xfP % m == 0) (2 ^ xfP / m) (-(xfP : Int) - e)
  | 4 =>
    if m = 0 then [signBit s 32 + pinf] else if s then [fmtNaN 0]
    else
      -- 1 / √(m × 2^e) = √(2^(2P) / m') × 2^(−P − e'/2), e' even
      let m' := if e % 2 = 0 then m else 2 * m
      let e' := if e % 2 = 0 then e else e - 1
      let q := 2 ^ (2 * xfP) / m'
      let r := sqrtBits q (xfP + 1) 0
      nearUlp false (decide (r * r = q) && 2 ^ (2 * xfP) % m' == 0) r (-(xfP : Int) - e' / 2)
  | _ =>
    if m = 0 then [0, signBit true 32, 1, signBit true 32 + 1]
    else
      let v := expVal false (2 * min (fixMag m e) (64 * 2 ^ xfP))
      let a := v.1 * 2 ^ (v.2 + xfP).toNat
      nearUlp s false ((a - 2 ^ xfP) * 2 ^ xfP / (a + 2 ^ xfP)) (-(xfP : Int))

/-- A lane of an XF operation (R130): the special inputs, otherwise one of the encodings within the bound, the same for the same
operation, input, rounding mode and random word (log entry 10). -/
def xfLane (op rm r x : Nat) : Nat :=
  let pinf := 0x7F800000
  match floatVal 0 x with
  | .nan => fmtNaN 0
  | .inf s => match op with
    | 1 => if s then 0 else pinf
    | 2 => if s then fmtNaN 0 else pinf
    | 3 => signBit s 32
    | 4 => if s then fmtNaN 0 else 0
    | _ => signBit s 32 + 0x3F800000
  | .fin s m e =>
    let l := xfFinite op s m e
    l.getD ((Config.xf op (BitVec.ofNat 32 x) rm r).toNat % l.length) 0

end Sys2Proof.Machine
end

