-- ==== Sys2Proof/Machine/LatUnits.lean ====
section
/-! DEFINITION. The lattice at work: links, queues and match tables (R120 to R128, R153, R154) and the firings of VX,
XF, ST, SQ, LD, SV and CP units (R129 to R134). A firing command acts in the present cycle and only when the unit can
fire in it. -/
namespace Sys2Proof.Machine

/-- The lattice moves in this cycle: the tile is RUNNING or IDLE and no commit is under way (R147, R151, R152). -/
def Tile.latLive (c : Ctx) (tl : Tile) : Bool :=
  (tl.st == .running || tl.st == .idle) &&
    (match tl.lat.load with | some d => !(d.st == .committing && decide (c.cycle < d.inForce)) | none => true)

/-- The inputs that output `out` of unit `u` feeds: unit and input, ascending (R120). -/
def Bundle.dests (b : Bundle) (u out : Nat) : List (Nat × Nat) :=
  ((List.range 64).filter (fun k => let s := b.sels.getD k 0
    selOn s && !(selConst s) && selSrc s == u && selOut s == out && (b.op? (k / 4)).isSome)).map (fun k => (k / 4, k % 4))

/-- Tokens in the link and queue of one input (R121). -/
def Tile.backlog (tl : Tile) (u i : Nat) : Nat := ((tl.unit u).inq.filter (fun q => q.1 == i)).length

/-- Give a token to every input that an output feeds: it leaves the output in cycle `at_`, and takes two cycles on the link (R120). -/
def Tile.feed (at_ : Nat) (tok : Tok) : List (Nat × Nat) → Tile → Tile
  | [], tl => tl
  | (u, i) :: r, tl =>
    Tile.feed at_ tok r (tl.setUnit u { tl.unit u with inq := (tl.unit u).inq ++ [(i, at_ + 2, tok)] })

/-- A lattice counter increments, unless it is cleared in this very cycle (R155). -/
def Tile.latCount (c : Ctx) (f : Tile → Tile) (tl : Tile) : Tile := if tl.latClr = some c.cycle then tl else f tl

/-- An output of `u` holds its token in this cycle, and the unit does not fire (R121). -/
def Tile.holding (c : Ctx) (tl : Tile) (u : Nat) : Bool := (tl.unit u).heldAt == some c.cycle

/-- The unit's whole pipeline holds in this cycle: every latency grows by one (R121), and so does the wait of a loop, a message or a
readout for its next token. -/
def LUnit.holds (k : Nat) (x : LUnit) : LUnit :=
  let n (a : Nat) : Nat := if k < a then a + 1 else a
  { x with
    heldAt := some k
    pipe := x.pipe.map (fun p => (p.1, max p.2.1 k + 1, p.2.2))
    sqLoop := x.sqLoop.map (fun l => { l with next := n l.next })
    cpIn := x.cpIn.map (fun m => (m.1, m.2.1, n m.2.2))
    mxOut := x.mxOut.map (fun r => { r with next := n r.next }) }

/-- The lowest-numbered of some inputs. -/
def leastInput : List (Nat × Nat) → Option (Nat × Nat)
  | [] => none
  | d :: r => match leastInput r with
    | none => some d
    | some e => if 4 * e.1 + e.2 < 4 * d.1 + d.2 then some e else some d

/-- The imbalance count (R153): in this cycle an output of `u` holds a token, one of its destinations being full while another could
accept. `full` are the tokens whose output cannot pass them. -/
def Tile.imbalance (c : Ctx) (u : Nat) (full : List (Nat × Nat × Tok)) (tl : Tile) : Tile :=
  let ds (p : Nat × Nat × Tok) := tl.lat.cfg.dests u p.1
  let hit := full.filter (fun p => (ds p).any (fun d => decide (tl.backlog d.1 d.2 < 6)))
  match leastInput (hit.flatMap (fun p => (ds p).filter (fun d => decide (6 ≤ tl.backlog d.1 d.2)))) with
  | some d => tl.latCount c fun t =>
      ((t.addSat F.TIL_LAT_IMBAL.cycles u 1).wr F.TIL_LAT_IMBAL.blocker_unit u d.1).wr F.TIL_LAT_IMBAL.blocker_input u d.2
  | none => tl

/-- The outputs of unit `u` in this cycle (R121): the tokens that are ready pass to their links if every input they feed has room;
otherwise all of them hold. -/
def Tile.passUnit (c : Ctx) (u : Nat) (tl : Tile) : Tile :=
  let x := tl.unit u
  let due := x.pipe.filter (fun p => decide (p.2.1 ≤ c.cycle))
  let full := due.filter (fun p => (tl.lat.cfg.dests u p.1).any (fun d => decide (6 ≤ tl.backlog d.1 d.2)))
  if full.isEmpty then
    due.foldl (fun t p => t.feed c.cycle p.2.2 (tl.lat.cfg.dests u p.1))
      (tl.setUnit u { x with pipe := x.pipe.filter (fun p => decide (c.cycle < p.2.1)) })
  else (tl.setUnit u (x.holds c.cycle)).imbalance c u full

/-- The operand inputs that a firing of the op needs from its entry: the needed inputs that no constant feeds, ctl if
connected; MRG needs only the selected input; MX needs a connected in2 for the first pair of a K step (R123, R128,
R129, R135). -/
def needed (b : Bundle) (o : OpBlk) (firstPair : Bool) (e : List (Nat × Tok)) : List Nat :=
  let u := o.unit
  let base := (opNeeds (uKind u) o.op).filter (fun i => i != 3 && !(selConst (b.sel u i)))
    ++ (if uKind u == .mx && firstPair && b.on u 2 then [2] else [])
  let ctl := if b.on u 3 then [3] else []
  if uKind u == .st && o.op == 3 then
    match e.find? (fun p => p.1 == 3) with
    | some p => 3 :: (if p.2.val.toNat % 2 = 1 then [0] else [1])
    | none => [3]
  else base ++ ctl

def entryFull (b : Bundle) (o : OpBlk) (firstPair : Bool) (e : List (Nat × Tok)) : Bool :=
  (needed b o firstPair e).all (fun i => e.any (fun p => p.1 == i))

/-- The pair that ordered unit MX fires under tag `t` is the first of its K step. -/
def firstOfStep (x : LUnit) (o : OpBlk) (t : BitVec 8) : Bool :=
  (x.mxPair + (t - x.expTag).toNat) % (mxShape o.fmtIn o.fmtB (bits o.mode 2 2)).2.1 == 0

/-- The head token of an input: the oldest that has crossed its link. -/
def LUnit.head (c : Ctx) (x : LUnit) (i : Nat) : Option (Nat × Nat × Tok) :=
  match x.inq.find? (fun q => q.1 == i) with
  | some q => if q.2.1 ≤ c.cycle then some q else none
  | none => none

/-- The head token could enter the match table (R122). -/
def LUnit.canEnter (x : LUnit) (q : Nat × Nat × Tok) : Bool :=
  match x.table.find? (fun e => e.tag == q.2.2.tag) with
  | some e => !(e.ops.any (fun p => p.1 == q.1))
  | none => decide (x.table.length < 16)

/-- The input whose head token cannot enter while all 16 entries are filled and none is complete (R154). -/
def LUnit.exhausted (c : Ctx) (x : LUnit) : Option (Nat × Nat × Tok) :=
  if x.table.length = 16 ∧ x.table.all (fun e => e.complete.isNone) then
    ([0, 1, 2, 3].filterMap (fun i => x.head c i)).find? (fun q => !(x.canEnter q))
  else none

/-- The unit is, or is not, in tag exhaustion in this cycle (R154). -/
def LUnit.noteExhaust (c : Ctx) (x : LUnit) : LUnit :=
  match x.exhausted c with
  | some _ => { x with exhaustSince := some (x.exhaustSince.getD (c.cycle, c.sidereal)) }
  | none => { x with exhaustSince := none, exhaustTold := false }

/-- What the units in `us` do in this cycle without firing, once: their outputs pass or hold their tokens (R121, R153), and tag
exhaustion begins or ends (R154). -/
def Tile.pump (c : Ctx) : List Nat → Tile → Tile
  | [], tl => tl
  | u :: r, tl =>
    if c.cycle ≤ (tl.unit u).pumped then Tile.pump c r tl
    else
      let t1 := tl.passUnit c u
      Tile.pump c r (t1.setUnit u { (t1.unit u).noteExhaust c with pumped := c.cycle })

def Tile.pumpAll (c : Ctx) (tl : Tile) : Tile := if tl.latLive c ∧ c.gated = false then tl.pump c (List.range 16) else tl

/-- Note the highest number of filled match entries (Table 4-18). -/
def Tile.noteOcc (c : Ctx) (u : Nat) (tl : Tile) : Tile :=
  tl.latCount c fun t => t.wr F.TIL_LAT_OCC.max u (max (t.rd F.TIL_LAT_OCC.max u) (t.unit u).table.length)

/-- TOKEN_ARRIVAL (R122, R148): the head token of input `i` of unit `u` moves into the match table if it can; a token
of another phase, or one that arrives during a commit, is discarded and counted. -/
def Tile.tokenArrives (c : Ctx) (u i : Nat) (tl0 : Tile) : Tile :=
  let tl := tl0.pumpAll c
  if ¬(tl.st = .running ∨ tl.st = .idle) then tl else
  let x := tl.unit u
  match x.head c i with
  | none => tl
  | some q =>
    if q.2.2.phase ≠ tl.lat.cfg.phase ∨ tl.latLive c = false then
      (tl.setUnit u { x with inq := x.inq.erase q }).phaseDiscard c 1
    else
      match tl.lat.cfg.op? u with
      | none => tl
      | some o =>
        if uKind u == .ld || (uKind u == .st && o.op == 5) then tl   -- their heads are taken from the queue
        else if x.moved.get i 0 = c.cycle + 1 ∨ x.canEnter q = false then tl
        else
          let done (e : List (Nat × Tok)) : Option (Nat × Nat) :=
            if entryFull tl.lat.cfg o (firstOfStep x o q.2.2.tag) e then some (c.cycle, i) else none
          let table := match x.table.find? (fun e => e.tag == q.2.2.tag) with
            | some _ => x.table.map (fun e => if e.tag = q.2.2.tag then
                { e with ops := e.ops ++ [(i, q.2.2)],
                         complete := (match e.complete with | some z => some z | none => done (e.ops ++ [(i, q.2.2)])) } else e)
            | none => x.table ++ [⟨q.2.2.tag, [(i, q.2.2)], c.cycle, done [(i, q.2.2)]⟩]
          let x1 := { x with inq := x.inq.erase q, table := table, moved := x.moved.set i (c.cycle + 1) }
          (tl.setUnit u (x1.noteExhaust c)).noteOcc c u

/-! ### Firing -/

/-- The earliest complete entry: in an earlier cycle than this; then the lower input (R123, R124). -/
def firstComplete (c : Ctx) : List MEntry → Option MEntry
  | [] => none
  | e :: r =>
    let rest := firstComplete c r
    match e.complete with
    | some (cy, i) =>
      if c.cycle ≤ cy then rest
      else match rest with
        | some f => match f.complete with
          | some (cy', i') => if cy' < cy ∨ (cy' = cy ∧ i' < i) then some f else some e
          | none => some e
        | none => some e
    | none => rest

/-- Unit `u` can fire op `op` in this cycle: its op block, and the entry it fires. Ordered units fire only the entry of
their expected tag (R125). -/
def Tile.ready (c : Ctx) (tl : Tile) (u op : Nat) (ordered : Bool) : Option (OpBlk × MEntry) :=
  if tl.latLive c = false ∨ tl.holding c u ∨ (tl.unit u).lastFire = some c.cycle then none
  else match tl.lat.cfg.op? u with
    | none => none
    | some o =>
      if o.op ≠ op then none
      else if ordered then
        match (tl.unit u).table.find? (fun e => e.tag == (tl.unit u).expTag) with
        | some e => if e.complete.any (fun z => decide (z.1 < c.cycle)) then some (o, e) else none
        | none => none
      else (firstComplete c (tl.unit u).table).map (fun e => (o, e))

/-- The token on input `i` of an entry; a constant vector matches every tag. -/
def operand (b : Bundle) (o : OpBlk) (e : MEntry) (i : Nat) : Option Tok :=
  let s := b.sel o.unit i
  if selOn s && selConst s then some ⟨1, o.consts.getD (selSrc s) 0, e.tag, b.phase⟩
  else (e.ops.find? (fun p => p.1 == i)).map (·.2)

/-- The 16 lanes of an operand; a scalar is broadcast (R129). -/
def lanes (t : Option Tok) : List Nat :=
  match t with
  | none => List.replicate 16 0
  | some t => if t.net = 0 then List.replicate 16 (t.val.toNat % 2 ^ 32) else unpackElems 32 16 t.val.toNat

/-- The cond bit of the control token of an entry; 1 when ctl is not connected (R128). -/
def condOf (b : Bundle) (o : OpBlk) (e : MEntry) : Bool :=
  match operand b o e 3 with
  | some t => t.val.toNat % 2 = 1
  | none => true

/-- Empty the fired entry, count the firing, and place its output tokens in the pipeline (R123, R126, Table 4-16). -/
def Tile.fired (c : Ctx) (u : Nat) (e : MEntry) (outs : List (Nat × Nat × Nat × Nat)) (tl : Tile) : Tile :=
  let x := tl.unit u
  let toks := outs.map (fun q => (q.1, c.cycle + q.2.1, (⟨q.2.2.1, BitVec.ofNat 512 q.2.2.2, e.tag, tl.lat.cfg.phase⟩ : Tok)))
  (tl.setUnit u { x with table := x.table.erase e, expTag := x.expTag + 1, lastFire := some c.cycle,
                         pipe := x.pipe ++ toks }).latCount c (fun t => t.addWrap F.TIL_LAT_FIRE.count u 1)

/-- The rounding-unit number of a lattice unit (R67). -/
def roundUnit : Nat → Nat
  | 4 => 1 | 6 => 2 | 8 => 3 | 10 => 4 | 9 => 5 | 13 => 6 | 14 => 7 | _ => 0

/-- Random words for `k` elements of one cycle (R67, R68): drawn only under stochastic rounding. In the cycle of a seed
write the seed and counters before it are used, and the increment is lost (R74). -/
def Tile.draw (c : Ctx) (o : OpBlk) (k : Nat) (tl : Tile) : List Nat × Tile :=
  if o.rmode = 2 then
    let ru := roundUnit o.unit
    let n := (k + 3) / 4
    match tl.seedWas with
    | some (cy, seed, ctrs) =>
      if cy = c.cycle then (philoxWords seed c.tile ru n (ctrs.getD ru 0), tl)
      else (philoxWords (tl.rd F.TIL_SR_SEED.seed 0) c.tile ru n (tl.rd F.TIL_SR_COUNT.count ru), tl.addWrap F.TIL_SR_COUNT.count ru n)
    | none => (philoxWords (tl.rd F.TIL_SR_SEED.seed 0) c.tile ru n (tl.rd F.TIL_SR_COUNT.count ru), tl.addWrap F.TIL_SR_COUNT.count ru n)
  else ([], tl)

/-! ### VX (Table 4-3, R537) -/

/-- What a VX op computes: out0 network and value, and the flags cvt_overflow, cvt_nan, x96_mismatch. -/
structure VxRes where
  net : Nat
  val : Nat
  ovf : Bool
  nan : Bool
  mis : Bool

/-- Lane-wise binary32 arithmetic with the op block's rounding and sat. -/
def vxLanes (o : OpBlk) (ws : List Nat) (vs : List FVal) : VxRes :=
  let rs := vs.zipIdx.map (fun p => arith32 o.rmode (ws.getD p.2 0) o.sat p.1)
  ⟨1, packElems 32 (rs.map (·.1)), rs.any (·.2), false, false⟩

def vxInts (vs : List Nat) : VxRes := ⟨1, packElems 32 vs, false, false, false⟩

def zip3 (f : Nat → Nat → Nat → α) : List Nat → List Nat → List Nat → List α
  | a :: x, b :: y, d :: z => f a b d :: zip3 f x y z
  | _, _, _ => []

def f32 (a : Nat) : FVal := floatVal 0 a

def vxAdd (o : OpBlk) (ws a b _c : List Nat) (_v : Nat) : VxRes :=
  if o.fmtIn = 9 then vxInts (List.zipWith (fun x y => (x + y) % 2 ^ 32) a b)
  else vxLanes o ws (List.zipWith (fun x y => fadd (f32 x) (f32 y)) a b)
def vxSub (o : OpBlk) (ws a b _c : List Nat) (_v : Nat) : VxRes :=
  if o.fmtIn = 9 then vxInts (List.zipWith (fun x y => (x + 2 ^ 32 - y) % 2 ^ 32) a b)
  else vxLanes o ws (List.zipWith (fun x y => fadd (f32 x) (fneg (f32 y))) a b)
def vxMul (o : OpBlk) (ws a b _c : List Nat) (_v : Nat) : VxRes :=
  if o.fmtIn = 9 then vxInts (List.zipWith (fun x y => (x * y) % 2 ^ 32) a b)
  else vxLanes o ws (List.zipWith (fun x y => fmul (f32 x) (f32 y)) a b)
def vxFma (o : OpBlk) (ws a b c : List Nat) (_v : Nat) : VxRes :=
  if o.fmtIn = 9 then vxInts (zip3 (fun x y z => (x * y + z) % 2 ^ 32) a b c)
  else vxLanes o ws (zip3 (fun x y z => fadd (fmul (f32 x) (f32 y)) (f32 z)) a b c)
def vxMin (o : OpBlk) (_ws a b _c : List Nat) (_v : Nat) : VxRes :=
  vxInts (List.zipWith (fun x y => if o.fmtIn = 9 then (if int32 x ≤ int32 y then x else y) else min32 x y) a b)
def vxMax (o : OpBlk) (_ws a b _c : List Nat) (_v : Nat) : VxRes :=
  vxInts (List.zipWith (fun x y => if o.fmtIn = 9 then (if int32 y ≤ int32 x then x else y) else max32 x y) a b)

/-- Elements that CVT converts: 16, or as many as either token holds. -/
def cvtCount (o : OpBlk) : Nat := min 16 (min (fmtPerToken o.fmtIn) (fmtPerToken o.fmtOut))

def convAll (o : OpBlk) (ws : List Nat) (xs : List Nat) : List Nat × Bool × Bool :=
  let rs := xs.zipIdx.map (fun p => convert o.fmtIn o.fmtOut o.rmode (ws.getD p.2 0) o.sat p.1)
  (rs.map (·.1), rs.any (·.2.1), rs.any (·.2.2))

def vxCvt (o : OpBlk) (ws _a _b _c : List Nat) (v : Nat) : VxRes :=
  let r := convAll o ws (unpackElems (fmtWidth o.fmtIn) (cvtCount o) v)
  ⟨1, packElems (fmtWidth o.fmtOut) r.1, r.2.1, r.2.2, false⟩
def vxQmx (o : OpBlk) (ws a b _c : List Nat) (_v : Nat) : VxRes :=
  let r := quantise o.fmtOut o.rmode ws ((a ++ b).map f32)
  ⟨1, packElems (fmtWidth o.fmtOut) r.1 + r.2.1 * 2 ^ 504, r.2.2.1, r.2.2.2, false⟩
def vxXadd (_o : OpBlk) (_ws a b _c : List Nat) (_v : Nat) : VxRes :=
  let xs := unpackElems 128 4 (packElems 32 a)
  let ys := unpackElems 128 4 (packElems 32 b)
  ⟨1, packElems 128 (List.zipWith (fun x y => ((X96.ofNat x).add (X96.ofNat y)).toNat) xs ys), false, false,
    (List.zipWith (fun x y => X96.mismatches (X96.ofNat x) (X96.ofNat y)) xs ys).any id⟩

/-- One level of a pairwise tree. -/
def pairUp (f : Nat → Nat → Nat × Bool) : List Nat → List Nat × Bool
  | x :: y :: r => let p := f x y; let q := pairUp f r; (p.1 :: q.1, p.2 || q.2)
  | l => (l, false)

/-- A pairwise tree of `n` levels: the value and whether any addition overflowed. -/
def treeSum (f : Nat → Nat → Nat × Bool) : Nat → List Nat → Nat × Bool
  | 0, l => (l.headD 0, false)
  | n + 1, l => let p := pairUp f l; let q := treeSum f n p.1; (q.1, p.2 || q.2)

def vxRsum (o : OpBlk) (_ws a _b _c : List Nat) (_v : Nat) : VxRes :=
  let r := if o.fmtIn = 9 then treeSum (fun x y => ((x + y) % 2 ^ 32, false)) 4 a
    else treeSum (fun x y => arith32 0 0 o.sat (fadd (f32 x) (f32 y))) 4 a
  ⟨0, r.1, r.2, false, false⟩
def vxRmax (o : OpBlk) (_ws a _b _c : List Nat) (_v : Nat) : VxRes :=
  let m := match a with
    | [] => 0
    | x :: r => r.foldl (fun p q => if o.fmtIn = 9 then (if int32 p < int32 q then q else p) else max32 p q) x
  ⟨0, m, false, false, false⟩
def vxPass (_o : OpBlk) (_ws a _b _c : List Nat) (_v : Nat) : VxRes := ⟨1, packElems 32 a, false, false, false⟩

/-- How many elements of a firing consume random words (R68). -/
def vxDraws (o : OpBlk) (op : Nat) : Nat :=
  if op ≤ 4 then (if o.fmtIn = 0 then 16 else 0)
  else if op = 7 then (if o.fmtIn = 14 ∧ o.fmtOut = 14 then 0 else cvtCount o)
  else if op = 8 then 32 else 0

/-- A VX firing that makes an out0 token: suppressed when cond = 0 (R128). A suppressed firing converts nothing, and so takes no random
words, here and in XF and SV (DESIGN CHOICE, log entry 11). -/
def Tile.vxFire (c : Ctx) (u op lat : Nat) (f : OpBlk → List Nat → List Nat → List Nat → List Nat → Nat → VxRes)
    (tl0 : Tile) : Tile :=
  let tl := tl0.pumpAll c
  if uKind u ≠ .vx then tl else
  match tl.ready c u op false with
  | none => tl
  | some (o, e) =>
    let b := tl.lat.cfg
    if condOf b o e = false then tl.fired c u e []
    else
      let d := tl.draw c o (vxDraws o op)
      let a0 := lanes (operand b o e 0)
      let r := f o d.1 a0 (lanes (operand b o e 1)) (lanes (operand b o e 2)) (packElems 32 a0)
      let t1 := ((d.2.numFlagIf c r.ovf F.TIL_NUM_STATUS.cvt_overflow).numFlagIf c r.nan F.TIL_NUM_STATUS.cvt_nan).numFlagIf c
        r.mis F.TIL_NUM_STATUS.x96_mismatch
      t1.fired c u e [(0, lat, r.net, r.val)]

/-- CMPLT and CMPEQ: a control token on ctlout with first = last = 0 (R129). -/
def Tile.vxCompare (c : Ctx) (u op : Nat) (fp : FVal → FVal → Bool) (ip : Int → Int → Bool) (tl0 : Tile) : Tile :=
  let tl := tl0.pumpAll c
  if uKind u ≠ .vx then tl else
  match tl.ready c u op false with
  | none => tl
  | some (o, e) =>
    let b := tl.lat.cfg
    let x := (lanes (operand b o e 0)).headD 0
    let y := (lanes (operand b o e 1)).headD 0
    let cond := if o.fmtIn = 9 then ip (int32 x) (int32 y) else fp (f32 x) (f32 y)
    tl.fired c u e (if condOf b o e then [(2, 2, 2, cond.toNat)] else [])

/-! ### XF (R130) -/

/-- An XF firing (latency 12). -/
def Tile.xfFire (c : Ctx) (op : Nat) (tl0 : Tile) : Tile :=
  let tl := tl0.pumpAll c
  match tl.ready c 9 op false with
  | none => tl
  | some (o, e) =>
    let b := tl.lat.cfg
    if condOf b o e = false then tl.fired c 9 e []
    else
      let d := tl.draw c o 16
      let v := (lanes (operand b o e 0)).zipIdx.map (fun p => xfLane op o.rmode (d.1.getD p.2 0) p.1)
      d.2.fired c 9 e [(0, 12, 1, packElems 32 v)]

/-! ### ST (Table 4-3) -/

/-- SEL, BR, MRG and FLT: `pick` gives the output and the input passed to it, by cond. -/
def Tile.stFire (c : Ctx) (u op : Nat) (pick : Bool → Option (Nat × Nat)) (tl0 : Tile) : Tile :=
  let tl := tl0.pumpAll c
  if uKind u ≠ .st then tl else
  match tl.ready c u op false with
  | none => tl
  | some (o, e) =>
    match pick (condOf tl.lat.cfg o e) with
    | none => tl.fired c u e []
    | some (out, i) => match operand tl.lat.cfg o e i with
      | some t => tl.fired c u e [(out, 1, t.net, t.val.toNat)]
      | none => tl.fired c u e []

/-- DLY: no match; tokens pass in arrival order, n cycles each, up to n held. -/
def Tile.stDelay (c : Ctx) (u : Nat) (tl0 : Tile) : Tile :=
  let tl := tl0.pumpAll c
  if uKind u ≠ .st ∨ tl.latLive c = false then tl else
  match tl.lat.cfg.op? u, (tl.unit u).head c 0 with
  | some o, some q =>
    let x := tl.unit u
    if o.op ≠ 5 ∨ q.2.2.phase ≠ tl.lat.cfg.phase ∨ o.count ≤ x.pipe.length ∨ tl.holding c u ∨ x.lastFire = some c.cycle then tl
    else (tl.setUnit u { x with inq := x.inq.erase q, lastFire := some c.cycle,
                                pipe := x.pipe ++ [(0, c.cycle + o.count, q.2.2)] }).latCount c
        (fun t => t.addWrap F.TIL_LAT_FIRE.count u 1)
  | _, _ => tl

/-! ### SQ (R131) -/

/-- Emit tokens of a generating unit from its own tag counter (R126); a token emitted in this cycle is on its output in it (R121). -/
def Tile.generate (c : Ctx) (u lat : Nat) (tag : BitVec 8) (outs : List (Nat × Nat × Nat)) (tl : Tile) : Tile :=
  let x := tl.unit u
  let toks := outs.map (fun q => (q.1, c.cycle + lat, (⟨q.2.1, BitVec.ofNat 512 q.2.2, tag, tl.lat.cfg.phase⟩ : Tok)))
  let t1 := (tl.setUnit u { x with pipe := x.pipe ++ toks }).latCount c (fun t => t.addWrap F.TIL_LAT_FIRE.count u 1)
  if lat = 0 then t1.passUnit c u else t1

/-- An SQ fires on a control token in tag order: cond = 1 starts a loop. While its phase drains the token is consumed
without effect and counted (R144). -/
def Tile.sqFire (c : Ctx) (u : Nat) (tl0 : Tile) : Tile :=
  let tl := tl0.pumpAll c
  if uKind u ≠ .sq then tl else
  match tl.ready c u 1 true with
  | none => tl
  | some (o, e) =>
    let x := tl.unit u
    if x.sqLoop.isSome then tl
    else
      let x1 := { x with table := x.table.erase e, expTag := x.expTag + 1, lastFire := some c.cycle }
      if tl.lat.stopped then (tl.setUnit u x1).phaseDiscard c 1
      else tl.setUnit u { x1 with sqLoop := if condOf tl.lat.cfg o e then some ⟨0, c.cycle + 1⟩ else none }

/-- An iteration of the running loop: the index on out0 and a control token with first and last on ctlout. -/
def Tile.sqIterate (c : Ctx) (u : Nat) (tl0 : Tile) : Tile :=
  let tl := tl0.pumpAll c
  match tl.lat.cfg.op? u, (tl.unit u).sqLoop with
  | some o, some l =>
    if uKind u ≠ .sq ∨ tl.latLive c = false ∨ c.cycle < l.next ∨ tl.holding c u then tl
    else
      let x := tl.unit u
      let last := decide (o.count ≠ 0 ∧ l.i + 1 = o.count)
      let t1 := tl.setUnit u { x with
        genTag := x.genTag + 1
        sqLoop := (if last then none else some ⟨l.i + 1, c.cycle + o.rate + 1⟩) }
      t1.generate c u 0 x.genTag [(0, 0, (o.param + l.i) % 2 ^ 32), (2, 2, 1 + (decide (l.i = 0)).toNat * 2 + last.toNat * 4)]
  | _, _ => tl

/-! ### LD, SV and CP (R132 to R134) -/

/-- A further MOVE of the pass brings bytes to the LAT sink: among the instructions `l`, the present sink being LAT or not. -/
def moreToLat : Bool → List SInstr → Bool
  | _, [] => false
  | _, .dst _ space _ _ _ _ _ :: r => moreToLat (space == 5) r
  | lat, .move _ _ :: r => lat || moreToLat lat r
  | _, .end_ _ :: _ => false
  | lat, _ :: r => moreToLat lat r

/-- Bytes of the present pass will still come to the slot's buffer. -/
def Slot.moreComes (sl : Slot) : Bool :=
  !sl.incoming.isEmpty || sl.rows.isSome || !sl.out.isEmpty || !sl.reqs.isEmpty || sl.calOut != 0 ||
    (sl.st == .running && sl.ended.isNone && moreToLat (match sl.dstI with | some (.dst _ sp _ _ _ _ _) => sp == 5 | _ => false) (sl.prog.drop sl.ip))

/-- An LD takes a token from its slot (R132). While its phase drains it only consumes the control token (R144). -/
def Tile.ldFire (c : Ctx) (u : Nat) (tl0 : Tile) : Tile :=
  let tl := tl0.pumpAll c
  if uKind u ≠ .ld ∨ tl.latLive c = false ∨ tl.holding c u ∨ (tl.unit u).lastFire = some c.cycle then tl else
  match tl.lat.cfg.op? u with
  | none => tl
  | some o =>
    let x := tl.unit u
    let ctlOn := tl.lat.cfg.on u 3
    let head := x.head c 3
    let headOk := head.any (fun q => q.2.2.phase == tl.lat.cfg.phase)
    let inq := match head with | some q => x.inq.erase q | none => x.inq
    let size := if o.mode % 2 = 1 then 4 else 64
    let sl := (tl.slot o.slot).absorb c
    if ctlOn ∧ headOk = false then tl
    else if tl.lat.stopped then
      if ctlOn then (tl.setUnit u { x with inq := inq, lastFire := some c.cycle }).phaseDiscard c 1 else tl
    else if sl.buf.length < size then tl
    else
      let tag := if ctlOn then (match head with | some q => q.2.2.tag | none => 0) else x.genTag
      let rest := sl.buf.drop size
      let last := rest.isEmpty && !sl.moreComes
      let t1 := tl.setSlot o.slot { sl.takeBuf size with first := false }
      let t2 := t1.setUnit u { x with inq := (if ctlOn then inq else x.inq), lastFire := some c.cycle,
                                      genTag := (if ctlOn then x.genTag else x.genTag + 1) }
      t2.generate c u 1 tag [(0, (if size = 4 then 0 else 1), leNat (sl.buf.take size)),
        (2, 2, 1 + sl.first.toNat * 2 + last.toNat * 4)]

/-- Bits packed into whole bytes. -/
def packBytes (w : Nat) (xs : List Nat) : List Byte := leBytes ((w * xs.length + 7) / 8) (packElems w xs)

/-- SV WRITE: converted elements reach the slot two cycles after the firing; the slot must have room (R133). -/
def Tile.svWrite (c : Ctx) (u : Nat) (tl0 : Tile) : Tile :=
  let tl := tl0.pumpAll c
  if uKind u ≠ .sv then tl else
  match tl.ready c u 1 true with
  | none => tl
  | some (o, e) =>
    let b := tl.lat.cfg
    let t := operand b o e 0
    let scalar := t.any (fun t => t.net == 0)
    let k := if scalar then 1 else fmtPerToken o.fmtIn
    let v := match t with | some t => t.val.toNat | none => 0
    let n := (fmtWidth o.fmtOut * k + 7) / 8
    let sl := (tl.slot o.slot).absorb c
    if condOf b o e = false then tl.fired c u e []
    else if 1024 < sl.fill + n then tl
    else
      let d := tl.draw c o (if o.fmtIn = 14 ∧ o.fmtOut = 14 then 0 else k)
      let r := convAll o d.1 (unpackElems (fmtWidth o.fmtIn) k v)
      let t1 := d.2.setSlot o.slot { sl with incoming := sl.incoming ++ [(c.cycle + 2, false, packBytes (fmtWidth o.fmtOut) r.1)] }
      ((t1.numFlagIf c r.2.1 F.TIL_NUM_STATUS.cvt_overflow).numFlagIf c r.2.2 F.TIL_NUM_STATUS.cvt_nan).fired c u e []

/-- SV QMX: elements to the slot in bits 2:0, the scale to the slot in bits 5:3; both must have room (R133, R50). -/
def Tile.svQmx (c : Ctx) (u : Nat) (tl0 : Tile) : Tile :=
  let tl := tl0.pumpAll c
  if uKind u ≠ .sv then tl else
  match tl.ready c u 2 true with
  | none => tl
  | some (o, e) =>
    let b := tl.lat.cfg
    let s1 := o.slot % 8
    let s2 := o.slot / 8 % 8
    let sl1 := (tl.slot s1).absorb c
    let n := fmtWidth o.fmtOut * 32 / 8
    if condOf b o e = false then tl.fired c u e []
    else if 1024 < sl1.fill + n ∨ 1024 < ((tl.slot s2).absorb c).fill + (if s1 = s2 then n + 1 else 1) then tl
    else
      let d := tl.draw c o 32
      let r := quantise o.fmtOut o.rmode d.1 ((lanes (operand b o e 0) ++ lanes (operand b o e 1)).map f32)
      let t1 := d.2.setSlot s1 { sl1 with incoming := sl1.incoming ++ [(c.cycle + 2, false, packBytes (fmtWidth o.fmtOut) r.1)] }
      let sl2 := (t1.slot s2).absorb c
      let t2 := t1.setSlot s2 { sl2 with incoming := sl2.incoming ++ [(c.cycle + 2, false, [BitVec.ofNat 8 r.2.1])] }
      ((t2.numFlagIf c r.2.2.1 F.TIL_NUM_STATUS.cvt_overflow).numFlagIf c r.2.2.2 F.TIL_NUM_STATUS.cvt_nan).fired c u e []

/-- CP inbound (R134): begin the next message of its queue, or emit the next token of the one begun; the message keeps
its slot until its last token has left, and the slot is freed in the cycle after (R253). -/
def Tile.cpIn (c : Ctx) (tl0 : Tile) : Tile × List Out :=
  let tl := tl0.pumpAll c
  match tl.cpInbound with
  | none => (tl, [])
  | some q =>
    if tl.latLive c = false ∨ tl.lat.stopped then (tl, []) else
    let x := tl.unit 3
    match x.cpIn with
    | none => match tl.queue q with
      | m :: _ => (tl.setUnit 3 { x with cpIn := some (m.bytes, q, c.cycle + 3) }, [])
      | [] => (tl, [])
    | some (rest, q', next) =>
      if c.cycle < next ∨ tl.holding c 3 then (tl, [])
      else
        let left := rest.drop 64
        let t1 := tl.setUnit 3 { x with
          genTag := x.genTag + 1
          cpIn := (if left.isEmpty then none else some (left, q', c.cycle + 1)) }
        let t2 := t1.generate c 3 0 x.genTag [(0, 1, leNat (rest.take 64))]
        if left.isEmpty then match t2.takeMsg q' with
          | (t3, some m) => (t3.hand (c.cycle + 1) q' true m.credit, [])
          | (t3, none) => (t3, [])
        else (t2, [])

/-- CP outbound (R134, R248): collect tokens in tag order; with the count-th the message is sent as CSEND sends. -/
def Tile.cpOutbound (c : Ctx) (tl0 : Tile) : Tile × List Out :=
  let tl := tl0.pumpAll c
  match tl.ready c 3 1 true with
  | none => (tl, [])
  | some (o, e) =>
    let x := tl.unit 3
    if x.cpSending then (tl, [])
    else
      let v := match operand tl.lat.cfg o e 0 with | some t => t.val | none => 0
      let got := x.cpOut ++ [v]
      let t1 := tl.fired c 3 e []
      if got.length < o.count then (t1.setUnit 3 { t1.unit 3 with cpOut := got }, [])
      else
        let en := o.param % 64
        let t2 := t1.setUnit 3 { t1.unit 3 with cpOut := [], cpSending := true }
        if t2.rd F.TIL_CHS_STATE.state en = 0 ∨ t2.rd F.TIL_CHS_CFG.max_len en * 16 < 64 * o.count then
          ((t2.closedSend c en).sendEnds c .cp false, [])
        else t2.startSend c .cp en 0 (64 * o.count) (got.flatMap lineBytes)

/-! ### Tag deadlock (R154) -/

/-- TAG_DEADLOCK: unit `u` has been in tag exhaustion for 4,096 cycles; each exhaustion of a unit is reported once. -/
def Tile.tagDeadlock (c : Ctx) (u : Nat) (tl0 : Tile) : Tile × List Out :=
  let tl := tl0.pumpAll c
  let x := tl.unit u
  match x.exhaustSince, x.exhausted c with
  | some (cy, sid), some q =>
    if cy + 4096 ≤ c.cycle ∧ x.exhaustTold = false ∧ tl.latLive c then
      let t1 := (((tl.wr F.TIL_LAT_DEADLOCK.since_lo 0 sid).wr F.TIL_LAT_DEADLOCK.head_tag 0 q.2.2.tag.toNat).wr
        F.TIL_LAT_DEADLOCK.input 0 q.1).wr F.TIL_LAT_DEADLOCK.unit 0 u
      let t3 := t1.setUnit u { x with exhaustTold := true }
      let t2 : Tile := { t3 with lat := { t3.lat with hang := true } }
      (t2.latFlag c F.TIL_LAT_STATUS.tag_deadlock, [.record 0x05 2 u 0 (t1.word .TIL_LAT_DEADLOCK 0) 0 0 0])
    else (tl, [])
  | _, _ => (tl, [])

end Sys2Proof.Machine
end

