-- ==== Sys2Proof/Machine/LatMx.lean ====
section
/-! DEFINITION. The matrix unit MX: the firing on a pair of tokens with EXACT or FAST accumulation (R52 to R62, R135,
R136), and the readout of a bank with its checksum comparisons (R71 to R73, R137). -/
namespace Sys2Proof.Machine

/-- An element of an 8-bit-group operand as a signed integer in units of 2^−16, and whether it is NaN or infinite
(R53). With block scales an INT8 element is an MXINT8 element, in units of 2^−6. -/
def mxInt (scaled : Bool) (f b : Nat) : Int × Bool :=
  match elemVal f b with
  | .fin s m e => (inUnits s m (if scaled && f == 11 then e - 6 else e) (-16), false)
  | _ => (0, true)

/-- The elements of K index `k` of a pair token: 32 rows or columns (R135). -/
def mxElems (f k v : Nat) : List Nat := unpackElems (fmtWidth f) 32 (v / 2 ^ (32 * fmtWidth f * k))

/-- A row-major table of 32 × 32 cells. -/
def cells (f : Nat → Nat → α) : List α := (List.range 1024).map (fun i => f (i / 32) (i % 32))

/-- A bank cleared for a mode of accumulation. -/
def MxBank.cleared (fast : Bool) : MxBank :=
  if fast then { MxBank.empty with fast := List.replicate 1024 0, step := List.replicate 1024 [] }
  else { MxBank.empty with
    acc := List.replicate 1024 0
    rowChk := List.replicate 32 0
    colChk := List.replicate 32 0
    special := List.replicate 1024 false
    exactRange := List.replicate 1024 false
    blk := List.replicate 1024 0 }

/-- The shift of R55: left modulo 2^96, or an arithmetic shift right. -/
def mxShift (p d : Int) : BitVec 96 :=
  if 0 ≤ d then BitVec.ofInt 96 (p * 2 ^ d.toNat) else BitVec.ofInt 96 (p / 2 ^ (-d).toNat)

def zipAdd (a b : List (BitVec 96)) : List (BitVec 96) := List.zipWith (· + ·) a b

/-- The scale bytes of row `r` of A and column `c` of B in the in2 token (R135). -/
def scaleA (l : Line) (r : Nat) : Nat := bits l.toNat (8 * r) 8
def scaleB (l : Line) (c : Nat) : Nat := bits l.toNat (256 + 8 * c) 8
/-- d of R54. -/
def scaleD (l : Line) (a : Int) (r c : Nat) : Int := (scaleA l r : Int) - 127 + ((scaleB l c : Int) - 127) - a

/-- One K index of an EXACT accumulation without block scales: products enter N, and the 33rd row and column take
a_k × B and A × b_k (R53, R57, R71). -/
def MxBank.exactK (fa fb va vb k : Nat) (m : MxBank) : MxBank :=
  let A := (mxElems fa k va).map (mxInt false fa)
  let B := (mxElems fb k vb).map (mxInt false fb)
  let ak := (A.map (·.1)).sum
  let bk := (B.map (·.1)).sum
  let prod := A.flatMap (fun x => B.map (fun y => (BitVec.ofInt 96 (x.1 * y.1), x.2 || y.2)))
  { m with
    acc := zipAdd m.acc (prod.map (·.1))
    colChk := zipAdd m.colChk (B.map (fun y => BitVec.ofInt 96 (ak * y.1)))
    rowChk := zipAdd m.rowChk (A.map (fun x => BitVec.ofInt 96 (x.1 * bk)))
    special := List.zipWith (fun a p => a || p.2) m.special prod
    products := m.products + 1 }

/-- One K index of a block-scaled EXACT accumulation: products collect in P (R54, R57). -/
def MxBank.blockK (fa fb va vb k : Nat) (m : MxBank) : MxBank :=
  let A := (mxElems fa k va).map (mxInt true fa)
  let B := (mxElems fb k vb).map (mxInt true fb)
  let prod := A.flatMap (fun x => B.map (fun y => (x.1 * y.1, x.2 || y.2)))
  { m with blk := List.zipWith (fun a p => a + p.1) m.blk prod, special := List.zipWith (fun a p => a || p.2) m.special prod }

/-- The end of a block-scaled K step: every block pair's P enters N shifted by its d (R54, R55); the checksum vectors
take the same shifts (R71). A scale 0xFF contributes nothing and marks its cells special (R57); having no d, its pair counts as none
with d outside 0 to 15 (DESIGN CHOICE, log entry 11). -/
def MxBank.blockEnd (a : Int) (l : Line) (m : MxBank) : MxBank :=
  let bad (r c : Nat) : Bool := scaleA l r == 255 || scaleB l c == 255
  let d (r c : Nat) : Int := scaleD l a r c
  let add := (cells (fun r c => (r, c))).zip m.blk |>.map (fun p =>
    if bad p.1.1 p.1.2 then 0 else mxShift p.2 (d p.1.1 p.1.2))
  let cell (r c : Nat) : BitVec 96 := add.getD (32 * r + c) 0
  { m with
    acc := zipAdd m.acc add
    colChk := zipAdd m.colChk ((List.range 32).map (fun c => ((List.range 32).map (fun r => cell r c)).sum))
    rowChk := zipAdd m.rowChk ((List.range 32).map (fun r => ((List.range 32).map (fun c => cell r c)).sum))
    special := List.zipWith (· || ·) m.special (cells bad)
    exactRange := List.zipWith (· || ·) m.exactRange (cells (fun r c => !(bad r c) && (decide (d r c < 0) || decide (15 < d r c))))
    blk := List.replicate 1024 0
    scales := none
    products := m.products + 1 }

/-- One K index in FAST mode: each product rounded once to binary32 (R61 step 1). -/
def MxBank.fastK (scaled : Bool) (fa fb va vb k : Nat) (m : MxBank) : MxBank :=
  let val (f b : Nat) : FVal := match elemVal f b with
    | .fin s n e => .fin s n (if scaled && f == 11 then e - 6 else e)
    | v => v
  let A := (mxElems fa k va).map (val fa)
  let B := (mxElems fb k vb).map (val fb)
  let prod := A.flatMap (fun x => B.map (fun y => BitVec.ofNat 32 (arith32 0 0 false (fmul x y)).1))
  { m with step := List.zipWith (fun p l => p :: l) prod m.step }

/-- A pair of tokens brings a NaN or an infinity into an EXACT accumulation (R57). -/
def pairSpecial (scaled : Bool) (fa fb va vb n : Nat) : Bool :=
  (List.range n).any (fun k => (mxElems fa k va).any (fun b => (mxInt scaled fa b).2) || (mxElems fb k vb).any (fun b => (mxInt scaled fb b).2))

/-- A K step's scales hold a 0xFF (R57). -/
def scaleSpecial (l : Line) : Bool := (List.range 32).any (fun r => scaleA l r == 255 || scaleB l r == 255)

/-- A block pair of a K step has d outside 0 to 15 (R55). -/
def scaleFar (a : Int) (l : Line) : Bool :=
  (cells (fun r c => (r, c))).any (fun p => scaleA l p.1 != 255 && scaleB l p.2 != 255 &&
    (decide (scaleD l a p.1 p.2 < 0) || decide (15 < scaleD l a p.1 p.2)))

/-- The end of a FAST K step (R61 steps 2 to 4). -/
def MxBank.fastEnd (sc : Option Line) (m : MxBank) : MxBank :=
  let tree (l : List (BitVec 32)) : Nat :=
    (treeSum (fun x y => arith32 0 0 false (fadd (f32 x) (f32 y))) 5 (l.reverse.map (·.toNat))).1
  let scale (r c t : Nat) : Nat := match sc with
    | none => t
    | some l => (arith32 0 0 false (fmul (f32 t)
        (if scaleA l r = 255 ∨ scaleB l c = 255 then .nan else .fin false 1 (scaleD l 0 r c)))).1
  let ts := (cells (fun r c => (r, c))).zip m.step |>.map (fun p => scale p.1.1 p.1.2 (tree p.2))
  { m with
    fast := List.zipWith (fun x t => BitVec.ofNat 32 (arith32 0 0 false (fadd (f32 x.toNat) (f32 t))).1) m.fast ts
    step := List.replicate 1024 []
    scales := none
    products := m.products + 1 }

/-- Apply a step for each K index of a pair. -/
def overK (f : Nat → MxBank → MxBank) (n : Nat) (m : MxBank) : MxBank := (List.range n).foldl (fun a k => f k a) m

/-- The pair that fires must start a readout (R136). -/
def mxLast (b : Bundle) (o : OpBlk) (x : LUnit) (e : MEntry) : Bool :=
  let n := (mxShape o.fmtIn o.fmtB (bits o.mode 2 2)).2.1
  if b.on 5 3 then decide (x.mxPair + 1 = n) && (match operand b o e 3 with | some t => bits t.val.toNat 2 1 == 1 | none => false)
  else decide (x.mxSince + 1 = o.count)

/-- The firings of the MX hold in this cycle: a readout must start while the other bank is still reading out (R137). -/
def LUnit.mxHolds (c : Ctx) (x : LUnit) : Bool := match x.mxOut with | _ :: r :: _ => decide (r.next ≤ c.cycle) | _ => false

/-- MX_MMA: the MX fires on an A and a B token (R135, R136). Every firing that meets a special input or a far block pair sets its
status bit (R55, R57). -/
def Tile.mxFire (c : Ctx) (tl0 : Tile) : Tile :=
  let tl := tl0.pumpAll c
  match tl.ready c 5 1 true with
  | none => tl
  | some (o, e) =>
    let b := tl.lat.cfg
    let x := tl.unit 5
    let sh := mxShape o.fmtIn o.fmtB (bits o.mode 2 2)
    let last := mxLast b o x e
    if x.lastFire.any (fun f => decide (c.cycle < f + sh.2.2)) ∨ x.mxHolds c then tl
    else
      let fast := o.mode % 4 == 1
      let scaled := b.on 5 2
      let clr := if b.on 5 3 then x.mxPair == 0 && (match operand b o e 3 with | some t => bits t.val.toNat 1 1 == 1 | none => false)
                 else false
      let m0 := if clr ∨ (x.mxBank.acc = [] ∧ x.mxBank.fast = []) then MxBank.cleared fast else x.mxBank
      let m1 := if scaled ∧ x.mxPair = 0 then { m0 with scales := (operand b o e 2).map (·.val) } else m0
      let va := match operand b o e 0 with | some t => t.val.toNat | none => 0
      let vb := match operand b o e 1 with | some t => t.val.toNat | none => 0
      let m2 := overK (fun k => if fast then MxBank.fastK scaled o.fmtIn o.fmtB va vb k
                                else if scaled then MxBank.blockK o.fmtIn o.fmtB va vb k
                                else MxBank.exactK o.fmtIn o.fmtB va vb k) sh.1 m1
      let stepEnd := decide (x.mxPair + 1 = sh.2.1)
      let aExp : Int := (BitVec.ofNat 16 o.param).toInt
      let step : Option Line := if stepEnd ∧ scaled then m2.scales else none
      let m3 : MxBank := if stepEnd then
          (if fast then m2.fastEnd (if scaled then m2.scales else none)
           else if scaled then (match m2.scales with | some l => m2.blockEnd aExp l | none => m2) else m2) else m2
      let m4 : MxBank := { m3 with tokens := m3.tokens + e.ops.length }
      let bound := !fast && (if scaled then decide (2048 < m4.products) else decide (2 ^ 31 < m4.products))
      let special := !fast && (pairSpecial scaled o.fmtIn o.fmtB va vb sh.1 || step.any scaleSpecial)
      let t1 := tl.fired c 5 e []
      let x1 := { t1.unit 5 with
        mxPair := (if stepEnd then 0 else x.mxPair + 1)
        mxSince := (if last then 0 else (if clr then 0 else x.mxSince) + 1)
        mxBank := (if last then .empty else m4)
        mxOut := (if last then x.mxOut ++ [⟨m4, c.cycle + 8, 0⟩] else x.mxOut) }
      (((t1.setUnit 5 x1).numFlagIf c special F.TIL_NUM_STATUS.special_input).numFlagIf c
        (!fast && step.any (scaleFar aExp)) F.TIL_NUM_STATUS.exact_range).numFlagIf c bound F.TIL_NUM_STATUS.x96_bound

/-- The first index of a list that holds true. -/
def firstTrue (l : List Bool) : Option Nat := l.findIdx? id

/-- The comparisons of R71: the first failing row and the first failing column. -/
def MxBank.check (m : MxBank) : Option Nat × Option Nat :=
  let row (r : Nat) : BitVec 96 := ((m.acc.drop (32 * r)).take 32).sum
  let col (c : Nat) : BitVec 96 := ((List.range 32).map (fun r => m.acc.getD (32 * r + c) 0)).sum
  (firstTrue ((List.range 32).map (fun r => row r != m.rowChk.getD r 0)),
   firstTrue ((List.range 32).map (fun c => col c != m.colChk.getD c 0)))

/-- The checksum comparisons of a readout (R71 to R73). The field of a checksum that did not fail holds 0 (DESIGN CHOICE, log
entry 11). -/
def Tile.mxCompare (c : Ctx) (m : MxBank) (tl : Tile) : Tile × List Out :=
  if m.special.any id || m.exactRange.any id then (tl.addSat F.TIL_NUM_STATUS.chk_skipped 0 1, [])
  else match m.check with
    | (none, none) => (tl, [])
    | (r, k) =>
      let s := r.getD 0 + k.getD 0 * 2 ^ 6 + r.isSome.toNat * 2 ^ 12 + k.isSome.toNat * 2 ^ 13
      (tl.numFlag c F.TIL_NUM_STATUS.checksum_fail, [.record 0x03 2 5 0 (BitVec.ofNat 64 s) 0 0 0])

/-- Cell `i` of a bank as a source encoding: X96, or binary32 in FAST mode. -/
def MxBank.cell (fast : Bool) (e : Int) (m : MxBank) (i : Nat) : Nat :=
  if fast then (m.fast.getD i 0).toNat
  else X96.toNat ⟨m.acc.getD i 0, BitVec.ofInt 16 e, m.special.getD i false, m.exactRange.getD i false, false⟩

/-- MX_READOUT (R137): the next token of the bank being read out. `fault` is a physical fault of the accumulators that
strikes before the comparison: a cell and the bits that flip (mask 0: none). -/
def Tile.mxReadout (c : Ctx) (cell : Nat) (mask : BitVec 96) (tl0 : Tile) : Tile × List Out :=
  let tl := tl0.pumpAll c
  match tl.lat.cfg.op? 5, (tl.unit 5).mxOut with
  | some o, r :: later =>
    if tl.latLive c = false ∨ c.cycle < r.next ∨ tl.holding c 5 then (tl, [])
    else
      let fast := o.mode % 4 == 1
      let n := fmtPerToken o.fmtOut
      let total := (1024 + n - 1) / n
      let bank := if r.emitted = 0 ∧ !fast then { r.bank with acc := r.bank.acc.modify (cell % 1024) (· ^^^ mask) } else r.bank
      let cmp := if r.emitted = 0 ∧ !fast then tl.mxCompare c bank else (tl, [])
      let e : Int := if tl.lat.cfg.on 5 2 then (BitVec.ofNat 16 o.param).toInt - 32 else -32
      let idx := (List.range n).map (· + r.emitted * n) |>.filter (· < 1024)
      let d := cmp.1.draw c o (if o.fmtOut = 14 then 0 else idx.length)
      let src := if fast then 0 else 14
      let rs := idx.zipIdx.map (fun p => convert src o.fmtOut o.rmode (d.1.getD p.2 0) o.sat (bank.cell fast e p.1))
      let t1 := (d.2.numFlagIf c (rs.any (·.2.1)) F.TIL_NUM_STATUS.cvt_overflow).numFlagIf c (rs.any (·.2.2)) F.TIL_NUM_STATUS.cvt_nan
      let x := t1.unit 5
      let t2 := t1.setUnit 5 { x with
        genTag := x.genTag + 1
        mxOut := (if r.emitted + 1 = total then later.map (fun q => { q with next := max q.next (c.cycle + 1) })
                  else ⟨bank, c.cycle + 1, r.emitted + 1⟩ :: later) }
      (t2.generate c 5 0 x.genTag [(0, 1, packElems (fmtWidth o.fmtOut) (rs.map (·.1)))], cmp.2)
  | _, _ => (tl, [])

end Sys2Proof.Machine
end

