-- ==== Sys2Proof/Machine/Streams.lean ====
section
/-! DEFINITION. The stream engine of a tile: stream instructions (R178, Table 5-6), their validation (R187), passes and
beats (R179 to R186), aborts (R188, R286, R289), and what time alone brings about in a tile (`Tile.catchUp`). -/
namespace Sys2Proof.Machine

/-! ### Instructions -/

/-- A 40- or 20-bit signed field as a 64-bit value. -/
def sfield (v lo w : Nat) : Word := sextFrom w (BitVec.ofNat 64 (bits v lo w))

/-- Decode a 16-byte instruction, Table 5-6; none for a reserved opcode or encoding, or a non-zero must-be-0 bit. -/
def decodeSInstr (v : Nat) : Option SInstr :=
  let b := bits v 8 3
  let off := sfield v 24 40
  match bits v 0 8 with
  | 1 =>
    let space := bits v 12 4
    let mode := bits v 16 2
    let w := bits v 18 2
    if bits v 11 1 ≠ 0 ∨ bits v 20 4 ≠ 0 ∨ v / 2 ^ 84 ≠ 0 ∨ 6 ≤ space then none
    else if mode = 3 ∨ (mode = 0 ∧ (w ≠ 0 ∨ bits v 64 20 ≠ 0)) ∨ (mode = 1 ∧ w < 2) ∨ (mode = 2 ∧ w = 3) then none
    else some (.src b space mode w off (sfield v 64 20))
  | 2 =>
    let space := bits v 12 4
    if bits v 11 1 ≠ 0 ∨ bits v 20 4 ≠ 0 ∨ v / 2 ^ 72 ≠ 0 ∨ 6 ≤ space ∨ 4 ≤ bits v 16 3 ∨ bits v 70 2 = 3 then none
    else some (.dst b space (bits v 16 3) (bits v 19 1 == 1) off (bits v 64 6) (bits v 70 2))
  | 3 =>
    if 6 ≤ b ∨ bits v 11 5 ≠ 0 ∨ v / 2 ^ 120 ≠ 0 ∨ bits v 16 24 = 0 then none
    else some (.loop b (bits v 16 24) (sfield v 40 40) (sfield v 80 40))
  | 4 =>
    if bits v 8 8 ≠ 0 ∨ bits v 33 7 ≠ 0 ∨ v / 2 ^ 48 ≠ 0 ∨ bits v 16 17 < 4 ∨ 65536 < bits v 16 17 then none
    else some (.move (bits v 16 17) (bits v 40 8))
  | 5 => if bits v 12 12 ≠ 0 ∨ v / 2 ^ 64 ≠ 0 then none else some (.at_ b (bits v 11 1 == 1) off)
  | 6 => if bits v 11 5 ≠ 0 ∨ bits v 22 2 ≠ 0 ∨ v / 2 ^ 64 ≠ 0 then none else some (.waitc b (bits v 16 6) off)
  | 7 =>
    if bits v 11 1 ≠ 0 ∨ 2 ≤ bits v 12 4 ∨ bits v 22 2 ≠ 0 ∨ v / 2 ^ 80 ≠ 0 ∨ bits v 64 16 = 0 then none
    else some (.signal b (bits v 12 4) (bits v 16 6) off (bits v 64 16))
  | 8 => if v / 2 ^ 9 ≠ 0 then none else some (.end_ (bits v 8 1 == 1))
  | _ => none

/-- The 16-byte word of an instruction, Table 5-6. -/
def encodeSInstr : SInstr → Nat
  | .src b space mode w off pitch => 1 + b * 2 ^ 8 + space * 2 ^ 12 + mode * 2 ^ 16 + w * 2 ^ 18 + off.toNat % 2 ^ 40 * 2 ^ 24
      + pitch.toNat % 2 ^ 20 * 2 ^ 64
  | .dst b space atomic ctrEn off ctr cast => 2 + b * 2 ^ 8 + space * 2 ^ 12 + atomic * 2 ^ 16 + ctrEn.toNat * 2 ^ 19
      + off.toNat % 2 ^ 40 * 2 ^ 24 + ctr * 2 ^ 64 + cast * 2 ^ 70
  | .loop level count ss ds => 3 + level * 2 ^ 8 + count * 2 ^ 16 + ss.toNat % 2 ^ 40 * 2 ^ 40 + ds.toNat % 2 ^ 40 * 2 ^ 80
  | .move len gap => 4 + len * 2 ^ 16 + gap * 2 ^ 40
  | .at_ b deadline off => 5 + b * 2 ^ 8 + deadline.toNat * 2 ^ 11 + off.toNat % 2 ^ 40 * 2 ^ 24
  | .waitc b ctr off => 6 + b * 2 ^ 8 + ctr * 2 ^ 16 + off.toNat % 2 ^ 40 * 2 ^ 24
  | .signal b space ctr off amount => 7 + b * 2 ^ 8 + space * 2 ^ 12 + ctr * 2 ^ 16 + off.toNat % 2 ^ 40 * 2 ^ 24 + amount * 2 ^ 64
  | .end_ persist => 8 + persist.toNat * 2 ^ 8

/-- The bytes of an element of width code `w`. -/
def elemBytes (w : Nat) : Nat := 2 ^ w

/-- The pairings of Table 5-5. -/
def pairOk (src dst : Nat) : Bool :=
  match src with
  | 0 => true
  | 2 => dst == 0 || dst == 5
  | 3 => dst == 0 || dst == 5
  | 5 => dst != 5
  | _ => false

/-- A space whose lengths and addresses are multiples of 64 (R181). -/
def farSpace (s : Nat) : Bool := s == 1 || s == 2 || s == 3 || s == 4

/-- The static rules for a MOVE of `len` bytes (R162, R180, R181, R185). -/
def moveOk (timed : Bool) (len : Nat) (s d : SInstr) : Bool :=
  match s, d with
  | .src _ sp mode w _ pitch, .dst _ dp at_ cen _ _ cast =>
    let far := farSpace sp || farSpace dp
    pairOk sp dp && len % 4 == 0 && (!far || len % 64 == 0) && (mode != 1 || len % 64 == 0) &&
    (mode == 0 || sp == 0) &&
    (mode != 1 || decide (pitch.toInt % (elemBytes w : Int) = 0)) &&
    (mode != 2 || (decide (pitch.toInt % 4 = 0) && len * elemBytes w == 4096)) &&
    (at_ != 3 || len % 16 == 0) && (at_ != 2 || len % 8 == 0) &&
    ((at_ == 0 && !cen) || dp == 0 || dp == 1 || dp == 4) && (cast == 0 || dp == 1) &&
    (!(sp == 2 || dp == 1 || dp == 2 || dp == 4) || timed) && (!(sp == 3 || dp == 3) || !timed)
  | _, _ => false

/-- Validate a program (R187): the instructions up to END, or the index of the first that is refused. -/
def validateProg : List Nat → Nat → Bool → Option SInstr → Option SInstr → Except Nat (List SInstr)
  | [], n, _, _, _ => .error (min n 15)
  | v :: r, n, timed, s, d =>
    match decodeSInstr v with
    | none => .error n
    | some i =>
      let go (timed : Bool) (s d : Option SInstr) : Except Nat (List SInstr) :=
        match validateProg r (n + 1) timed s d with
        | .ok l => .ok (i :: l)
        | .error e => .error e
      match i with
      | .end_ _ => .ok [i]
      | .src .. => go timed (some i) d
      | .dst .. => go timed s (some i)
      | .loop .. => go timed s d
      | .at_ .. => go true s d
      | .waitc .. => go false s d
      | .signal _ sp _ _ _ => if sp = 1 ∧ timed = false then .error n else go timed s d
      | .move len _ => match s, d with
        | some a, some b => if moveOk timed len a b then go timed s d else .error n
        | _, _ => .error n

/-- The 16-byte words of the program lines that a slot has read. -/
def Slot.progWords (sl : Slot) : List Nat := (List.range (sl.got.length / 16)).map (fun k => numAt sl.got (16 * k) 16)

/-- The lines read hold END, or are four (R171). -/
def Slot.haveProg (sl : Slot) : Bool := sl.progWords.any (fun v => v % 256 == 8) || decide (256 ≤ sl.got.length)

/-- An arming slot reads its next program line, or after the line that holds END its base table (R171, R172); a line beyond the
scratchpad holds zeros. -/
def Tile.armRead (c : Ctx) (s : Nat) (tl : Tile) : Tile × List Out :=
  let sl := tl.slot s
  let a := sl.progAddr + sl.got.length
  let waits (t : Tile) : Tile × List Out :=
    let r := t.delayed c c.cycle (.slot s) false false
    (r.1.setSlot s { (r.1.slot s) with due := c.cycle + 1 }, r.2)
  if sl.haveProg then
    match tl.ask c c.cycle (.slot s) false false sl.baseAddr 64 [] with
    | .ok (t, o) => (t.setSlot s { (t.slot s) with base := tl.baseTable sl.baseAddr, due := c.cycle + 1 }, o)
    | .error t => waits t
  else if tl.size < a + 64 then (tl.setSlot s { sl with got := sl.got ++ List.replicate 64 0, due := c.cycle + 1 }, [])
  else match tl.ask c c.cycle (.slot s) false false a 64 [] with
    | .ok (t, o) => (t.setSlot s { (t.slot s) with got := sl.got ++ tl.bytes a 64, due := c.cycle + 1 }, o)
    | .error t => waits t

/-- A re-armed slot reads its base table (R173). -/
def Tile.baseRead (c : Ctx) (s : Nat) (tl : Tile) : Tile × List Out :=
  let sl := tl.slot s
  match tl.ask c c.cycle (.slot s) false false sl.baseAddr 64 [] with
  | .ok (t, o) => (t.setSlot s { (t.slot s) with base := tl.baseTable sl.baseAddr, baseAt := none }, o)
  | .error t =>
    let r := t.delayed c c.cycle (.slot s) false false
    (r.1.setSlot s { (r.1.slot s) with baseAt := some (c.cycle + 1) }, r.2)

/-- STREAM_VALIDATE (R171, R172, R187): in the cycle after its base table is read the slot validates its program; it begins in the
next cycle, or aborts with BAD_PROGRAM. -/
def Tile.streamValidate (c : Ctx) (s : Nat) (tl : Tile) : Tile × List Out :=
  let sl := tl.slot s
  if sl.st ≠ .arming ∨ tl.st ≠ .running ∨ sl.base = [] ∨ c.cycle < sl.due then (tl, [])
  else match validateProg sl.progWords 0 false none none with
    | .ok p => (tl.setSlot s ({ sl with prog := p, got := [] }.startPass (sl.due + 1)), [])
    | .error n => (tl.setSlot s { sl with ip := n }).abortSlot c s 1

/-! ### Instructions at work -/

/-- base[b] + sext(offset), modulo 2^64 (R178). -/
def Slot.addr (sl : Slot) (b : Nat) (off : Word) : Word := sl.base.getD b 0 + off

/-- The slot's pass is at its next instruction and the instruction is due (R182). -/
def Slot.ready (c : Ctx) (sl : Slot) : Bool := sl.st == .running && sl.ended.isNone && decide (sl.due ≤ c.cycle)

/-- In a timed section an event later than R182 places it raises SLIP (R184): the sidereal cycle it was due, and the
lateness. -/
def Tile.lateSlip (c : Ctx) (s due : Nat) (tl : Tile) : Tile × List Out :=
  tl.slipSlot c s (c.sidereal - (c.cycle - due)) (c.cycle - due)

/-- Run a stream instruction of a RUNNING tile: `f` gives the slot's new tile, or nothing where the instruction at the
slot's index is another one. -/
def Tile.streamStep (c : Ctx) (s : Nat) (tl : Tile) (f : Slot → SInstr → Option (Tile × List Out)) : Tile × List Out :=
  let sl := tl.slot s
  if tl.st ≠ .running ∨ sl.ready c = false then (tl, [])
  else match sl.prog[sl.ip]? with
    | none => (tl, [])
    | some i => match f sl i with
      | none => (tl, [])
      | some r => if sl.timed ∧ sl.due < c.cycle then tl.lateSlip c s sl.due else r

/-- The slot goes on to its next instruction, due in cycle `d`. -/
def Slot.goOn (d : Nat) (sl : Slot) : Slot := { sl with ip := sl.ip + 1, due := d }

/-- STREAM_SRC. -/
def Tile.streamSrc (c : Ctx) (s : Nat) (tl : Tile) : Tile × List Out :=
  tl.streamStep c s fun sl i => match i with
    | .src .. => some (tl.setSlot s ({ sl with srcI := some i }.goOn (c.cycle + 1)), [])
    | _ => none

/-- STREAM_DST. -/
def Tile.streamDst (c : Ctx) (s : Nat) (tl : Tile) : Tile × List Out :=
  tl.streamStep c s fun sl i => match i with
    | .dst .. => some (tl.setSlot s ({ sl with dstI := some i }.goOn (c.cycle + 1)), [])
    | _ => none

/-- STREAM_LOOP. -/
def Tile.streamLoop (c : Ctx) (s : Nat) (tl : Tile) : Tile × List Out :=
  tl.streamStep c s fun sl i => match i with
    | .loop k n ss ds => some (tl.setSlot s ({ sl with loops := sl.loops.set k ⟨n, ss, ds⟩ }.goOn (c.cycle + 1)), [])
    | _ => none

/-- STREAM_AT (R182, R183): the timed section begins; the next instruction begins at the target, or raises SLIP. -/
def Tile.streamAt (c : Ctx) (s : Nat) (tl : Tile) : Tile × List Out :=
  tl.streamStep c s fun sl i => match i with
    | .at_ b deadline off =>
      let t := (sl.addr b off).toNat
      if c.sidereal < t then some (tl.setSlot s ({ sl with timed := true }.goOn (c.cycle + (t - c.sidereal))), [])
      else if deadline then some ((tl.setSlot s { sl with timed := true }).slipSlot c s (t % 2 ^ 32) (c.sidereal - t + 1))
      else some (tl.setSlot s ({ sl with timed := true }.goOn (c.cycle + 1)), [])
    | _ => none

/-- STREAM_WAITC (R186): ends the timed section; completes when the counter has reached its target. -/
def Tile.streamWaitc (c : Ctx) (s : Nat) (tl : Tile) : Tile × List Out :=
  let sl := tl.slot s
  if tl.st ≠ .running ∨ sl.ready c = false then (tl, [])
  else match sl.prog[sl.ip]? with
    | some (.waitc b ctr off) =>
      let sl1 := { sl with timed := false }
      if reached (tl.rd F.TIL_ARRIVAL.count ctr) ((sl.addr b off).toNat % 2 ^ 32) then
        (tl.setSlot s (sl1.goOn (c.cycle + 1)), [])
      else (tl.setSlot s sl1, [])
    | _ => (tl, [])

/-- STREAM_SIGNAL (R186). -/
def Tile.streamSignal (c : Ctx) (s : Nat) (tl : Tile) : Tile × List Out :=
  tl.streamStep c s fun sl i => match i with
    | .signal b space ctr off amount =>
      let t1 := tl.setSlot s (sl.goOn (c.cycle + 1))
      if space = 0 then some ((t1.ctrAdd c ctr amount).settle c, [])
      else
        let a := sl.addr b off
        if streamRange c tl 1 a false 0 then some (tl.abortSlot c s 2)
        else some ({ t1 with inj := t1.inj ++ [⟨c.cycle, s, sl.timed, hdrSignal (bits a.toNat 32 12) ctr amount c.tile, 0, none⟩] }, [])
    | _ => none

/-- STREAM_END (R178): the timed section ends; the pass ends when everything it moved has arrived. -/
def Tile.streamEnd (c : Ctx) (s : Nat) (tl : Tile) : Tile × List Out :=
  tl.streamStep c s fun sl i => match i with
    | .end_ persist => some (tl.setSlot s { sl with ended := some persist, timed := false }, [])
    | _ => none

/-- Some DST of the program names the LAT sink. -/
def Slot.toLat (sl : Slot) : Bool := sl.prog.any (fun i => match i with | .dst _ 5 .. => true | _ => false)

/-- STREAM_PASS_END (R170): no beat, read or write of the pass is outstanding; the slot becomes PARKED or IDLE. -/
def Tile.passEnd (c : Ctx) (s : Nat) (tl : Tile) : Tile × List Out :=
  let sl := tl.slot s
  match sl.ended with
  | none => (tl, [])
  | some persist =>
    if tl.st = .running ∧ sl.st = .running ∧ sl.reqs.all (fun r => !r.live) ∧ sl.calOut = 0 ∧ sl.writes = [] ∧
        sl.rows = none ∧ sl.out = [] ∧ tl.bank.atoms.all (fun x => x.by_ != .slot s) ∧ tl.inj.all (fun i => i.slot != s) ∧ (sl.toLat = false ∨ (sl.buf = [] ∧ sl.incoming = [])) then
      let sl1 := { sl with passes := (sl.passes + 1) % 2 ^ 32, ended := none, st := (if persist then .parked else .idle),
                           prog := (if persist then sl.prog else []), base := (if persist then sl.base else []) }
      ((tl.setSlot s sl1).settle c, [])
    else (tl, [])

/-! ### MOVE (R162, R163, R180 to R182) -/

/-- s or d of the present iteration: the start plus i × stride over the levels, modulo 2^64. -/
def loopAddr (start : Word) (idx : List Nat) (strides : List Word) : Word :=
  (List.zipWith (fun i st => BitVec.ofNat 64 i * st) idx strides).foldl (· + ·) start

/-- The next loop counters, innermost first; none after the last iteration. -/
def loopNext : List Nat → List LoopLv → Option (List Nat)
  | i :: r, l :: ls => if i + 1 < l.count then some ((i + 1) :: r) else (loopNext r ls).map (0 :: ·)
  | _, _ => none

/-- The cycles a GATHER beat takes: the largest number of distinct words it needs from one sub-bank of one bank (R157, R162). -/
def gatherCost (bank : Nat → Nat) (pieces : List (Nat × Nat)) : Nat :=
  let words := (pieces.flatMap (fun p => (List.range ((p.2 + 3) / 4)).map (fun k => p.1 / 4 + k))).dedup
  let subs := (words.map (fun w => (bank (4 * w), w % 16))).dedup
  (subs.map (fun q => (words.filter (fun w => (bank (4 * w), w % 16) == q)).length)).foldl max 1

/-- A breach of R176 (RANGE, 2) or of an alignment (ALIGN, 3) by `n` bytes at `a` in a space; 0 for none. -/
def addrFault (c : Ctx) (tl : Tile) (space : Nat) (a : Word) (n al : Nat) (cen : Bool) (ctr : Nat) : Nat :=
  if space = 5 then 0
  else if streamRange c tl space a cen ctr || (space == 0 && decide (tl.size < a.toNat + n)) then 2
  else if a.toNat % al ≠ 0 then 3 else 0

/-- A beat on its way to its sink: it is there, offered to its bank, or handed to injection, in cycle `w`. -/
def Tile.sink (c : Ctx) (s : Nat) (timed : Bool) (w : Nat) (d : SInstr) (a : Word) (data : List Byte) (tl : Tile) : Tile × List Out :=
  let sl := tl.slot s
  match d with
  | .dst _ space at_ cen _ ctr cast =>
    let n := a.toNat
    let inj (h : Word) : Tile × List Out := ({ tl with inj := tl.inj ++ [⟨w, s, timed, h, lineOf data, none⟩] }, [])
    match space with
    | 0 => (tl.setSlot s { sl with writes := sl.writes ++ [⟨w, n, data, at_, (if cen then some ctr else none), timed⟩] }, [])
    | 1 => inj (hdrData (bits n 32 12) (bits n 6 15) ctr cast at_ c.tile cen)
    | 2 => let q := lpddrMap c.chans n
           inj (hdrMemWrite q.1 q.2 c.tile s)
    | 3 => let q := lpddrMap c.chans n
           let tag := tl.nextTag
           let t1 := tl.setSlot s { sl with reqs := sl.reqs ++ [⟨tag, c.cycle, true, true, none, 0, none⟩] }
           ({ t1 with nextTag := (tag + 1) % 4096 }, [.memReq true q.1 q.2 s 255 data tag])
    | 4 => inj (hdrEdgeOut c.tile (bits n 33 14) (bits n 21 12) (bits n 6 15) at_ (if cen then ctr + 1 else 0))
    | _ => (tl.setSlot s { sl with incoming := sl.incoming ++ [(w, timed, data)] }, [])
  | _ => (tl, [])

/-- What a calendar read carries with it, so that its return finds its slot: the slot and the number of its arming or stop (R174). -/
def Slot.calTag (s : Nat) (sl : Slot) : Nat := s + 8 * sl.epoch

/-- A calendar read (R273, R274) or an open read (R280) of one line, bound for LOCAL or the buffer. -/
def Tile.readReq (c : Ctx) (s : Nat) (timed : Bool) (space : Nat) (a : Word) (d : SInstr) (da : Word) (tl : Tile) : Tile × List Out :=
  let sl := tl.slot s
  let q := lpddrMap c.chans a.toNat
  match d with
  | .dst _ dp at_ cen _ ctr _ =>
    if space = 2 then
      let h := if dp = 5 then hdrMemRead q.1 0 (32 + s) 0 c.tile s false
               else hdrMemRead q.1 (bits da.toNat 6 15) ctr at_ c.tile s cen
      let t1 := tl.setSlot s { sl with calOut := sl.calOut + 1 }
      ({ t1 with inj := t1.inj ++ [⟨c.cycle + 2, s, timed, h, BitVec.ofNat 512 (q.2 % 2 ^ 27), some (sl.calTag s)⟩] }, [])
    else
      let tag := tl.nextTag
      let r : Req := ⟨tag, c.cycle, false, true, (if dp = 5 then none else some da.toNat), at_, (if cen then some ctr else none)⟩
      let t1 := tl.setSlot s { sl with reqs := sl.reqs ++ [r] }
      ({ t1 with nextTag := (tag + 1) % 4096 }, [.memReq false q.1 q.2 s 0 [] tag])
  | _ => (tl, [])

/-- Bytes the slot will still receive from open reads into its buffer. -/
def Slot.expected (sl : Slot) : Nat := 64 * (sl.reqs.filter (fun r => r.live && !r.write && r.dest.isNone)).length

/-- The breach of R176 or R181 by a beat of `n` bytes at destination `a`; 0 for none. -/
def Tile.destFault (c : Ctx) (tl : Tile) (far : Bool) (d : SInstr) (a : Word) (n : Nat) : Nat :=
  match d with
  | .dst _ dp at_ cen _ ctr _ => addrFault c tl dp a n (if far then 64 else if at_ = 0 then 4 else atomicWidth at_) cen ctr
  | _ => 0

/-- Deliver beats one per cycle from cycle `w`, at 64-byte steps of the destination. A beat whose address is out of range or misaligned
aborts the slot; those before it keep their effect (R187). -/
def Tile.sinkAll (c : Ctx) (s : Nat) (timed : Bool) (d : SInstr) : Nat → Word → List (List Byte) → Tile → Tile × List Out
  | _, _, [], tl => (tl, [])
  | w, a, x :: r, tl =>
    let f := tl.destFault c (match d with | .dst _ dp _ _ _ _ _ => farSpace dp | _ => false) d a x.length
    if f ≠ 0 then tl.abortSlot c s f
    else andThen (tl.sink c s timed w d a x) (Tile.sinkAll c s timed d (w + 1) (a + 64) r)

/-- The beats of a TRANSPOSE block: beat j holds element j of every row (R162). -/
def TrBlk.beats (r : TrBlk) : List (List Byte) :=
  (List.range (64 / r.width)).map (fun j => r.rows.flatMap (fun l => (l.drop (j * r.width)).take r.width))

/-- Read the next row of the TRANSPOSE block (R163). After the last row its beats leave, the first two cycles later: outside a timed
section those for the buffer wait for room (R184). -/
def Tile.rowRead (c : Ctx) (s : Nat) (tl : Tile) : Tile × List Out :=
  let sl := tl.slot s
  match sl.rows with
  | none => (tl, [])
  | some r =>
    let a := r.addrs.getD r.rows.length 0
    match tl.ask c c.cycle (.slot s) r.timed false a 64 [] with
    | .error t =>
      let q := t.delayed c c.cycle (.slot s) false r.timed
      (q.1.setSlot s { (q.1.slot s) with rows := some { r with next := c.cycle + 1 } }, q.2)
    | .ok (t, o) =>
      let r1 : TrBlk := { r with rows := r.rows ++ [tl.bytes a 64], next := c.cycle + 1 }
      if r1.rows.length < r1.addrs.length then (t.setSlot s { (t.slot s) with rows := some r1 }, o)
      else
        let t1 := t.setSlot s { (t.slot s) with rows := none }
        match r1.dst, r1.timed with
        | .dst _ 5 _ _ _ _ _, false =>
          (t1.setSlot s { (t1.slot s) with out := (t1.slot s).out ++ (r1.beats.zipIdx.map (fun p => (c.cycle + 2 + p.2, p.1))) }, o)
        | d, timed => andThen (t1, o) (Tile.sinkAll c s timed d (c.cycle + 2) r1.dest r1.beats)

/-- The port cycles of a beat: banks `bs` in `n` cycles from `k` on, each waiting until its ports serve it. The tile, and the last of
these cycles. `fuel` bounds them. -/
def Tile.readCycles (c : Ctx) (s : Nat) (timed : Bool) (bs : List Nat) : Nat → Nat → Nat → Tile → (Tile × List Out) × Nat
  | 0, k, _, tl => ((tl, []), k)
  | _, k, 0, tl => ((tl, []), k - 1)
  | fuel + 1, k, n + 1, tl =>
    match tl.askBanks c k (.slot s) timed false 0 [] bs with
    | .ok p => let q := Tile.readCycles c s timed bs fuel (k + 1) n p.1
               ((q.1.1, p.2 ++ q.1.2), q.2)
    | .error t => let p := t.delayed c k (.slot s) false timed
                  let q := Tile.readCycles c s timed bs fuel (k + 1) (n + 1) p.1
                  ((q.1.1, p.2 ++ q.1.2), q.2)

/-- A MOVE in progress, as one beat or TRANSPOSE block of it sees it: source space, mode, element width, the addresses, the bytes of
the beat, the destination, and what follows the beat. -/
structure Beat where
  sp : Nat
  mode : Nat
  width : Nat
  pieces : List (Word × Nat)
  n : Nat
  dst : SInstr
  dp : Nat
  dest : Word
  far : Bool
  gap : Nat
  here : MoveSt
  next : Option MoveSt

/-- The beat that the MOVE at the slot's index comes to (R162, R180). -/
def Slot.beat (sl : Slot) : Option Beat :=
  match sl.prog[sl.ip]?, sl.srcI, sl.dstI with
  | some (.move len gap), some (.src sb sp mode w soff pitch), some (.dst db dp at_ cen doff ctr cast) =>
    let mv := sl.move.getD ⟨List.replicate 6 0, 0⟩
    let sa := loopAddr (sl.addr sb soff) mv.idx (sl.loops.map (·.ss))
    let da := loopAddr (sl.addr db doff) mv.idx (sl.loops.map (·.ds))
    let rows := 64 / elemBytes w
    let n := min 64 (len - mv.off)
    let o := BitVec.ofNat 64 mv.off
    some {
      sp := sp, mode := mode, width := elemBytes w, n := n, dst := .dst db dp at_ cen doff ctr cast, dp := dp
      dest := (if mode = 2 then da else da + o), far := farSpace sp || farSpace dp, gap := gap, here := mv
      pieces := (match mode with
        | 1 => (List.range rows).map (fun k => (sa + BitVec.ofNat 64 (mv.off / elemBytes w + k) * pitch, elemBytes w))
        | 2 => (List.range rows).map (fun k => (sa + BitVec.ofNat 64 k * pitch, 64))
        | _ => [(sa + o, n)])
      next := (if mode ≠ 2 ∧ mv.off + 64 < len then some ⟨mv.idx, mv.off + 64⟩
               else (loopNext mv.idx sl.loops).map (fun i => ⟨i, 0⟩)) }
  | _, _, _ => none

/-- The slot after a beat whose last port cycle is `last`: the next beat is due after its gap, or the MOVE has ended. -/
def Slot.afterBeat (b : Beat) (last : Nat) (sl : Slot) : Slot :=
  let sl1 := { sl with beats := (sl.beats + (if b.mode = 2 then 64 / b.width else 1)) % 2 ^ 32 }
  match b.next with
  | some m => { sl1 with move := some m, due := last + 1 + b.gap }
  | none => { sl1 with move := none }.goOn (last + 1 + (if b.sp = 5 then 1 else 0))

/-- Room in the buffer for a beat or block of an untimed MOVE to LAT (R184): the block before it may still be leaving while the next
one's rows are read (R163). -/
def Slot.roomFor (sl : Slot) (b : Beat) : Bool :=
  if b.mode = 2 then sl.rows.isNone && decide (sl.out.length ≤ 64 / b.width + 2)
  else sl.rows.isNone && sl.out.isEmpty && decide (sl.fill + sl.expected + b.n ≤ 1024)

/-- STREAM_MOVE: the next beat, or for TRANSPOSE the next block, of the MOVE at the slot's index. A LOCAL source is read through its
banks' ports; one that does not serve the beat delays it (R159, R160, R184). -/
def Tile.streamMove (c : Ctx) (s : Nat) (tl : Tile) : Tile × List Out :=
  let sl := (tl.slot s).absorb c
  if tl.st ≠ .running ∨ sl.ready c = false then (tl, [])
  else match sl.beat with
    | none => (tl, [])
    | some b =>
      let moving := tl.setSlot s { sl with move := some b.here }
      -- the cycle in which R182 places the beat: for a LAT source not before its last byte has come
      let due := if b.sp = 5 then max sl.due (sl.cameBy b.n) else sl.due
      let faults := (if b.sp = 5 then [] else b.pieces.map (fun p => addrFault c tl b.sp p.1 p.2 (if b.far then 64 else 4) false 0)) ++
        (if b.mode = 2 then [] else [tl.destFault c b.far b.dst b.dest b.n])
      if b.sp = 5 ∧ sl.buf.length < b.n then (moving, [])
      else if sl.timed ∧ due < c.cycle then tl.lateSlip c s due
      else match faults.find? (· != 0) with
      | some f => tl.abortSlot c s f
      | none =>
        if b.dp = 5 ∧ sl.timed = false ∧ sl.roomFor b = false then (moving, [])
        else if b.sp = 5 then
          (tl.setSlot s ((sl.takeBuf b.n).afterBeat b c.cycle)).sink c s sl.timed (c.cycle + 1) b.dst b.dest (sl.buf.take b.n)
        else if b.sp = 2 ∨ b.sp = 3 then
          (tl.setSlot s (sl.afterBeat b c.cycle)).readReq c s sl.timed b.sp ((b.pieces.map (·.1)).headD 0) b.dst b.dest
        else if b.mode = 2 then
          let k := 64 / b.width
          (tl.setSlot s { sl.afterBeat b (c.cycle + k - 1) with
            rows := some ⟨b.pieces.map (fun p => p.1.toNat), [], c.cycle, b.width, b.dst, b.dest, sl.timed⟩ }).rowRead c s
        else
          let at_ := b.pieces.map (fun p => (p.1.toNat, p.2))
          let bs := (at_.flatMap (fun p => tl.banksOf p.1 p.2)).dedup
          match tl.askBanks c c.cycle (.slot s) sl.timed false 0 [] bs with
          | .error t =>
            let q := t.delayed c c.cycle (.slot s) false sl.timed
            (q.1.setSlot s { (q.1.slot s) with move := some b.here, due := c.cycle + 1 }, q.2)
          | .ok (t, o) =>
            let g := if b.mode = 1 then gatherCost tl.bankOf at_ else 1
            let q := t.readCycles c s sl.timed bs 64 (c.cycle + 1) (g - 1)
            if q.1.1.st ≠ .running then (q.1.1, o ++ q.1.2)
            else andThen (q.1.1.setSlot s (((q.1.1.slot s).absorb c).afterBeat b q.2), o ++ q.1.2)
              (fun t => t.sink c s sl.timed (q.2 + 2) b.dst b.dest (at_.flatMap (fun p => tl.bytes p.1 p.2)))

/-! ### Answers and errors (R280, R286, R289) -/

/-- A beat or an answer is offered to its bank (R161, R164, R165): a plain one is written in this cycle, an atomic is accepted in it;
where the port does not serve it, it is offered again in the next. -/
def Tile.slotWrite (c : Ctx) (s : Nat) (w : SWrite) (tl : Tile) : Tile × List Out :=
  let taken (t : Tile) : Tile := t.setSlot s { (t.slot s) with writes := (t.slot s).writes.erase w }
  let waits (t : Tile) : Tile × List Out :=
    let r := t.delayed c c.cycle (.slot s) true w.timed
    (r.1.setSlot s { (r.1.slot s) with writes := (r.1.slot s).writes.map (fun x => if x = w then { x with at_ := c.cycle + 1 } else x) }, r.2)
  if w.atomic = 0 then
    match tl.plainWrite c c.cycle (.slot s) w.timed w.addr w.bytes with
    | .ok (t, o) => (match w.ctr with | some k => (taken t).ctrAdd c k 1 | none => taken t, o)
    | .error t => waits t
  else
    match tl.ask c c.cycle (.slot s) w.timed false w.addr w.bytes.length [] with
    | .ok (t, o) => ((taken t).acceptAtomic c (.slot s) w.atomic w.addr w.bytes w.ctr none, o)
    | .error t => waits t

/-- The writes of slot `s` whose cycle has come. -/
def Tile.slotWrites (c : Ctx) (s : Nat) (tl : Tile) : Tile × List Out :=
  ((tl.slot s).writes.filter (fun w => decide (w.at_ ≤ c.cycle))).foldl (fun p w => if p.1.deaf then p else andThen p (Tile.slotWrite c s w)) (tl, [])

/-- The answer to an open-class request with `tag` reaches the tile: a write completes, read data goes to LOCAL through
the STR class or to the buffer. An answer no longer wanted is discarded (R174, R286); a tile whose units stand still keeps everything
as it is (R196). -/
def Tile.memAnswer (c : Ctx) (tag : Nat) (data : List Byte) (tl : Tile) : Tile × List Out :=
  if tl.deaf then (tl, []) else
  match (List.range 8).find? (fun s => (tl.slot s).reqs.any (fun r => r.tag == tag)) with
  | none => (tl, [])
  | some s =>
    let sl := tl.slot s
    match sl.reqs.find? (fun r => r.tag == tag) with
    | none => (tl, [])
    | some r =>
      let t1 := tl.setSlot s { sl with reqs := sl.reqs.erase r }
      if r.write ∨ r.live = false then (t1, [])
      else match r.dest with
        | none => (t1.setSlot s { (t1.slot s) with incoming := (t1.slot s).incoming ++ [(c.cycle, false, data)] }, [])
        | some a =>
          let q := (t1.setSlot s { (t1.slot s) with writes := (t1.slot s).writes ++ [⟨c.cycle, a, data, r.atomic, r.ctr, false⟩] }).slotWrites c s
          (q.1.settle c, q.2)

/-- MEM_ERROR_RECEIVE (R289): a memory-port ERROR naming slot `s` aborts it with the ERROR's reason, whatever its state.
`tag` is the request it answers, for an open-class access; where that request has timed out, the answer is discarded (R286). -/
def Tile.memError (c : Ctx) (s reason : Nat) (tag : Option Nat) (tl : Tile) : Tile × List Out :=
  let sl := tl.slot s
  if tl.deaf ∨ tag.any (fun t => sl.reqs.all (fun r => r.tag != t)) then (tl, [])
  else (tl.setSlot s { sl with reqs := sl.reqs.filter (fun r => some r.tag != tag) }).abortSlot c s reason

/-- STREAM_REQUEST_TIMEOUT (R286): an open request unanswered for 400,000 cycles aborts its slot; in a STOPPING slot it
no longer holds the stop (R174). -/
def Tile.streamTimeout (c : Ctx) (s : Nat) (tl : Tile) : Tile × List Out :=
  let sl := tl.slot s
  let old (r : Req) : Bool := decide (r.at_ + 400000 ≤ c.cycle)
  let sl1 := { sl with reqs := sl.reqs.filter (fun r => !(old r)) }
  if tl.deaf then (tl, [])
  else if sl.reqs.any (fun r => old r && r.live) then (tl.setSlot s sl1).abortSlot c s 5
  else (tl.setSlot s sl1, [])

/-! ### Fused descriptors (R189 to R191) -/

/-- The descriptor of 64 bytes: its fields, and whether its must-be-0 fields and version are right. -/
def descOf (l : List Byte) : FDesc × Bool :=
  let d : FDesc := {
    flags := byteAt l 1, inSlot := byteAt l 2, outSlot := byteAt l 3, recvQueue := byteAt l 4, sendIndex := byteAt l 5,
    sigCtr := byteAt l 6, inProg := numAt l 8 4, inBase := numAt l 12 4, outProg := numAt l 16 4, outBase := numAt l 20 4,
    recvBuf := numAt l 24 4, sendMsg := numAt l 28 4, sendLen := numAt l 32 2, sigAmount := numAt l 34 2, next := numAt l 36 4 }
  (d, byteAt l 0 == 1 && byteAt l 7 == 0 && (l.drop 0x28).all (· == 0) && decide (d.inSlot < 8) && decide (d.outSlot < 8) &&
    decide (d.recvQueue < 64) && decide (d.sendIndex < 64) && decide (d.sigCtr < 64))

/-- The checks of R191, whatever steps the descriptor asks for; `next` is looked at when chain is set (Table 5-10). -/
def descOk (tl : Tile) (d : FDesc) : Bool :=
  let at_ (a al n : Nat) : Bool := a % al == 0 && decide (a + n ≤ tl.size)
  (!(d.has 5) || d.inProg == 0) && (!(d.has 6) || d.outProg == 0) &&
  at_ d.recvBuf 16 4096 && at_ d.inBase 64 64 && at_ d.inProg 64 64 && at_ d.outBase 64 64 && at_ d.outProg 64 64 &&
  at_ d.sendMsg 16 d.sendLen && decide (16 ≤ d.sendLen) && decide (d.sendLen ≤ 4096) && d.sendLen % 16 == 0 &&
  decide (1 ≤ d.sigAmount) && (!(d.has 7) || at_ d.next 64 64) &&
  !(d.has 1 && d.has 2 && d.inSlot == d.outSlot)

/-- Fused slot `f` reads its descriptor, in the cycle before its validation (R190). -/
def Tile.fusedRead (c : Ctx) (f : Nat) (tl : Tile) : Tile × List Out :=
  match tl.ask c c.cycle (.fused f) false false (tl.fslot f).addr 64 [] with
  | .ok (t, o) => (t.setFslot f { t.fslot f with line := some (tl.bytes (tl.fslot f).addr 64) }, o)
  | .error t => t.delayed c c.cycle (.fused f) false false

/-- One transition of fused slot `f` that time alone brings: the descriptor's read, its validation (R190, R191), the signal step, or
the end. -/
def Tile.fusedTick (c : Ctx) (f : Nat) (tl : Tile) : Tile × List Out :=
  let x := tl.fslot f
  match x.desc with
  | none => match x.line with
    | none => tl.fusedRead c f
    | some l =>
      let r := descOf l
      if r.2 && descOk tl r.1 then (tl.setFslot f ({ x with desc := some r.1, line := none }.goOn 0 (x.due + 1)), [])
      else tl.abortFused c f 8
  | some d =>
    if x.step = 6 then ((tl.ctrAdd c d.sigCtr d.sigAmount).setFslot f (x.goOn 6 (x.due + 1)), [])
    else (tl.setFslot f x.idleNow, [])

/-- The cycle of that transition. -/
def Fused.next (x : Fused) : Option Nat :=
  if x.busy = false then none
  else match x.desc with
    | none => some (if x.line.isNone then x.due - 1 else x.due)
    | some _ => if x.step = 6 ∨ x.step = 8 then some x.due else none

/-! ### What time brings about -/

/-- Bytes that have arrived at slot `s`'s buffer; a beat of a timed section that finds it full raises SLIP (R184). -/
def Tile.arrivals (c : Ctx) (s : Nat) (tl : Tile) : Tile × List Out :=
  let sl := tl.slot s
  let t1 := tl.setSlot s (sl.absorb c)
  match sl.incoming.find? (fun p => decide (p.1 ≤ c.cycle) && p.2.1) with
  | some p => if 1024 < (t1.slot s).buf.length then tl.lateSlip c s p.1 else (t1, [])
  | none => (t1, [])

/-- The next beat of a TRANSPOSE block read outside a timed section enters the buffer where it has room, one in a cycle (R163, R184). -/
def Tile.beatOut (c : Ctx) (s : Nat) (tl : Tile) : Tile :=
  let sl := tl.slot s
  match sl.out with
  | [] => tl
  | (_, l) :: r =>
    if 1024 < sl.fill + l.length then tl.setSlot s { sl with out := (c.cycle + 1, l) :: r }
    else tl.setSlot s { sl with buf := sl.buf ++ l, arr := sl.arr ++ [(c.cycle, l.length)],
                                out := r.map (fun p => (max p.1 (c.cycle + 1), p.2)) }

/-- The cycle in which slot `s` next does something that needs no command. -/
def Slot.next (sl : Slot) : Option Nat :=
  ((sl.incoming.map (·.1)) ++ (sl.writes.map (·.at_)) ++ sl.baseAt.toList ++ (sl.rows.map (·.next)).toList ++ ((sl.out.map (·.1)).take 1) ++
    (if sl.st = .arming ∧ sl.base = [] then [sl.due] else [])).min?

/-- What slot `s` does in this cycle without a command. -/
def Tile.slotRun (c : Ctx) (s : Nat) (tl : Tile) : Tile × List Out :=
  let due (k : Option Nat) : Bool := k.any (fun k => decide (k ≤ c.cycle))
  let go (p : Tile × List Out) (b : Slot → Bool) (f : Tile → Tile × List Out) : Tile × List Out :=
    if p.1.deaf = false ∧ b (p.1.slot s) then andThen p f else p
  let p1 := go (tl, []) (fun _ => true) (fun t => t.slotWrites c s)
  let p2 := go p1 (fun sl => due sl.baseAt) (fun t => t.baseRead c s)
  let p3 := go p2 (fun sl => sl.st == .arming && sl.base.isEmpty && decide (sl.due ≤ c.cycle)) (fun t => t.armRead c s)
  let p4 := go p3 (fun sl => due (sl.rows.map (·.next))) (fun t => t.rowRead c s)
  let p5 := go p4 (fun _ => true) (fun t => t.arrivals c s)
  go p5 (fun sl => due ((sl.out.head?).map (·.1))) (fun t => (t.beatOut c s, []))

/-- A landing that is an atomic at the bank (R207). -/
def Tile.landsAtomic (tl : Tile) (h : Word) : Bool := hKind h != 1 && hAtomic h != 0 && decide (hLine h * 64 < tl.size)

/-- The atomic in progress of the landing with write cycle `w` at byte address `a`. -/
def Tile.landingAtom (w a : Nat) (tl : Tile) : Option Atom := tl.bank.atoms.find? (fun x => x.landing == some w && x.addr == a)

/-- The atomic landings on their way to the tile whose target is still to be read, two cycles before their write cycle (R164, R207). -/
def Tile.landingReads (c : Ctx) (tl : Tile) : List Landing :=
  if tl.vacant then [] else c.lands.filter (fun l => tl.landsAtomic l.hdr && (tl.landingAtom l.w (hLine l.hdr * 64)).isNone)

/-- The bank reads the target of an atomic landing, before every other access (R159, R164). -/
def Tile.landingRead (c : Ctx) (h : Word) (data : Line) (w : Nat) (tl : Tile) : Tile × List Out :=
  let a := hLine h * 64
  match tl.ask c c.cycle .landing false false a 64 [] with
  | .ok (t, o) => (t.acceptAtomic c .landing (hAtomic h) a (lineBytes data) none (some w), o)
  | .error t => (t.acceptAtomic c .landing (hAtomic h) a (lineBytes data) none (some w), [])

/-- What the channel endpoint hands over in this cycle. -/
def Tile.handOver (c : Ctx) (tl : Tile) : Tile × List Out :=
  ({ tl with outbox := tl.outbox.filter (fun l => decide (c.cycle < l.at_)) },
   (tl.outbox.filter (fun l => decide (l.at_ ≤ c.cycle))).map (·.out))

/-- The next cycle in which something happens in the tile without a command. In a FENCED, OFFLINE or RETIRED tile that is only what its
channel endpoint has taken on already (R196). -/
def Tile.nextEvent (c : Ctx) (tl : Tile) : Option Nat :=
  if tl.deaf then (tl.outbox.map (fun (l : Later) => l.at_)).min?
  else
    ((tl.outbox.map (fun (l : Later) => l.at_)) ++ ((tl.bank.atoms.filter (fun (x : Atom) => x.landing.isNone)).map (fun (x : Atom) => x.at_)) ++ ((tl.landingReads c).map (fun (l : Landing) => l.w - 2)) ++
      (List.range 8).filterMap (fun s => (tl.slot s).next) ++ (List.range 4).filterMap (fun f => (tl.fslot f).next) ++
      tl.lat.loadNext.toList ++ tl.refusing.map (fun x => x.1)).min?

/-- What happens in the tile in this cycle without a command: atomics read and write, slots and fused slots move, a bundle loads, the
channel endpoint hands over, and the sequencer's wait ends if its condition now holds (R94). -/
def Tile.eventsAt (c : Ctx) (tl : Tile) : Tile × List Out :=
  let go (p : Tile × List Out) (f : Tile → Tile × List Out) : Tile × List Out := if p.1.deaf then p else andThen p f
  let p0 := tl.handOver c
  let p1 := ((tl.landingReads c).filter (fun l => decide (l.w ≤ c.cycle + 2))).foldl (fun p l => go p (Tile.landingRead c l.hdr l.data l.w)) p0
  let p2 := (p1.1.bank.atoms.filter (fun x => x.landing.isNone && decide (x.at_ ≤ c.cycle))).foldl
    (fun p x => go p (fun t => (t.writeAtomic c x, []))) p1
  let p3 := (List.range 8).foldl (fun p s => go p (Tile.slotRun c s)) p2
  let p4 := (List.range 4).foldl (fun p f => go p (fun t =>
    if (t.fslot f).next.any (fun k => decide (k ≤ c.cycle)) then t.fusedTick c f else (t, []))) p3
  let p5 := go p4 (fun t => if t.lat.loadNext.any (fun k => decide (k ≤ c.cycle)) then t.loadRun c else (t, []))
  let p6 := go p5 (fun t => (t.endRefused c, []))
  (p6.1.settle c, p6.2)

/-- The events up to the present cycle, cycle by cycle; `fuel` bounds their number. -/
def Tile.runEvents (c : Ctx) : Nat → Tile → Tile × List Out
  | 0, tl => (tl, [])
  | n + 1, tl => match tl.nextEvent c with
    | some k => if k ≤ c.cycle then andThen (tl.eventsAt (c.back k)) (Tile.runEvents c n) else (tl, [])
    | none => (tl, [])

/-- A unit of the lattice in a gated cycle `k`: whatever it was to do from `k` on comes one cycle later (R517). -/
def LUnit.gated (k : Nat) (x : LUnit) : LUnit :=
  let n (a : Nat) : Nat := if k ≤ a then a + 1 else a
  { x with
    inq := x.inq.map (fun q => (q.1, n q.2.1, q.2.2))
    pipe := x.pipe.map (fun q => (q.1, n q.2.1, q.2.2))
    sqLoop := x.sqLoop.map (fun l => { l with next := n l.next })
    cpIn := x.cpIn.map (fun p => (p.1, p.2.1, n p.2.2))
    mxOut := x.mxOut.map (fun r => { r with next := n r.next }) }

/-- A load in a gated cycle. -/
def LatLoad.gated (k : Nat) (d : LatLoad) : LatLoad :=
  { d with issued := (if d.st = .loading then d.issued + 1 else d.issued), inForce := (if k ≤ d.inForce then d.inForce + 1 else d.inForce) }

/-- A slot in a gated cycle: an event of a timed section that was due is late and raises SLIP (R184); other events come one cycle
later. -/
def Tile.gateSlot (c : Ctx) (s : Nat) (tl : Tile) : Tile × List Out :=
  let sl := tl.slot s
  if tl.deaf then (tl, [])
  else if sl.timed then
    if sl.next.any (fun k => decide (k ≤ c.cycle)) || sl.ready c then tl.slipSlot c s c.sidereal 1 else (tl, [])
  else (tl.setSlot s (sl.later (c.cycle - 1) true), [])

/-- A cycle in which throttling gates the tile's lattice and stream engine (R517); banks, endpoints and routers are never gated. -/
def Tile.gate (c : Ctx) (tl : Tile) : Tile × List Out :=
  if tl.deaf then (tl, [])
  else
    let t1 : Tile := { tl with
      lat := { tl.lat with units := tl.lat.units.mapVals (fun _ x => x.gated c.cycle), load := tl.lat.load.map (LatLoad.gated c.cycle) }
      fused := tl.fused.mapVals (fun _ x => if x.busy ∧ c.cycle ≤ x.due then { x with due := x.due + 1 } else x) }
    (List.range 8).foldl (fun p s => andThen p (Tile.gateSlot c s)) (t1, [])

/-- Bring a tile up to the present cycle: what needs no command, the outputs of the lattice's units (R121), and the end of the
sequencer's wait. -/
def Tile.catchUp (c : Ctx) (tl : Tile) : Tile × List Out :=
  let p := tl.runEvents c 512
  if p.1.deaf then p else ((p.1.pumpAll c).settle c, p.2)

end Sys2Proof.Machine
end

