-- ==== Sys2Proof/Machine/TileNet.lean ====
section
/-! DEFINITION. A tile at its networks: steps of fused commands (R190), the injection stage (R205, R206, R432), landings
(R207, R208, R274), channel messages that arrive (R249), reads and writes of its register window (R111 to R116), and
its changes of state (Table 3-12, R80, R194, R255). -/
namespace Sys2Proof.Machine

/-! ### Fused steps (R190 to R193) -/

/-- FUSED_RECV: the step takes one message, unless another wait on the queue began earlier (R253); it ends when the message is written
(R190). -/
def Tile.fusedRecv (c : Ctx) (f : Nat) (tl : Tile) : Tile × List Out :=
  let x := tl.fslot f
  match x.desc with
  | some d =>
    let ahead := (List.range 4).any (fun g => let y := tl.fslot g
        g != f && y.busy && y.step == 1 && (y.desc.map (fun e => e.recvQueue)) == some d.recvQueue &&
        (decide (y.sinceRecv < x.sinceRecv) || (y.sinceRecv == x.sinceRecv && decide (g < f)))) ||
      (match tl.seq.blk with
       | some ⟨.recv q _, _⟩ => q == d.recvQueue && decide (tl.seq.sinceCycle ≤ x.sinceRecv)
       | _ => false)
    if tl.st ≠ .running ∨ x.busy = false ∨ x.step ≠ 1 ∨ c.cycle < x.due ∨ ahead ∨
        tl.rd F.TIL_CHQ_STATE.state d.recvQueue ≠ 1 ∨ tl.cpInbound = some d.recvQueue then (tl, [])
    else match tl.takeMsg d.recvQueue with
      | (t1, some m) =>
        let p := t1.deliver c d.recvQueue d.recvBuf m
        let r := (p.1.1.setFslot f (x.goOn 1 (p.2 + 1))).serveRecv c d.recvQueue
        (r.1, p.1.2 ++ r.2)
      | (_, none) => (tl, [])
  | none => (tl, [])

/-- FUSED_ARM (R190 steps 2 and 3, R192): arm or re-arm the step's stream slot, or abort with SLOT_BUSY. -/
def Tile.fusedArm (c : Ctx) (f : Nat) (tl : Tile) : Tile × List Out :=
  let x := tl.fslot f
  match x.desc with
  | some d =>
    if tl.st ≠ .running ∨ x.busy = false ∨ ¬(x.step = 2 ∨ x.step = 3) ∨ c.cycle < x.due then (tl, [])
    else
      let s := if x.step = 2 then d.inSlot else d.outSlot
      let prog := if x.step = 2 then d.inProg else d.outProg
      let base := if x.step = 2 then d.inBase else d.outBase
      let re := d.has (if x.step = 2 then 5 else 6)
      let sl := tl.slot s
      if sl.heldBy.isSome ∨ (re ∧ sl.st ≠ .parked) ∨ (¬re ∧ sl.st.armed) then tl.abortFused c f 7
      else
        let t1 := if re then tl.rearm c s base (some f) else tl.arm c s prog base (some f)
        (t1.setFslot f (x.goOn x.step (c.cycle + 1)), [])
  | none => (tl, [])

/-- FUSED_WAIT (R190 step 4, R193): ends when the passes of both armed slots have ended, and releases them. -/
def Tile.fusedWait (c : Ctx) (f : Nat) (tl : Tile) : Tile × List Out :=
  let x := tl.fslot f
  if tl.st = .running ∧ x.busy ∧ x.step = 4 ∧ x.due ≤ c.cycle ∧ tl.slotsAll (fun sl => sl.heldBy != some f || sl.st.atRest) then
    ((tl.unhold f).setFslot f (x.goOn 4 (c.cycle + 1)), [])
  else (tl, [])

/-- FUSED_SEND (R190 step 5, R248): hand the message over as CSEND does; a DISABLED entry or a length above max_len
aborts with BAD_DESCRIPTOR. The step ends at the reply. -/
def Tile.fusedSend (c : Ctx) (f : Nat) (tl : Tile) : Tile × List Out :=
  let x := tl.fslot f
  match x.desc with
  | some d =>
    if tl.st ≠ .running ∨ x.busy = false ∨ x.step ≠ 5 ∨ x.sent ∨ c.cycle < x.due then (tl, [])
    else if tl.rd F.TIL_CHS_STATE.state d.sendIndex = 0 ∨ tl.rd F.TIL_CHS_CFG.max_len d.sendIndex * 16 < d.sendLen then
      tl.abortFused c f 8
    else (tl.setFslot f { x with sent := true }).startSend c (.fused f) d.sendIndex d.sendMsg d.sendLen []
  | none => (tl, [])

/-- FUSED_CHAIN (R190 step 7): the next descriptor is read in this cycle and validated in the next. -/
def Tile.fusedChain (c : Ctx) (f : Nat) (tl : Tile) : Tile × List Out :=
  let x := tl.fslot f
  match x.desc with
  | some d =>
    if tl.st = .running ∧ x.busy ∧ x.step = 7 ∧ x.due ≤ c.cycle then
      (tl.setFslot f { x with addr := d.next, desc := none, line := none, due := c.cycle + 1, done := (x.done + 1) % 2 ^ 32 }).fusedRead c f
    else (tl, [])
  | none => (tl, [])

/-! ### Meridian at the tile -/

def pickInj : List Inj → Option Inj
  | [] => none
  | i :: r => match pickInj r with
    | none => some i
    | some j => if j.slot < i.slot then some j else some i

/-- FLIT_INJECTION (R205, R206): the lowest slot's flit handed over by now enters; a flit of a timed section that enters
later than it was handed over raises SLIP (R184). D absorbs DATA, MEM_WRITE and EDGE_OUT flits (R432). -/
def Tile.inject (c : Ctx) (tl : Tile) : Tile × List Out :=
  if tl.deaf ∨ tl.lastInj = some c.cycle then (tl, [])
  else match pickInj (tl.inj.filter (fun i => decide (i.h ≤ c.cycle))) with
    | none => (tl, [])
    | some i =>
      if i.timed ∧ i.h < c.cycle then tl.lateSlip c i.slot i.h
      else
        let k := hKind i.hdr
        let d := if k = 0 ∨ k = 3 ∨ k = 5 then crc64 tl.digest (leBytes 8 i.hdr.toNat ++ lineBytes i.data) else tl.digest
        let t1 := { tl with inj := tl.inj.erase i, lastInj := some c.cycle, digest := d }
        (t1.addWrap F.TIL_MER_TRAFFIC.injected 0 1, [.flit i.hdr i.data i.back])

/-- A landing discarded (R208). -/
def Tile.discardLanding (c : Ctx) (f : Fld) (tl : Tile) : Tile :=
  (tl.addSat F.TIL_MER_DISCARD.count 0 1).merFlag c f

/-- A MEM_RETURN that carries the values of R274 goes to a slot's buffer. -/
def bufferReturn (h : Word) : Option Nat :=
  if hKind h = 4 ∧ hCtrEn h = false ∧ hAtomic h = 0 ∧ hLine h = 0 ∧ 32 ≤ hCtr h ∧ hCtr h < 40 then some (hCtr h - 32) else none

/-- A return is of the slot's present arming; of an earlier one it is discarded (R174). -/
def Tile.calLive (back : Option Nat) (tl : Tile) : Bool := back.all (fun b => (tl.slot (b % 8)).epoch == b / 8)

/-- A calendar read has returned. -/
def Tile.calBack (back : Option Nat) (tl : Tile) : Tile :=
  match back with
  | none => tl
  | some b => tl.setSlot (b % 8) { (tl.slot (b % 8)) with calOut := (tl.slot (b % 8)).calOut - 1 }

/-- The bank's part of a landing in its write cycle: a plain one is written, an atomic writes the result of what it read two cycles
before (R164, R207). -/
def Tile.landWrite (c : Ctx) (h : Word) (data : Line) (w : Nat) (tl : Tile) : Tile × List Out :=
  let a := hLine h * 64
  if hAtomic h = 0 then
    match tl.plainWrite c c.cycle .landing false a (lineBytes data) with
    | .ok r => r
    | .error t => (t, [])
  else
    let r := if (tl.landingAtom w a).isSome then (tl, []) else tl.landingRead c h data w
    match r.1.landingAtom w a with
    | some x => (r.1.writeAtomic c x, r.2)
    | none => r

/-- A landing in its write cycle `w` (R207, R208, R274). -/
def Tile.land (c : Ctx) (h : Word) (data : Line) (back : Option Nat) (w : Nat) (tl : Tile) : Tile × List Out :=
  if tl.vacant ∨ tl.deaf then (tl.discardLanding c F.TIL_MER_STATUS.landing_discard, [])
  else if hKind h = 1 then
    (((tl.ctrAdd c (hCtr h) (hAmount h)).addWrap F.TIL_MER_TRAFFIC.landed 0 1).settle c, [])
  else if tl.calLive back = false then (tl, [])
  else match bufferReturn h with
    | some s =>
      let t1 := tl.calBack back
      let sl := (t1.slot s).absorb c
      if sl.st ≠ .running then (t1, [])
      else if 1024 < sl.buf.length + 64 then t1.abortSlot c s 6
      else (((t1.setSlot s { sl with buf := sl.buf ++ lineBytes data, arr := sl.arr ++ [(c.cycle, 64)] }).addWrap
        F.TIL_MER_TRAFFIC.landed 0 1), [])
    | none =>
      let t0 := tl.calBack back
      if tl.size ≤ hLine h * 64 then
        (t0.discardLanding c F.TIL_MER_STATUS.landing_range, [.record 0x12 6 0 0 h 0 0 0])
      else
        let r := t0.landWrite c h data w
        let t2 := if hCtrEn h then r.1.ctrAdd c (hCtr h) 1 else r.1
        ((t2.addWrap F.TIL_MER_TRAFFIC.landed 0 1).settle c, r.2)

/-! ### Channel messages that arrive (R249) -/

/-- CHAN_MESSAGE_ARRIVAL at queue `q`; the reply is handed over in the next cycle. -/
def Tile.msgArrives (c : Ctx) (q : Nat) (m : Msg) (tl : Tile) : Tile × List Out :=
  let g (f : Fld) : Nat := tl.rd f q
  let answers (code : Nat) (t : Tile) : Tile := t.hand (c.cycle + 1) q false (m.answer code)
  if tl.vacant then (answers 1 tl, [])
  else if tl.deaf ∨ g F.TIL_CHQ_STATE.state ≠ 1 then (answers 1 (tl.addSat F.TIL_CHQ_STATE.discarded q 1), [])
  else if (g F.TIL_CHQ_CFG.kind = 0 ∧ ¬(g F.TIL_CHQ_CFG.peer_remote = m.remote.toNat ∧ g F.TIL_CHQ_CFG.peer_tile = m.src ∧
      (m.remote = false ∨ g F.TIL_CHQ_CFG.peer_eid = m.srcEid))) ∨
      g F.TIL_CHQ_CFG.slot_blocks * 256 < m.bytes.length ∨ g F.TIL_CHQ_CFG.depth ≤ tl.slotsHeld q then
    (answers 2 (tl.addSat F.TIL_CHQ_STATE.refused q 1), [.record 0x08 5 0 0 (BitVec.ofNat 64 (1 + q * 256)) 0 0 0])
  else ((answers 0 tl).setQueue q (tl.queue q ++ [{ m with at_ := c.cycle }])).serveRecv c q

/-! ### The register window: writes -/

/-- The tile's window in the CTL window (R22). -/
def tilBase (t : Nat) : Nat := 0x01000000 + t * 0x2000

/-- TIL_CTRL.go (R109). -/
def Tile.writeGo (c : Ctx) (tl : Tile) : Tile × List Out :=
  if tl.st = .idle ∧ tl.rd F.TIL_ENTRY.release 0 = 0 ∧ (c.mod = .ready ∨ c.mod = .joined) then
    ({ tl with goAt := (match tl.goAt with | some a => some a | none => some (c.cycle + 8)) }, [])
  else (tl.cfgIgnored c, [.record 0x40 1 0 0x10 (BitVec.ofNat 64 (tilBase c.tile + 0x10)) 0 0 0])

/-- A write that takes effect only while the tile is IDLE (R113). -/
def Tile.idleOnly (c : Ctx) (tl : Tile) (f : Tile → Tile) : Tile := if tl.st = .idle then f tl else tl.cfgIgnored c

/-- A write of a tile register that only stores. -/
def Tile.storeReg (c : Ctx) (r : Reg) (j : Nat) (a : Access) (tl : Tile) : Tile :=
  { tl with regs := tl.regs.store r 0 j c.cycle a }

/-- TIL_GREG (R116). -/
def Tile.writeGreg (c : Ctx) (j : Nat) (a : Access) (tl : Tile) : Tile :=
  tl.idleOnly c fun tl =>
    if a.hits F.TIL_GREG.value then { tl with seq := tl.seq.put (BitVec.ofNat 5 j) (BitVec.ofNat 64 (a.val F.TIL_GREG.value)) } else tl

/-- A write to TIL_SR_SEED or TIL_SR_COUNT while RUNNING is ignored (R74). -/
def Tile.srOnly (c : Ctx) (tl : Tile) (f : Tile → Tile) : Tile :=
  if tl.st = .running then tl.numFlag c F.TIL_NUM_STATUS.cfg_ignored else f tl

/-- TIL_SR_SEED (R70, R74): the seed, and every counter to 0. -/
def Tile.writeSeed (c : Ctx) (a : Access) (tl : Tile) : Tile :=
  tl.srOnly c fun tl =>
    if a.hits F.TIL_SR_SEED.seed then
      let was := (c.cycle, tl.rd F.TIL_SR_SEED.seed 0, (List.range 8).map (fun u => tl.rd F.TIL_SR_COUNT.count u))
      let t1 := (List.range 8).foldl (fun t u => t.wr F.TIL_SR_COUNT.count u 0) (tl.wr F.TIL_SR_SEED.seed 0 (a.val F.TIL_SR_SEED.seed))
      { t1 with seedWas := some was }
    else tl

/-- TIL_ARRIVAL (R168): takes effect as CTRSET while the tile is not RUNNING. -/
def Tile.writeArrival (c : Ctx) (j : Nat) (a : Access) (tl : Tile) : Tile :=
  if tl.st = .running then tl.cfgIgnored c
  else if a.hits F.TIL_ARRIVAL.count then tl.ctrSet c j (a.val F.TIL_ARRIVAL.count) else tl

/-- TIL_LAT_CTR_CLR.clear (R155). -/
def Tile.clearLatCtrs (c : Ctx) (tl : Tile) : Tile :=
  (List.range 16).foldl (fun t u => (((((t.wr F.TIL_LAT_FIRE.count u 0).wr F.TIL_LAT_IMBAL.cycles u 0).wr
    F.TIL_LAT_IMBAL.blocker_unit u 0).wr F.TIL_LAT_IMBAL.blocker_input u 0).wr F.TIL_LAT_OCC.max u 0))
    { tl with latClr := some c.cycle }

/-- TIL_BANK_OWNER: the new owners count from the next cycle on (R197). -/
def Tile.writeOwner (c : Ctx) (j : Nat) (a : Access) (tl : Tile) : Tile :=
  let was := match tl.bank.ownerWas with
    | some (k, v) => if k = c.cycle then v else (List.range 4).foldl (fun n b => n + tl.rd (ownerField b) 0 * 4 ^ b) 0
    | none => (List.range 4).foldl (fun n b => n + tl.rd (ownerField b) 0 * 4 ^ b) 0
  (tl.setBank { tl.bank with ownerWas := some (c.cycle, was) }).storeReg c .TIL_BANK_OWNER j a

/-- The blocks a queue's configuration claims. -/
def chqRegion (g : Fld → Nat) : Nat × Nat :=
  (g F.TIL_CHQ_CFG.base, g F.TIL_CHQ_CFG.base + g F.TIL_CHQ_CFG.depth * g F.TIL_CHQ_CFG.slot_blocks)

/-- The refusals of R237, for a write that leaves the fields as `g` says. -/
def chqRefused (tl : Tile) (q : Nat) (raw g : Fld → Nat) : Bool :=
  let r := chqRegion g
  let bad (v : Nat) : Bool := v == 0 || decide (16 < v)
  g F.TIL_CHQ_CFG.enable == 1 &&
    (bad (raw F.TIL_CHQ_CFG.depth) || bad (raw F.TIL_CHQ_CFG.slot_blocks) || decide (128 < r.2) ||
     (List.range 64).any (fun p => p != q && tl.rd F.TIL_CHQ_CFG.enable p == 1 &&
       (let s := chqRegion (fun f => tl.rd f p); decide (r.1 < s.2) && decide (s.1 < r.2))) ||
     decide (g F.TIL_CHQ_CFG.depth < g F.TIL_CHQ_CFG.remote_credits) ||
     (g F.TIL_CHQ_CFG.kind == 1 && (g F.TIL_CHQ_CFG.peer_remote != 0 || g F.TIL_CHQ_CFG.peer_eid != 0 || g F.TIL_CHQ_CFG.peer_tile != 0)) ||
     (g F.TIL_CHQ_CFG.kind == 0 && g F.TIL_CHQ_CFG.peer_remote == 0 && decide (2303 < g F.TIL_CHQ_CFG.peer_tile)))

/-- TIL_CHQ_CFG (R237, R238): the queue becomes OPEN and empty, or DISABLED with its messages discarded; a disabling write counts them
(Table 7-5). -/
def Tile.writeChq (c : Ctx) (q : Nat) (a : Access) (tl : Tile) : Tile × List Out :=
  if tl.st ≠ .idle then (tl.cfgIgnored c, [])
  else
    let raw (f : Fld) : Nat := if a.hits f then a.val f else tl.rd f q
    let g (f : Fld) : Nat := a.new f (tl.rd f q)
    if chqRefused tl q raw g then (tl.cfgIgnored c, [])
    else
      let t1 := if g F.TIL_CHQ_CFG.enable = 1 then tl.emptyQueue c q else tl.closeQueue c q
      ((t1.storeReg c .TIL_CHQ_CFG q a).wr F.TIL_CHQ_STATE.state q (g F.TIL_CHQ_CFG.enable), [])

/-- TIL_CHS_CFG (R239, R240): credits and state of the entry. -/
def Tile.writeChs (c : Ctx) (e : Nat) (a : Access) (tl : Tile) : Tile :=
  tl.idleOnly c fun tl =>
    let raw (f : Fld) : Nat := if a.hits f then a.val f else tl.rd f e
    let g (f : Fld) : Nat := a.new f (tl.rd f e)
    let bad (v hi : Nat) : Bool := v == 0 || decide (hi < v)
    if g F.TIL_CHS_CFG.enable = 1 ∧ (bad (raw F.TIL_CHS_CFG.credits) 16 ∨ bad (raw F.TIL_CHS_CFG.max_len) 256 ∨
        (g F.TIL_CHS_CFG.remote = 0 ∧ 2303 < g F.TIL_CHS_CFG.tile)) then tl.cfgIgnored c
    else
      let t1 := tl.storeReg c .TIL_CHS_CFG e a
      (t1.wr F.TIL_CHS_STATE.credit e (g F.TIL_CHS_CFG.credits)).wr F.TIL_CHS_STATE.state e (g F.TIL_CHS_CFG.enable)

/-- Any write to the tile's window (R111 to R116). A vacant position ignores writes (R112). -/
def Tile.regWrite (c : Ctx) (r : Reg) (j : Nat) (a : Access) (tl : Tile) : Tile × List Out :=
  if tl.vacant then (tl, [])
  else match r with
    | .TIL_ENTRY => (tl.idleOnly c (fun t => t.storeReg c r j a), [])
    | .TIL_CTRL => if a.hits F.TIL_CTRL.go && a.val F.TIL_CTRL.go == 1 then tl.writeGo c else (tl, [])
    | .TIL_GREG => (tl.writeGreg c j a, [])
    | .TIL_SR_SEED => (tl.writeSeed c a, [])
    | .TIL_SR_COUNT => (tl.srOnly c (fun t => t.storeReg c r j a), [])
    | .TIL_ARRIVAL => (tl.writeArrival c j a, [])
    | .TIL_LAT_CTR_CLR => if a.hits F.TIL_LAT_CTR_CLR.clear && a.val F.TIL_LAT_CTR_CLR.clear == 1 then (tl.clearLatCtrs c, []) else (tl, [])
    | .TIL_BANK_OWNER => (tl.writeOwner c j a, [])
    | .TIL_PUL_BAR => (tl.idleOnly c (fun t => t.storeReg c r j a), [])
    | .TIL_CHQ_CFG => tl.writeChq c j a
    | .TIL_CHS_CFG => (tl.writeChs c j a, [])
    | _ => (tl.storeReg c r j a, [])

/-! ### The register window: reads -/

def TileState.code : TileState → Nat
  | .offline => 0 | .idle => 1 | .running => 2 | .transit => 3 | .fenced => 4 | .retired => 5

def SlotState.code : SlotState → Nat
  | .idle => 0 | .arming => 1 | .running => 2 | .parked => 3 | .stopping => 4

/-- The instruction a slot has in progress: until the next one is due, the one before it. -/
def Slot.ipNow (c : Ctx) (sl : Slot) : Nat := if c.cycle < sl.due ∧ 0 < sl.ip ∧ sl.move.isNone then sl.ip - 1 else sl.ip

/-- The slot's state as read: a pass that has not begun is still ARMING (R171, R173). -/
def Slot.stNow (c : Ctx) (sl : Slot) : Nat :=
  if sl.st = .running ∧ sl.ip = 0 ∧ sl.move.isNone ∧ c.cycle < sl.due then 1 else sl.st.code

/-- The load's state, Table 4-10. -/
def Lattice.phaseState (c : Ctx) (l : Lattice) : Nat :=
  match l.load with
  | none => 0
  | some d => match d.st with
    | .loading => 1 | .draining => 2 | .flushing => 4
    | .committing => if c.cycle < d.inForce then 3 else 4

/-- The die of a tile position (Table 1-2). -/
def tileDie (t : Nat) : Nat := (if t / 48 < 24 then 0 else 2) + (if t % 48 < 24 then 0 else 1)

/-- The value a field of the window reads as. Fields with another home than the register file are taken from it. -/
def Tile.regField (c : Ctx) (tl : Tile) (r : Reg) (j : Nat) (f : Fld) : Nat :=
  let pick (l : List (Fld × Nat)) : Nat := match l.find? (fun p => p.1.id == f.id) with
    | some p => p.2
    | none => tl.regs.seen f 0 j
  -- a tile whose units stand still shows them as they were when it stopped (R196)
  let cs : Ctx := if tl.deaf then c.back tl.seq.sinceCycle else c
  if tl.vacant then (if f.id = F.TIL_STATE.state.id then (c.stSeen.getD tl.st).code else 0)
  else match r with
    | .TIL_STATE => pick [(F.TIL_STATE.die, tileDie c.tile), (F.TIL_STATE.x, c.tile % 48), (F.TIL_STATE.y, c.tile / 48),
        (F.TIL_STATE.state, (c.stSeen.getD tl.st).code)]
    | .TIL_PC => pick [(F.TIL_PC.pc, tl.seq.pc.toNat / 4)]
    | .TIL_TRAP => pick [(F.TIL_TRAP.hresume, tl.seq.hresume.toNat), (F.TIL_TRAP.in_handler, tl.seq.inHandler.toNat),
        (F.TIL_TRAP.hcode, tl.seq.hcode.toNat)]
    | .TIL_TRAP_VALUE => tl.seq.harg.toNat
    | .TIL_WAIT => pick [(F.TIL_WAIT.since_lo, if tl.waitWord = 0 then 0 else tl.seq.since), (F.TIL_WAIT.word, tl.waitWord)]
    | .TIL_INSTRET => tl.seq.retired.toNat
    | .TIL_STALL => (tl.stallNow c).toNat
    | .TIL_GREG => (tl.gr (BitVec.ofNat 5 j)).toNat
    | .TIL_LAT_PHASE => pick [(F.TIL_LAT_PHASE.state, tl.lat.phaseState c),
        (F.TIL_LAT_PHASE.shadow_phase, match tl.lat.load with | some d => d.shadow.toNat | none => 0)]
    | .TIL_LAT_OCC => pick [(F.TIL_LAT_OCC.current, (tl.unit j).table.length)]
    | .TIL_STREAM_STATE =>
      let sl := tl.slot j
      pick [(F.TIL_STREAM_STATE.base_addr, sl.baseAddr / 64), (F.TIL_STREAM_STATE.prog_addr, sl.progAddr / 64),
        (F.TIL_STREAM_STATE.fused_slot, sl.heldBy.getD 0), (F.TIL_STREAM_STATE.held, sl.heldBy.isSome.toNat),
        (F.TIL_STREAM_STATE.ip, sl.ipNow cs), (F.TIL_STREAM_STATE.timed, sl.timed.toNat), (F.TIL_STREAM_STATE.state, sl.stNow cs)]
    | .TIL_STREAM_BEATS => pick [(F.TIL_STREAM_BEATS.passes, (tl.slot j).passes), (F.TIL_STREAM_BEATS.beats, (tl.slot j).beats)]
    | .TIL_FUSED_STATE =>
      let x := tl.fslot j
      pick [(F.TIL_FUSED_STATE.desc_addr, x.addr / 64), (F.TIL_FUSED_STATE.step, let n := x.stepNow cs.cycle; if n = 8 then 0 else n),
        (F.TIL_FUSED_STATE.busy, x.busy.toNat)]
    | .TIL_FUSED_COUNT => pick [(F.TIL_FUSED_COUNT.done, (tl.fslot j).done)]
    | .TIL_CHQ_STATE => pick [(F.TIL_CHQ_STATE.held, tl.slotsHeld j)]
    | .TIL_CHS_STATE =>
      -- the cycles that sends still waiting for a credit have waited so far
      let w := ((tl.sends.filter (fun x => x.entry == j && x.handed == none)).map (fun x => c.cycle - x.began)).sum
      pick [(F.TIL_CHS_STATE.stall, min (tl.regs.seen F.TIL_CHS_STATE.stall 0 j + w) (2 ^ 32 - 1))]
    | _ => tl.regs.seen f 0 j

/-- A register of the window as a 64-bit word. -/
def Tile.regRead (c : Ctx) (tl : Tile) (r : Reg) (j : Nat) : Word :=
  BitVec.ofNat 64 (assemble r.fields (fun f => tl.regField c r j f))

/-- What a read clears: RC fields; max_held restarts from the messages held (Table 7-5), and the waiting sends' cycles
counted so far go with the stall count. -/
def Tile.regClear (c : Ctx) (r : Reg) (j off4 size : Nat) (tl : Tile) : Tile :=
  if tl.vacant then tl
  else
    let t1 : Tile := { tl with regs := tl.regs.readClear r 0 j off4 size }
    match r with
    | .TIL_CHQ_STATE => if F.TIL_CHQ_STATE.max_held.within off4 size then t1.wr F.TIL_CHQ_STATE.max_held j (tl.slotsHeld j) else t1
    | .TIL_CHS_STATE =>
      if F.TIL_CHS_STATE.stall.within off4 size then
        { t1 with sends := t1.sends.map (fun x => if x.entry = j ∧ x.handed = none then { x with began := c.cycle } else x) }
      else t1
    | _ => t1

/-! ### Changes of state (Table 3-12) -/

/-- The tile leaves IDLE: TIL_STOP and release clear (R115, Table 3-16). -/
def Tile.leaveIdle (tl : Tile) : Tile := (tl.setStop 0 0 0).wr F.TIL_ENTRY.release 0 0

/-- IDLE to RUNNING (R80, R108, R109, R432). An asynchronous cause that was pending when HALT took the tile to IDLE stays pending, and is
taken in the program that now starts (DESIGN CHOICE, log entry 12). -/
def Tile.enterRunning (c : Ctx) (job : Nat) (start : Word) (tl : Tile) : Tile :=
  let t1 := tl.leaveIdle
  { t1 with
    st := .running
    bank := { t1.bank with line := none, hold := 0 }
    goAt := none
    digest := 0
    seq := { t1.seq with pc := BitVec.ofNat 64 (tl.rd F.TIL_ENTRY.pc 0 * 4), entered := some c.cycle, job := job, start := start,
                         inHandler := false, since := 0, sinceCycle := c.cycle, blk := none } }

/-- A start by TIL_CTRL.go takes effect (R109). -/
def Tile.goStarts (c : Ctx) (tl : Tile) : Tile :=
  match tl.goAt with
  | some a => if a ≤ c.cycle ∧ tl.st = .idle then tl.enterRunning { c with cycle := a } 0 0 else tl
  | none => tl

/-- An eclipse reaches the tile: IDLE and RUNNING enter FENCED with stop_reason ECLIPSE (R466, R469). -/
def Tile.eclipse (c : Ctx) (tl : Tile) : Tile :=
  match tl.st with
  | .idle => (tl.leaveIdle.setStop 4 0 (tl.seq.pc.toNat % 2 ^ 21)).toFenced c
  | .running => (tl.setStop 4 0 (tl.seq.pc.toNat % 2 ^ 21)).toFenced c
  | _ => tl

/-- The registers that a tile reset returns to their reset values: those of the lattice (R152), the arrival counters and
bank owners (R194), and the channel endpoint (R238). -/
def tileResetRegs : List Reg :=
  [.TIL_LAT_PHASE, .TIL_LAT_LOAD, .TIL_LAT_STATUS, .TIL_PHASE_DISCARD, .TIL_LAT_DEADLOCK, .TIL_LAT_FIRE, .TIL_LAT_IMBAL,
   .TIL_LAT_OCC, .TIL_BANK_OWNER, .TIL_ARRIVAL, .TIL_CHQ_CFG, .TIL_CHQ_STATE, .TIL_CHS_CFG, .TIL_CHS_STATE]

/-- Forget what was stored in the fields of some registers. -/
def RegFile.forget (rs : List Reg) (r : RegFile) : RegFile :=
  let ids := rs.flatMap (fun g => g.fields.map (·.id))
  { r with vals := r.vals.filter (fun k _ => !(ids.contains k.1)), log := r.log.filter (fun k _ => !(ids.contains k.1)) }

/-- Entry to OFFLINE (R80, R152, R194, R255): sequencer, lattice, streams, counters, scratchpad and channel endpoint are
reset; the endpoint hands over the replies it still owes, and the senders of discarded messages get their credits. -/
def Tile.toOffline (c : Ctx) (tl : Tile) : Tile × List Out :=
  if tl.st = .retired then (tl, [])
  else
    let credits := (List.range 64).flatMap (fun q => if tl.rd F.TIL_CHQ_STATE.state q = 1 then (tl.queue q).map Msg.credit else [])
    let held := (List.range 64).flatMap (fun q => if tl.rd F.TIL_CHQ_STATE.state q = 2 then (tl.queue q).map Msg.credit else [])
    let owed := (tl.outbox.filter (fun l => match l.out with | .chanReply .. => true | _ => false)).map (fun l => l.out)
    ({ tl with
        st := .offline
        regs := (if tl.st = .idle then tl.wr F.TIL_ENTRY.release 0 0 else tl).regs.forget tileResetRegs
        seq := { Seq.reset with since := c.sidereal }
        spad := []
        slots := .empty
        fused := .empty
        lat := .reset
        queues := .empty
        sends := []
        inj := []
        transit := none
        goAt := none
        ctrAdds := .empty
        latClr := none
        bank := .empty
        outbox := []
        refusing := [] }, owed ++ credits ++ held)

/-- OFFLINE to IDLE: firmware releases the tile. -/
def Tile.release (c : Ctx) (tl : Tile) : Tile :=
  if tl.st = .offline then { tl with st := .idle, seq := { tl.seq with since := c.sidereal } } else tl

/-- OFFLINE or FENCED to RETIRED: the position becomes vacant (R464). -/
def Tile.retire (c : Ctx) (tl : Tile) : Tile := { tl with st := .retired, vacant := true, seq := { tl.seq with since := c.sidereal } }

/-- The cycles of a transit entered from IDLE count in TIL_STALL (R115, log entry 17). -/
def Tile.endIdleTransit (c : Ctx) (x : TransitSt) (tl : Tile) : Tile :=
  if x.from_ = .idle then
    { tl with seq := { tl.seq with stall := tl.seq.stall + BitVec.ofNat 64 (c.cycle - tl.seq.sinceCycle), since := c.sidereal, sinceCycle := c.cycle } }
  else tl

/-- Bring a tile up to the present cycle. -/
def Tile.sync (c : Ctx) (tl : Tile) : Tile × List Out :=
  let t0 : Tile := { tl with regs := { tl.regs with now := c.cycle } }
  if c.gated ∧ tl.regs.now ≠ c.cycle then andThen (t0.gate c) (fun t => (t.goStarts c).catchUp c)
  else (t0.goStarts c).catchUp c

end Sys2Proof.Machine
end

