-- ==== Sys2Proof/Machine/ChanTypes.lean ====
section
/-! DEFINITION. What one memory channel holds (chapter 8). -/
namespace Sys2Proof.Machine

/-- Channel states (R290). -/
inductive ChanState where
  | disabled | training | active | selfRefresh | fenced
deriving DecidableEq, Repr

def ChanState.code : ChanState → Nat
  | .disabled => 0 | .training => 1 | .active => 2 | .selfRefresh => 3 | .fenced => 4

/-- An open-class request in a port's queue (R280, R282): the packet that asked, its line and mask, and for a read the
combining entry it leads. -/
structure OpenReq where
  pkt : VPkt
  m : Nat
  mask : Nat
  write : Bool
  entry : Bool
deriving DecidableEq, Repr

/-- A combining entry (R285): its line, when its leader was taken, its members in order, whether it takes joiners, and
the data once the leader's access is made (none of it: an uncorrectable line). -/
structure Comb where
  m : Nat
  taken : Nat
  members : List VPkt
  count : Nat
  openTo : Bool
  data : Option (Option (List Byte))
deriving DecidableEq, Repr

/-- A calendar request that has left its router for the port: the cycle z of R275, the flit's header and data, and the mark of the
asking slot that the flit carries (`Flit.back`). -/
structure CalReq where
  z : Nat
  hdr : Word
  data : Line
  back : Option Nat
deriving DecidableEq, Repr

/-- An accepted calendar read (R278): when its MEM_RETURN is in the router, its header and data, and the asking slot's mark. -/
structure CalRet where
  due : Nat
  hdr : Word
  data : List Byte
  back : Option Nat
deriving DecidableEq, Repr

/-- An uncorrectable read that is to be read twice again (R430). -/
structure Reread where
  m : Nat
  since : Nat
deriving DecidableEq, Repr

/-- A bank's occupancy (R276): from cycle and to cycle, and whether by a calendar access. -/
structure Busy where
  bank : Nat
  t0 : Nat
  t1 : Nat
  cal : Bool
deriving DecidableEq, Repr

/-- One memory channel with its port. `mem` holds the data lines; the code lines follow from them (R266, R267; `Chan.codeLine`). -/
structure Chan where
  st : ChanState
  regs : RegFile
  mem : Mem
  arrived : List CalReq
  busy : List Busy
  calEnd : Nat
  openEnd : Nat
  calEcc : Tab Nat Nat
  openEcc : List (Nat × Nat)
  rets : List CalRet
  queue : List OpenReq
  comb : List Comb
  /-- the calendar is being disabled (R296) -/
  closing : Bool
  rereads : List Reread
  /-- the cycle its eclipse began -/
  eclipsedAt : Option Nat
  /-- bank to the frame of its last refresh (R272) -/
  refreshed : Tab Nat Nat
deriving DecidableEq, Repr

def Chan.reset : Chan :=
  { st := .training, regs := .empty, mem := [], arrived := [], busy := [], calEnd := 0, openEnd := 0, calEcc := .empty,
    openEcc := [], rets := [], queue := [], comb := [], closing := false, rereads := [], eclipsedAt := none,
    refreshed := .empty }

end Sys2Proof.Machine
end

