-- ==== Sys2Proof/Machine/Memory.lean ====
section
/-! DEFINITION. A memory port (chapter 8): the calendar (R270 to R279), the open class with read combining (R280 to
R286), errors (R287, R288), states and resets (R290 to R294), and its registers (R296). -/
namespace Sys2Proof.Machine

def Chan.rd (h : Chan) (f : Fld) (j : Nat) : Nat := h.regs.rd f 0 j
def Chan.wr (h : Chan) (f : Fld) (j v : Nat) : Chan := { h with regs := h.regs.wr f 0 j v }
def Chan.addSat (h : Chan) (f : Fld) (n : Nat) : Chan := { h with regs := h.regs.addSat f 0 0 n }
def Chan.addWrap (h : Chan) (f : Fld) (n : Nat) : Chan := { h with regs := h.regs.addWrap f 0 0 n }
def Chan.flag (c : Ctx) (f : Fld) (h : Chan) : Chan :=
  { h with regs := h.regs.hwSet F.MEM_CH_STATUS.again_count f 0 0 c.cycle 1 }

/-- The sidereal count in a model cycle, counted from the present one. -/
def Ctx.sidOf (c : Ctx) (cy : Nat) : Nat := c.sidereal + cy - c.cycle

/-- The slot of the frame in which a cycle lies (R270). -/
def frameSlot (c : Ctx) (cy : Nat) : Nat := c.sidOf cy % 3840 / 6

/-- The table marks slot `j` CAL; slot 0 is the maintenance slot (R271). -/
def Chan.isCal (h : Chan) (j : Nat) : Bool := j != 0 && bits (h.rd F.MEM_CAL_TABLE.slots (j / 32)) (2 * (j % 32)) 2 == 1

/-- The first slot start at or after a cycle. -/
def slotStart (c : Ctx) (cy : Nat) : Nat := cy + (6 - c.sidOf cy % 6) % 6

/-- The starts of the first `k` CAL slots from slot start `t`, looking at `n` slots. -/
def Chan.calSlots (c : Ctx) (h : Chan) : Nat → Nat → Nat → List Nat
  | 0, _, _ => []
  | _, 0, _ => []
  | n + 1, k + 1, t =>
    if h.isCal (frameSlot c t) then t :: Chan.calSlots c h n k (t + 6) else Chan.calSlots c h n (k + 1) (t + 6)

/-- Bank `b` (rank × 16 + bank) meets its refresh window in some cycle from `t0` to `t1` (R272). -/
def refreshMeets (c : Ctx) (b t0 t1 : Nat) : Bool :=
  let start := 120 * (2 * (b % 16) + b / 16)
  let into := (c.sidOf t0 + 3840 - start % 3840) % 3840   -- cycles from the last start of the window to t0
  decide (into < 380) || decide (3840 - into ≤ t1 - t0)

/-- An access of the bank from `t0` to `t1` meets an earlier one: for a calendar request only a calendar access counts (Table 8-3). -/
def Chan.bankMeets (h : Chan) (cal : Bool) (b t0 t1 : Nat) : Bool :=
  h.busy.any (fun e => e.bank == b && decide (e.t0 ≤ t1) && decide (t0 ≤ e.t1) && (!cal || e.cal))

/-- A bank is occupied by an access that starts in cycle `t0`. -/
def Chan.occupy (t0 t1 b : Nat) (cal : Bool) (h : Chan) : Chan :=
  { h with busy := h.busy.filter (fun e => decide (t0 ≤ e.t1 + 3840)) ++ [⟨b, t0, t1, cal⟩] }

/-- The bytes of a line; its 64 bytes from m × 64. -/
def Chan.line (h : Chan) (m : Nat) : List Byte := Mem.bytes 0 h.mem (m * 64) 64

/-- Write the bytes of a line that the mask keeps: bit i covers bytes 8i to 8i + 7. -/
def maskLine (mask : Nat) (old new : List Byte) : List Byte :=
  (old.zip new).zipIdx.map (fun p => if bits mask (p.2 / 8) 1 = 1 then p.1.2 else p.1.1)

/-- A write of a line, in either class; its code in the code line follows (R283). -/
def Chan.writeLine (m mask : Nat) (l : List Byte) (h : Chan) : Chan :=
  { h with mem := Mem.putBytes 0 h.mem (m * 64) (maskLine mask (h.line m) (padTo 64 l)) }

/-- A write to line `m` is taken: every combining entry of the line, made before, closes to joiners (R285). -/
def Chan.closeComb (m : Nat) (h : Chan) : Chan :=
  { h with comb := h.comb.map (fun e => if e.m = m then { e with openTo := false } else e) }

/-! ### Codes (R266, R267) -/

/-- The code line of the half row that holds line `m` (R266): the codes of its 15 data lines, in line order, and 4 bytes of 0. -/
def Chan.codeLine (h : Chan) (m : Nat) : List Byte :=
  ((List.range 15).flatMap (fun pos =>
    let k := lpddrLine (lpddrBank m) (lpddrRow m) (lpddrHalf m) pos
    leBytes 4 (Config.eccCode k (lineOf (h.line k))).toNat)) ++ [0, 0, 0, 0]

/-- The bytes of a line and its code that an error changes. -/
def errBytes (err : BitVec 544) : Nat := (List.range 68).countP (fun i => bits err.toNat (8 * i) 8 != 0)

/-- The check of a line that is read while `err` stands on it and its code (R267): the line it gives, or none where the error is
uncorrectable, and whether it corrected one. An error in one byte is corrected, one in two or three is detected; beyond that the rule
promises nothing (log entry 88). -/
def Chan.check (h : Chan) (m : Nat) (err : BitVec 544) : Option (List Byte) × Bool :=
  let l := h.line m
  match errBytes err with
  | 0 => (some l, false)
  | 1 => (some l, true)
  | 2 => (none, false)
  | 3 => (none, false)
  | _ =>
    let w := (Config.eccFar m (lineOf l) err).toNat
    if w % 4 < 2 then (none, false) else (some (leBytes 64 (w / 4)), w % 4 == 3)

/-- Lines of a channel that exist (R268). -/
def lineCount : Nat := 125829120

/-! ### Errors (R287, R288) -/

/-- A correctable error: counted, and the status bit (R287). -/
def Chan.corrected (c : Ctx) (h : Chan) : Chan := (h.addSat F.MEM_ECC_COUNT.corrected 1).flag c F.MEM_CH_STATUS.corrected

def Chan.word (h : Chan) (r : Reg) : Word := BitVec.ofNat 64 (assemble r.fields (fun f => h.rd f 0))

/-- An uncorrectable error at line `m`: counted, recorded, the error record; the port will read the line twice again
(R288 steps 1 and 2, R430). `cls` is 0 calendar, 1 open. -/
def Chan.uncorrectable (c : Ctx) (m cls slot : Nat) (h : Chan) : Chan × List Out :=
  let h1 := ((h.addSat F.MEM_ECC_COUNT.uncorrectable 1).wr F.MEM_ECC_LAST.since_lo 0 c.sidereal).wr F.MEM_ECC_LAST.m 0 m
  let h2 := h1.flag c F.MEM_CH_STATUS.uncorrectable
  ({ h2 with rereads := h2.rereads ++ [(⟨m, c.sidereal⟩ : Reread)] },
   [.record 0x20 9 c.tile 0 (h2.word .MEM_ECC_LAST) (BitVec.ofNat 64 (cls + slot * 2 ^ 8)) 0 0])

/-- A packet from a memory port's position. -/
def Chan.packet (c : Ctx) (dx dy ep op len src rtag : Nat) (w : Word) (data : List Byte) (rep : Nat) : VPkt :=
  { x := chanX c.tile, y := chanY c.tile, worm := [], gone := 0, ready := c.cycle, rec_ := none, dx := dx, dy := dy, ep := ep, vc := 1, op := op, len := len,
    src := src, rtag := rtag, w := w, data := data, rx := chanX c.tile, ry := chanY c.tile, rep := rep, sent := c.cycle }

/-- The endpoint to which a response for a source number goes (R98, R222): a tile, or the Observatory. -/
def respEp (src : Nat) : Nat := if 0x1000 ≤ src ∧ src < 0x1000 + 2304 then 0 else 3

/-- The answer to an open request (R280). -/
def Chan.respond (c : Ctx) (p : VPkt) (op : Nat) (w : Word) (data : List Byte) : Out :=
  .vpkt (Chan.packet c p.rx p.ry (respEp p.src) op (data.length / 16) p.src p.rtag w data p.op)

/-- The op-specific bytes of a memory-port ERROR (R281): status, reason, slot. -/
def errWord (status reason slot : Nat) : Word := BitVec.ofNat 64 (status + reason * 2 ^ 16 + slot * 2 ^ 24)

/-- The slot an open request names (Table 8-5). -/
def openSlot (p : VPkt) : Nat := bits p.w.toNat 27 3

def Chan.refuse (c : Ctx) (p : VPkt) (status reason : Nat) : Out := Chan.respond c p 6 (errWord status reason (openSlot p)) []

/-! ### Calendar requests (R275 to R279) -/

/-- A request as the port reads it (Table 8-2): m, tile, slot, and whether it writes. -/
def calFields (hdr : Word) (data : Line) : Nat × Nat × Nat × Bool :=
  let n := hdr.toNat
  if hKind hdr = 3 then (bits n 17 24 + bits n 56 3 * 2 ^ 24, bits n 41 12, bits n 53 3, true)
  else (bits data.toNat 0 27, bits n 41 12, bits n 53 3, false)

/-- The MEM_RETURN header (R278). -/
def returnHdr (ch : Nat) (hdr : Word) : Word :=
  let src := hSrc hdr
  BitVec.ofNat 64 (4 + src % 48 * 2 ^ 3 + src / 48 * 2 ^ 9 + bits hdr.toNat 17 24 * 2 ^ 17 + (0xC00 + ch) * 2 ^ 41)

/-- A calendar fault of kind 0 OFF, 1 LATE, 2 BANK, 3 BAD (R277). -/
def Chan.calFault (c : Ctx) (kind z tile slot first : Nat) (h : Chan) : Chan × List Out :=
  let h1 := if kind = 0 then h.flag c F.MEM_CH_STATUS.cal_off
    else
      let g := if h.rd F.MEM_CH_STATUS.cal_fault 0 = 1 then h
        else ((((h.wr F.MEM_CAL_FAULT.since_lo 0 (c.sidOf z)).wr F.MEM_CAL_FAULT.kind 0 kind).wr F.MEM_CAL_FAULT.slot 0 slot).wr
          F.MEM_CAL_FAULT.src 0 tile).wr F.MEM_CAL_FAULT.frame_slot 0 first
      g.flag c F.MEM_CH_STATUS.cal_fault
  (h1, [.record 0x21 9 c.tile 0 (h1.word .MEM_CAL_FAULT) 0 0 1, .faultLine])

/-- The ERROR that follows an uncorrectable line of a calendar request (R288 step 5). -/
def Chan.calError (c : Ctx) (tile slot : Nat) : Out :=
  .vpkt (Chan.packet c (tile % 48) (tile / 48) 0 6 0 (0x1000 + tile) 0 (errWord 5 4 slot) [] 2)

/-- What the port's checks of one access come to: `code` for the code line it fetches, 0 clean, 1 corrected, 2 uncorrectable, and `err`
for the data line it reads. The line, and whether an error was corrected; none where one is uncorrectable (R287). -/
def Chan.checks (h : Chan) (m : Nat) (reads fetches : Bool) (err : BitVec 544) (code : Nat) : Option (List Byte) × Bool :=
  let d := if reads then h.check m err else (some (h.line m), false)
  if fetches && decide (2 ≤ code) then (none, false) else (d.1, d.2 || (fetches && code == 1))

/-- CALENDAR_REQUEST: the port takes the oldest request that has reached it. `err` is the error on the data line it reads, `code` what
the check of a fetched code line finds. Where the table has no CAL slot the first slot of a fault record is a free value (R277 gives
none). -/
def Chan.calRequest (c : Ctx) (err : BitVec 544) (code : Nat) (h : Chan) : Chan × List Out :=
  match h.arrived with
  | [] => (h, [])
  | ⟨z, hdr, data, back⟩ :: rest =>
    if c.cycle < z then (h, [])
    else
      let h0 := { h with arrived := rest }
      let (m, tile, slot, write) := calFields hdr data
      let bank := lpddrBank m
      let blk := lpddrBlock m
      let miss := h0.calEcc.find bank != some blk
      let k := (if write then 2 else 1) + miss.toNat
      let from_ := slotStart c (max (z + 24) h0.calEnd)
      let ts := h0.calSlots c 1280 k from_
      let first := match ts with | t :: _ => frameSlot c t | [] => (Config.freeWord c.fresh).toNat % 640
      let last := ts.getLastD 0
      let t0 := ts.headD 0
      let t1 := t0 + 113 + 6 * k
      if h0.st ≠ .active ∨ h0.rd F.MEM_CAL_CTRL.enable 0 ≠ 1 ∨ h0.closing then h0.calFault c 0 z tile slot first
      else if lineCount ≤ m then h0.calFault c 3 z tile slot first
      else if ts.length < k ∨ z + 564 < last then h0.calFault c 1 z tile slot first
      else if h0.bankMeets true bank t0 t1 ∨ refreshMeets c bank t0 t1 then h0.calFault c 2 z tile slot first
      else
        let h1 := { h0.occupy t0 t1 bank true with calEnd := last + 6, calEcc := h0.calEcc.set bank blk }
        let d := h1.checks m (!write) miss err code
        let h2 := if d.2 then h1.corrected c else h1
        let h3 := h2.addWrap (if write then F.MEM_CAL_COUNT.writes else F.MEM_CAL_COUNT.reads) 1
        match d.1 with
        | none =>
          let r := h3.uncorrectable c m 0 slot
          (r.1, r.2 ++ [Chan.calError c tile slot])
        | some l =>
          if write then ((h3.closeComb m).writeLine m 255 (lineBytes data), [])
          else ({ h3 with rets := h3.rets ++ [(⟨z + 960, returnHdr c.tile hdr, l, back⟩ : CalRet)] }, [])

/-- CALENDAR_RETURN (R278): the MEM_RETURN is in the port's router on input 5. -/
def Chan.calReturn (c : Ctx) (h : Chan) : Chan × List Out :=
  match h.rets with
  | [] => (h, [])
  | r :: rest =>
    if c.cycle < r.due then (h, [])
    else ({ h with rets := rest }, [.flitIn (chanX c.tile) (chanY c.tile) 5 r.due r.hdr (lineOf r.data) r.back])

/-! ### The open class (R280 to R286) -/

def Chan.setCurrent (h : Chan) : Chan :=
  let n := h.queue.length
  (h.wr F.MEM_OPEN_QUEUE.current 0 n).wr F.MEM_OPEN_QUEUE.max 0 (max (h.rd F.MEM_OPEN_QUEUE.max 0) n)

/-- A read that joins an open entry of its line (R285). -/
def Comb.takes (c : Ctx) (m : Nat) (e : Comb) : Bool :=
  e.m == m && e.openTo && decide (c.cycle ≤ e.taken + 256) && decide (e.count < 16)

/-- Answer one member of an entry. -/
def Chan.answerRead (c : Ctx) (p : VPkt) (data : Option (List Byte)) : Out :=
  match data with
  | some l => Chan.respond c p 4 0 l
  | none => Chan.refuse c p 5 4

/-- An entry of the line that would take one more joiner were it not full (R285). -/
def Comb.full (c : Ctx) (m : Nat) (e : Comb) : Bool := e.m == m && e.openTo && decide (c.cycle ≤ e.taken + 256) && decide (16 ≤ e.count)

/-- Give a packet to the first entry that takes it. -/
def joinFirst (c : Ctx) (p : VPkt) (m : Nat) : List Comb → List Comb × Option (Option (Option (List Byte)))
  | [] => ([], none)
  | e :: r =>
    if e.takes c m then
      match e.data with
      | some d => ({ e with count := e.count + 1 } :: r, some (some d))
      | none => ({ e with count := e.count + 1, members := e.members ++ [p] } :: r, some none)
    else let q := joinFirst c p m r
         (e :: q.1, q.2)

/-- OPEN_REQUEST_ARRIVAL (R281, R282, R285): `none` where the queue has no free entry and the request waits for its
credit. -/
def Chan.openArrives (c : Ctx) (p : VPkt) (h : Chan) : Option (Chan × List Out) :=
  let m := bits p.w.toNat 0 27
  let write := p.op == 9
  if lineCount ≤ m then some (h, [Chan.refuse c p 2 2])
  else if h.st ≠ .active then some (h, [Chan.refuse c p 1 0])
  else
    let j := joinFirst c p m h.comb
    if write = false ∧ j.2.isSome then
      let h1 := ({ h with comb := j.1 } : Chan).addWrap F.MEM_OPEN_COUNT.joined 1
      -- the entry's data is there: the answer goes out in the next cycle
      some (h1, match j.2 with | some (some d) => [Chan.answerRead (c.back (c.cycle + 1)) p d] | _ => [])
    else if 64 ≤ h.queue.length then none
    else
      let lead := !write && decide (h.comb.length < 64) && !(h.comb.any (Comb.full c m))
      let comb := (if write then (h.closeComb m).comb else h.comb) ++ (if lead then [(⟨m, c.cycle, [p], 1, true, none⟩ : Comb)] else [])
      some ({ h with comb := comb, queue := h.queue ++ [(⟨p, m, bits p.w.toNat 30 8, write, lead⟩ : OpenReq)] }.setCurrent, [])

/-- The code line of line `m`'s half row has to be fetched (R283). -/
def Chan.fetches (h : Chan) (m : Nat) : Bool :=
  !(h.calEcc.find (lpddrBank m) == some (lpddrBlock m) || h.openEcc.contains (lpddrBank m, lpddrBlock m))

/-- The slots an open access costs (R283). -/
def Chan.openCost (h : Chan) (q : OpenReq) : Nat :=
  (if q.write then (if q.mask = 255 then 2 else 3) else 1) + (h.fetches q.m).toNat

/-- The starts of `k` OPEN slots from slot start `t`, looking at `n` slots; the maintenance slot is none (R271). -/
def Chan.openSlots (c : Ctx) (h : Chan) : Nat → Nat → Nat → List Nat
  | 0, _, _ => []
  | _, 0, _ => []
  | n + 1, k + 1, t =>
    if frameSlot c t != 0 && !(h.isCal (frameSlot c t)) then t :: Chan.openSlots c h n k (t + 6) else Chan.openSlots c h n (k + 1) (t + 6)

/-- An open access of `k` slots to line `m` can start in the present cycle (R283). -/
def Chan.openFits (c : Ctx) (h : Chan) (m k : Nat) : Bool :=
  let t := c.cycle
  let j := frameSlot c t
  let t1 := t + 113 + 6 * k
  let b := lpddrBank m
  c.sidereal % 6 == 0 && j != 0 && !(h.isCal j) && decide (h.openEnd ≤ t) && !(h.bankMeets false b t t1) && !(refreshMeets c b t t1) &&
    (match h.calSlots c ((t1 - t) / 6 + 2) 1 t with | s :: _ => decide (t1 < s) | [] => true)

/-- The queued request can start in the present cycle. -/
def Chan.openStarts (c : Ctx) (h : Chan) (q : OpenReq) : Bool := h.openFits c q.m (h.openCost q)

/-- An open access of `k` slots to line `m` starts: its bank, its slots, and the code block that the port then holds (R283). -/
def Chan.openTake (c : Ctx) (m k : Nat) (h : Chan) : Chan :=
  let key := (lpddrBank m, lpddrBlock m)
  { h.occupy c.cycle (c.cycle + 113 + 6 * k) key.1 false with
    openEnd := (h.openSlots c (2 * k + 2) k c.cycle).getLastD c.cycle + 6
    openEcc := (key :: h.openEcc.filter (· != key)).take 16 }

/-- The request to serve: the oldest that can start, of those that no older request to the same line precedes (R282). -/
def Chan.openNext (c : Ctx) (h : Chan) : List Nat → List OpenReq → Option OpenReq
  | _, [] => none
  | older, q :: r => if !(older.contains q.m) && h.openStarts c q then some q else Chan.openNext c h (q.m :: older) r

/-- The entry led by a request gives its data to every member, in order (R285). -/
def Chan.completeComb (c : Ctx) (m : Nat) (d : Option (List Byte)) : List Comb → List Comb × List Out
  | [] => ([], [])
  | e :: r =>
    if e.m = m ∧ e.data = none then
      ({ e with data := some d, members := [] } :: r, e.members.map (fun p => Chan.answerRead c p d))
    else let q := Chan.completeComb c m d r
         (e :: q.1, q.2)

/-- OPEN_ACCESS (R283, R285, R287, R288): the oldest queued request whose bank can start now is served and answered. -/
def Chan.openAccess (c : Ctx) (err : BitVec 544) (code : Nat) (h : Chan) : Chan × List Out :=
  if ¬(h.st = .active ∨ h.st = .fenced) then (h, [])
  else match h.openNext c [] h.queue with
    | none => (h, [])
    | some q =>
      let h1 := { h.openTake c q.m (h.openCost q) with queue := h.queue.erase q }
      let d := h1.checks q.m (!q.write || q.mask != 255) (h.fetches q.m) err code
      let h2 := (h1.addWrap F.MEM_OPEN_COUNT.served 1).wr F.MEM_OPEN_QUEUE.current 0 h1.queue.length
      let h3 := if d.2 then h2.corrected c else h2
      let u := if d.1.isNone then h3.uncorrectable c q.m 1 (openSlot q.pkt) else (h3, [])
      if q.write then
        match d.1 with
        | none => (u.1, u.2 ++ [Chan.refuse c q.pkt 5 4])
        | some l => (h3.writeLine q.m 255 (maskLine q.mask l (padTo 64 q.pkt.data)), [Chan.respond c q.pkt 5 0 []])
      else if q.entry then
        let r := Chan.completeComb c q.m d.1 u.1.comb
        ({ u.1 with comb := r.1 }, u.2 ++ r.2)
      else (u.1, u.2 ++ [Chan.answerRead c q.pkt d.1])

/-- COMBINING_ENTRY_FREE (R285): entries 256 cycles old whose members are all answered are freed. -/
def Chan.combFree (c : Ctx) (h : Chan) : Chan :=
  { h with comb := h.comb.filter (fun e => !(decide (e.taken + 256 ≤ c.cycle) && e.data.isSome)) }

/-- LPDDR_REREAD (R430): the line of an earlier uncorrectable read is read twice again, in OPEN slots that the two reads and the fetch of
a code line that the port does not hold can take now: the line with the time of the earlier read, and whether both reads are clean or
correctable. The reads count no uncorrectable error of their own (DEDUCED, log entry 83). -/
def Chan.reread (c : Ctx) (err1 err2 : BitVec 544) (code : Nat) (h : Chan) : Chan × Option (Reread × Bool) :=
  match h.rereads with
  | [] => (h, none)
  | r :: rest =>
    let k := 2 + (h.fetches r.m).toNat
    if h.openFits c r.m k = false then (h, none)
    else
      let a := h.checks r.m true (h.fetches r.m) err1 code
      let b := h.checks r.m true false err2 0
      let h1 := { h.openTake c r.m k with rereads := rest }
      let h2 := if a.2 then h1.corrected c else h1
      (if b.2 then h2.corrected c else h2, some (r, a.1.isSome && b.1.isSome))

/-- MAINTENANCE_SLOT (R271, R294): in slot 0 the port reads MR4. `hot` says that it asks for more than twice the base
rate. An eclipsed port goes on with its maintenance. -/
def Chan.maintain (c : Ctx) (mr4 : Nat) (hot : Bool) (h : Chan) : Chan :=
  if (h.st = .active ∨ h.st = .fenced) ∧ frameSlot c c.cycle = 0 then
    let h1 := h.wr F.MEM_CH_STATE.mr4 0 mr4
    if hot then h1.flag c F.MEM_CH_STATUS.hot else h1
  else h

/-- PER_BANK_REFRESH (R272): bank `b` is refreshed in its window of the present frame. -/
def Chan.refresh (c : Ctx) (b : Nat) (h : Chan) : Chan :=
  if h.st ≠ .selfRefresh ∧ b < 32 ∧ refreshMeets c b c.cycle c.cycle then
    { h with refreshed := h.refreshed.set b (c.sidereal / 3840) }
  else h

/-! ### States (R290 to R293, R466) -/

/-- A reset of the channel begins (R293): queued requests, ECC and combining entries and the calendar's enable are lost (Table 14-1);
reads already accepted are finished and return, and a calendar request that arrives finds the channel not ACTIVE. A channel whose
training failed stays DISABLED (R290). -/
def Chan.toSelfRefresh (h : Chan) : Chan :=
  { h with
    st := (if h.rd F.MEM_CH_STATE.train_fail 0 ≠ 0 then h.st else .selfRefresh)
    queue := []
    comb := []
    calEcc := .empty
    openEcc := []
    closing := false
    eclipsedAt := none
    regs := (h.regs.wr F.MEM_CAL_CTRL.enable 0 0 0).wr F.MEM_OPEN_QUEUE.current 0 0 0 }

/-- CHANNEL_REACTIVATE (R293). -/
def Chan.reactivate (h : Chan) : Chan := if h.st = .selfRefresh then { h with st := .active } else h

/-- An eclipse of the channel (R292). -/
def Chan.eclipse (c : Ctx) (h : Chan) : Chan := if h.st = .active then { h with st := .fenced, eclipsedAt := some c.cycle } else h

/-- 100 µs into an eclipse every open request still queued gets its error (Table 14-3). -/
def Chan.drainEnds (c : Ctx) (h : Chan) : Chan × List Out :=
  let members := h.comb.filter (fun e => e.data.isNone) |>.flatMap (·.members)
  let alone := (h.queue.filter (fun q => !q.entry)).map (·.pkt)
  ({ h with queue := [], comb := h.comb.filter (fun e => e.data.isSome) }.setCurrent,
   (members ++ alone).map (fun p => Chan.refuse c p 5 5))

/-! ### Registers (R296) -/

/-- Slots of the table that a write stores: each a field of its own, reserved encodings keep the old one (R9). -/
def mergeSlots (old new : Nat) : Nat :=
  (List.range 32).foldl (fun a i => a + (if bits new (2 * i) 2 < 2 then bits new (2 * i) 2 else bits old (2 * i) 2) * 2 ^ (2 * i)) 0

def Chan.regWrite (c : Ctx) (r : Reg) (j : Nat) (a : Access) (h : Chan) : Chan :=
  match r with
  | .MEM_CAL_CTRL =>
    if a.hits F.MEM_CAL_CTRL.enable = false then h
    else
      let v := a.val F.MEM_CAL_CTRL.enable
      if v = 1 then
        if (c.mod = .ready ∨ c.mod = .joined) ∧ h.st = .active then
          if h.rd F.MEM_CAL_CTRL.enable 0 = 1 ∧ h.closing = false then h
          else { (h.wr F.MEM_CAL_CTRL.enable 0 1) with calEcc := .empty, openEcc := [], closing := false }
        else h.flag c F.MEM_CH_STATUS.cal_off
      else if h.rd F.MEM_CAL_CTRL.enable 0 = 1 then { h with closing := true } else h
  | .MEM_CAL_TABLE =>
    if h.rd F.MEM_CAL_CTRL.enable 0 = 1 then h.flag c F.MEM_CH_STATUS.cal_off
    else
      let old := h.rd F.MEM_CAL_TABLE.slots j
      let m := (2 ^ (8 * a.size) - 1) * 2 ^ (8 * a.off4)
      h.wr F.MEM_CAL_TABLE.slots j (mergeSlots old ((old - (old &&& m)) + a.word))
  | _ => { h with regs := h.regs.store r 0 j c.cycle a }

/-- CALENDAR_DISABLE_DONE (R296): the clear takes effect once no accepted read is outstanding. -/
def Chan.closeDone (h : Chan) : Chan :=
  if h.closing ∧ h.rets = [] then { (h.wr F.MEM_CAL_CTRL.enable 0 0) with closing := false } else h

def Chan.regRead (h : Chan) (r : Reg) (j : Nat) : Word :=
  BitVec.ofNat 64 (assemble r.fields (fun f => if f.id = F.MEM_CH_STATE.state.id then h.st.code else h.regs.seen f 0 j))

/-- What a read clears; max restarts from current (Table 8-15). -/
def Chan.regClear (r : Reg) (j off4 size : Nat) (h : Chan) : Chan :=
  let h1 : Chan := { h with regs := h.regs.readClear r 0 j off4 size }
  match r with
  | .MEM_OPEN_QUEUE => if F.MEM_OPEN_QUEUE.max.within off4 size then h1.wr F.MEM_OPEN_QUEUE.max 0 h1.queue.length else h1
  | _ => h1

end Sys2Proof.Machine
end

