-- ==== Sys2Proof/Machine/ModTypes.lean ====
section
/-! DEFINITION. The plain data of the module around its tiles and channels: fabric packets and ports (chapters 9 and 10),
host requests and mailbox commands (chapters 11 and 12), the log, the almanac and self-test (chapter 13), resets, eclipses
and the detector (chapter 14), conjunction and adoption (chapter 15) and power (chapter 16). Fields of registers that have
no home here are in the module's register file. -/
namespace Sys2Proof.Machine

/-! ### Fabric -/

/-- A fabric packet (R335): header bits 63:0 and 127:64, and its payload. -/
structure FPkt where
  lo : Word
  hi : Word
  data : List Byte
deriving DecidableEq, Repr

/-- The CRC-32C that a packet carries (R302): over its header and payload. -/
def FPkt.crc (p : FPkt) : BitVec 32 := BitVec.ofNat 32 (crc32c (leBytes 8 p.lo.toNat ++ leBytes 8 p.hi.toNat ++ p.data))

/-- A maintenance codeword (R301, R323): the time marker, a PARTNER_DARK notice, and of the parallax exchange (R313) the reply: the
marker count of the codeword that brought the partner's last probe, and the sender's turnaround in units of 1/64 cycle. The codeword
is itself the probe. -/
structure Maint where
  count : Nat
  role : Nat
  state : Nat
  depth : Nat
  dark : Bool
  reply : Option (Nat × Nat)
deriving DecidableEq, Repr

/-- What a port puts on its link. -/
inductive Wire where
  /-- a packet and its CRC (R302) -/
  | pkt (p : FPkt) (crc : BitVec 32)
  | maint (m : Maint)
  /-- a nova codeword (R364): job, origin, reason, start -/
  | nova (job eid reason start : Nat)
deriving DecidableEq, Repr

/-- An S packet in an elastic buffer (R316): the sidereal cycle of its delivery. -/
structure EPkt where
  t : Nat
  pkt : FPkt
deriving DecidableEq, Repr

/-- An EDGE_OUT flit that a port has from a home-row edge link (R349): the cycle it is taken, its row, the flit, and for
a forwarded packet (R353) that packet's header. -/
structure Taken where
  z : Nat
  row : Nat
  hdr : Word
  data : Line
  fwd : Option (Word × Word)
deriving DecidableEq, Repr

/-- A packet that an origin port is building on one row (R349): its send point in model cycles, the cycle of its last
flit, that flit's header, the packet being formed, whether it was discarded at its send point, and whether it is a forwarded
packet. -/
structure Build where
  s : Nat
  last : Nat
  hdr : Word
  pkt : FPkt
  dead : Bool
  fwd : Bool
deriving DecidableEq, Repr

/-- One fabric port (chapters 9 and 10). -/
structure Port where
  st : PortState
  /-- the cycle of the last TRAIN -/
  trainAt : Option Nat
  /-- a PARTNER_DARK notice goes out with the next maintenance codeword, and the port then darkens (Table 9-3) -/
  darkNotice : Bool
  /-- codewords received, and the numbers of the uncorrectable ones, newest first (R304) -/
  cw : Nat
  bad : List Nat
  /-- the cycle of the last marker, and whether its state was LOCKED or HOLDOVER (R317, Table 9-17) -/
  markerAt : Option Nat
  markerOk : Bool
  /-- parallax (R313, R319), in units of 1/64 cycle: the last two probes sent (marker count and time), the partner's last probe (marker
  count and time of arrival), and of this PARALLAX the number of exchanges and the sum of their round trips -/
  probes : List (Nat × Nat)
  probeIn : Option (Nat × Nat)
  trips : Nat
  tripSum : Nat
  /-- a packet that began in the last codeword and goes on in the next: whether that codeword was uncorrectable, and the sidereal
  cycle in which its head was complete (R302, R317) -/
  part : Option (Bool × Option Nat)
  elastic : List EPkt
  taken : List Taken
  build : Tab Nat Build
  /-- send points in use (R350) -/
  pts : List Nat
  /-- M packets received and not yet acted on -/
  rxM : List FPkt
  txC : List FPkt
  txM : List FPkt
  /-- credited packets sent and the partner's last cumulative returns, C and M (R355) -/
  sentC : Nat
  sentM : Nat
  retC : Nat
  retM : Nat
  /-- cumulative credits this port has returned, and whether some are not yet announced -/
  freedC : Nat
  freedM : Nat
  creditDue : Bool
  /-- the last maintenance period in which a CREDIT was sent -/
  creditPeriod : Nat
  /-- draining (R345): since when, and the notices sent and received -/
  drainAt : Option Nat
  noticeOut : Bool
  noticeIn : Bool
  /-- the cycle of the partner's last DISCOVER, and of this port's last one; whether one is due -/
  nbrAt : Option Nat
  discAt : Nat
  discDue : Bool
  /-- the multiple of 20,480 of the last maintenance codeword sent -/
  maintAt : Option Nat
deriving DecidableEq, Repr

def Port.reset : Port :=
  { st := .dark, trainAt := none, darkNotice := false, cw := 0, bad := [], markerAt := none, markerOk := false, probes := [],
    probeIn := none, trips := 0, tripSum := 0, part := none, elastic := [],
    taken := [], build := .empty, pts := [], rxM := [], txC := [], txM := [], sentC := 0, sentM := 0, retC := 0, retM := 0,
    freedC := 0, freedM := 0, creditDue := false, creditPeriod := 0, drainAt := none, noticeOut := false, noticeIn := false,
    nbrAt := none, discAt := 0, discDue := false, maintAt := none }

/-- A control packet at a port die (R356): the die's column, the row it came by, the port it arrived on (none: from
Vesper), and the packet. -/
structure RouteItem where
  x : Nat
  y : Nat
  from_ : Option Nat
  pkt : FPkt
deriving DecidableEq, Repr

/-- A message being reassembled at a port die (R358): the die's column, the port, the cycle in which its first fragment came, that
fragment's header without its fragment number, and the fragments that are there, by number. -/
structure Reasm where
  x : Nat
  port : Nat
  first : Nat
  lo : Word
  hi : Word
  parts : List (Nat × List Byte)
deriving DecidableEq, Repr

/-- What a module knows of one global barrier index (R360, R361): whether its local root has arrived and when, the
children's arrivals (port, cycle received, combined digest, EID), the accumulator (R433), the releases so far, and the
pending release with the cycle of its signal. -/
structure GBar where
  local_ : Option Nat
  kids : List (Nat × Nat × Word × Nat)
  acc : Word
  episode : Nat
  arrivedUp : Bool
  signal : Option Nat
deriving DecidableEq, Repr

def GBar.reset : GBar := { local_ := none, kids := [], acc := 0, episode := 0, arrivedUp := false, signal := none }

/-! ### Host -/

/-- A completion of a host read (Table 11-4). -/
inductive Cpl where
  | data (l : List Byte)
  | unsupported
  | abort
deriving DecidableEq, Repr

/-- One line or packet of a host request in the mesh: its tag, channel and line (none: a scratchpad packet), the bytes it
covers within the line, the bytes to write, whether it still reads a group to merge (R375), and the bytes read. -/
structure HPart where
  tag : Nat
  line : Option (Nat × Nat)
  off : Nat
  len : Nat
  wr : List Byte
  merging : Bool
  done : Bool
  got : List Byte
deriving DecidableEq, Repr

/-- A host request not yet completed (R372, R373): its number, its window (0 CTL, 2 APR), whether it writes, its offset,
the cycle it entered, its parts, and the status of an ERROR answer. -/
structure HReq where
  id : Nat
  win : Nat
  write : Bool
  offset : Nat
  at_ : Nat
  parts : List HPart
  failed : Option Nat
deriving DecidableEq, Repr

/-- An SPDM answer (R417 to R419), by its content; the message framing is SPDM's own. -/
inductive Spdm where
  | version (major minor : Nat)
  | capabilities (cert chal meas : Bool)
  | algorithms (sig hash : Nat)
  | digests (d : List Byte)
  | certificate (offset : Nat) (l : List Byte)
  | challenge (index : Nat) (nonce sig : List Byte)
  | measurements (l : List (List Byte)) (index : Option Nat) (sig : List Byte)
  /-- VendorDefined error with a status of Table 0-5, and the exhaustion statement that goes with KEY_EXHAUSTED -/
  | error (status : Nat) (statement : List Byte)
  | unsupportedRequest
deriving DecidableEq, Repr

/-- What the module has put on its outside interfaces, oldest first. -/
inductive Sent where
  | wire (port : Nat) (w : Wire)
  | vector (v : Nat)
  | completion (id : Nat) (c : Cpl)
  /-- the answer to a vendor-defined message (R395) -/
  | vendor (status : Nat) (v : Word)
  | spdm (a : Spdm)
  /-- the MCTP error response for an unsupported message type (R394) -/
  | unsupported (typ : Nat)
deriving DecidableEq, Repr

/-- A command taken from a mailbox (R386). -/
structure Cmd where
  k : Nat
  code : Nat
  seq : Nat
  sender : Nat
  len : Nat
  args : List Byte
  taken : Nat
deriving DecidableEq, Repr

/-- A reply that waits for its mailbox's lock (R386). -/
structure Reply where
  cmd : Cmd
  status : Nat
  body : List Byte
deriving DecidableEq, Repr

/-- Commands that do not end at once. -/
inductive Task where
  | reset
  | fence (dom idx : Nat)
  | unfence
  | conjunction
  | adopt
deriving DecidableEq, Repr

/-- A command in progress (R387). -/
structure Prog where
  cmd : Cmd
  task : Task
deriving DecidableEq, Repr

/-! ### Resets, eclipses, detector -/

/-- A reset in progress (R457 to R463): its domain and index, the cycle it began, the command that asked and the status
its reply will carry. -/
structure Rst where
  dom : Nat
  idx : Nat
  began : Nat
  cmd : Option Cmd
  status : Nat
deriving DecidableEq, Repr

/-- An eclipse (R466): its domain and index, when it began, and whether its drain has ended. -/
structure Ecl where
  dom : Nat
  idx : Nat
  began : Nat
  drained : Bool
deriving DecidableEq, Repr

/-- The detector master's copy of a publication record (R231). -/
structure Pub where
  word : Nat
  since : Nat
  st : TileState
  hang : Bool
deriving DecidableEq, Repr

/-- What the detector remembers between evaluations (R478 to R480): the sidereal cycle of its last evaluation, the hung set it
found and the waits of R479 (tile, kind with object, since), the sets already reported under each of the two, and the tiles whose
lattice hang is reported. -/
structure Detector where
  last : Nat
  found : List (Nat × Nat × Nat)
  all : List (Nat × Nat × Nat)
  told : List (List (Nat × Nat × Nat))
  toldAll : List (List (Nat × Nat × Nat))
  lattice : List Nat
deriving DecidableEq, Repr

def Detector.reset : Detector := { last := 0, found := [], all := [], told := [], toldAll := [], lattice := [] }

/-! ### Self-test -/

/-- An almanac entry (R450). `phys` is the physical tile that an entry of a tile position is about, as the column assignment had it when
the entry was made: firmware knows it when it applies the entries in their order (R24); it is no byte of the entry's layout. -/
structure Alm where
  phys : Option Nat
  typ : Nat
  cls : Nat
  count : Nat
  hours : Nat
  unit : List Nat
  kind : Nat
  s0 : Word
  s1 : Word
  s2 : Word
  s3 : Word
deriving DecidableEq, Repr

/-- A region test of a tile's background engine (R445): the region, the cycle it began, the lines copied into the shadow, whether its
accesses are redirected, the lines restored once the march has ended, and whether it is held (R447). -/
structure BgTest where
  region : Nat
  began : Nat
  copied : Nat
  redirected : Bool
  restored : Option Nat
  held : Bool
deriving DecidableEq, Repr

/-! ### Fleet -/

/-- A conjunction (R489 to R492). -/
structure Conj where
  cmd : Cmd
  role : Nat
  port : Nat
  episodes : Nat
  peer : Nat
  start : Nat
  running : Bool
  done : Nat
  /-- what index 31 held before: RTE_GBAR, and TIL_PUL_BAR by tile -/
  gbar : Nat
  bars : List (Nat × Nat)
deriving DecidableEq, Repr

/-- An adoption (R493 to R500): its command and payload; the step of Table 15-3 it is in; whether the ports met their deadline;
the copy attempt in progress or last made, and whether it copies; the sidereal cycle of the next attempt; the cycle of the
last copy packet, and the lines moved in the attempt. -/
structure Adopt where
  cmd : Cmd
  role : Nat
  port : Nat
  eid : Nat
  partner : Nat
  start : Nat
  src : Nat
  dst : Nat
  len : Nat
  lat : List Nat
  step : Nat
  ready : Bool
  copying : Bool
  attempt : Nat
  next : Nat
  lastAt : Nat
  lines : Nat
deriving DecidableEq, Repr

/-! ### Power -/

/-- The pins, rails and sensors of chapter 16. -/
structure Power where
  pwrEn : Bool
  perstN : Bool
  /-- the input lies between 40 V and 60 V -/
  inputOk : Bool
  /-- the cycle from which the sense contact has been mated for 50 ms (R523) -/
  senseAt : Option Nat
  railsOn : Bool
  /-- the rails are latched off until PWR_EN goes low (R510, R520) -/
  latched : Bool
  /-- the module is dark until PERST_N falls or power goes (R465) -/
  dead : Bool
  faultN : Bool
  thermtripN : Bool
  /-- SLOT_ID pins -/
  slotPins : Nat
  /-- warnings that hold now, by code, with the threshold that was met; emergencies that hold now, by code, with the unit
  each began on (R513) -/
  warn : List (Nat × Nat)
  emerg : List (Nat × Nat)
  /-- the last millisecond and the last ten milliseconds of the sidereal count at which the level changed -/
  lastMs : Nat
  lastTenMs : Nat
  /-- PLDM thresholds, upper and lower, and readings by sensor (R396) -/
  pldmHigh : Tab Nat Int
  pldmLow : Tab Nat Int
  pldm : Tab Nat Nat
deriving DecidableEq, Repr

def Power.reset : Power :=
  { pwrEn := true, perstN := true, inputOk := true, senseAt := some 0, railsOn := true, latched := false, dead := false,
    faultN := true, thermtripN := true, slotPins := 0, warn := [], emerg := [], lastMs := 0, lastTenMs := 0,
    pldmHigh := .empty, pldmLow := .empty, pldm := .empty }

/-- The security engine and the identity key (R413 to R421), apart from the SEC registers: whether the identity seed is in the
engine, the count of attestation signatures issued, the stored copy of the last signed exhaustion statement (both non-volatile:
DESIGN CHOICE, log entry 49), and the cycle of a scan instruction whose eclipse is to come. -/
structure Sec where
  seed : Bool
  issued : Nat
  statement : List Byte
  scanAt : Option Nat
deriving DecidableEq, Repr

end Sys2Proof.Machine
end

