-- ==== Sys2Proof/Machine/State.lean ====
section
/-! DEFINITION. The state of the whole N48 module, and the module right after a cold reset. -/
namespace Sys2Proof.Machine

/-- What stops the machine. No rule of the spec stops the module as a whole, so there is no fault: every error of the spec
is an effect on State (a status bit, an error record, an answer). -/
inductive Fault where
deriving DecidableEq, Repr

/-- A command that the model does not run. -/
inductive Refusal where
  /-- Raised by an arm of exec whose command has no meaning yet, by its mnemonic; safe. -/
  | notModelled (mnemonic : String)
deriving DecidableEq, Repr

/-- One copy of the boot record (R398): the firmware slot it names, the active configuration bank (0 A, 1 B, 3 NONE), its
write count, and whether its digest holds. -/
structure BootCopy where
  slot : Nat
  bank : Nat
  count : Nat
  valid : Bool
deriving DecidableEq, Repr

structure State where
  /-- tile clock cycles that the model has run (R3; cold resets do not set it back), and the sidereal count (R322) -/
  cycle : Nat
  sidereal : Nat
  /-- the module's state (R16) -/
  st : ModState
  /-- fields of the registers of every block but those kept in a tile or a channel, by field, unit and index -/
  regs : RegFile
  tiles : Tab Nat Tile
  /-- by tile, the Observatory cycle in which its state last changed, and the state before (R105) -/
  tileWas : Tab Nat (Nat × TileState)
  chans : Tab Nat Chan
  ports : Tab Nat Port
  /-- Meridian: flits in or on their way to a router, landings on their way to a bank -/
  flits : List Flit
  landings : List Landing
  /-- Vesper: packets in the mesh, oldest first, and packets ejected and not yet acted on -/
  pkts : List VPkt
  inbox : List VPkt
  /-- Vesper's routers: what each output of each position remembers (R219), and the credits on their way back: position and input of
  the buffer, virtual channel, and the cycle in which the flit left (R218) -/
  vout : Tab (Nat × Nat) VOut
  vcred : List (Nat × Nat × Nat × Nat)
  /-- accesses of the rack controller in the mesh: request tag and cycle (R222, R395) -/
  vend : List (Nat × Nat)
  /-- releases of barrier trees: root tile and index to the cycle in which the root sends its release (R227) -/
  barRel : Tab (Nat × Nat) Nat
  /-- Pulsar: the cycles in which the fault line was driven and not yet seen (R232), and the cycle in which the abort line
  was driven (R233) -/
  faults : List Nat
  abortAt : Option Nat
  /-- the wait-graph detector's copies of the publication records, and its memory -/
  pubs : Tab Nat Pub
  det : Detector
  /-- column assignment (R23): the skipped physical row of a column of a die, counted from the memory edge (24 is the
  spare), the physical tiles whose routers have failed (R27, R214; no reset mends them), and tiles whose column change is pending
  (R464) -/
  skip : Tab (Nat × Nat) Nat
  routerFailed : List Nat
  /-- fused at manufacture: the physical tiles with defects, in their order of failure, and the repairs, by physical tile, sub-bank and
  column (R23, R24, R399) -/
  fusedDefects : List Nat
  fusedRepairs : List (Nat × Nat × Nat)
  pendingRemap : List Nat
  /-- control packets at the port dies, fragments that wait there until their message can take consecutive places of a port's queue
  (R358), fragments for this module, and messages being reassembled -/
  routeQ : List RouteItem
  gather : List RouteItem
  frags : List RouteItem
  reasm : List Reasm
  gbar : Tab Nat GBar
  /-- the window of counted episodes, newest first: whether each named this module (R486) -/
  rank : List Bool
  /-- time: the port to which an ACQUIRING child has locked its frequency, and the cycle HOLDOVER began -/
  freqPort : Option Nat
  holdAt : Option Nat
  /-- the clock's phase (R324, R328): how far the edges of the module's cycles have been shifted, in units of 1/64 cycle -/
  phase : Int
  /-- a start of this very cycle: the cycle, and the tiles that it released as they were before it (R39) -/
  started : Option (Nat × List (Nat × Tile))
  /-- the job: whether a tile has entered FENCED in it, the cycle of the last S delivery, the cycle DRAINING began -/
  jobFenced : Bool
  lastS : Nat
  drainBegan : Nat
  /-- host requests in the mesh, oldest first, and the next request number -/
  host : List HReq
  hostNext : Nat
  /-- MSI-X table words and pending bits -/
  msix : Tab Nat Word
  pba : Nat
  /-- what the module has put on its outside interfaces, oldest first -/
  sent : List Sent
  /-- mailbox payloads: mailbox k's byte o at k × 0x1000 + o -/
  mbx : Mem
  /-- the last Observatory cycle in which the mailbox block handled an access, and the highest source handled in it (R383) -/
  mbxTurn : Nat × Nat
  replies : List Reply
  prog : List Prog
  /-- boot: whether the boot sequence is due (R399), the boot record's two copies, the NOR flash outside it and the
  almanac, and the security engine -/
  bootReady : Bool
  boot : List BootCopy
  flash : Mem
  sec : Sec
  /-- error records on their way, in the queue, and in the volatile log (oldest first) -/
  recs : List Rec
  logQ : List Rec
  log : List Rec
  /-- the last Observatory cycle in which a record reached the queue, and how many did in it (R425) -/
  logNew : Nat × Nat
  /-- the almanac's active half and its entries, and entries waiting to be written; power-on hours before this power-on -/
  almHalf : Nat
  almanac : List Alm
  almQ : List Alm
  hours : Nat
  /-- chunks written since the last erase (R411, R412, R442): by region (0 and 1 the banks, 2 and 3 the firmware slots, 4
  and 5 the test content slots), offset and length -/
  chunks : Tab Nat (List (Nat × Nat))
  /-- transits: open windows, tiles that are due and tiles that are urgent (both in order), tiles in transit with a save
  slot, and each tile's last due time -/
  windows : List Nat
  due : List Nat
  urgent : List Nat
  saves : List Nat
  dueAt : Tab Nat Nat
  /-- tiles whose checksum failure in RUNNING the Observatory has not yet answered (R429) -/
  chk : List Nat
  /-- background test by tile: the test in progress or held, the next region, and the cycle of the last start; sweeps done -/
  bg : Tab Nat BgTest
  bgNext : Tab Nat Nat
  bgAt : Tab Nat Nat
  bgSweeps : Tab Nat Nat
  /-- soft repairs in use and repairs that a tile's next reset applies: tile, 16 × bank + sub-bank, column -/
  repairs : List (Nat × Nat × Nat)
  newRepairs : List (Nat × Nat × Nat)
  resets : List Rst
  ecl : List Ecl
  conj : Option Conj
  adopt : Option Adopt
  pwr : Power
  /-- command mailbox to the Observatory cycle of its last post (R387) -/
  postAt : Tab Nat Nat
  /-- tile clock cycles gated by throttling since the cold reset (Table 16-14) -/
  gated : Nat
  /-- count of free values used (the model's own field, log entry 7) -/
  fresh : Nat
  /-- commands waiting, first in first out (the model's own field) -/
  pending : List Instr
deriving DecidableEq, Repr

/-- The module register file at reset: the Reset columns (Table 11-17 gives
OBS_APR_SEG's by segment), and for "Fused" fields the values that log entries 3 and 4 name. -/
def resetRegs : RegFile :=
  let r0 := ((RegFile.empty.wr F.RTE_SERIAL.serial 0 0 1).wr F.SEC_FUSE.programmed 0 0 1).wr F.PWR_CORE.setpoint 0 0 750
  let r1 := deliveredKeyHash.zipIdx.foldl (fun r p => r.wr F.SEC_KEY_HASH.hash 0 p.2 p.1) r0
  (List.range 4).foldl (fun r s => (r.wr F.OBS_APR_SEG.base 0 s (16 * s)).wr F.OBS_APR_SEG.space 0 s (if s = 3 then 2 else 1)) r1

/-- The module at the end of a cold reset, before boot step 1 (R322, R399, R457, R459). -/
def State.reset : State :=
  { cycle := 0, sidereal := 0, st := .dark, regs := resetRegs, tiles := .empty, tileWas := .empty, chans := .empty, ports := .empty, flits := [],
    landings := [], pkts := [], inbox := [], vout := .empty, vcred := [], vend := [], barRel := .empty, faults := [], abortAt := none, pubs := .empty, det := .reset,
    skip := .empty, routerFailed := [], fusedDefects := [], fusedRepairs := [], pendingRemap := [], routeQ := [], gather := [], frags := [], reasm := [], gbar := .empty, rank := [],
    freqPort := none, holdAt := none, phase := 0, started := none, jobFenced := false, lastS := 0, drainBegan := 0, host := [], hostNext := 0,
    msix := .empty, pba := 0, sent := [], mbx := [], mbxTurn := (0, 0), replies := [], prog := [], bootReady := true,
    boot := [⟨0, 0, 0, true⟩, ⟨0, 0, 0, true⟩], flash := deliveredFlash,
    sec := { seed := true, issued := 0, statement := [], scanAt := none }, recs := [], logQ := [], log := [], logNew := (0, 0), almHalf := 0, almanac := [],
    almQ := [], hours := 0, chunks := (Tab.empty.set 0 [(0, 64)]).set 2 [(0, 4096)], windows := [], due := [], urgent := [], saves := [], dueAt := .empty, chk := [], bg := .empty, bgNext := .empty,
    bgAt := .empty, bgSweeps := .empty, repairs := [], newRepairs := [], resets := [], ecl := [], conj := none, adopt := none,
    pwr := .reset, postAt := .empty, gated := 0, fresh := 0, pending := [] }

/-- The outcome of a command. -/
abbrev Ans := Host.Outcome State Fault Refusal

end Sys2Proof.Machine
end

