-- ==== Sys2Proof/Machine/Ops.lean ====
section
/-! DEFINITION. The named operations over the module's state: register fields, units, the mesh's geometry and link costs
(R22 to R25, R214), error records on their way (R422), packets and flits handed to the networks, interrupts (R392),
changes of module, port and time state, and the module eclipse with its nova (R363 to R365, R468, R469). -/
namespace Sys2Proof.Machine

/-! ### Register fields of the module -/

def State.rd (s : State) (f : Fld) (i j : Nat) : Nat := s.regs.rd f i j
def State.wr (f : Fld) (i j v : Nat) (s : State) : State := { s with regs := s.regs.wr f i j v }
def State.addSat (f : Fld) (i j n : Nat) (s : State) : State := { s with regs := s.regs.addSat f i j n }
def State.addWrap (f : Fld) (i j n : Nat) (s : State) : State := { s with regs := s.regs.addWrap f i j n }
/-- Hardware sets bits of a W1C field (R10). -/
def State.flag (again f : Fld) (i j m : Nat) (s : State) : State := { s with regs := s.regs.hwSet again f i j s.cycle m }
/-- A register of the module as it stands in the register file. -/
def State.regWord (s : State) (r : Reg) (i j : Nat) : Word := BitVec.ofNat 64 (assemble r.fields (fun f => s.rd f i j))

def State.put (x : Sent) (s : State) : State := { s with sent := s.sent ++ [x] }
def State.mapIf (b : Bool) (f : State → State) (s : State) : State := if b then f s else s

/-! ### Units -/

def State.tile (s : State) (t : Nat) : Tile := s.tiles.get t .reset
def State.setTile (t : Nat) (x : Tile) (s : State) : State := { s with tiles := s.tiles.set t x }
def State.chan (s : State) (ch : Nat) : Chan := s.chans.get ch .reset
def State.setChan (ch : Nat) (x : Chan) (s : State) : State := { s with chans := s.chans.set ch x }
def State.port (s : State) (n : Nat) : Port := s.ports.get n .reset
def State.setPort (n : Nat) (x : Port) (s : State) : State := { s with ports := s.ports.set n x }
def State.gb (s : State) (i : Nat) : GBar := s.gbar.get i .reset
def State.setGb (i : Nat) (x : GBar) (s : State) : State := { s with gbar := s.gbar.set i x }

def allTiles : List Nat := List.range 2304
def allChans : List Nat := List.range 96
def allPorts : List Nat := List.range 16

/-- The physical channels in service, ascending (R268). -/
def State.chansIn (s : State) : List Nat :=
  allChans.filter (fun ch => bits (if ch < 64 then s.rd F.MEM_GLB_ENABLE_LO.enable 0 0 else s.rd F.MEM_GLB_ENABLE_HI.enable 0 0)
    (ch % 64) 1 == 1)

def State.job (s : State) : Nat := s.rd F.GLB_JOB.job 0 0
def State.eid (s : State) : Nat := s.rd F.RTE_SELF.eid 0 0
/-- A start is accepted and its start cycle has not come (R39). -/
def State.startPending (s : State) : Bool := s.rd F.GLB_MODULE_STATE.start_pending 0 0 == 1
/-- The module is RUNNING or a start is pending. -/
def State.inJob (s : State) : Bool := s.st == .running || s.startPending

/-- At level t the tiles' sequencers, lattices and stream engines are gated for t cycles in every 16 (R517, Table 16-14). Which t of the
16 the spec does not say: the first t, by the cycle count (DESIGN CHOICE, log entry 77). -/
def State.gatedNow (s : State) : Bool := decide (s.cycle % 16 < s.rd F.PWR_THROTTLE.level 0 0)

/-- What a unit's command reads of the module. -/
def State.ctx (s : State) (t : Nat) : Ctx :=
  { cycle := s.cycle, sidereal := s.sidereal, tile := t, mod := s.st, job := s.job, chans := s.chansIn,
    windowOpen := s.windows.contains t, lands := s.landings.filter (fun l => l.tile == t), gated := s.gatedNow, fresh := s.fresh
    stSeen := match s.tileWas.find t with
      | some (o, st) => if o = s.cycle / 4 then some st else none
      | none => none }

/-! ### Geometry (R21 to R25, R30, R31, R214) -/

/-- Rows from the memory edge of a logical row. -/
def edgeRow (y : Nat) : Nat := if y < 24 then y else 47 - y
/-- The physical row, counted from the memory edge, that holds a logical position (R23). -/
def State.physRow (s : State) (x y : Nat) : Nat :=
  let e := edgeRow y
  if e < s.skip.get (tileDie (y * 48 + x), x % 24) 24 then e else e + 1
/-- A physical tile, by die, column and row from the memory edge; the spare included. -/
def State.physTile (s : State) (t : Nat) : Nat := tileDie t * 600 + t % 24 * 25 + s.physRow (t % 48) (t / 48)
/-- GLB_DIST.router_failed: only a vacancy under R27 whose routers have failed is marked (R214). Of a column's first failure the spec does
not say what shows until its pending change is made: it shows no failure (DESIGN CHOICE, log entry 78). -/
def State.failedAt (s : State) (x y : Nat) : Bool :=
  let t := y * 48 + x
  !s.routerFailed.isEmpty && (s.tile t).vacant && !(s.pendingRemap.contains t) && s.routerFailed.contains (s.physTile t)

/-- The cost of the link east of (x, y): 0 no link, 3 unreachable (Table 6-6). -/
def State.eastCost (s : State) (x y : Nat) : Nat :=
  if 47 ≤ x then 0
  else if s.failedAt x y || s.failedAt (x + 1) y then 3
  else if s.physRow x y = s.physRow (x + 1) y then 1 else 2

/-- The cost of the link south of (x, y). -/
def State.southCost (s : State) (x y : Nat) : Nat :=
  if 47 ≤ y then 0
  else if s.failedAt x y || s.failedAt x (y + 1) then 3
  else if y = 23 then 1
  else if s.physRow x y + 1 = s.physRow x (y + 1) ∨ s.physRow x (y + 1) + 1 = s.physRow x y then 1 else 2

/-- The neighbour in a direction: 1 west, 2 north, 3 east, 4 south (Table 6-1), with the cost of the link; none at the
mesh's edge. -/
def State.neighbour (s : State) (x y dir : Nat) : Option (Nat × Nat × Nat) :=
  match dir with
  | 1 => if x = 0 then none else some (x - 1, y, s.eastCost (x - 1) y)
  | 2 => if y = 0 then none else some (x, y - 1, s.southCost x (y - 1))
  | 3 => if 47 ≤ x then none else some (x + 1, y, s.eastCost x y)
  | 4 => if 47 ≤ y then none else some (x, y + 1, s.southCost x y)
  | _ => none

/-- The input of the next router that the link in a direction leads to. -/
def inputOf (dir : Nat) : Nat := match dir with | 1 => 3 | 2 => 4 | 3 => 1 | _ => 2

/-- The path cost of a row from its west to its east end, or of part of it (R215); unreachable links count 3. -/
def State.rowCost (s : State) (y : Nat) : Nat := ((List.range 47).map (fun x => s.eastCost x y)).sum

/-- The port whose home rows include a row on a side (R31). -/
def homePort (x y : Nat) : Nat := if x < 24 then y / 6 else 8 + y / 6
/-- The x of a port's side. -/
def portX (n : Nat) : Nat := if n < 8 then 0 else 47

/-! ### Error records (R422, R425) -/

/-- The junction sensor nearest a tile position (Table 16-4). -/
def tileSensor (t : Nat) : Nat := 8 * tileDie t + t % 48 % 24 / 3

/-- The router input and output of an endpoint: 0 tile, 5 memory port, 6 port die, 7 Observatory. -/
def epPort (ep : Nat) : Nat := match ep with | 0 => 0 | 1 => 5 | 2 => 6 | _ => 7

/-- A packet handed to Vesper at (x, y) by the endpoint `from_` there: its head flit is ready to leave after 4 cycles, each data flit one
cycle behind the flit before it (R223). -/
def State.send (x y from_ dx dy ep vc op src rtag : Nat) (w : Word) (data : List Byte) (rx ry rep : Nat) (s : State) : State :=
  let n := (data.length + 15) / 16
  let p : VPkt := {
    x := x, y := y, worm := [⟨x, y, epPort from_, (List.range (n + 1)).map (fun k => s.cycle + 4 + k)⟩], gone := 0, ready := s.cycle + 4,
    dx := dx, dy := dy, ep := ep, vc := vc, op := op, len := n, src := src, rtag := rtag, w := w, data := data, rx := rx, ry := ry,
    rep := rep, sent := s.cycle, rec_ := none }
  { s with pkts := s.pkts ++ [p] }

/-- A record as its raiser's place and the module fill it (R422). -/
def State.recOf (kind unitType die unitIndex x y op sensor mv : Nat) (s0 s1 s2 s3 : Word) (rept flags status : Nat) (s : State) : Rec :=
  { time := s.sidereal, seq := 0, kind := kind, unitType := unitType, die := die, unitIndex := unitIndex, x := x, y := y,
    op := op, temp := s.rd F.PWR_TEMP.temp 0 sensor, mv := mv, s0 := s0, s1 := s1, s2 := s2, s3 := s3, rept := rept,
    flags := flags, count := 1, job := s.job, status := status }

/-- A record of a port die or of the Observatory: it is at the Observatory's endpoint. -/
def State.addRec (kind unitType die unitIndex x y op sensor mv : Nat) (s0 s1 s2 s3 : Word) (rept flags status : Nat)
    (s : State) : State :=
  { s with recs := s.recs ++ [s.recOf kind unitType die unitIndex x y op sensor mv s0 s1 s2 s3 rept flags status] }

/-- A record of a unit of a tile die travels on Vesper from its position, entering by the endpoint `from_`, to the Observatory's endpoint
at (0, 47) (R222). DESIGN CHOICE: as a packet of op REG_WR on VC 0 with the record's 64 bytes as its data; the spec names no op for it
(log entry 20). -/
def State.sendRec (from_ : Nat) (r : Rec) (s : State) : State :=
  let n := 4
  let p : VPkt := {
    x := r.x, y := r.y, worm := [⟨r.x, r.y, epPort from_, (List.range (n + 1)).map (fun k => s.cycle + 4 + k)⟩], gone := 0,
    ready := s.cycle + 4, dx := 0, dy := 47, ep := 3, vc := 0, op := 1, len := n, src := 0x1000 + r.x + 48 * r.y, rtag := 0, w := 0,
    data := [], rx := r.x, ry := r.y, rep := 0, sent := s.cycle, rec_ := some r }
  { s with pkts := s.pkts ++ [p] }

def State.coreMv (s : State) : Nat := s.rd F.PWR_CORE.voltage 0 0
def State.ioMv (s : State) : Nat := s.rd F.PWR_RAIL.voltage 0 1
def State.obsMv (s : State) : Nat := s.rd F.PWR_RAIL.voltage 0 5

/-- A record of a tile position. -/
def State.tileRec (t kind unitType unitIndex op : Nat) (s0 s1 s2 s3 : Word) (rept flags status : Nat) (s : State) : State :=
  s.sendRec 0 (s.recOf kind unitType (tileDie t) unitIndex (t % 48) (t / 48) op (tileSensor t) s.coreMv s0 s1 s2 s3 rept flags status)

/-- A record of a memory port: its position is that of the tile it lies beside. -/
def State.chanRec (ch kind op : Nat) (s0 s1 s2 : Word) (flags : Nat) (s : State) : State :=
  let t := chanY ch * 48 + chanX ch
  s.sendRec 1 (s.recOf kind 9 (tileDie t) ch (t % 48) (t / 48) op (tileSensor t) s.ioMv s0 s1 s2 0 0 flags 0)

/-- A record of a fabric port. -/
def State.portRec (n kind : Nat) (s0 s1 s2 : Word) (flags : Nat) (s : State) : State :=
  s.addRec kind 10 (if n < 8 then 4 else 5) n 0xFF 0xFF 0 (if n < 8 then 32 + n / 4 else 34 + (n - 8) / 4) s.ioMv s0 s1 s2 0 0 flags 0

/-- A record of the Observatory or of the module as a whole. -/
def State.obsRec (kind unitType unitIndex op : Nat) (s0 s1 s2 s3 : Word) (rept flags status : Nat) (s : State) : State :=
  s.addRec kind unitType (if unitType = 0 then 0xFF else 6) unitIndex 0xFF 0xFF op 36 s.obsMv s0 s1 s2 s3 rept flags status

/-- The record of a command refused in its state (R13): s0 its code or register offset. -/
def State.refusedRec (op : Nat) (s : State) : State := s.obsRec 0x40 11 0 (op % 65536) (BitVec.ofNat 64 op) 0 0 0 0 0 1

/-- Drive the Pulsar fault line (R232). -/
def State.drive (s : State) : State := { s with faults := s.faults ++ [s.cycle] }

/-! ### Interrupts (R392) -/

/-- A word of the MSI-X table; every vector is masked until the host unmasks it (PRESUMED, log entry 14). -/
def State.msixWord (s : State) (k : Nat) : Word := s.msix.get k (if k % 2 = 1 then 0x100000000 else 0)

/-- Signal a vector, or leave it pending while it is masked. -/
def State.signal (v : Nat) (s : State) : State :=
  if bits (s.msixWord (2 * v + 1)).toNat 32 1 = 1 then { s with pba := setBit s.pba v } else s.put (.vector v)

/-- An event of Table 11-16: its bit, and its vector if enabled. -/
def State.irq (b : Nat) (s : State) : State :=
  let s1 := s.flag F.OBS_IRQ_STATUS.again_count F.OBS_IRQ_STATUS.cause 0 0 (2 ^ b)
  if bits (s1.rd F.OBS_IRQ_EN.enable 0 0) b 1 = 1 then s1.signal b else s1

/-! ### Vesper packets -/

/-- The source number of a tile (Table 11-5). -/
def tileSrc (t : Nat) : Nat := 0x1000 + t

/-- A CHAN_MSG's op-specific bytes (Table 7-1). -/
def chanWord (queue sendIndex len : Nat) (remote : Bool) (eid : Nat) : Word :=
  BitVec.ofNat 64 (queue + sendIndex * 2 ^ 6 + len * 2 ^ 12 + remote.toNat * 2 ^ 25 + eid * 2 ^ 26)

/-- A channel reply's op-specific bytes (Table 7-2). -/
def replyWord (code sendIndex returned : Nat) : Word :=
  BitVec.ofNat 64 (code + sendIndex * 2 ^ 2 + returned * 2 ^ 8 + 2 ^ 63)

/-- A fabric header's bits 63:0 (Table 10-1). -/
def fabLo (cls cast dst src job hops len op : Nat) : Word :=
  BitVec.ofNat 64 (cls % 4 + cast % 4 * 2 ^ 2 + dst % 2 ^ 14 * 2 ^ 4 + src % 2 ^ 14 * 2 ^ 18 + job % 2 ^ 12 * 2 ^ 32 +
    hops % 2 ^ 6 * 2 ^ 44 + len % 2 ^ 5 * 2 ^ 50 + op % 2 ^ 4 * 2 ^ 60)

/-- A CHAN_MSG's header bits 127:64 (Table 10-2). -/
def fabMsgHi (dst src queue sendIndex len frag : Nat) : Word :=
  BitVec.ofNat 64 (dst + src % 16 * 2 ^ 12 + src / 16 * 2 ^ 16 + queue % 16 * 2 ^ 24 + queue / 16 * 2 ^ 28 + sendIndex * 2 ^ 30
    + len * 2 ^ 36 + frag * 2 ^ 49)

/-- A CHAN_REPLY's header bits 127:64 (Table 10-2). -/
def fabReplyHi (dst sendIndex code returned : Nat) : Word :=
  BitVec.ofNat 64 (dst + sendIndex % 16 * 2 ^ 12 + sendIndex / 16 * 2 ^ 16 + code * 2 ^ 18 + returned * 2 ^ 20)

/-- A fabric packet as the bytes of a FAB_PKT's data flits. -/
def FPkt.bytes (p : FPkt) : List Byte := leBytes 8 p.lo.toNat ++ leBytes 8 p.hi.toNat ++ p.data
def FPkt.ofBytes (l : List Byte) : FPkt :=
  ⟨BitVec.ofNat 64 (leNat (l.take 8)), BitVec.ofNat 64 (leNat ((l.drop 8).take 8)), l.drop 16⟩

/-- A tile hands a fabric packet to the port-die endpoint on its own row (R356). -/
def State.tileFab (t vc : Nat) (p : FPkt) (s : State) : State :=
  s.send (t % 48) (t / 48) 0 (if t % 48 < 24 then 0 else 47) (t / 48) 2 vc 10 (tileSrc t) 0 0 p.bytes (t % 48) (t / 48) 0

/-- The fragments of a message of `n` bytes from fragment `k` on (R358). -/
def fragments : Nat → Nat → List Byte → List (Nat × List Byte)
  | 0, _, _ => []
  | m + 1, k, l => if l.isEmpty then [] else (k, l.take 256) :: fragments m (k + 1) (l.drop 256)

/-- Something happens at a later cycle of this step. -/
def State.during (k : Nat) (f : State → State) (s : State) : State := { f { s with cycle := k } with cycle := s.cycle }

/-- Carry out what a unit hands to the rest of the module. `u` is the tile or, with `isChan`, the memory channel. -/
def State.emit (isChan : Bool) (u : Nat) (s : State) : Out → State
  | .record kind ut ui op s0 s1 s2 fl =>
    if isChan then s.chanRec u kind op s0 s1 s2 fl
    else
      let r := s.tileRec u kind ut ui op s0 s1 s2 0 0 fl 0
      -- a checksum failure in a RUNNING tile is to be answered (R429)
      if kind = 0x03 ∧ (s.tile u).st = .running ∧ s.chk.contains u = false then { r with chk := r.chk ++ [u] } else r
  | .recordFull kind ut ui op s0 s1 s2 s3 rept fl status => s.tileRec u kind ut ui op s0 s1 s2 s3 rept fl status
  | .faultLine => s.drive
  | .chanMsg false _ tile queue e bytes =>
    s.send (u % 48) (u / 48) 0 (tile % 48) (tile / 48) 0 3 7 (tileSrc u) 0 (chanWord queue e bytes.length false 0) bytes
      (u % 48) (u / 48) 0
  | .chanMsg true eid tile queue e bytes =>
    (fragments 16 0 bytes).foldl (fun s p => s.tileFab u 3
      ⟨fabLo 1 0 eid s.eid s.job (s.rd F.RTE_SELF.hop_limit 0 0) (p.2.length / 16) 1, fabMsgHi tile u queue e bytes.length p.1,
        p.2⟩) s
  | .chanReply false _ tile code e returned =>
    s.send (u % 48) (u / 48) 0 (tile % 48) (tile / 48) 0 1 5 (tileSrc u) 0 (replyWord code e returned) [] (u % 48) (u / 48) 7
  | .chanReply true eid tile code e returned =>
    s.tileFab u 1 ⟨fabLo 1 0 eid s.eid s.job (s.rd F.RTE_SELF.hop_limit 0 0) 0 2, fabReplyHi tile e code returned, []⟩
  | .regReq write mbx off val tag =>
    let t := (off - 0x01000000) / 0x2000
    let w := BitVec.ofNat 64 (off + mbx.toNat * 2 ^ 28)
    let data := if write then padTo 16 (leBytes 8 val.toNat) else []
    if mbx then s.send (u % 48) (u / 48) 0 0 46 3 0 write.toNat (tileSrc u) tag w data (u % 48) (u / 48) 0
    else s.send (u % 48) (u / 48) 0 (t % 48) (t / 48) 0 0 write.toNat (tileSrc u) tag w data (u % 48) (u / 48) 0
  | .memReq write ch m slot mask data tag =>
    s.send (u % 48) (u / 48) 0 (chanX ch) (chanY ch) 1 2 (if write then 9 else 8) (tileSrc u) tag
      (BitVec.ofNat 64 (m + slot * 2 ^ 27 + mask * 2 ^ 30)) data (u % 48) (u / 48) 0
  | .flit hdr data back =>
    { s with flits := s.flits ++ [⟨u % 48, u / 48, 0, s.cycle + 3, u % 48, u / 48, hdr, data, back, none⟩] }
  | .flitIn x y inp at_ hdr data back =>
    { s with flits := s.flits ++ [⟨x, y, inp, at_, x, y, hdr, data, back, none⟩] }
  | .digest i f => let g := s.gb i
                   s.setGb i { g with acc := g.acc ^^^ f }
  | .vpkt p => s.during p.sent (State.send p.x p.y 1 p.dx p.dy p.ep p.vc p.op p.src p.rtag p.w p.data p.rx p.ry p.rep)

def State.emits (isChan : Bool) (u : Nat) (os : List Out) (s : State) : State := os.foldl (State.emit isChan u) s

/-- Free bytes: `n` free 64-bit values from number `k` on. -/
def freeBytes (k n : Nat) : List Byte := (List.range n).flatMap (fun i => leBytes 8 (Config.freeWord (k + i)).toNat)

/-! ### Mailbox locks -/

/-- Free the locks that a lost owner holds on mailboxes with full = 0 (R384). -/
def State.freeLocks (owner : Nat) (s : State) : State :=
  (List.range 32).foldl (fun s k => if s.rd F.MBX_LOCK.owner k 0 = owner ∧ s.rd F.MBX_FLAG.full k 0 = 0 then
    s.wr F.MBX_LOCK.owner k 0 0 else s) s

/-! ### Acting on units -/

/-- What a change of a tile's state brings about outside the tile. -/
def State.tileMoved (t : Nat) (a b : TileState) (s : State) : State :=
  -- TIL_STATE shows the new state from the next Observatory cycle on (R105)
  let s0 : State := if a = b ∨ (s.tileWas.find t).any (fun w => w.1 == s.cycle / 4) then s
    else { s with tileWas := s.tileWas.set t (s.cycle / 4, a) }
  let s1 := if b = .offline ∧ a ≠ .offline then s0.freeLocks (tileSrc t) else s0
  if b = .fenced ∧ (a = .running ∨ a = .transit) ∧ s.st = .running then { s1 with jobFenced := true } else s1

/-- A command on one tile: the tile is brought up to the present, then `f` acts. -/
def State.onTile (t : Nat) (f : Ctx → Tile → Tile × List Out) (s : State) : State :=
  if 2304 ≤ t then s
  else
    let c := s.ctx t
    let old := s.tile t
    let r := andThen (old.sync c) (f c)
    ((({ s with fresh := s.fresh + 1 } : State).setTile t r.1).tileMoved t old.st r.1.st).emits false t r.2

/-- A command of a tile's sequencer, lattice or stream engine: in a gated cycle nothing happens, and it is to be offered again (R517). -/
def State.onClocked (t : Nat) (f : Ctx → Tile → Tile × List Out) (s : State) : State := if s.gatedNow then s else s.onTile t f

/-- A command on one memory channel. -/
def State.onChan (ch : Nat) (f : Ctx → Chan → Chan × List Out) (s : State) : State :=
  if 96 ≤ ch then s
  else
    let h := s.chan ch
    let r := f (s.ctx ch) { h with regs := { h.regs with now := s.cycle } }
    (({ s with fresh := s.fresh + 1 } : State).setChan ch r.1).emits true ch r.2

/-! ### State changes of module, time and ports -/

def ModState.code : ModState → Nat
  | .dark => 0 | .held => 1 | .ready => 2 | .joined => 3 | .running => 4 | .draining => 5 | .fenced => 6

def PortState.code : PortState → Nat
  | .dark => 0 | .training => 1 | .parallax => 2 | .up => 3 | .drained => 4 | .down => 5

def PortState.linked (p : PortState) : Bool := p == .up || p == .drained

/-- A DISCOVER is due on every UP or DRAINED port (R337). -/
def State.discoverAll (s : State) : State :=
  { s with ports := s.ports.mapVals (fun _ p => if p.st.linked then { p with discDue := true } else p) }

/-- No port is a job port any longer (R308). -/
def State.noJobPorts (s : State) : State := allPorts.foldl (fun s n => s.wr F.FAB_PORT_STATE.job_port n 0 0) s

/-- The module enters a state (R16, R308, Table 11-16). -/
def State.setMod (m : ModState) (s : State) : State :=
  if s.st = m then s
  else ((((if s.st = .running then { s.noJobPorts with st := m } else { s with st := m }) : State).wr F.GLB_MODULE_STATE.state 0 0 m.code).irq 0).discoverAll

/-- The module's job changes; a DISCOVER is due (R337). -/
def State.setJob (v : Nat) (s : State) : State := if s.job = v then s else (s.wr F.GLB_JOB.job 0 0 v).discoverAll

/-- A pending start is cancelled (R39). -/
def State.cancelStart (s : State) : State :=
  if s.startPending then
    ((s.wr F.GLB_MODULE_STATE.start_pending 0 0 0).wr F.GLB_START.start 0 0 0).setJob 0
  else s

def State.timeSt (s : State) : Nat := s.rd F.GLB_TIME_STATUS.state 0 0
/-- The module's time state changes (Table 9-9, Table 11-16). -/
def State.setTime (v : Nat) (s : State) : State :=
  if s.timeSt = v then s else (s.wr F.GLB_TIME_STATUS.state 0 0 v).irq 6
def State.timeFlag (f : Fld) (s : State) : State := s.flag F.GLB_TIME_STATUS.again_count f 0 0 1

/-! ### Nova and module eclipse -/

/-- Every UP or DRAINED port but one sends the nova codeword three times (R364, R365). -/
def State.novaOut (but : Option Nat) (job eid reason start : Nat) (s : State) : State :=
  allPorts.foldl (fun s n => if (s.port n).st.linked ∧ some n ≠ but then
    let w := Sent.wire n (.nova job eid reason start)
    ((s.put w).put w).put w else s) s

/-- Record a first nova of the module's job (R365, Table 10-13). -/
def State.novaRecord (job eid reason start : Nat) (s : State) : State :=
  let s1 := (((s.wr F.RTE_NOVA.reason 0 0 reason).wr F.RTE_NOVA.origin 0 0 eid).wr F.RTE_NOVA.valid 0 0 1).wr F.RTE_NOVA.job 0 0 job
  ((s1.wr F.RTE_NOVA_TIME.start 0 0 start).flag F.RTE_STATUS.again_count F.RTE_STATUS.nova 0 0 1).irq 2

/-- The flag bit "a fence followed" of the schedule-fault records not yet written (R422, Table 14-5). -/
def Rec.fenced (r : Rec) : Rec := if r.flags % 2 = 1 ∧ r.flags / 2 % 2 = 0 then { r with flags := r.flags + 2 } else r

/-- The records that are not yet written: on their way in Vesper, arrived, and queued. -/
def State.recsOut (s : State) : List Rec := s.pkts.filterMap (·.rec_) ++ s.recs ++ s.logQ

/-- Change the records that are not yet written: on their way, arrived, and queued. -/
def State.mapRecs (f : Rec → Rec) (s : State) : State :=
  { s with pkts := s.pkts.map (fun p => { p with rec_ := p.rec_.map f }), recs := s.recs.map f, logQ := s.logQ.map f }

/-- Begin a module eclipse (R468, R469): none while one is in force or in DARK. -/
def State.eclipse (cause : Nat) (s : State) : State :=
  if s.rd F.RST_FENCE.module 0 0 = 1 ∨ s.st = .dark then s
  else
    let starts := decide (cause ≠ 7) && s.inJob
    let s0 := if starts then (s.novaRecord s.job s.eid cause s.sidereal).novaOut none s.job s.eid cause s.sidereal else s
    let s1 := if cause = 1 then s0.mapRecs Rec.fenced else s0
    let s2 := ((s1.wr F.RST_FENCE.module 0 0 1).wr F.RST_FENCE.cause 0 0 cause).wr F.RST_FENCE.since_lo 0 0 s.sidereal
    -- the job stays in GLB_JOB until UNFENCE (R470); only a pending start's mark goes
    let s3 := (s2.wr F.GLB_MODULE_STATE.start_pending 0 0 0).setMod .fenced
    let s4 := ({ s3 with abortAt := some s.cycle, ecl := s3.ecl ++ [⟨6, 0, s.cycle, false⟩] } : State)
    let s5 := (s4.flag F.RST_STATUS.again_count F.RST_STATUS.fence 0 0 1).irq 3
    s5.obsRec 0x61 0 0 0 (BitVec.ofNat 64 (6 + cause * 2 ^ 8)) (if starts || cause == 7 then s5.regWord .RTE_NOVA 0 0 else 0) 0 0 0 0 0

/-- A schedule fault that the Observatory learns of: it fences a RUNNING module (R96, R211, R303). -/
def State.scheduleFault (s : State) : State := if s.st = .running then s.eclipse 1 else s

/-- The module's time is LOST (R331). -/
def State.loseTime (s : State) : State :=
  let s1 := (s.setTime 4)
  if s1.inJob then s1.eclipse 2 else s1

/-- A LOCKED child loses its time parent (R327). -/
def State.enterHoldover (s : State) : State :=
  let s1 := ({ s with holdAt := some s.cycle, freqPort := none } : State).setTime 3 |>.timeFlag F.GLB_TIME_STATUS.parent_lost
  s1.obsRec 0x33 11 0 0 (s1.regWord .GLB_TIME_STATUS 0 0) 0 0 0 0 0 0

/-- A port has left UP and DRAINED: was it the parent of a LOCKED child? -/
def State.parentGone (n : Nat) (s : State) : State :=
  if s.timeSt = 2 ∧ s.rd F.GLB_TIME_CFG.role 0 0 = 2 ∧ s.rd F.GLB_TIME_STATUS.active_parent 0 0 = n then s.enterHoldover else s

/-! ### Ports -/

def State.portFlag (n : Nat) (f : Fld) (s : State) : State := s.flag F.FAB_PORT_STATUS.again_count f n 0 1

/-- The port's state changes (R306, R308, R338, Tables 9-12 and 11-16). -/
def State.movePort (n : Nat) (p : PortState) (s : State) : State :=
  let o := (s.port n).st
  if o = p then s
  else
    let s1 := ((s.setPort n { (s.port n) with st := p }).wr F.FAB_PORT_STATE.state n 0 p.code).irq (10 + n)
    let s2 := if p.linked ∨ p = .parallax then s1
      else ((s1.wr F.FAB_PORT_STATE.lane_set n 0 0).wr F.FAB_PORT_STATE.lanes_active n 0 0)
    let s3 := if p.linked = false then (s2.wr F.FAB_PORT_NBR_ID.fresh n 0 0).setPort n { (s2.port n) with nbrAt := none } else s2
    let s4 := if p.linked then s3 else s3.parentGone n
    if (p = .down ∨ p = .dark) ∧ s4.rd F.FAB_PORT_STATE.job_port n 0 = 1 ∧ s4.st = .running then s4.drive else s4

/-- The port forgets its queues, credits and elastic buffer (R457); the last marker stays known (Table 9-17). -/
def Port.emptied (p : Port) : Port := { Port.reset with st := p.st, trainAt := p.trainAt, markerAt := p.markerAt, markerOk := p.markerOk }

/-- RTE_DROP.no_route counts packets and sets no_route in RTE_STATUS (Table 10-10). -/
def State.noRoute (n : Nat) (s : State) : State :=
  if n = 0 then s else (s.addSat F.RTE_DROP.no_route 0 0 n).flag F.RTE_STATUS.again_count F.RTE_STATUS.no_route 0 0 1

/-- A record of kind ROUTING: header and rule. -/
def State.routeRec (n : Nat) (p : FPkt) (rule : Nat) (s : State) : State := s.portRec n 0x34 p.lo (BitVec.ofNat 64 rule) 0 0

/-- C and M packets whose port is not UP are discarded: each counted, each with a record (R357). -/
def State.dropControl (n : Nat) (l : List FPkt) (s : State) : State := l.foldl (fun (s : State) p => (s.noRoute 1).routeRec n p 357) s

/-- Entry to DOWN (R306); the C and M packets still queued are discarded (R357). -/
def State.portDown (n reason : Nat) (s : State) : State :=
  let queued := (s.port n).txC ++ (s.port n).txM
  let s1 := ((s.movePort n .down).wr F.FAB_PORT_STATE.down_reason n 0 reason).dropControl n queued
  let s2 := (s1.setPort n (s1.port n).emptied).portFlag n F.FAB_PORT_STATUS.went_down
  s2.portRec n 0x30 (s2.regWord .FAB_PORT_STATE n 0) 0 0 0

/-! ### Replies of firmware (R386) -/

/-- Post a reply whose mailbox lock firmware holds or can take. -/
def State.post (r : Reply) (s : State) : State :=
  let k := r.cmd.k + 4
  let body := r.body.take 4032
  let s1 := { s with mbx := Mem.putBytes 0 s.mbx (k * 0x1000 + 0x40) body }
  let s2 := (((s1.wr F.MBX_CMD.length k 0 body.length).wr F.MBX_CMD.status k 0 r.status).wr F.MBX_CMD.seq k 0 r.cmd.seq).wr
    F.MBX_CMD.code k 0 r.cmd.code
  let s3 := (s2.wr F.MBX_REF.reply_to k 0 r.cmd.sender).wr F.MBX_LOCK.owner k 0 0x10
  (((s3.wr F.MBX_FLAG.full k 0 1).wr F.MBX_SENDER.sender k 0 0x10).addWrap F.MBX_SENDER.posts k 0 1)

/-- Reply to a command: at once if the reply mailbox's lock is free and nothing is posted there, else when the lock is
next acquired. -/
def State.reply (c : Cmd) (status : Nat) (body : List Byte) (s : State) : State :=
  let r : Reply := ⟨c, status, body⟩
  if s.rd F.MBX_LOCK.owner (c.k + 4) 0 = 0 then s.post r else { s with replies := s.replies ++ [r] }

/-- A command in progress ends with a reply. -/
def State.finish (p : Prog) (status : Nat) (body : List Byte) (s : State) : State :=
  ({ s with prog := s.prog.erase p } : State).reply p.cmd status body

end Sys2Proof.Machine
end

