-- ==== Sys2Proof/Machine/ExecAlu.lean ====
section
/-! DEFINITION. The arithmetic, immediate and shift instructions of the tile sequencer (chapter 3): one meaning per row over the shared
instruction shapes of SeqAlu.lean and the operand forms of Operands.lean. -/
namespace Sys2Proof.Machine

/-- ADD (R82, Table 3-4): ra + rb. -/
def execAdd (t : Nat) (rd ra rb z : BitVec 5) (s : State) : Ans :=
  .next (s.onClocked t fun c tl => tl.issue c (encAlu 0 rd ra rb z) fun tl => aluOp (encAlu 0 rd ra rb z) z rd ra rb (fun a b => a + b) tl)

/-- SUB (R82, Table 3-4): ra - rb. -/
def execSub (t : Nat) (rd ra rb z : BitVec 5) (s : State) : Ans :=
  .next (s.onClocked t fun c tl => tl.issue c (encAlu 1 rd ra rb z) fun tl => aluOp (encAlu 1 rd ra rb z) z rd ra rb (fun a b => a - b) tl)

/-- AND (R82, Table 3-4): ra AND rb. -/
def execAnd (t : Nat) (rd ra rb z : BitVec 5) (s : State) : Ans :=
  .next (s.onClocked t fun c tl => tl.issue c (encAlu 2 rd ra rb z) fun tl => aluOp (encAlu 2 rd ra rb z) z rd ra rb (fun a b => a &&& b) tl)

/-- OR (R82, Table 3-4): ra OR rb. -/
def execOr (t : Nat) (rd ra rb z : BitVec 5) (s : State) : Ans :=
  .next (s.onClocked t fun c tl => tl.issue c (encAlu 3 rd ra rb z) fun tl => aluOp (encAlu 3 rd ra rb z) z rd ra rb (fun a b => a ||| b) tl)

/-- XOR (R82, Table 3-4): ra XOR rb. -/
def execXor (t : Nat) (rd ra rb z : BitVec 5) (s : State) : Ans :=
  .next (s.onClocked t fun c tl => tl.issue c (encAlu 4 rd ra rb z) fun tl => aluOp (encAlu 4 rd ra rb z) z rd ra rb (fun a b => a ^^^ b) tl)

/-- SHL (R82, Table 3-4): ra shifted left by rb bits 5:0. -/
def execShl (t : Nat) (rd ra rb z : BitVec 5) (s : State) : Ans :=
  .next (s.onClocked t fun c tl => tl.issue c (encAlu 5 rd ra rb z) fun tl => aluOp (encAlu 5 rd ra rb z) z rd ra rb wShl tl)

/-- SHR (R82, Table 3-4): ra shifted right logically. -/
def execShr (t : Nat) (rd ra rb z : BitVec 5) (s : State) : Ans :=
  .next (s.onClocked t fun c tl => tl.issue c (encAlu 6 rd ra rb z) fun tl => aluOp (encAlu 6 rd ra rb z) z rd ra rb wShr tl)

/-- SAR (R82, Table 3-4): ra shifted right arithmetically. -/
def execSar (t : Nat) (rd ra rb z : BitVec 5) (s : State) : Ans :=
  .next (s.onClocked t fun c tl => tl.issue c (encAlu 7 rd ra rb z) fun tl => aluOp (encAlu 7 rd ra rb z) z rd ra rb wSar tl)

/-- LT (R82, Table 3-4): 1 if ra < rb, signed. -/
def execLt (t : Nat) (rd ra rb z : BitVec 5) (s : State) : Ans :=
  .next (s.onClocked t fun c tl => tl.issue c (encAlu 8 rd ra rb z) fun tl => aluOp (encAlu 8 rd ra rb z) z rd ra rb wLt tl)

/-- LTU (R82, Table 3-4): 1 if ra < rb, unsigned. -/
def execLtu (t : Nat) (rd ra rb z : BitVec 5) (s : State) : Ans :=
  .next (s.onClocked t fun c tl => tl.issue c (encAlu 9 rd ra rb z) fun tl => aluOp (encAlu 9 rd ra rb z) z rd ra rb wLtu tl)

/-- MIN (R82, Table 3-4): signed minimum. -/
def execMin (t : Nat) (rd ra rb z : BitVec 5) (s : State) : Ans :=
  .next (s.onClocked t fun c tl => tl.issue c (encAlu 10 rd ra rb z) fun tl => aluOp (encAlu 10 rd ra rb z) z rd ra rb wMin tl)

/-- MAX (R82, Table 3-4): signed maximum. -/
def execMax (t : Nat) (rd ra rb z : BitVec 5) (s : State) : Ans :=
  .next (s.onClocked t fun c tl => tl.issue c (encAlu 11 rd ra rb z) fun tl => aluOp (encAlu 11 rd ra rb z) z rd ra rb wMax tl)

/-- MINU (R82, Table 3-4): unsigned minimum. -/
def execMinu (t : Nat) (rd ra rb z : BitVec 5) (s : State) : Ans :=
  .next (s.onClocked t fun c tl => tl.issue c (encAlu 12 rd ra rb z) fun tl => aluOp (encAlu 12 rd ra rb z) z rd ra rb wMinu tl)

/-- MAXU (R82, Table 3-4): unsigned maximum. -/
def execMaxu (t : Nat) (rd ra rb z : BitVec 5) (s : State) : Ans :=
  .next (s.onClocked t fun c tl => tl.issue c (encAlu 13 rd ra rb z) fun tl => aluOp (encAlu 13 rd ra rb z) z rd ra rb wMaxu tl)

/-- MUL (R82, Table 3-4): low 64 bits of the product. -/
def execMul (t : Nat) (rd ra rb z : BitVec 5) (s : State) : Ans :=
  .next (s.onClocked t fun c tl => tl.issue c (encAlu 16 rd ra rb z) fun tl => aluOp (encAlu 16 rd ra rb z) z rd ra rb (fun a b => a * b) tl)

/-- MULX (R82, Table 3-4): high 64 bits of the signed product. -/
def execMulx (t : Nat) (rd ra rb z : BitVec 5) (s : State) : Ans :=
  .next (s.onClocked t fun c tl => tl.issue c (encAlu 17 rd ra rb z) fun tl => aluOp (encAlu 17 rd ra rb z) z rd ra rb wMulx tl)

/-- MULXU (R82, Table 3-4): high 64 bits of the unsigned product. -/
def execMulxu (t : Nat) (rd ra rb z : BitVec 5) (s : State) : Ans :=
  .next (s.onClocked t fun c tl => tl.issue c (encAlu 18 rd ra rb z) fun tl => aluOp (encAlu 18 rd ra rb z) z rd ra rb wMulxu tl)

/-- ADD32 (R82, Table 3-4): sign-extended low 32 bits of ra + rb. -/
def execAdd32 (t : Nat) (rd ra rb z : BitVec 5) (s : State) : Ans :=
  .next (s.onClocked t fun c tl => tl.issue c (encAlu 20 rd ra rb z) fun tl => aluOp (encAlu 20 rd ra rb z) z rd ra rb wAdd32 tl)

/-- SUB32 (R82, Table 3-4): sign-extended low 32 bits of ra - rb. -/
def execSub32 (t : Nat) (rd ra rb z : BitVec 5) (s : State) : Ans :=
  .next (s.onClocked t fun c tl => tl.issue c (encAlu 21 rd ra rb z) fun tl => aluOp (encAlu 21 rd ra rb z) z rd ra rb wSub32 tl)

/-- CLZ (R82, Table 3-4): leading zeros of ra. -/
def execClz (t : Nat) (rd ra rb z : BitVec 5) (s : State) : Ans :=
  .next (s.onClocked t fun c tl => tl.issue c (encAlu 28 rd ra rb z) fun tl => aluOp1 (encAlu 28 rd ra rb z) z rd ra rb wClz tl)

/-- CTZ (R82, Table 3-4): trailing zeros of ra. -/
def execCtz (t : Nat) (rd ra rb z : BitVec 5) (s : State) : Ans :=
  .next (s.onClocked t fun c tl => tl.issue c (encAlu 29 rd ra rb z) fun tl => aluOp1 (encAlu 29 rd ra rb z) z rd ra rb wCtz tl)

/-- POPC (R82, Table 3-4): 1 bits of ra. -/
def execPopc (t : Nat) (rd ra rb z : BitVec 5) (s : State) : Ans :=
  .next (s.onClocked t fun c tl => tl.issue c (encAlu 30 rd ra rb z) fun tl => aluOp1 (encAlu 30 rd ra rb z) z rd ra rb wPopc tl)

/-- ADDI (R82, Table 3-3). -/
def execAddi (t : Nat) (rd ra : BitVec 5) (imm : BitVec 16) (s : State) : Ans :=
  .next (s.onClocked t fun c tl => tl.issue c (encWord 2 rd ra imm) fun tl => immOp rd ra (fun a => a + sext16 imm) tl)

/-- ANDI (R82, Table 3-3). -/
def execAndi (t : Nat) (rd ra : BitVec 5) (imm : BitVec 16) (s : State) : Ans :=
  .next (s.onClocked t fun c tl => tl.issue c (encWord 3 rd ra imm) fun tl => immOp rd ra (fun a => a &&& zext16 imm) tl)

/-- ORI (R82, Table 3-3). -/
def execOri (t : Nat) (rd ra : BitVec 5) (imm : BitVec 16) (s : State) : Ans :=
  .next (s.onClocked t fun c tl => tl.issue c (encWord 4 rd ra imm) fun tl => immOp rd ra (fun a => a ||| zext16 imm) tl)

/-- XORI (R82, Table 3-3). -/
def execXori (t : Nat) (rd ra : BitVec 5) (imm : BitVec 16) (s : State) : Ans :=
  .next (s.onClocked t fun c tl => tl.issue c (encWord 5 rd ra imm) fun tl => immOp rd ra (fun a => a ^^^ zext16 imm) tl)

/-- LTI (R82, Table 3-3). -/
def execLti (t : Nat) (rd ra : BitVec 5) (imm : BitVec 16) (s : State) : Ans :=
  .next (s.onClocked t fun c tl => tl.issue c (encWord 6 rd ra imm) fun tl => immOp rd ra (fun a => wLt a (sext16 imm)) tl)

/-- LTIU (R82, Table 3-3). -/
def execLtiu (t : Nat) (rd ra : BitVec 5) (imm : BitVec 16) (s : State) : Ans :=
  .next (s.onClocked t fun c tl => tl.issue c (encWord 7 rd ra imm) fun tl => immOp rd ra (fun a => wLtu a (sext16 imm)) tl)

/-- SHIFTI_SHL (R82, Table 3-3). -/
def execShiftiShl (t : Nat) (rd ra : BitVec 5) (z : BitVec 8) (amt : BitVec 6) (s : State) : Ans :=
  .next (s.onClocked t fun c tl => tl.issue c (encShifti 0 rd ra z amt) fun tl => shiftOp (encShifti 0 rd ra z amt) z rd ra (fun a => a <<< amt.toNat) tl)

/-- SHIFTI_SHR (R82, Table 3-3). -/
def execShiftiShr (t : Nat) (rd ra : BitVec 5) (z : BitVec 8) (amt : BitVec 6) (s : State) : Ans :=
  .next (s.onClocked t fun c tl => tl.issue c (encShifti 1 rd ra z amt) fun tl => shiftOp (encShifti 1 rd ra z amt) z rd ra (fun a => a >>> amt.toNat) tl)

/-- SHIFTI_SAR (R82, Table 3-3). -/
def execShiftiSar (t : Nat) (rd ra : BitVec 5) (z : BitVec 8) (amt : BitVec 6) (s : State) : Ans :=
  .next (s.onClocked t fun c tl => tl.issue c (encShifti 2 rd ra z amt) fun tl => shiftOp (encShifti 2 rd ra z amt) z rd ra (fun a => a.sshiftRight amt.toNat) tl)

/-- LIH (R82, Table 3-3). -/
def execLih (t : Nat) (rd ra : BitVec 5) (imm : BitVec 16) (s : State) : Ans :=
  .next (s.onClocked t fun c tl => tl.issue c (encWord 9 rd ra imm) fun tl => lihOp (encWord 9 rd ra imm) rd ra imm tl)

end Sys2Proof.Machine
end

