-- ==== Sys2Proof/Machine/ExecChan.lean ====
section
/-! DEFINITION. Memory channels: the calendar, open accesses and refresh (chapter 8). -/
namespace Sys2Proof.Machine

/-- R275 to R277, R287, R288. -/
def execCalendarRequest (ch : Nat) (ecc : BitVec 544 × Nat) (s : State) : Ans :=
  .next (s.onChan ch fun c h => h.calRequest c ecc.1 ecc.2)

/-- R278. -/
def execCalendarReturn (ch : Nat) (s : State) : Ans :=
  .next (s.onChan ch fun c h => h.calReturn c)

/-- R283, R285, R287, R288. -/
def execOpenAccess (ch : Nat) (ecc : BitVec 544 × Nat) (s : State) : Ans :=
  .next (s.onChan ch fun c h => h.openAccess c ecc.1 ecc.2)

/-- R285. -/
def execCombiningEntryFree (ch : Nat) (s : State) : Ans :=
  .next (s.onChan ch fun c h => (h.combFree c, []))

/-- R272. -/
def execPerBankRefresh (ch : Nat) (b : Nat) (s : State) : Ans :=
  .next (s.onChan ch fun c h => (h.refresh c b, []))

/-- R296. -/
def execMemCalCtrlWrite (ch : Nat) (v : Word) (s : State) : Ans :=
  .next (s.onChan ch fun c h => (h.regWrite c .MEM_CAL_CTRL 0 (.full v), []))

/-- R296. -/
def execCalendarDisableDone (ch : Nat) (s : State) : Ans :=
  .next (s.onChan ch fun _ h => (h.closeDone, []))

/-- R296. -/
def execMemCalTableWrite (ch : Nat) (j : Nat) (v : Word) (s : State) : Ans :=
  .next (s.onChan ch fun c h => (h.regWrite c .MEM_CAL_TABLE j (.full v), []))

end Sys2Proof.Machine
end

