-- ==== Sys2Proof/Machine/ExecCmd.lean ====
section
/-! DEFINITION. The command instructions of the tile sequencer: streams, lattice loads, fused slots, channels, counters, barriers and
waits (chapters 3 to 7). -/
namespace Sys2Proof.Machine

/-- SARM (R171). -/
def execSarm (t : Nat) (rd ra rb imm : BitVec 5) (s : State) : Ans :=
  .next (s.onClocked t fun c tl => tl.issue c (encCmd 0 rd ra rb imm) fun tl => sarmOp c (encCmd 0 rd ra rb imm) rd ra rb imm tl)

/-- SREARM (R173). -/
def execSrearm (t : Nat) (rd ra rb imm : BitVec 5) (s : State) : Ans :=
  .next (s.onClocked t fun c tl => tl.issue c (encCmd 1 rd ra rb imm) fun tl => srearmOp c (encCmd 1 rd ra rb imm) rd ra rb imm tl)

/-- SSTOP (R174). -/
def execSstop (t : Nat) (rd ra rb imm : BitVec 5) (s : State) : Ans :=
  .next (s.onClocked t fun c tl => tl.issue c (encCmd 2 rd ra rb imm) fun tl => sstopOp c (encCmd 2 rd ra rb imm) rd ra rb imm tl)

/-- The stopping slot enters IDLE (R174 step 4). -/
def execSstopIdle (t : Nat) (slot : Nat) (s : State) : Ans :=
  .next (s.onClocked t fun c tl => tl.stopEnds c slot)

/-- SWAIT (R175). -/
def execSwait (t : Nat) (rd ra rb imm : BitVec 5) (s : State) : Ans :=
  .next (s.onClocked t fun c tl => tl.issue c (encCmd 3 rd ra rb imm) fun tl => swaitOp c (encCmd 3 rd ra rb imm) rd ra rb imm tl)

/-- LLOAD_DRAIN (R141, R144, R146). -/
def execLloadDrain (t : Nat) (rd ra rb : BitVec 5) (hi : BitVec 4) (s : State) : Ans :=
  .next (s.onClocked t fun c tl => tl.issue c (encCmd 4 rd ra rb (hi ++ (0 : BitVec 1))) fun tl => lloadOp c (encCmd 4 rd ra rb (hi ++ (0 : BitVec 1))) false rd ra rb hi tl)

/-- LLOAD_CUT (R141, R144, R146). -/
def execLloadCut (t : Nat) (rd ra rb : BitVec 5) (hi : BitVec 4) (s : State) : Ans :=
  .next (s.onClocked t fun c tl => tl.issue c (encCmd 4 rd ra rb (hi ++ (1 : BitVec 1))) fun tl => lloadOp c (encCmd 4 rd ra rb (hi ++ (1 : BitVec 1))) true rd ra rb hi tl)

/-- LWAIT (R147). -/
def execLwait (t : Nat) (rd ra rb imm : BitVec 5) (s : State) : Ans :=
  .next (s.onClocked t fun c tl => tl.issue c (encCmd 5 rd ra rb imm) fun tl => lwaitOp c (encCmd 5 rd ra rb imm) rd ra rb imm tl)

/-- FUSE (R190). -/
def execFuse (t : Nat) (rd ra rb imm : BitVec 5) (s : State) : Ans :=
  .next (s.onClocked t fun c tl => tl.issue c (encCmd 8 rd ra rb imm) fun tl => fuseOp c (encCmd 8 rd ra rb imm) rd ra rb imm tl)

/-- FWAIT (R190). -/
def execFwait (t : Nat) (rd ra rb imm : BitVec 5) (s : State) : Ans :=
  .next (s.onClocked t fun c tl => tl.issue c (encCmd 9 rd ra rb imm) fun tl => fwaitOp c (encCmd 9 rd ra rb imm) rd ra rb imm tl)

/-- CSEND (R243, R244). -/
def execCsend (t : Nat) (rd ra rb imm : BitVec 5) (s : State) : Ans :=
  .next (s.onClocked t fun c tl => tl.issue c (encCmd 12 rd ra rb imm) fun tl => csendOp c (encCmd 12 rd ra rb imm) rd ra rb imm tl)

/-- CRECV (R250, R251). -/
def execCrecv (t : Nat) (rd ra rb imm : BitVec 5) (s : State) : Ans :=
  .next (s.onClocked t fun c tl => tl.issue c (encCmd 13 rd ra rb imm) fun tl => crecvOp c (encCmd 13 rd ra rb imm) rd ra rb imm tl)

/-- CPOLL (R250, R251). -/
def execCpoll (t : Nat) (rd ra rb imm : BitVec 5) (s : State) : Ans :=
  .next (s.onClocked t fun c tl => tl.issue c (encCmd 14 rd ra rb imm) fun tl => cpollOp c (encCmd 14 rd ra rb imm) rd ra rb imm tl)

/-- CCLOSE (R254). -/
def execCclose (t : Nat) (rd ra rb imm : BitVec 5) (s : State) : Ans :=
  .next (s.onClocked t fun c tl => tl.issue c (encCmd 15 rd ra rb imm) fun tl => ccloseOp c (encCmd 15 rd ra rb imm) rd ra rb imm tl)

/-- CTRWAIT (R92). -/
def execCtrwait (t : Nat) (rd ra rb imm : BitVec 5) (s : State) : Ans :=
  .next (s.onClocked t fun c tl => tl.issue c (encCmd 20 rd ra rb imm) fun tl => ctrwaitOp c (encCmd 20 rd ra rb imm) rd ra rb imm tl)

/-- CTRSET (R92). -/
def execCtrset (t : Nat) (rd ra rb imm : BitVec 5) (s : State) : Ans :=
  .next (s.onClocked t fun c tl => tl.issue c (encCmd 21 rd ra rb imm) fun tl => ctrsetOp c (encCmd 21 rd ra rb imm) rd ra rb imm tl)

/-- BAR (R93, R227). -/
def execBar (t : Nat) (rd ra rb imm : BitVec 5) (s : State) : Ans :=
  .next (s.onClocked t fun c tl => tl.issue c (encCmd 24 rd ra rb imm) fun tl => barOp c (encCmd 24 rd ra rb imm) rd ra rb imm tl)

/-- BARA (R93, R228). -/
def execBara (t : Nat) (rd ra rb imm : BitVec 5) (s : State) : Ans :=
  .next (s.onClocked t fun c tl => tl.issue c (encCmd 25 rd ra rb imm) fun tl => baraOp c (encCmd 25 rd ra rb imm) rd ra rb imm tl)

/-- BARW (R93, R228). -/
def execBarw (t : Nat) (rd ra rb imm : BitVec 5) (s : State) : Ans :=
  .next (s.onClocked t fun c tl => tl.issue c (encCmd 26 rd ra rb imm) fun tl => barwOp c (encCmd 26 rd ra rb imm) rd ra rb imm tl)

/-- WAITS (R95, R96). -/
def execWaits (t : Nat) (rd ra rb imm : BitVec 5) (s : State) : Ans :=
  .next (s.onClocked t fun c tl => tl.issue c (encCmd 28 rd ra rb imm) fun tl => waitsOp c (encCmd 28 rd ra rb imm) rd ra rb imm tl)

/-- TRNS (R195). -/
def execTrns (t : Nat) (rd ra rb imm : BitVec 5) (s : State) : Ans :=
  .next (s.onClocked t fun c tl => tl.issue c (encCmd 29 rd ra rb imm) fun tl => trnsOp c (encCmd 29 rd ra rb imm) rd ra rb imm tl)

/-- VLD (R97). -/
def execVld (t : Nat) (rd ra rb imm : BitVec 5) (s : State) : Ans :=
  .next (s.onClocked t fun c tl => tl.issue c (encCmd 32 rd ra rb imm) fun tl => vldOp c (encCmd 32 rd ra rb imm) rd ra rb imm tl)

/-- VST (R98). -/
def execVst (t : Nat) (rd ra rb imm : BitVec 5) (s : State) : Ans :=
  .next (s.onClocked t fun c tl => tl.issue c (encCmd 33 rd ra rb imm) fun tl => vstOp (encCmd 33 rd ra rb imm) rd ra rb imm tl)

/-- R95. -/
def execWaitsComplete (t : Nat) (s : State) : Ans :=
  .next (s.onClocked t fun c tl => tl.waitsEnds c)

end Sys2Proof.Machine
end

