-- ==== Sys2Proof/Machine/HostOps.lean ====
section
/-! DEFINITION. What the host's accesses, the mailboxes and the Observatory's own windows share (chapter 11): errors of host
accesses, answers to host requests, the mailbox rules, and the place of a register in the CTL window. -/
namespace Sys2Proof.Machine

/-! ### Errors of host accesses (R377) -/

/-- Record an error of a host access: `window` is 0 CTL, 1 MBX, 2 APR. -/
def State.hostErr (f : Fld) (window : Nat) (write : Bool) (offset status : Nat) (s : State) : State :=
  let s1 := if s.rd f 0 0 = 1 then s
    else (((s.wr F.OBS_HOST_ERR_LOG.status 0 0 status).wr F.OBS_HOST_ERR_LOG.window 0 0 window).wr F.OBS_HOST_ERR_LOG.write 0 0
      write.toNat).wr F.OBS_HOST_ERR_LOG.offset 0 0 offset
  (s1.flag F.OBS_HOST_ERR.again_count f 0 0 1).irq 7

/-! ### Requests in the mesh (R372, R373) -/

/-- A host write has not yet taken effect. -/
def State.hostWriting (s : State) : Bool := s.host.any (·.write)

def HReq.ended (r : HReq) : Bool := r.parts.all (·.done)

/-- Complete what can be completed: a write ends when every part is answered; a read also waits for every earlier write. -/
def settleHost : Bool → List HReq → List HReq × List HReq
  | _, [] => ([], [])
  | writing, r :: rest =>
    if r.ended ∧ (r.write ∨ writing = false) then
      let q := settleHost writing rest
      (q.1, r :: q.2)
    else
      let q := settleHost (writing || r.write) rest
      (r :: q.1, q.2)

/-- What the end of a request brings: a completion for a read, an error if a target answered ERROR (Table 11-4). -/
def State.endHost (s : State) (r : HReq) : State :=
  match r.failed with
  | some st =>
    let s1 := s.hostErr F.OBS_HOST_ERR.target r.win r.write r.offset st
    if r.write then s1 else s1.put (.completion r.id .abort)
  | none => if r.write then s else s.put (.completion r.id (.data (r.parts.flatMap (·.got))))

def State.settleHosts (s : State) : State :=
  let q := settleHost false s.host
  q.2.foldl State.endHost { s with host := q.1 }

/-- Groups of 8 bytes that bytes `off` to `off + len - 1` of a line touch. -/
def groupMask (off len : Nat) : Nat := ((List.range 8).map (fun g => if off < 8 * g + 8 ∧ 8 * g < off + len then 2 ^ g else 0)).sum

/-- The write covers part of some group (R375). -/
def partGroup (off len : Nat) : Bool := off % 8 != 0 || (off + len) % 8 != 0

/-- An open-class request of the host at a memory port (R375): source 0x0001, from (0, 46). -/
def State.hostMem (ch m tag : Nat) (write : Bool) (mask : Nat) (data : List Byte) (s : State) : State :=
  s.send 0 46 3 (chanX ch) (chanY ch) 1 2 (if write then 9 else 8) 1 tag (BitVec.ofNat 64 (m + mask * 2 ^ 30)) data 0 46 0

/-- An answer for one part of a host request reaches the Observatory. -/
def State.answerPart (p : VPkt) (r : HReq) (q : HPart) (s : State) : HReq × State :=
  let set (f : HPart → HPart) : HReq := { r with parts := r.parts.map (fun z => if z.tag = q.tag then f z else z) }
  if p.op = 6 then ({ set (fun z => { z with done := true }) with failed := some (bits p.w.toNat 0 16) }, s)
  else match q.line with
    | some (ch, m) =>
      if q.merging then
        -- the groups read are merged with the bytes to write, and all of each group is written
        let data := p.data.take q.off ++ q.wr ++ p.data.drop (q.off + q.wr.length)
        (set (fun z => { z with merging := false }), s.hostMem ch m q.tag true (groupMask q.off q.len) data)
      else (set (fun z => { z with done := true, got := if r.write then [] else (p.data.drop q.off).take q.len }), s)
    | none => (set (fun z => { z with done := true, got := if r.write then [] else (p.data.drop q.off).take q.len }), s)

/-- A response to the host: one whose request has ended already is discarded. -/
def State.hostAnswer (p : VPkt) (s : State) : State :=
  match s.host.find? (fun r => r.parts.any (fun q => q.tag == p.rtag && !q.done)) with
  | none => s
  | some r => match r.parts.find? (fun q => q.tag == p.rtag && !q.done) with
    | none => s
    | some q =>
      let a := s.answerPart p r q
      ({ a.2 with host := a.2.host.map (fun z => if z.id = r.id then a.1 else z) } : State).settleHosts

/-! ### Mailboxes (R380 to R385) -/

/-- An access of a source that comes after an access of a higher source in one Observatory cycle waits for the next (R383). -/
def State.mbxLater (s : State) (src : Nat) : Bool := s.mbxTurn.1 == s.cycle / 4 && decide (src < s.mbxTurn.2)
/-- The mailbox block handles an access of a source. -/
def State.mbxHandled (src : Nat) (s : State) : State := { s with mbxTurn := (s.cycle / 4, src) }

def State.owner (s : State) (k : Nat) : Nat := s.rd F.MBX_LOCK.owner k 0
def State.full (s : State) (k : Nat) : Bool := s.rd F.MBX_FLAG.full k 0 == 1
/-- An access ignored under R380 to R382. -/
def State.mbxRefused (k : Nat) (s : State) : State := s.addSat F.MBX_SENDER.refused k 0 1

/-- A read of MBX_LOCK: in its lower half it takes a free lock (R380). -/
def State.mbxLockRead (src k off : Nat) (s : State) : State × Nat :=
  if off % 8 = 4 then (s, 0)
  else if s.owner k = 0 then (s.wr F.MBX_LOCK.owner k 0 src, 0)
  else (s, s.owner k)

/-- A write of MBX_LOCK. -/
def State.mbxLockWrite (src k off : Nat) (s : State) : State :=
  if off % 8 = 4 then s
  else if s.owner k = src ∧ s.full k = false then s.wr F.MBX_LOCK.owner k 0 0
  else s.mbxRefused k

/-- A write of post, of take, or of both (R382). -/
def State.mbxFlag (src k : Nat) (post take : Bool) (s : State) : State :=
  if post ∧ take then s.mbxRefused k
  else if post then
    if s.owner k = src ∧ s.full k = false then
      (((if k < 4 then { s with postAt := s.postAt.set k (s.cycle / 4) } else s).wr F.MBX_FLAG.full k 0 1).wr F.MBX_SENDER.sender k 0
        src).addWrap F.MBX_SENDER.posts k 0 1
    else s.mbxRefused k
  else if take then
    if s.full k ∧ s.owner k ≠ src then (s.wr F.MBX_FLAG.full k 0 0).wr F.MBX_LOCK.owner k 0 0
    else s.mbxRefused k
  else s

/-- A write of MBX_CMD, MBX_REF or payload bytes (R381). -/
def State.mbxContent (src k off : Nat) (data : List Byte) (s : State) : State :=
  if s.owner k ≠ src ∨ s.full k then s.mbxRefused k
  else if 0x40 ≤ off then { s with mbx := Mem.putBytes 0 s.mbx (k * 0x1000 + off) data }
  else
    let a : Access := ⟨off % 8, data.length, BitVec.ofNat 64 (leNat data)⟩
    if off / 8 = 3 then { s with regs := s.regs.store .MBX_CMD k 0 s.cycle a }
    else { s with regs := s.regs.store .MBX_REF k 0 s.cycle a }

/-- A register-sized write in the MBX window, at mailbox offset `off` of mailbox `k`. -/
def State.mbxWrite (src k off size : Nat) (v : Word) (s : State) : State :=
  let a : Access := ⟨off % 8, size, v⟩
  if 0x40 ≤ off ∨ off / 8 = 3 ∨ off / 8 = 4 then s.mbxContent src k off (leBytes size v.toNat)
  else match off / 8 with
    | 0 => s.mbxLockWrite src k off
    | 1 => s.mbxFlag src k (a.val F.MBX_FLAG.post == 1) (a.val F.MBX_FLAG.take == 1)
    | _ => s

/-- What a register of a mailbox reads as. -/
def State.mbxReg (s : State) (k off : Nat) : Word :=
  match off / 8 with
  | 1 => s.regWord .MBX_FLAG k 0
  | 2 => BitVec.ofNat 64 (assemble Reg.MBX_SENDER.fields (fun f => if f.id = F.MBX_SENDER.owner.id then s.owner k else s.regs.seen f k 0))
  | 3 => s.regWord .MBX_CMD k 0
  | 4 => s.regWord .MBX_REF k 0
  | _ => 0

/-- A register-sized read in the MBX window. The rack controller's reads clear nothing (R395). -/
def State.mbxRead (src k off size : Nat) (s : State) : State × Nat :=
  if 0x40 ≤ off then (s, Mem.num 0 s.mbx (k * 0x1000 + off) size)
  else if off / 8 = 0 then s.mbxLockRead src k off
  else
    let v := (s.mbxReg k off).toNat / 2 ^ (8 * (off % 8)) % 2 ^ (8 * size)
    let clears := off / 8 == 2 && src != 2
    (if clears then { s with regs := s.regs.readClear .MBX_SENDER k 0 (off % 8) size } else s, v)

/-- A host write of OBS_MBX_BREAK (R385). -/
def State.mbxBreak (k : Nat) (s : State) : State :=
  let was := s.owner k
  ((s.wr F.MBX_FLAG.full k 0 0).wr F.MBX_LOCK.owner k 0 0).obsRec 0x42 14 k 0 (BitVec.ofNat 64 (k + was * 2 ^ 16)) 0 0 0 0 0 0

/-! ### Places of registers -/

/-- Unit, index and half of an offset within a register's places. -/
def Place.find (p : Place) (off : Nat) : Option (Nat × Nat × Nat) :=
  let u := if p.unitStride = 0 then 0 else (off - p.base) / p.unitStride
  let r := off - p.base - u * p.unitStride
  let j := r / p.stride
  if off < p.base ∨ p.units ≤ u ∨ p.count ≤ j ∨ 8 ≤ r % p.stride then none else some (u, j, r % p.stride)

/-- The register at an offset of the CTL window (or, at 0x1000_0000, of the MBX window): register, unit, index, byte. -/
def regAt (off : Nat) : Option (Reg × Nat × Nat × Nat) :=
  Reg.all.findSome? (fun r => (r.place.find off).map (fun q => (r, q.1, q.2.1, q.2.2)))

/-- A 4- or 8-byte aligned access (R6, R371). -/
def goodSize (off size : Nat) : Bool := (size == 4 || size == 8) && off % size == 0

end Sys2Proof.Machine
end

