-- ==== Sys2Proof/Machine/Fabric.lean ====
section
/-! DEFINITION. What the fabric ports, the routing of packets, global barriers and the time tree share (chapters 9, 10 and
the arrival ranks of chapter 15). -/
namespace Sys2Proof.Machine

/-! ### Packet headers (R335, R336) -/

def FPkt.cls (p : FPkt) : Nat := bits p.lo.toNat 0 2
def FPkt.cast (p : FPkt) : Nat := bits p.lo.toNat 2 2
def FPkt.dst (p : FPkt) : Nat := bits p.lo.toNat 4 14
def FPkt.src (p : FPkt) : Nat := bits p.lo.toNat 18 14
def FPkt.job (p : FPkt) : Nat := bits p.lo.toNat 32 12
def FPkt.hops (p : FPkt) : Nat := bits p.lo.toNat 44 6
def FPkt.len (p : FPkt) : Nat := bits p.lo.toNat 50 5
def FPkt.op (p : FPkt) : Nat := bits p.lo.toNat 60 4
/-- Class S: stamp, destination tile, line, atomic, ctrc. -/
def FPkt.stamp (p : FPkt) : Nat := bits p.hi.toNat 0 16
def FPkt.tile (p : FPkt) : Nat := bits p.hi.toNat 16 12
def FPkt.line (p : FPkt) : Nat := bits p.hi.toNat 28 15
def FPkt.atomic (p : FPkt) : Nat := bits p.hi.toNat 43 2
def FPkt.ctrc (p : FPkt) : Nat := bits p.hi.toNat 45 4
/-- Class C: destination tile. -/
def FPkt.cTile (p : FPkt) : Nat := bits p.hi.toNat 0 12
/-- Replace a field of a header word. -/
def setBits (w : Word) (lo n v : Nat) : Word := BitVec.ofNat 64 (w.toNat - bits w.toNat lo n * 2 ^ lo + v % 2 ^ n * 2 ^ lo)

/-- A class S packet's bits 127:64. -/
def fabSHi (stamp tile line atomic ctrc : Nat) : Word :=
  BitVec.ofNat 64 (stamp + tile * 2 ^ 16 + line * 2 ^ 28 + atomic * 2 ^ 43 + ctrc * 2 ^ 45)

/-- A header that uses a reserved encoding (R335, Table 10-3). -/
def FPkt.reserved (p : FPkt) : Bool :=
  p.cls == 3 || p.cast == 3 || (p.cls != 0 && p.cast != 0) || decide (16 < p.len) ||
  (p.cls == 0 && p.op != 0) || (p.cls == 1 && !(p.op == 1 || p.op == 2)) || (p.cls == 2 && decide (5 < p.op))

/-! ### Counts and records -/

/-- A scheduled-class packet discarded at a port: the record, and the fault line (R303). -/
def State.schedDiscard (n : Nat) (p : FPkt) (rule : Nat) (s : State) : State :=
  (s.portRec n 0x31 p.lo p.hi (BitVec.ofNat 64 rule) 1).drive

def State.rteStatus (code : Nat) (s : State) : State :=
  let s1 := s.wr F.RTE_STATUS.last_status 0 0 code
  s1

/-- A command or table write of the RTE block refused (R13, R339 to R344, R362, R363, R503). -/
def State.rteRefuse (code off : Nat) (s : State) : State :=
  let s1 := (s.rteStatus code).flag F.RTE_STATUS.again_count F.RTE_STATUS.cmd_refused 0 0 1
  if code = 1 then s1.refusedRec off else s1

/-! ### Routes -/

/-- The route entry of an EID (Table 10-4); the entry of the module's own EID is never consulted (R341): there is no route to it. -/
def State.route (s : State) (eid : Nat) : Nat :=
  if s.rd F.RTE_SELF.eid_valid 0 0 = 1 ∧ eid = s.eid then 0 else
  let f := match eid % 4 with
    | 0 => F.RTE_ROUTE.entry0 | 1 => F.RTE_ROUTE.entry1 | 2 => F.RTE_ROUTE.entry2 | _ => F.RTE_ROUTE.entry3
  s.rd f 0 (eid / 4)
def entryValid (e : Nat) : Bool := bits e 15 1 == 1
def entryKind (e : Nat) : Nat := bits e 13 2
def entryTarget (e : Nat) : Nat := bits e 0 8
/-- The port that a valid port entry names. -/
def State.portTo (s : State) (eid : Nat) : Option Nat :=
  let e := s.route eid
  if entryValid e ∧ entryKind e = 0 then some (entryTarget e % 16) else none

/-- Port b lies on port a's port die, or is its mirror (R342, R343). -/
def sameDie (a b : Nat) : Bool := a / 8 == b / 8
def mirrorOf (p : Nat) : Nat := if p < 8 then p + 8 else p - 8

/-! ### Links -/

/-- The port takes new traffic: UP and not draining (R345). -/
def Port.open_ (p : Port) : Bool := p.st == .up && p.drainAt == none

/-- The maintenance window of Table 9-2 at the port's width and rate. -/
def State.maintWindow (s : State) (n : Nat) : Nat :=
  match s.rd F.FAB_PORT_STATE.lanes_active n 0, s.rd F.FAB_PORT_STATE.rate n 0 with
  | 8, 0 => 4 | 4, 0 => 7 | 2, 0 => 13 | 1, 0 => 26 | 8, _ => 7 | 4, _ => 13 | 2, _ => 26 | 1, _ => 52
  | _, _ => 52

/-- The link data rate of Table 9-2, in the code of RTE_PLACE_NEED; 0 when the port is not UP. -/
def State.linkRate (s : State) (n : Nat) : Nat :=
  if (s.port n).st ≠ .up then 0
  else
    let w := match s.rd F.FAB_PORT_STATE.lanes_active n 0 with | 8 => 5 | 4 => 4 | 2 => 3 | _ => 2
    w - s.rd F.FAB_PORT_STATE.rate n 0

def State.wire (n : Nat) (w : Wire) (s : State) : State := s.put (.wire n w)
/-- A packet leaves with its CRC (R302). -/
def State.wirePkt (n : Nat) (p : FPkt) (s : State) : State := s.wire n (.pkt p p.crc)

/-- An uncredited M packet, sent at once: its op, its bits 127:64 and payload (R337, R345, R355). -/
def State.sendM (n op : Nat) (hi : Word) (data : List Byte) (s : State) : State :=
  s.wirePkt n ⟨fabLo 2 0 0 s.eid s.job 0 (data.length / 16) op, hi, data⟩

/-- The model cycle of a sidereal cycle not in the future. -/
def State.cycleOf (s : State) (t : Nat) : Nat := s.cycle + t - s.sidereal

/-- Credits of a pool that the port holds now (R354, R355): none without a link. -/
def Port.creditsC (p : Port) : Nat := if p.st.linked then 64 - (p.sentC + 256 - p.retC) % 256 else 0
def Port.creditsM (p : Port) : Nat := if p.st.linked then 16 - (p.sentM + 256 - p.retM) % 256 else 0

/-- A C or M packet received at a port has left its buffer (R355). -/
def State.freeC (n : Nat) (s : State) : State :=
  let p := s.port n
  s.setPort n { p with freedC := (p.freedC + 1) % 256, creditDue := true }
def State.freeM (n : Nat) (s : State) : State :=
  let p := s.port n
  s.setPort n { p with freedM := (p.freedM + 1) % 256, creditDue := true }

/-- Queue a credited M packet: discarded if the port is not UP (R345, R357). -/
def State.queueM (n : Nat) (p : FPkt) (s : State) : State :=
  let q := s.port n
  if q.open_ then s.setPort n { q with txM := q.txM ++ [p] } else (s.noRoute 1).routeRec n p 357

/-! ### Scheduled packets at a send point (R350, R353) -/

/-- What the send point of a packet at port `n` makes of it: 0 it may go, 1 not UP or in a maintenance window, 2 another
packet has the point. -/
def State.sendPoint (n t : Nat) (s : State) : Nat :=
  if (s.port n).open_ = false ∨ t % 20480 < s.maintWindow n ∨ 20477 < t % 20480 then 1
  else if (s.port n).pts.contains t then 2 else 0

def State.discardAt (n : Nat) (p : FPkt) (why : Nat) (s : State) : State :=
  (if why = 1 then s.addSat F.FAB_PORT_SCHED.origin_discard n 0 1 else s.addSat F.FAB_PORT_SCHED.collide n 0 1).schedDiscard n p 350

def State.takePoint (n t : Nat) (s : State) : State :=
  let p := s.port n
  s.setPort n { p with pts := t :: p.pts.filter (fun x => decide (t < x + 20480)) }

/-- A packet of an adoption copy has passed port `n`: its lines count (Table 15-9). -/
def State.copied (role n lines : Nat) (s : State) : State :=
  match s.adopt with
  | some a =>
    if a.copying ∧ a.role = role ∧ a.port = n then
      ({ s with adopt := some { a with lastAt := s.cycle, lines := a.lines + lines } } : State).wr F.RTE_ADOPT.lines_k 0 0
        (min ((a.lines + lines) / 1024) 0xFFFFFFFF)
    else s
  | none => s

def State.sendS (n : Nat) (p : FPkt) (s : State) : State :=
  ((s.addWrap F.FAB_PORT_SCHED.sent n 0 1).wirePkt n p).copied 1 n (p.len / 4)

/-- A forwarded packet leaves by port `n` of the same die with a new stamp from its send point (R353). -/
def State.forwardAt (n t : Nat) (p : FPkt) (s : State) : State :=
  match s.sendPoint n t with
  | 0 => (s.takePoint n t).sendS n { p with hi := setBits p.hi 0 16 t }
  | why => s.discardAt n p why

/-! ### Global barriers (R360, R361, R434, R484 to R487) -/

/-- The tile whose barrier node is the module's global root of an index (R229). -/
def State.globalRoot (s : State) (i : Nat) : Option Nat :=
  s.tiles.keys.find? (fun t => let tl := s.tile t
    tl.rd F.TIL_PUL_BAR.enable i == 1 && tl.rd F.TIL_PUL_BAR.global i == 1 && tl.rd F.TIL_PUL_BAR.parent i == 0)

/-- The arrival time of a child port (R484). -/
def State.kidTime (s : State) (k : Nat × Nat × Word × Nat) : Int :=
  (k.2.1 : Int) - ((s.rd F.FAB_PORT_PARALLAX.measured k.1 0 + 63) / 64 : Nat)

/-- The child that arrived last: latest time, then lowest port. -/
def State.lastKid (s : State) : List (Nat × Nat × Word × Nat) → Option (Nat × Nat × Word × Nat)
  | [] => none
  | k :: r => match s.lastKid r with
    | none => some k
    | some m => if s.kidTime k < s.kidTime m ∨ (s.kidTime k = s.kidTime m ∧ m.1 < k.1) then some m else some k

/-- The EID of the last contributor (R484). -/
def State.lastContributor (s : State) (g : GBar) : Nat :=
  match s.lastKid g.kids, g.local_ with
  | some k, some a => if (a : Int) < s.kidTime k then k.2.2.2 else s.eid
  | some k, none => k.2.2.2
  | none, _ => s.eid

/-- Store an episode in the ERR_DIGEST ring and clear the accumulator (R434). `a` is the cycle of the root's arrival. -/
def State.storeDigest (i : Nat) (own comb : Word) (a : Nat) (s : State) : State :=
  let k := s.rd F.ERR_DIGEST_HEAD.next 0 0
  let g := s.gb i
  let s1 := (((s.wr F.ERR_DIGEST_META.since_lo 0 k (s.sidereal + a - s.cycle)).wr F.ERR_DIGEST_META.episode 0 k g.episode).wr
    F.ERR_DIGEST_META.index 0 k i).wr F.ERR_DIGEST_META.valid 0 k 1
  let s2 := (s1.wr F.ERR_DIGEST_OWN.digest 0 k own.toNat).wr F.ERR_DIGEST_COMB.digest 0 k comb.toNat
  let s3 := (s2.wr F.ERR_DIGEST_HEAD.next 0 0 ((k + 1) % 16)).addWrap F.ERR_DIGEST_HEAD.stored 0 0 1
  s3.setGb i { g with acc := 0 }

/-- Put an episode into the rank window (R486, R487). -/
def State.rankEpisode (i episode last : Nat) (s : State) : State :=
  if s.st ≠ .running ∨ s.rd F.RTE_GBAR.enable 0 i = 0 ∨ (s.rd F.RTE_GBAR.root 0 i = 1 ∧ s.rd F.RTE_GBAR.children 0 i = 0) then s
  else
    let me := decide (last = s.eid)
    let was := s.rank.countP id
    let w := (me :: s.rank).take 1024
    let now := w.countP id
    let s1 := ((({ s with rank := w } : State).wr F.RTE_RANK.counted 0 0 w.length).wr F.RTE_RANK.late_count 0 0 now).wr
      F.RTE_RANK.last_eid 0 0 last
    let s2 := (s1.wr F.RTE_RANK.last_index 0 0 i).wr F.RTE_RANK.self_last 0 0 me.toNat
    if was = 512 ∧ now = 513 then
      ((s2.flag F.RTE_FLEET_STATUS.again_count F.RTE_FLEET_STATUS.suspect 0 0 1).irq 9).obsRec 0x64 0 0 0
        (s2.regWord .RTE_RANK 0 0) (BitVec.ofNat 64 (i + episode * 2 ^ 8)) 0 0 0 0 0
    else s2

/-- The newest entry of the digest ring. -/
def State.lastDigest (s : State) : Word × Word :=
  let k := (s.rd F.ERR_DIGEST_HEAD.next 0 0 + 15) % 16
  (BitVec.ofNat 64 (s.rd F.ERR_DIGEST_OWN.digest 0 k), BitVec.ofNat 64 (s.rd F.ERR_DIGEST_COMB.digest 0 k))

/-- A conjunction counts its episode (R491 step 4, R492). At the root the value compared is the peer's digest; the follower
never learns the root's, and the value there is free. -/
def State.conjEpisode (i : Nat) (mismatch : Bool) (s : State) : State :=
  match s.conj with
  | some c =>
    if c.running = false ∨ i ≠ 31 then s
    else
      let s0 : State := { s with conj := some { c with done := c.done + 1 } }
      if mismatch then
        let d := s.lastDigest
        let peer := if c.role = 0 then d.1 ^^^ d.2 else Config.freeWord s.fresh
        let s1 := ({ s0 with fresh := s.fresh + 1 } : State).wr F.RTE_CONJ.mismatched 0 0 (s.rd F.RTE_CONJ.mismatched 0 0 + 1)
        s1.obsRec 0x55 0 0 0 d.1 peer (BitVec.ofNat 64 (c.done * 2 ^ 8)) (BitVec.ofNat 64 c.peer) 0 0 0
      else s0.wr F.RTE_CONJ.matched 0 0 (s.rd F.RTE_CONJ.matched 0 0 + 1)
  | none => s

/-- The release of index `i` is here: it is signalled to the local root for cycle `r` (sidereal), or 32 cycles from now if
that is too late; the episode is over (R361). -/
def State.gbRelease (i r last : Nat) (mismatch : Bool) (s : State) : State :=
  let g := s.gb i
  let late := decide (r < s.sidereal + 32)
  let when_ := if late then s.cycle + 32 else s.cycle + (r - s.sidereal)
  let s1 := s.setGb i { g with local_ := none, kids := [], episode := (g.episode + 1) % 256, arrivedUp := false, signal := some when_ }
  let s2 := if late then
      ((s1.flag F.RTE_STATUS.again_count F.RTE_STATUS.gbar_late 0 0 1).addSat F.RTE_DROP.gbar_late 0 0 1).obsRec 0x34 11 0 0
        0 (BitVec.ofNat 64 361) 0 0 0 0 0
    else s1
  (s2.rankEpisode i g.episode last).conjEpisode i mismatch

/-- Header bits 127:64 of BAR_ARRIVE and BAR_RELEASE (R360). -/
def gbarHi (i episode : Nat) : Word := BitVec.ofNat 64 (i + episode * 2 ^ 5)

/-- The ports of a mask, ascending. -/
def portsOf (mask : Nat) : List Nat := allPorts.filter (fun n => bits mask n 1 == 1)

/-- Send a BAR_RELEASE to every child port. -/
def State.sendRelease (i episode : Nat) (data : List Byte) (s : State) : State :=
  (portsOf (s.rd F.RTE_GBAR.children 0 i)).foldl (fun s n =>
    s.queueM n ⟨fabLo 2 0 0 s.eid s.job 0 1 5, gbarHi i episode, data⟩) s

/-- The cycle in which the module has arrived (R360): that of its last arrival, its local root's or a child's. -/
def GBar.arrival (now : Nat) (g : GBar) : Nat :=
  match (g.local_.toList ++ g.kids.map (·.2.1)).max? with
  | some a => min a now
  | none => now

/-- The module arrives at index `i` if its local root and every child have arrived: a module that is not the root sends
BAR_ARRIVE to its parent, the root releases (R360, R361, R434, R484, R485). -/
def State.gbArrive (i : Nat) (s : State) : State :=
  let g := s.gb i
  let kids := portsOf (s.rd F.RTE_GBAR.children 0 i)
  let ready := s.rd F.RTE_GBAR.enable 0 i == 1 && !g.arrivedUp && (g.local_.isSome || (s.globalRoot i).isNone) &&
    kids.all (fun n => g.kids.any (fun k => k.1 == n))
  if ready = false then s
  else
    let own := g.acc
    let comb := g.kids.foldl (fun a k => a ^^^ k.2.2.1) own
    let last := s.lastContributor g
    let s1 := match g.local_ with
      | some a => s.storeDigest i own comb a
      | none => s
    if s.rd F.RTE_GBAR.root 0 i = 1 then
      let conj := match s.conj with | some c => c.running && i == 31 | none => false
      let mis := conj && comb != 0
      let r := s.sidereal + g.arrival s.cycle - s.cycle + s.rd F.RTE_GBAR.lead 0 i
      let data := leBytes 8 r ++ leBytes 2 last ++ leBytes 6 mis.toNat
      (s1.sendRelease i g.episode data).gbRelease i r last mis
    else
      let s2 := s1.setGb i { (s1.gb i) with arrivedUp := true }
      s2.queueM (s.rd F.RTE_GBAR.parent 0 i) ⟨fabLo 2 0 0 s.eid s.job 0 1 4, gbarHi i g.episode,
        leBytes 8 comb.toNat ++ leBytes 8 last⟩

end Sys2Proof.Machine
end

