-- ==== Sys2Proof/Machine/ExecFab.lean ====
section
/-! DEFINITION. Perxiold links: port commands, training, parallax, codewords, neighbours, draining and credits (chapters 9
and 10). -/
namespace Sys2Proof.Machine

/-! ### Port commands (R305, R345, R346) -/

/-- last_status and last_cmd after a command; a refusal sets cmd_refused, and WRONG_STATE is recorded (R13, R305). -/
def State.portStatus (n cmd code : Nat) (s : State) : State :=
  let s1 := (s.wr F.FAB_PORT_STATE.last_status n 0 code).wr F.FAB_PORT_STATE.last_cmd n 0 cmd
  if code = 0 then s1
  else
    let s2 := s1.portFlag n F.FAB_PORT_STATUS.cmd_refused
    if code = 1 then s2.refusedRec (0x200000 + n * 0x10000) else s2

/-- TRAIN: a new training begins; L is 0 until the port next enters UP (Table 9-14). -/
def State.portTrain (n : Nat) (s : State) : State :=
  let s1 := (s.movePort n .training).wr F.FAB_PORT_PARALLAX.latency n 0 0
  s1.setPort n { (s.port n).emptied with st := .training, trainAt := some s.cycle }

/-- DARK: the notice goes out with the next maintenance codeword. -/
def State.portDark (n : Nat) (s : State) : State := s.setPort n { (s.port n) with darkNotice := true }

/-- The link begins to drain here, and the partner is told; a port that drains already goes on. -/
def State.beginDrain (n : Nat) (s : State) : State :=
  if (s.port n).open_ then (s.setPort n { (s.port n) with drainAt := some s.cycle, noticeOut := true }).sendM n 2 0 [] else s

/-- The port enters UP with full credits; a DISCOVER is due (R337, R346, R354). -/
def State.portUp (n : Nat) (s : State) : State :=
  let p := s.port n
  let q := { p with txC := [], txM := [], sentC := 0, sentM := 0, retC := 0, retM := 0, freedC := 0, freedM := 0, creditDue := false,
                    drainAt := none, noticeOut := false, noticeIn := false, discDue := true, pts := [], build := .empty }
  (s.setPort n q).movePort n .up

def State.portResume (n : Nat) (s : State) : State := (s.portUp n).sendM n 3 0 []

/-- A command of Table 9-3 in its legal port and module states. -/
def State.portCmd (n cmd : Nat) (s : State) : State :=
  if 16 ≤ n ∨ cmd = 0 then s
  else if 4 < cmd then s.portStatus n cmd 2
  else
    let p := (s.port n).st
    let m := s.st
    let running := m == .ready || m == .joined || m == .running
    let legal := match cmd with
      | 1 => (p == .dark || p == .down) && running
      | 2 => p == .training || p == .parallax || p == .drained || p == .down
      | 3 => p == .up && (running || m == .draining)
      | _ => p == .drained && (running || m == .draining)
    if legal = false then s.portStatus n cmd 1
    else
      let s1 := s.portStatus n cmd 0
      match cmd with
      | 1 => s1.portTrain n
      | 2 => s1.portDark n
      | 3 => s1.beginDrain n
      | _ => s1.portResume n

def execPortTrain (n : Nat) (s : State) : Ans := .next (s.portCmd n 1)
def execPortDark (n : Nat) (s : State) : Ans := .next (s.portCmd n 2)
def execPortDrain (n : Nat) (s : State) : Ans := .next (s.portCmd n 3)
def execPortResume (n : Nat) (s : State) : Ans := .next (s.portCmd n 4)

/-- FAB_PORT_CFG takes writes only while the port is DARK or DOWN (R334). -/
def State.writePortCfg (n : Nat) (a : Access) (s : State) : State :=
  if (s.port n).st = .dark ∨ (s.port n).st = .down then { s with regs := s.regs.store .FAB_PORT_CFG n 0 s.cycle a }
  else s.portFlag n F.FAB_PORT_STATUS.cfg_ignored

def execFabPortCfgWrite (n : Nat) (v : Word) (s : State) : Ans :=
  .next (if 16 ≤ n then s else s.writePortCfg n (.full v))

/-! ### Training (R310, R311) -/

/-- The lane sets of R311, widest first: width and mask. -/
def laneSets : List (Nat × Nat) :=
  [(8, 0xFF), (4, 0x0F), (4, 0xF0), (2, 0x03), (2, 0x0C), (2, 0x30), (2, 0xC0)] ++ (List.range 8).map (fun l => (1, 2 ^ l))

def widthOf (code : Nat) : Nat := 2 ^ code

/-- The best acceptable set among lanes `ok` at least `minW` wide. -/
def pickLanes (ok minW : Nat) : Option (Nat × Nat) :=
  laneSets.find? (fun p => decide (minW ≤ p.1) && (p.2 &&& ok) == p.2)

/-- The outcome of training: rate (0 212.5 GBd, 1 106.25 GBd), width and lane set, or the reason it fails. `pass212` and
`pass106` name the lanes that passed in both directions. The second round is run only when the first finds no set (R310). -/
def State.chooseLanes (s : State) (n pass212 pass106 partnerMask partnerMin : Nat) : Except Nat (Nat × Nat × Nat) :=
  let mask := s.rd F.FAB_PORT_CFG.lane_mask n 0 &&& partnerMask
  let minW := max (widthOf (s.rd F.FAB_PORT_CFG.min_width n 0)) (widthOf partnerMin)
  let speed := s.rd F.FAB_PORT_CFG.speed_allow n 0
  let first := if bits speed 0 1 = 1 then pickLanes (pass212 &&& mask) minW else none
  match first with
  | some (w, l) => .ok (0, w, l)
  | none =>
    let second := if bits speed 1 1 = 1 then pickLanes (pass106 &&& mask) minW else none
    match second with
    | some (w, l) => .ok (1, w, l)
    | none =>
      let some_ := (bits speed 0 1 == 1 && (pass212 &&& mask) != 0) || (bits speed 1 1 == 1 && (pass106 &&& mask) != 0)
      .error (if some_ then 3 else 2)

/-- TRAINING_DONE (R306, R310, R311). Only lanes of lane_mask take part: of the others no result is recorded (their snr keeps its last
value, which the spec leaves open; log entry 37). `snr` is by lane; `locks` says that codewords lock on the chosen set. -/
def State.trainingDone (n pass212 pass106 partnerMask partnerMin : Nat) (snr : List Nat) (locks : Bool) (s : State) : State :=
  if 16 ≤ n ∨ (s.port n).st ≠ .training then s
  else
    let second := match s.chooseLanes n pass212 0 partnerMask partnerMin with | .ok (0, _, _) => false | _ => true
    let speed := s.rd F.FAB_PORT_CFG.speed_allow n 0
    let mask := s.rd F.FAB_PORT_CFG.lane_mask n 0
    let choice := s.chooseLanes n pass212 pass106 partnerMask partnerMin
    let s1 := (List.range 8).foldl (fun s l =>
      if bits mask l 1 = 0 then (s.wr F.FAB_LANE.pass_212 n l 0).wr F.FAB_LANE.pass_106 n l 0
      else ((s.wr F.FAB_LANE.snr n l (snr.getD l 0)).wr F.FAB_LANE.pass_212 n l (if bits speed 0 1 = 1 then bits pass212 l 1 else 0)).wr
        F.FAB_LANE.pass_106 n l (if second && bits speed 1 1 == 1 then bits pass106 l 1 else 0)) s
    match choice with
    | .error r => s1.portDown n r
    | .ok (rate, w, l) =>
      if locks = false then s1.portDown n 2
      else
        (((s1.wr F.FAB_PORT_STATE.rate n 0 rate).wr F.FAB_PORT_STATE.lane_set n 0 l).wr F.FAB_PORT_STATE.lanes_active n 0 w).movePort
          n .parallax

def execTrainingDone (n pass212 pass106 partnerMask partnerMin : Nat) (snr : List Nat) (locks : Bool) (s : State) : Ans :=
  .next (s.trainingDone n pass212 pass106 partnerMask partnerMin snr locks)

/-- TRAINING_NO_PARTNER (R306): no signal within 1,000 ms of TRAIN. -/
def execTrainingNoPartner (n : Nat) (s : State) : Ans :=
  .next (if (s.port n).st = .training ∧ (s.port n).trainAt.any (fun a => decide (a + 2000000000 ≤ s.cycle)) then s.portDown n 1 else s)

/-! ### Parallax (R313, R314) -/

/-- The measured latency in whole cycles, rounded up. -/
def wholeCycles (m : Nat) : Nat := (m + 63) / 64

/-- The logical latency for a measurement of M cycles and FAB_PORT_CFG.latency (R314). -/
def logicalLatency (m cfg : Nat) : Nat := if cfg = 0 then (max 64 (m + 8) + 7) / 8 * 8 else cfg

/-- PARALLAX_DONE: after 256 exchanges half their mean is the one-way latency. `up` says whether that half is rounded up to the unit of
1/64 cycle: the spec gives no rounding, the sender of the command does (log entry 92). -/
def State.parallaxDone (n : Nat) (up : Bool) (s : State) : State :=
  if 16 ≤ n ∨ (s.port n).st ≠ .parallax ∨ (s.port n).trips < 256 then s
  else
    let s1 := s.wr F.FAB_PORT_PARALLAX.measured n 0 (((s.port n).tripSum + if up then 511 else 0) / 512)
    let m := wholeCycles (s1.rd F.FAB_PORT_PARALLAX.measured n 0)
    let l := logicalLatency m (s.rd F.FAB_PORT_CFG.latency n 0)
    if 64 ≤ l ∧ l ≤ 4096 ∧ m + 8 ≤ l then (s1.wr F.FAB_PORT_PARALLAX.latency n 0 l).portUp n
    else s1.portDown n 4

def execParallaxDone (n : Nat) (up : Bool) (s : State) : Ans := .next (s.parallaxDone n up)

/-! ### Codewords (R302 to R304, R316, R317) -/

/-- A received packet is discarded at its check: counted; for class S also recorded, with the fault line (R302, R303). -/
def State.crcDiscard (n : Nat) (p : FPkt) (s : State) : State :=
  let s1 := (s.addSat F.FAB_PORT_PKT.crc_discard n 0 1).portFlag n F.FAB_PORT_STATUS.crc_discard
  if p.cls = 0 then s1.schedDiscard n p 303 else s1

/-- An S packet whose head was complete in sidereal cycle `h` enters the elastic buffer for its delivery cycle, or is late (R316,
R317). -/
def State.takeS (n h : Nat) (p : FPkt) (s : State) : State :=
  let q := s.port n
  let l := s.rd F.FAB_PORT_PARALLAX.latency n 0
  let wait := (p.stamp + l + 2 ^ 16 - h % 2 ^ 16) % 2 ^ 16
  let timed := (s.timeSt = 2 ∨ s.timeSt = 3) ∧ q.markerOk
  if timed ∧ 0 < wait ∧ wait ≤ l + 4 then s.setPort n { q with elastic := q.elastic ++ [⟨h + wait, p⟩] }
  else ((s.addSat F.FAB_PORT_PKT.late n 0 1).portFlag n F.FAB_PORT_STATUS.late).schedDiscard n p 317

/-- A packet whose last codeword has come: `bad` says that a codeword that carries part of it was uncorrectable, `h` is the sidereal
cycle in which its head was complete (R302, R317, R318, R335). -/
def State.takePkt (n : Nat) (bad : Bool) (h : Nat) (p : FPkt) (crc : BitVec 32) (s : State) : State :=
  if bad ∨ crc ≠ p.crc ∨ p.reserved ∨ p.data.length ≠ 16 * p.len then s.crcDiscard n p
  else match p.cls with
    | 0 => s.takeS n h p
    | 1 => { s with routeQ := s.routeQ ++ [⟨n / 8, 6 * (n % 8), some n, p⟩] }
    | _ => let q := s.port n
           s.setPort n { q with rxM := q.rxM ++ [p] }

/-- The packets that end in a codeword: the first may have begun in the codeword before. -/
def State.takePkts (n : Nat) (bad : Bool) : Option (Bool × Option Nat) → List (Word × Word × List Byte × BitVec 32) → State → State
  | _, [], s => s
  | part, x :: r, s =>
    State.takePkts n bad none r (s.takePkt n (bad || part.any (·.1)) ((part.bind (·.2)).getD s.sidereal) ⟨x.1, x.2.1, x.2.2.1⟩ x.2.2.2)

/-- The lanes of a set, ascending. -/
def lanesOf (set : Nat) : List Nat := (List.range 8).filter (fun l => bits set l 1 == 1)

/-- The symbols of a codeword's 544 that are in error. -/
def badSymbols (errs : List Nat) : List Nat := (errs.filter (fun i => decide (i < 544))).eraseDups

/-- CODEWORD_RECEIVE (R300, R302, R304): `errs` are the places of the codeword's symbols in error; up to 15 are corrected, and each
counts on its lane, symbol i's being lane number i mod w of the set. `pkts` are the packets that end in the codeword, `begun` says that a
packet begins in it and goes on in the next, and whether its head is complete. In PARALLAX codewords are counted and carry no packets. -/
def State.codeword (n : Nat) (errs : List Nat) (pkts : List (Word × Word × List Byte × BitVec 32)) (begun : Option Bool) (s : State) : State :=
  if 16 ≤ n ∨ ¬((s.port n).st.linked ∨ (s.port n).st = .parallax) then s
  else
    let p := s.port n
    let c := p.cw + 1
    let es := badSymbols errs
    let bad := decide (15 < es.length)
    let lanes := lanesOf (s.rd F.FAB_PORT_STATE.lane_set n 0)
    let s0 := s.setPort n { p with cw := c, bad := (if bad then c :: p.bad else p.bad).filter (fun k => decide (c < k + 1048576)),
                                   part := begun.map (fun h => (bad, if h then some s.sidereal else none)) }
    let s1 := if bad then (s0.addSat F.FAB_PORT_FEC.uncorrectable n 0 1).portFlag n F.FAB_PORT_STATUS.fec_uncorrectable
      else if es = [] then s0
      else es.foldl (fun s i => s.addSat F.FAB_LANE.symbols n (lanes.getD (i % lanes.length) 0) 1) (s0.addSat F.FAB_PORT_FEC.corrected n 0 1)
    let s2 := if p.st.linked then s1.takePkts n bad p.part pkts else s1
    if 8 < (s2.port n).bad.length then s2.portDown n 6 else s2

def execCodewordReceive (n : Nat) (errs : List Nat) (pkts : List (Word × Word × List Byte × BitVec 32)) (begun : Option Bool) (s : State) : Ans :=
  .next (s.codeword n errs pkts begun)

/-- SIGNAL_LOST (R306): lock lost on an active lane for 1 µs. -/
def execSignalLost (n : Nat) (s : State) : Ans :=
  .next (if (s.port n).st.linked ∨ (s.port n).st = .parallax then s.portDown n 5 else s)

/-! ### Neighbours (R337, R338) -/

/-- The DISCOVER payload. -/
def State.discoverData (n : Nat) (s : State) : List Byte :=
  leBytes 8 (s.rd F.RTE_SERIAL.serial 0 0) ++ leBytes 2 (s.eid + s.rd F.RTE_SELF.eid_valid 0 0 * 2 ^ 15) ++ leBytes 1 n ++
    leBytes 1 (s.rd F.PWR_SLOT.slot_id 0 0) ++ leBytes 2 s.job ++ leBytes 1 s.st.code ++ leBytes 1 0

/-- DISCOVER_SEND. -/
def State.discoverSend (n : Nat) (s : State) : State :=
  let p := s.port n
  if p.st.linked ∧ (p.discDue ∨ p.discAt + 1048576 ≤ s.cycle) then
    (s.setPort n { p with discDue := false, discAt := s.cycle }).sendM n 1 0 (s.discoverData n)
  else s

def execDiscoverSend (n : Nat) (s : State) : Ans := .next (if 16 ≤ n then s else s.discoverSend n)

/-- The oldest M packet at the port, if it is of an op and the port is linked, is taken and acted on. -/
def State.takeM (n op : Nat) (f : FPkt → State → State) (s : State) : State :=
  let p := s.port n
  match p.rxM with
  | q :: rest => if 16 ≤ n ∨ q.op ≠ op ∨ p.st.linked = false then s else f q (s.setPort n { p with rxM := rest })
  | [] => s

/-- DISCOVER_RECEIVE: the neighbour's identity, and whether it repeats this module's EID. -/
def State.discovered (n : Nat) (p : FPkt) (s : State) : State :=
  let w := leNat (p.data.drop 8)
  let serial := leNat (p.data.take 8)
  let s1 := (((s.wr F.FAB_PORT_NBR.serial n 0 serial).wr F.FAB_PORT_NBR_ID.fresh n 0 1).wr F.FAB_PORT_NBR_ID.eid n 0
    (bits w 0 14)).wr F.FAB_PORT_NBR_ID.eid_valid n 0 (bits w 15 1)
  let s2 := (((s1.wr F.FAB_PORT_NBR_ID.port n 0 (bits w 16 4)).wr F.FAB_PORT_NBR_ID.slot_id n 0 (bits w 24 6)).wr
    F.FAB_PORT_NBR_ID.job n 0 (bits w 32 12)).wr F.FAB_PORT_NBR_ID.state n 0 (bits w 48 4)
  let s3 := s2.setPort n { (s2.port n) with nbrAt := some s.cycle }
  if bits w 15 1 = 1 ∧ s.rd F.RTE_SELF.eid_valid 0 0 = 1 ∧ bits w 0 14 = s.eid then
    (s3.flag F.RTE_STATUS.again_count F.RTE_STATUS.dup_eid 0 0 1).routeRec n p 338
  else s3

def execDiscoverReceive (n : Nat) (s : State) : Ans := .next (s.takeM n 1 (State.discovered n))

/-- NEIGHBOUR_STALE: 2,097,152 cycles without a DISCOVER. -/
def execNeighbourStale (n : Nat) (s : State) : Ans :=
  .next (if (s.port n).nbrAt.any (fun a => decide (a + 2097152 ≤ s.cycle)) then
    (s.wr F.FAB_PORT_NBR_ID.fresh n 0 0).setPort n { (s.port n) with nbrAt := none } else s)

/-! ### Draining (R345, R346) -/

def execDrainNoticeReceive (n : Nat) (s : State) : Ans :=
  .next (s.takeM n 2 fun _ s =>
    let s1 := s.setPort n { (s.port n) with noticeIn := true }
    s1.beginDrain n)

def State.drained (n : Nat) (s : State) : State :=
  (s.setPort n { (s.port n) with drainAt := none, noticeOut := false, noticeIn := false, build := .empty }).movePort n .drained

/-- Packets that the port was building when it began to drain, and that no discard has taken yet. -/
def Port.building (p : Port) : Nat := (p.build.entries.filter (fun e => !e.2.dead)).length

/-- PORT_DRAINED: notices exchanged, transmit queue (with the packets being built) and elastic buffer empty, and every granted credit
back. -/
def execPortDrained (n : Nat) (s : State) : Ans :=
  let p := s.port n
  .next (if p.st = .up ∧ p.drainAt.isSome ∧ p.noticeOut ∧ p.noticeIn ∧ p.txC = [] ∧ p.txM = [] ∧ p.elastic = [] ∧ p.rxM = [] ∧
      p.building = 0 ∧ s.routeQ.all (fun r => r.from_ != some n) then s.drained n else s)

/-- PORT_DRAIN_TIMEOUT: after 20,000 cycles what remains is discarded and counted. -/
def execPortDrainTimeout (n : Nat) (s : State) : Ans :=
  let p := s.port n
  .next (if p.st = .up ∧ p.drainAt.any (fun a => decide (a + 20000 ≤ s.cycle)) then
    ((s.noRoute (p.txC.length + p.txM.length + p.elastic.length + p.building)).setPort n { p with txC := [], txM := [], elastic := [] }).drained n
  else s)

def execResumeNoticeReceive (n : Nat) (s : State) : Ans :=
  .next (s.takeM n 3 fun _ s => if (s.port n).st = .drained then s.portUp n else s)

/-! ### Credits (R354, R355) -/

/-- CONTROL_PACKET_SEND: the head of the C queue, or of the credited M queue, leaves while a credit is held. -/
def State.controlSend (n : Nat) (m : Bool) (s : State) : State :=
  let p := s.port n
  if 16 ≤ n ∨ p.open_ = false then s
  else if m then match p.txM with
    | q :: rest => if p.creditsM = 0 then s else (s.setPort n { p with txM := rest, sentM := (p.sentM + 1) % 256 }).wirePkt n q
    | [] => s
  else match p.txC with
    | q :: rest => if p.creditsC = 0 then s else (s.setPort n { p with txC := rest, sentC := (p.sentC + 1) % 256 }).wirePkt n q
    | [] => s

def execControlPacketSend (n : Nat) (m : Bool) (s : State) : Ans := .next (s.controlSend n m)

/-- CREDIT_PACKET_SEND: after freeing a buffer, and once in every maintenance period. -/
def execCreditPacketSend (n : Nat) (s : State) : Ans :=
  let p := s.port n
  let period := s.sidereal / 20480
  .next (if n < 16 ∧ p.st.linked ∧ (p.creditDue ∨ p.creditPeriod ≠ period) then
    (s.setPort n { p with creditDue := false, creditPeriod := period }).sendM n 0 (BitVec.ofNat 64 (p.freedC + p.freedM * 2 ^ 8)) []
  else s)

def execCreditPacketReceive (n : Nat) (s : State) : Ans :=
  .next (s.takeM n 0 fun q s =>
    s.setPort n { (s.port n) with retC := bits q.hi.toNat 0 8, retM := bits q.hi.toNat 8 8 })

end Sys2Proof.Machine
end

