-- ==== Sys2Proof/Machine/ExecTime.lean ====
section
/-! DEFINITION. Maintenance codewords and sidereal time (R301, R313, R319, R320 to R331). -/
namespace Sys2Proof.Machine

def State.role (s : State) : Nat := s.rd F.GLB_TIME_CFG.role 0 0
def State.depth (s : State) : Nat := s.rd F.GLB_TIME_STATUS.depth 0 0

/-- A write of GLB_TIME_CFG takes effect in READY and JOINED with no start pending, and restarts time (R320). -/
def State.writeTimeCfg (a : Access) (s : State) : State :=
  if (s.st = .ready ∨ s.st = .joined) ∧ s.startPending = false then
    let s1 : State := { s with regs := s.regs.store .GLB_TIME_CFG 0 0 s.cycle a, freqPort := none, holdAt := none }
    let s2 := (s1.wr F.GLB_TIME_STATUS.offset 0 0 0).wr F.GLB_TIME_STATUS.depth 0 0 0
    s2.setTime (match s1.role with | 1 => 2 | 2 => 1 | _ => 0)
  else s.timeFlag F.GLB_TIME_STATUS.cfg_ignored

def execGlbTimeCfgWrite (v : Word) (s : State) : Ans := .next (s.writeTimeCfg (.full v))

/-- The last marker on a port qualifies it as a parent (R323, R324 step 1). -/
def State.markerGood (s : State) (n : Nat) : Bool :=
  (s.port n).st.linked && (s.port n).markerOk && decide (s.rd F.FAB_PORT_PARTNER.depth n 0 ≤ 63)

/-- The port to which a child in HOLDOVER can return (R328): the primary parent, or else the alternate one. -/
def State.returnPort (s : State) : Option Nat :=
  let p := s.rd F.GLB_TIME_CFG.parent 0 0
  let q := s.rd F.GLB_TIME_CFG.alt_parent 0 0
  if s.markerGood p then some p else if s.rd F.GLB_TIME_CFG.alt_en 0 0 = 1 ∧ s.markerGood q then some q else none

/-- FREQUENCY_LOCK: a child in ACQUIRING has locked its root frequency to its parent (R324 step 2), one in HOLDOVER to the port by
which it can return (R328). -/
def State.frequencyLock (s : State) : State :=
  let p := s.rd F.GLB_TIME_CFG.parent 0 0
  if s.timeSt = 1 ∧ s.markerGood p then { s with freqPort := some p }
  else if s.timeSt = 3 ∧ s.returnPort.isSome then { s with freqPort := s.returnPort }
  else s

def execFrequencyLock (s : State) : Ans := .next s.frequencyLock

/-- The parent's time at a marker's arrival, in units of 1/64 cycle: the marker's count plus the port's measured latency (R324
step 3). -/
def State.parentTime (s : State) (n count : Nat) : Nat := 64 * count + s.rd F.FAB_PORT_PARALLAX.measured n 0

/-- The module's offset from its parent at a marker that comes `sub` units of 1/64 into the cycle: its count and the phase of its
clock, less the parent's time (R324 step 3, R326). -/
def State.offsetOf (s : State) (n count sub : Nat) : Int := 64 * (s.sidereal : Int) + s.phase + sub - s.parentTime n count

/-- Step the count and the clock phase so that the offset is 0 (R324 step 3). -/
def State.stepTime (n count sub : Nat) (s : State) : State :=
  let t := (s.parentTime n count : Int) - sub
  { s with sidereal := (t / 64).toNat % 2 ^ 64, phase := t % 64 }

/-- Remove the offset without a step of the count: the clock's edges shift (R328). -/
def State.slewTime (n count sub : Nat) (s : State) : State := { s with phase := s.phase - s.offsetOf n count sub }

/-- The offset as GLB_TIME_STATUS holds it: 16 bits, signed, cut at its ends. -/
def offset16 (o : Int) : Nat := ((max (-32768) (min 32767 o)) % 65536).toNat

/-- The child is locked to port `n` (R324 step 4, R328). -/
def State.lockTo (n depth : Nat) (s : State) : State :=
  (({ s with holdAt := none, freqPort := none } : State).wr F.GLB_TIME_STATUS.depth 0 0 (depth + 1)).wr
    F.GLB_TIME_STATUS.active_parent 0 0 n |>.setTime 2

/-- What a marker on port `n` does to the module's time (R324, R326 to R328). -/
def State.marker (n count state depth sub : Nat) (s : State) : State :=
  let good := decide ((state = 2 ∨ state = 3) ∧ depth ≤ 63) && (s.port n).st.linked
  let primary := s.rd F.GLB_TIME_CFG.parent 0 0
  let off := s.offsetOf n count sub
  let big := decide (64 < off.natAbs)
  if s.role ≠ 2 then s
  else match s.timeSt with
    | 1 =>
      if n ≠ primary then s
      else if depth = 64 ∧ (state = 2 ∨ state = 3) then s.timeFlag F.GLB_TIME_STATUS.depth_exceeded
      else if good ∧ s.freqPort = some n then
        if s.inJob then s.loseTime
        else
          (((s.stepTime n count sub).wr F.GLB_TIME_STATUS.offset 0 0 0).timeFlag F.GLB_TIME_STATUS.stepped).lockTo n depth
      else s
    | 2 =>
      if n ≠ s.rd F.GLB_TIME_STATUS.active_parent 0 0 then s
      else if good = false then s.enterHoldover
      else
        let s1 := s.wr F.GLB_TIME_STATUS.offset 0 0 (offset16 off)
        if big then
          let s2 := s1.timeFlag F.GLB_TIME_STATUS.align_fault
          let s3 := s2.loseTime
          s3.obsRec 0x33 11 0 0 (s3.regWord .GLB_TIME_STATUS 0 0) 0 0 0 0 0 0
        else s1
    | 3 =>
      if good = false ∨ s.freqPort ≠ some n ∨ s.returnPort ≠ some n then s
      else
        let s1 := s.wr F.GLB_TIME_STATUS.offset 0 0 (offset16 off)
        if big then s1.loseTime
        else
          let s2 := s1.slewTime n count sub
          (if n = primary then s2 else s2.timeFlag F.GLB_TIME_STATUS.switched).lockTo n depth
    | _ => s

/-- The round trip less the partner's turnaround, in units of 1/64 cycle, that a reply gives: the probe it answers is known by its marker
count (R313). -/
def Port.trip (p : Port) (now : Nat) (reply : Option (Nat × Nat)) : Option Nat :=
  reply.bind (fun r => (p.probes.find? (fun q => q.1 == r.1)).map (fun q => now - q.2 - r.2))

/-- A running measurement of an UP or DRAINED port (R319). -/
def State.remeasure (n trip : Nat) (s : State) : State :=
  let t := s.wr F.FAB_PORT_PARALLAX.measured n 0 (trip / 2)
  if t.rd F.FAB_PORT_PARALLAX.latency n 0 < wholeCycles (t.rd F.FAB_PORT_PARALLAX.measured n 0) + 4 then
    let u := t.portFlag n F.FAB_PORT_STATUS.margin_low
    u.portRec n 0x32 (u.regWord .FAB_PORT_PARALLAX n 0) 0 0 0
  else t

/-- The parallax exchange of a maintenance codeword (R313, R319): its reply gives a round trip, which a port in PARALLAX adds up (256 of
them) and an UP or DRAINED one turns into its running measurement; its probe waits for the reply. -/
def State.parallaxIn (n count now : Nat) (reply : Option (Nat × Nat)) (s : State) : State :=
  let p := s.port n
  let q : Port := { p with probeIn := some (count, now) }
  match p.trip now reply with
  | none => s.setPort n q
  | some d =>
    if p.st = .parallax then
      s.setPort n (if p.trips < 256 then { q with trips := p.trips + 1, tripSum := p.tripSum + d } else q)
    else (s.setPort n q).remeasure n d

/-- MAINTENANCE_CODEWORD_RECEIVE: the partner's marker, the parallax exchange, and a PARTNER_DARK notice (R306, R313, R319, R323). `sub`
says how many units of 1/64 cycle into the cycle it comes, by the edges as the model's cycle count has them. -/
def State.maintReceive (n count role state depth : Nat) (dark : Bool) (reply : Option (Nat × Nat)) (sub : Nat) (s : State) : State :=
  let p := s.port n
  if 16 ≤ n ∨ ¬(p.st.linked ∨ p.st = .parallax) then s
  else
    let s1 := ((s.wr F.FAB_PORT_PARTNER.depth n 0 depth).wr F.FAB_PORT_PARTNER.role n 0 role).wr F.FAB_PORT_PARTNER.state n 0 state
    let s2 := s1.setPort n { p with markerAt := some s.cycle, markerOk := state == 2 || state == 3 }
    let s3 := s2.parallaxIn n count (64 * s.cycle + sub % 64) reply
    let s4 := s3.marker n count state depth (sub % 64)
    if dark then s4.portDown n 7 else s4

def execMaintenanceCodewordReceive (n count role state depth : Nat) (dark : Bool) (ex : Option (Nat × Nat) × Nat) (s : State) : Ans :=
  .next (s.maintReceive n count role state depth dark ex.1 ex.2)

/-- MAINTENANCE_CODEWORD_SEND: one at each multiple of 20,480 (R301, R323); a port told to go DARK goes dark after it. -/
def State.maintSend (n : Nat) (s : State) : State :=
  let p := s.port n
  let k := s.sidereal / 20480
  let on := p.st.linked || p.st == .parallax
  if 16 ≤ n ∨ p.maintAt = some k ∨ ¬(on ∨ p.darkNotice) then s
  else
    -- the codeword starts at the multiple; with it goes the probe, and the reply to the partner's last one
    let start := 64 * (s.cycle - s.sidereal % 20480)
    let q : Port := { p with maintAt := some k, probeIn := none, probes := (k * 20480, start) :: p.probes.take 1 }
    let reply := p.probeIn.map (fun x => (x.1, start - x.2))
    let s1 := s.setPort n q
    let s2 := if on then s1.wire n (.maint ⟨k * 20480, s.role, s.timeSt, s.depth, p.darkNotice, reply⟩) else s1
    if p.darkNotice then
      let s3 := s2.movePort n .dark
      s3.setPort n (s3.port n).emptied
    else s2

def execMaintenanceCodewordSend (n : Nat) (s : State) : Ans := .next (s.maintSend n)

/-- MARKER_TIMEOUT: three maintenance periods without a valid marker on the active parent (R327). -/
def execMarkerTimeout (s : State) : Ans :=
  let p := s.rd F.GLB_TIME_STATUS.active_parent 0 0
  .next (if s.timeSt = 2 ∧ s.role = 2 ∧ ¬((s.port p).markerAt.any (fun a => decide (s.cycle < a + 61440))) then s.enterHoldover else s)

/-- HOLDOVER_EXPIRY: 20,000,000 cycles in HOLDOVER (R329, R331). -/
def execHoldoverExpiry (s : State) : Ans :=
  .next (if s.timeSt = 3 ∧ s.holdAt.any (fun a => decide (a + 20000000 ≤ s.cycle)) then s.loseTime else s)

end Sys2Proof.Machine
end

