-- ==== Sys2Proof/Machine/Bank.lean ====
section
/-! DEFINITION. Configuration banks and their presets (R403 to R407, R525), applied each time the module enters READY. -/
namespace Sys2Proof.Machine

/-- A write of PWR_ENV_CFG takes effect in every module state (R525). -/
def State.writeEnvCfg (a : Access) (s : State) : State := { s with regs := s.regs.store .PWR_ENV_CFG 0 0 s.cycle a }

/-- Flash offset of bank 0 (A) or 1 (B) (Table 12-1). -/
def bankBase (b : Nat) : Nat := 0x400000 + b % 2 * 0x100000

def State.flashNum (s : State) (a n : Nat) : Nat := Mem.num 0xFF s.flash a n
def State.flashBytes (s : State) (a n : Nat) : List Byte := Mem.bytes 0xFF s.flash a n

/-- A register that a bank may preset (Table 12-5). -/
def presetOk (off : Nat) : Bool :=
  off == 0x88 || off == 0x101088 || off == 0x3200048 || (decide (0x101000 ≤ off) && decide (off ≤ 0x101018) && off % 8 == 0) ||
    (decide (0x200008 ≤ off) && decide (off ≤ 0x2F0008) && (off - 0x200008) % 0x10000 == 0)

/-- Offset and value of entry `k` of a bank (R403). -/
def State.bankEntry (s : State) (b k : Nat) : Nat × Word :=
  (s.flashNum (bankBase b + 0x40 + 16 * k) 8, BitVec.ofNat 64 (s.flashNum (bankBase b + 0x48 + 16 * k) 8))

def State.bankEntries (s : State) (b : Nat) : List (Nat × Word) :=
  (List.range (s.flashNum (bankBase b + 0xC) 4)).map (s.bankEntry b)

/-- The first check of R405 that a bank fails, in the code of SEC_CFG_STATE.fail_check; 0: the bank is valid. -/
def State.bankFail (s : State) (b : Nat) : Nat :=
  let o := bankBase b
  let count := s.flashNum (o + 0xC) 4
  if s.flashNum o 4 ≠ 0x4746434E then 1
  else if s.flashNum (o + 4) 2 ≠ 1 then 2
  else if s.flashNum (o + 6) 2 / 2 ≠ 0 ∨ s.flashNum (o + 0x30) 16 ≠ 0 then 3
  else if 65532 < count then 4
  else if shake256 (s.flashBytes o 16 ++ s.flashBytes (o + 0x40) (16 * count)) ≠ s.flashBytes (o + 0x10) 32 then 5
  else if (s.bankEntries b).any (fun e => !(presetOk e.1)) then 6
  else 0

def State.bankSeq (s : State) (b : Nat) : Nat := s.flashNum (bankBase b + 8) 4
def State.bankHold (s : State) (b : Nat) : Bool := s.flashNum (bankBase b + 6) 2 % 2 == 1

/-- The boot record that is used (R398): of two valid copies the one written last; none, if neither is valid. -/
def State.bootRec (s : State) : Option BootCopy :=
  match s.boot.filter (·.valid) with
  | [] => none
  | [c] => some c
  | c :: d :: _ => if c.count < d.count then some d else some c

/-- The active bank: 0 A, 1 B, 3 NONE (R398, Table 12-9). -/
def State.activeBank (s : State) : Nat := match s.bootRec with | some c => c.bank | none => 3
/-- The slot that the boot record names; without a valid one, slot 0 (R398). -/
def State.bootSlot (s : State) : Nat := match s.bootRec with | some c => c.slot | none => 0

/-- Firmware writes the boot record: both copies, one after the other, with a new count (R398). -/
def State.writeBoot (slot bank : Nat) (s : State) : State :=
  let n := (match s.bootRec with | some c => c.count | none => 0) + 1
  { s with boot := [⟨slot, bank, n % 2 ^ 32, true⟩, ⟨slot, bank, n % 2 ^ 32, true⟩] }

/-- SEC_CFG_STATE and SEC_CFG_SEQ as the banks in flash and the boot record stand (Tables 12-9 and 12-10). -/
def State.cfgStatus (s : State) : State :=
  let b := s.activeBank
  let va := s.bankFail 0 == 0
  let vb := s.bankFail 1 == 0
  let s1 := ((((s.wr F.SEC_CFG_STATE.active 0 0 b).wr F.SEC_CFG_STATE.boot_hold 0 0 (b != 3 && s.bankHold b).toNat).wr
    F.SEC_CFG_STATE.a_valid 0 0 va.toNat).wr F.SEC_CFG_STATE.b_valid 0 0 vb.toNat).wr F.SEC_CFG_STATE.fail_check 0 0
    (if b = 3 then 0 else s.bankFail b)
  (s1.wr F.SEC_CFG_SEQ.seq_a 0 0 (if va then s.bankSeq 0 else 0)).wr F.SEC_CFG_SEQ.seq_b 0 0 (if vb then s.bankSeq 1 else 0)

/-- The active bank is named and valid. -/
def State.bankReady (s : State) : Bool := s.activeBank != 3 && s.bankFail s.activeBank == 0

/-- One preset write under its register's own rules; an ignored one counts (R406). -/
def State.preset (s : State) (e : Nat × Word) : State :=
  let a := Access.full e.2
  let ignored (s : State) : State := s.addWrap F.SEC_CFG_STATE.preset_ignored 0 0 1
  if e.1 = 0x88 then
    (if (s.st = .ready ∨ s.st = .joined) ∧ s.startPending = false then s else ignored s).writeTimeCfg a
  else if e.1 = 0x101088 then { s with regs := s.regs.store .OBS_IRQ_EN 0 0 s.cycle a }
  else if e.1 = 0x3200048 then s.writeEnvCfg a
  else if e.1 < 0x200000 then { s with regs := s.regs.store .OBS_APR_SEG 0 ((e.1 - 0x101000) / 8) s.cycle a }
  else
    let n := (e.1 - 0x200008) / 0x10000
    (if (s.port n).st = .dark ∨ (s.port n).st = .down then s else ignored s).writePortCfg n a

/-- The module enters READY and firmware writes the presets of the active bank, if it is valid, in entry order (R406). The
writes meet the rules of READY: with those of HELD, R320 would ignore every preset of the time role (DEDUCED, log entry
47). -/
def State.enterReady (s : State) : State :=
  let s1 := (s.setMod .ready).wr F.SEC_CFG_STATE.preset_ignored 0 0 0
  if s.bankReady then (s.bankEntries s.activeBank).foldl State.preset s1 else s1

/-- The record of R407: the failing check. -/
def State.configRec (s : State) : State := s.obsRec 0x41 11 0 0 (s.regWord .SEC_CFG_STATE 0 0) 0 0 0 0 0 0

end Sys2Proof.Machine
end

