-- ==== Sys2Proof/Machine/ExecPul.lean ====
section
/-! DEFINITION. Pulsar: barrier trees, publication records and the fault line (R225 to R232). -/
namespace Sys2Proof.Machine

/-- A field of TIL_PUL_BAR of a tile. -/
def State.node (s : State) (t i : Nat) (f : Fld) : Nat := if (s.tile t).vacant then 0 else (s.tile t).rd f i

/-- The children a node names: the neighbour with the cost of the link and the direction in which it lies. -/
def State.kidsOf (s : State) (t i : Nat) : List (Option (Nat × Nat × Nat)) :=
  ([1, 2, 3, 4].filter (fun d => bits (s.node t i F.TIL_PUL_BAR.children) (d - 1) 1 == 1)).map (fun d =>
    (s.neighbour (t % 48) (t / 48) d).map (fun q => (q.1 + 48 * q.2.1, q.2.2, d)))

/-- A node agrees with its parent and its children (R226). -/
def State.nodeOk (s : State) (i t : Nat) : Bool :=
  let g := s.node t i
  let d := g F.TIL_PUL_BAR.depth
  let h := g F.TIL_PUL_BAR.height
  let par := g F.TIL_PUL_BAR.parent
  let up := if par = 0 then decide (d = 0)
    else match s.neighbour (t % 48) (t / 48) par with
      | some (px, py, cost) =>
        let p := px + 48 * py
        s.node p i F.TIL_PUL_BAR.enable == 1 && bits (s.node p i F.TIL_PUL_BAR.children) (inputOf par - 1) 1 == 1 &&
          decide (d = s.node p i F.TIL_PUL_BAR.depth + cost) && decide (h = s.node p i F.TIL_PUL_BAR.height) && cost != 3
      | none => false
  g F.TIL_PUL_BAR.enable == 1 && up && decide (d ≤ h) &&
    (s.kidsOf t i).all (fun k => match k with
      | some (c, _, dir) => s.node c i F.TIL_PUL_BAR.enable == 1 && s.node c i F.TIL_PUL_BAR.parent == inputOf dir
      | none => false)

/-- The nodes of the tree below a node; a tree is at most 128 deep. -/
def State.below (s : State) (i : Nat) : Nat → Nat → List Nat
  | 0, _ => []
  | n + 1, t => t :: ((s.kidsOf t i).filterMap id).flatMap (fun k => s.below i n k.1)

/-- The root above a node. -/
def State.rootOf (s : State) (i : Nat) : Nat → Nat → Option Nat
  | 0, _ => none
  | n + 1, t =>
    let par := s.node t i F.TIL_PUL_BAR.parent
    if par = 0 then some t
    else match s.neighbour (t % 48) (t / 48) par with
      | some (px, py, _) => s.rootOf i n (px + 48 * py)
      | none => none

def State.treeOf (s : State) (i root : Nat) : List Nat := s.below i 128 root

/-- The tree of which a node is part is consistent (R226). -/
def State.treeOk (s : State) (i t : Nat) : Bool :=
  match s.rootOf i 129 t with
  | some r => (s.treeOf i r).all (s.nodeOk i) && (s.treeOf i r).contains t
  | none => false

/-- The cycle in which a root has arrived: H after the last participant's BAR or BARA issued (R227). A tree without
participants has always arrived. -/
def State.rootArrival (s : State) (i root : Nat) : Option Nat :=
  let parts := (s.treeOf i root).filter (fun t => s.node t i F.TIL_PUL_BAR.participant == 1)
  let times := parts.map (fun t => (s.tile t).arrived.find i)
  if times.any (·.isNone) then none
  else
    let last := (times.filterMap id).foldl max 0
    some (if parts.isEmpty then 0 else last + s.node root i F.TIL_PUL_BAR.height)

/-- BARRIER_ROOT_ARRIVAL (R227, R229): the root sends its release in the next cycle; a global root signals the Observatory.
A tree that is not consistent never releases. -/
def State.rootArrives (root i : Nat) (s : State) : State :=
  let isRoot := s.node root i F.TIL_PUL_BAR.enable == 1 && s.node root i F.TIL_PUL_BAR.parent == 0
  if isRoot = false ∨ (s.barRel.find (root, i)).isSome ∨ (s.gb i).local_.isSome ∨ (s.gb i).signal.isSome ∨ s.treeOk i root = false
  then s
  else match s.rootArrival i root with
    | none => s
    | some a =>
      if s.cycle < a then s
      else if s.node root i F.TIL_PUL_BAR.global = 1 then (s.setGb i { (s.gb i) with local_ := some a }).gbArrive i
      else { s with barRel := s.barRel.set (root, i) (a + 1) }

/-- BARRIER_RELEASE (R227 to R229): in the cycle H + 1 after the root's release every participant's BAR or BARW completes,
and every node clears its arrival. -/
def State.barRelease (root i : Nat) (s : State) : State :=
  match s.barRel.find (root, i) with
  | none => s
  | some r =>
    if s.cycle < r + s.node root i F.TIL_PUL_BAR.height + 1 then s
    else
      let s1 : State := { s with barRel := s.barRel.filter (fun k _ => k != (root, i)) }
      (s.treeOf i root).foldl (fun s t => s.onTile t fun c tl => (tl.released c i, [])) s1

def execBarrierRelease (root i : Nat) (s : State) : Ans := .next (s.barRelease root i)

/-- GBAR_RELEASE_SIGNAL: the constellation's release reaches the local global root (R229, R361). -/
def State.gbSignal (i : Nat) (s : State) : State :=
  let g := s.gb i
  match g.signal with
  | none => s
  | some c =>
    if s.cycle < c then s
    else
      let s1 := s.setGb i { g with signal := none }
      match s.globalRoot i with
      | some root => { s1 with barRel := s1.barRel.set (root, i) c }
      | none => s1

/-- PUBLICATION_RECORD (R231): the collector of a die forwards the record of one position. -/
def State.publish (t : Nat) (s : State) : State :=
  if 2304 ≤ t then s
  else
    let s1 := s.onTile t fun _ tl => (tl, [])
    let tl := s1.tile t
    let w := if tl.vacant then 0 else tl.waitWord
    { s1 with pubs := s1.pubs.set t ⟨w, (if w = 0 then 0 else tl.seq.since % 2 ^ 32), tl.st, tl.lat.hang⟩ }

def execPublicationRecord (t : Nat) (s : State) : Ans := .next (s.publish t)

/-- FAULT_LINE_SEEN (R232): the Observatory sees a fault 96 cycles after it arose, and acts on it as a schedule fault
(R211, R468). -/
def State.faultSeen (s : State) : State :=
  if s.faults.any (fun f => decide (f + 96 ≤ s.cycle)) then
    ({ s with faults := s.faults.filter (fun f => decide (s.cycle < f + 96)) } : State).scheduleFault
  else s

def execFaultLineSeen (s : State) : Ans := .next s.faultSeen

end Sys2Proof.Machine
end

