-- ==== Sys2Proof/Machine/ExecRte.lean ====
section
/-! DEFINITION. Fabric routing: identity and tables, scheduled packets at their origin and at their delivery, control packets
and fragments, global barrier packets and the nova (chapter 10). -/
namespace Sys2Proof.Machine

/-! ### Identity and tables (R339, R340, R344, R362, R363) -/

/-- A write of RTE_SELF takes effect in READY and sets eid_valid. -/
def State.writeSelf (a : Access) (s : State) : State :=
  if s.st = .ready then
    let s1 : State := { s with regs := s.regs.store .RTE_SELF 0 0 s.cycle a }
    (s1.wr F.RTE_SELF.eid_valid 0 0 1).discoverAll.rteStatus 0
  else s.rteRefuse 1 0x300000

def execRteSelfWrite (v : Word) (s : State) : Ans := .next (s.writeSelf (.full v))

/-- RTE_CTRL.join. -/
def State.join (s : State) : State :=
  if s.st ≠ .ready then s.rteRefuse 1 0x300008
  else if s.rd F.RTE_SELF.eid_valid 0 0 = 0 then s.rteRefuse 2 0x300008
  else (s.setMod .joined).rteStatus 0

/-- RTE_CTRL.leave. -/
def State.leaveFabric (s : State) : State :=
  if s.st ≠ .joined then s.rteRefuse 1 0x300008 else s.enterReady.rteStatus 0

/-- RTE_CTRL.nova: the host fences a RUNNING module, or one with a start pending (R363, Table 14-4). -/
def State.hostNova (s : State) : State :=
  if s.inJob then (s.rteStatus 0).eclipse 5 else s.rteRefuse 1 0x300008

def execRteJoin (s : State) : Ans := .next s.join
def execRteLeave (s : State) : Ans := .next s.leaveFabric
def execRteNova (s : State) : Ans := .next s.hostNova

/-- Ports that a register of a table names: as target of a port entry, or in out_mask (R344). -/
def namedPorts (tab v : Nat) : List Nat :=
  if tab = 0 then ((List.range 4).map (fun i => bits v (16 * i) 16)).flatMap (fun e =>
    if entryValid e ∧ entryKind e = 0 then [entryTarget e % 16] else [])
  else portsOf (v % 65536)

def tableReg (tab : Nat) : Reg := match tab with | 0 => .RTE_ROUTE | 1 => .RTE_ROW | _ => .RTE_COL

/-- For RTE_ROUTE only the entries that the write changes count. -/
def changedPorts (tab old new : Nat) : List Nat :=
  if tab = 0 then (List.range 4).flatMap (fun i =>
    if bits old (16 * i) 16 = bits new (16 * i) 16 then []
    else namedPorts 0 (bits old (16 * i) 16) ++ namedPorts 0 (bits new (16 * i) 16))
  else if old = new then [] else namedPorts tab old ++ namedPorts tab new

/-- A write of RTE_ROUTE (`tab` 0), RTE_ROW (1) or RTE_COL (2) at index `k` (R344). -/
def State.writeTable (tab k : Nat) (a : Access) (s : State) : State :=
  let r := tableReg tab
  let regs := s.regs.store r 0 k s.cycle a
  let old := (s.regWord r 0 k).toNat
  let new := (({ s with regs := regs } : State).regWord r 0 k).toNat
  let busy := (changedPorts tab old new).any (fun n => (s.port n).st == .up)
  if busy then
    ((s.flag F.RTE_STATUS.again_count F.RTE_STATUS.table_refused 0 0 1).rteStatus 1).refusedRec (r.place.base + 8 * k)
  else ({ s with regs := regs } : State).rteStatus 0

def execRteTableWrite (tab k : Nat) (v : Word) (s : State) : Ans :=
  .next (if tab < 3 ∧ k < (tableReg tab).place.count then s.writeTable tab k (.full v) else s)

/-- A write of RTE_GBAR is ignored in a job (R362). -/
def State.writeGbar (i : Nat) (a : Access) (s : State) : State :=
  if s.inJob then s.rteRefuse 1 (0x300100 + 8 * i)
  else ({ s with regs := s.regs.store .RTE_GBAR 0 i s.cycle a } : State).rteStatus 0

def execRteGbarWrite (i : Nat) (v : Word) (s : State) : Ans := .next (if i < 32 then s.writeGbar i (.full v) else s)

/-! ### Leaving the module (R349, R350) -/

/-- Fields of an EDGE_OUT header (Table 10-5). -/
def eoEid (h : Word) : Nat := bits h.toNat 17 14
def eoTile (h : Word) : Nat := bits h.toNat 31 12
def eoLine (h : Word) : Nat := bits h.toNat 43 15
def eoAtomic (h : Word) : Nat := bits h.toNat 58 2
def eoCtrc (h : Word) : Nat := bits h.toNat 60 4

/-- The EDGE_OUT header of a beat at an edge router (Table 10-5). -/
def eoHdr (dx dy eid tile line atomic ctrc : Nat) : Word :=
  BitVec.ofNat 64 (5 + dx * 2 ^ 3 + dy * 2 ^ 9 + eid * 2 ^ 17 + tile * 2 ^ 31 + line * 2 ^ 43 + atomic * 2 ^ 58 + ctrc * 2 ^ 60)

/-- The header of a packet that a flit of this module begins, for a route entry. -/
def State.originPkt (s : State) (h : Word) (entry t : Nat) : FPkt :=
  let k := entryKind entry
  ⟨fabLo 0 k (if k = 0 then eoEid h else entryTarget entry) s.eid s.job (s.rd F.RTE_SELF.hop_limit 0 0) 4 0,
    fabSHi (t % 65536) (eoTile h) (eoLine h) (eoAtomic h) (eoCtrc h), []⟩

/-- A fabric packet discarded in a FENCED module (R470). -/
def State.fencedDiscard (s : State) : State := s.addSat F.RTE_DROP.foreign 0 0 1

/-- The first flit of a packet: its send point. -/
def State.firstFlit (n : Nat) (k : Taken) (s : State) : State :=
  let t := s.sidereal + k.z - s.cycle
  let entry := s.route (eoEid k.hdr)
  let p : FPkt := match k.fwd with
    | some (lo, hi) => ⟨lo, setBits hi 0 16 t, k.data |> lineBytes⟩
    | none => { s.originPkt k.hdr entry t with data := lineBytes k.data }
  let noRoute := match k.fwd with
    | some _ => p.cast == 0 && s.portTo p.dst != some n
    | none => !(entryValid entry) || entryKind entry == 3 || (entryKind entry == 0 && entryTarget entry % 16 != n)
  let why := s.sendPoint n t
  let dead := noRoute || why != 0 || s.st == .fenced
  let s1 := if s.st = .fenced then s.fencedDiscard
    else if noRoute then (s.noRoute 1).schedDiscard n p 350
    else if why = 0 then s.takePoint n t else s.discardAt n p why
  let q := s1.port n
  s1.setPort n { q with build := q.build.set k.row ⟨k.z, k.z, k.hdr, p, dead, k.fwd.isSome⟩ }

/-- A packet is complete and is transmitted. -/
def State.closeBuild (n row : Nat) (s : State) : State :=
  match (s.port n).build.find row with
  | none => s
  | some b =>
    let q := s.port n
    let s1 := s.setPort n { q with build := q.build.filter (fun r _ => r != row) }
    if b.dead then s1
    -- from the cycle in which the port begins to drain it sends no S packet (R345)
    else if q.open_ = false then s1.discardAt n b.pkt 1
    else s1.sendS n { b.pkt with lo := setBits b.pkt.lo 50 5 (b.pkt.data.length / 16) }

/-- The flit joins the packet being built on its row (R349). -/
def Build.joins (b : Build) (k : Taken) : Bool :=
  decide (k.z = b.last + 1) && decide (b.pkt.data.length < 256) && k.fwd.isSome == b.fwd &&
    eoEid k.hdr == eoEid b.hdr && eoTile k.hdr == eoTile b.hdr && eoAtomic k.hdr == eoAtomic b.hdr && eoCtrc k.hdr == eoCtrc b.hdr &&
    eoLine k.hdr == eoLine b.hdr + 1

/-- The taken flit to act on next: the earliest; forwarded packets first, then rows in order (R350). -/
def firstTaken : List Taken → Option Taken
  | [] => none
  | k :: r =>
    let key (x : Taken) : Nat := x.z * 128 + (if x.fwd.isSome then 0 else 64) + x.row
    match firstTaken r with
    | none => some k
    | some m => if key m < key k then some m else some k

/-- EDGE_FLIT_TAKE: the port takes its earliest flit, or completes the packets that can grow no more. -/
def State.edgeTake (n : Nat) (s : State) : State :=
  if 16 ≤ n then s
  else
    let p := s.port n
    match firstTaken (p.taken.filter (fun k => decide (k.z ≤ s.cycle))) with
    | some k =>
      let s1 := s.setPort n { p with taken := p.taken.erase k }
      match p.build.find k.row with
      | some b =>
        if b.joins k then
          let grown : Build := { b with last := k.z, hdr := k.hdr, pkt := { b.pkt with data := b.pkt.data ++ lineBytes k.data } }
          s1.setPort n { (s1.port n) with build := p.build.set k.row grown }
        else (s1.closeBuild n k.row).firstFlit n k
      | none => s1.firstFlit n k
    | none => (p.build.entries.filter (fun e => decide (e.2.s + 4 ≤ s.cycle))).foldl (fun s e => s.closeBuild n e.1) s

def execEdgeFlitTake (n : Nat) (s : State) : Ans := .next (s.edgeTake n)

/-! ### Scheduled delivery (R351 to R353) -/

/-- The home row that takes a packet at delivery cycle t (R352). -/
def landRow (q t : Nat) : Nat := 6 * (q % 8) + t % 6

/-- Put flits on the edge link of a row, one per cycle from cycle t on. -/
def State.edgeFlits (q row t : Nat) (hdr : Nat → Word) (fwd : Option (Word × Word)) (p : FPkt) (s : State) : State :=
  let fs : List Flit := (List.range (p.len / 4)).map (fun k =>
    ⟨portX q, row, 6, s.cycleOf t + 1 + k, portX q, row, hdr k, lineOf ((p.data.drop (64 * k)).take 64), none, fwd⟩)
  { s with flits := s.flits ++ fs }

/-- Land a copy as EDGE_IN flits (R352). -/
def State.landPkt (q t : Nat) (p : FPkt) (s : State) : State :=
  let row := landRow q t
  let src := (if q < 8 then 0xD00 else 0xD30) + row
  let hdr (k : Nat) : Word := BitVec.ofNat 64 (6 + p.tile % 48 * 2 ^ 3 + p.tile / 48 * 2 ^ 9 +
    (if p.ctrc = 0 then 0 else 2 ^ 17 + (p.ctrc - 1) * 2 ^ 18) + p.atomic * 2 ^ 24 + (p.line + k) % 2 ^ 15 * 2 ^ 26 + src * 2 ^ 41)
  s.edgeFlits q row t hdr none p

/-- A packet whose forwardings have run out is counted once, whatever the number of its ports (R353). -/
def State.hopExpired (a : Nat) (p : FPkt) (s : State) : State := (s.addSat F.RTE_DROP.hop_expired 0 0 1).schedDiscard a p 353

/-- Forward from port a to port b (R353). -/
def State.forward (a b t : Nat) (p : FPkt) (s : State) : State :=
  if p.hops = 0 then s
  else
    let p1 := { p with lo := setBits p.lo 44 6 (p.hops - 1) }
    if sameDie a b then s.forwardAt b (t + 8) p1
    else if b = mirrorOf a then
      let row := landRow a t
      let hdr (k : Nat) : Word := eoHdr (portX b) row (p.dst % 16384) p.tile (p.line + k) p.atomic p.ctrc
      s.edgeFlits a row t hdr (some (p1.lo, p1.hi)) p1
    else s

/-- Steps 3 and 4 of R351. -/
def State.landOr (q t : Nat) (p : FPkt) (s : State) : State :=
  if 2303 < p.tile then (s.noRoute 1).schedDiscard q p 351 else s.landPkt q t p

/-- A packet at its delivery point (R342, R351). -/
def State.deliver (q t : Nat) (p : FPkt) (s : State) : State :=
  if s.st = .fenced then s.fencedDiscard
  else if p.job ≠ s.job then (s.addSat F.RTE_DROP.foreign 0 0 1).schedDiscard q p 351
  else if p.cast = 0 then
    if p.dst = s.eid then s.landOr q t p
    else match s.portTo p.dst with
      | none => (s.noRoute 1).schedDiscard q p 353
      | some b =>
        if p.hops = 0 then s.hopExpired q p
        else if sameDie q b ∨ b = mirrorOf q then s.forward q b t p else (s.noRoute 1).schedDiscard q p 353
  else
    let g := p.dst % 256
    let r (f1 f2 : Fld) : Nat := if p.cast = 1 then s.rd f1 0 g else s.rd f2 0 g
    if r F.RTE_ROW.valid F.RTE_COL.valid = 0 then s.noRoute 1
    else
      -- the originating module does not land its own packet
      let s1 := if r F.RTE_ROW.local F.RTE_COL.local = 1 ∧ p.src ≠ s.eid then s.landOr q t p else s
      let outs := (portsOf (r F.RTE_ROW.out_mask F.RTE_COL.out_mask)).filter (fun b => b != q && (sameDie q b || b == mirrorOf q))
      if outs ≠ [] ∧ p.hops = 0 then s1.hopExpired q p else outs.foldl (fun s b => s.forward q b t p) s1

/-- The packet whose delivery cycle comes first. -/
def firstElastic : List EPkt → Option EPkt
  | [] => none
  | k :: r => match firstElastic r with
    | none => some k
    | some m => if m.t < k.t then some m else some k

/-- SCHEDULED_DELIVERY. -/
def State.schedDeliver (n : Nat) (s : State) : State :=
  if 16 ≤ n then s
  else
    let p := s.port n
    match firstElastic (p.elastic.filter (fun e => decide (e.t ≤ s.sidereal))) with
    | none => s
    | some e => ((({ s with lastS := s.cycle } : State).setPort n { p with elastic := p.elastic.erase e }).copied 0 n (e.pkt.len / 4)).deliver n e.t e.pkt

def execScheduledDelivery (n : Nat) (s : State) : Ans := .next (s.schedDeliver n)

/-! ### Control packets (R356 to R359, R470) -/

/-- The port die hands a packet for this module to its tile: an ACK for a reply. -/
def State.replyIn (r : RouteItem) (s : State) : State :=
  let n := r.pkt.hi.toNat
  let e := bits n 12 4 + bits n 16 2 * 16
  let t := r.pkt.cTile
  let x := if r.x = 0 then 0 else 47
  s.send x r.y 2 (t % 48) (t / 48) 0 1 5 (tileSrc t) 0 (replyWord (bits n 18 2) e (bits n 20 5)) [] x r.y 7

/-- A fragment's number. -/
def FPkt.frag (p : FPkt) : Nat := bits p.hi.toNat 49 4

/-- A control packet that a FENCED module answers CLOSED or discards (R470). -/
def State.fencedCtl (r : RouteItem) (s : State) : State :=
  let s1 := s.noRoute 1
  if r.pkt.op = 1 ∧ r.pkt.frag = 0 then
    let n := r.pkt.hi.toNat
    let p : FPkt := ⟨fabLo 1 0 r.pkt.src s.eid s.job (s.rd F.RTE_SELF.hop_limit 0 0) 0 2,
      fabReplyHi (bits n 12 4 + bits n 16 8 * 16) (bits n 30 6) 1 1, []⟩
    { s1 with routeQ := s1.routeQ ++ [⟨r.x, r.y, none, p⟩] }
  else s1

/-- The number of fragments of a message (R358). -/
def FPkt.fragments (p : FPkt) : Nat := if p.op = 1 then (bits p.hi.toNat 36 13 + 255) / 256 else 1

/-- Two packets at a port die are fragments of one message. -/
def RouteItem.sameMessage (a b : RouteItem) : Bool :=
  a.x == b.x && a.from_ == b.from_ && a.pkt.src == b.pkt.src && a.pkt.dst == b.pkt.dst && setBits a.pkt.hi 49 4 0 == setBits b.pkt.hi 49 4 0

/-- A packet enters the C queue of port `b`. The fragments of one message take consecutive places there (R358): the port die puts them
into the queue together, once the last has come. A first fragment puts what is left of an earlier message of the same header into the
queue before it. -/
def State.queueC (b : Nat) (r : RouteItem) (s : State) : State :=
  let mates := s.gather.filter (fun g => g.sameMessage r)
  let s1 : State := { s with gather := s.gather.filter (fun g => !(g.sameMessage r)) }
  let put (l : List FPkt) (s : State) : State :=
    if (s.port b).open_ then s.setPort b { (s.port b) with txC := (s.port b).txC ++ l }
    else s.dropControl b l
  if r.pkt.fragments ≤ 1 then put [r.pkt] s
  else if r.pkt.frag = 0 then
    let s2 : State := { s1 with gather := s1.gather ++ [r] }
    if mates = [] then s2 else put (mates.map (·.pkt)) s2
  else if r.pkt.frag + 1 < r.pkt.fragments then { s with gather := s.gather ++ [r] }
  else put (mates.map (·.pkt) ++ [r.pkt]) s1

/-- FAB_PKT_ROUTE: the oldest control packet at a port die. -/
def State.fabRoute (s : State) : State :=
  match s.routeQ with
  | [] => s
  | r :: rest =>
    let s0 : State := { s with routeQ := rest }
    let s1 := match r.from_ with | some n => s0.freeC n | none => s0
    let at_ := r.from_.getD (8 * r.x)
    let p := r.pkt
    if p.dst = s.eid then
      if s.st = .fenced then s1.fencedCtl r
      else if 2303 < p.cTile then (s1.noRoute 1).routeRec at_ p 357
      else if p.op = 2 then s1.replyIn r
      else { s1 with frags := s1.frags ++ [r] }
    else if r.from_.isSome ∧ p.hops = 0 then (s1.noRoute 1).routeRec at_ p 357
    else
      let q : FPkt := if r.from_.isSome then { p with lo := setBits p.lo 44 6 (p.hops - 1) } else p
      match s.portTo p.dst with
      | none => (s1.noRoute 1).routeRec at_ p 357
      | some b =>
        if b / 8 ≠ r.x then
          s1.send (if r.x = 0 then 0 else 47) r.y 2 (if r.x = 0 then 47 else 0) r.y 2 3 10 0 0 0 q.bytes (if r.x = 0 then 0 else 47) r.y 0
        else s1.queueC b { r with pkt := q }

def execFabPktRoute (s : State) : Ans := .next s.fabRoute

/-- A complete message goes to its tile as one CHAN_MSG (R358). -/
def State.msgIn (x y : Nat) (lo hi : Word) (bytes : List Byte) (s : State) : State :=
  let n := hi.toNat
  let t := bits n 0 12
  let src := bits n 12 4 + bits n 16 8 * 16
  let queue := bits n 24 4 + bits n 28 2 * 16
  let col := if x = 0 then 0 else 47
  s.send col y 2 (t % 48) (t / 48) 0 3 7 (tileSrc src) 0 (chanWord queue (bits n 30 6) bytes.length true (bits lo.toNat 18 14)) bytes col y 0

/-- The bytes of a message whose fragments are all there. -/
def Reasm.whole (m : Reasm) (total : Nat) : Option (List Byte) :=
  let n := (total + 255) / 256
  if (List.range n).all (fun k => m.parts.any (fun p => p.1 == k)) then
    some (((List.range n).flatMap (fun k => match m.parts.find? (fun p => p.1 == k) with | some p => p.2 | none => [])).take total)
  else none

/-- FRAGMENT_REASSEMBLY: the oldest fragment at a port die joins its message, whichever of its fragments came first. -/
def State.fragment (s : State) : State :=
  match s.frags with
  | [] => s
  | r :: rest =>
    let s0 : State := { s with frags := rest }
    let total := bits r.pkt.hi.toNat 36 13
    let hi := setBits r.pkt.hi 49 4 0
    let from_ := r.from_.getD 16
    let k := r.pkt.frag
    let old := s0.reasm.find? (fun m => m.x == r.x && m.port == from_ && m.hi == hi && bits m.lo.toNat 18 14 == r.pkt.src &&
      m.parts.all (fun p => p.1 != k))
    let m : Reasm := match old with
      | some m => { m with parts := m.parts ++ [(k, r.pkt.data)] }
      | none => ⟨r.x, from_, s.cycle, r.pkt.lo, hi, [(k, r.pkt.data)]⟩
    let s1 : State := match old with
      | some o => { s0 with reasm := s0.reasm.erase o }
      | none => s0
    match m.whole total with
    | some bytes => s1.msgIn r.x r.y m.lo hi bytes
    | none => { s1 with reasm := s1.reasm ++ [m] }

def execFragmentReassembly (s : State) : Ans := .next s.fragment

/-- REASSEMBLY_TIMEOUT: a message incomplete 100,000 cycles after its first fragment is discarded (R358). -/
def execReassemblyTimeout (i : Nat) (s : State) : Ans :=
  .next (match s.reasm[i]? with
    | some m =>
      if m.first + 100000 ≤ s.cycle then
        (({ s with reasm := s.reasm.eraseIdx i } : State).noRoute 1).routeRec (if m.port < 16 then m.port else 8 * m.x) ⟨m.lo, m.hi, []⟩ 358
      else s
    | none => s)

/-! ### Global barriers (R360, R361) -/

/-- A packet of another episode is discarded (R360). -/
def State.gbPacket (n : Nat) (q : FPkt) (f : Nat → State → State) (s : State) : State :=
  let i := bits q.hi.toNat 0 5
  let s1 := s.freeM n
  if bits q.hi.toNat 5 8 ≠ (s.gb i).episode then s1.noRoute 1 else f i s1

/-- A BAR_ARRIVE at port `n`. -/
def State.barArriveIn (n : Nat) (s : State) : State :=
  s.takeM n 4 fun q s => s.gbPacket n q (fun i s =>
    let g := s.gb i
    let kid := (n, s.cycle, BitVec.ofNat 64 (leNat (q.data.take 8)), bits (leNat (q.data.drop 8)) 0 14)
    (s.setGb i { g with kids := g.kids.filter (fun k => k.1 != n) ++ [kid] }).gbArrive i)

/-- A BAR_RELEASE at port `n`: the payload goes on to the children unchanged (R361, R485). -/
def State.barReleaseIn (n : Nat) (s : State) : State :=
  s.takeM n 5 fun q s => s.gbPacket n q (fun i s =>
    let d := q.data
    (s.sendRelease i (s.gb i).episode d).gbRelease i (leNat (d.take 8)) (bits (leNat ((d.drop 8).take 2)) 0 14)
      ((leNat ((d.drop 10).take 1)) % 2 == 1))

def execGbarReleaseSignal (i : Nat) (s : State) : Ans := .next (s.gbSignal i)

/-! ### The nova (R365) -/

/-- A nova that arrives in the start cycle cancels the start (R39): the tiles are as they were, and none has left IDLE. -/
def State.unstart (s : State) : State :=
  match s.started with
  | some (k, l) => if k = s.cycle then l.foldl (fun (s : State) p => s.setTile p.1 p.2) { s with started := none } else s
  | none => s

/-- The module eclipse in force began in the present Observatory cycle, by a cause of the module's own with a nova of its own. -/
def State.ownNova (s : State) : Bool :=
  s.ecl.any (fun e => e.dom == 6 && e.began / 4 == s.cycle / 4) && s.rd F.RST_FENCE.cause 0 0 != 0 && s.rd F.RST_FENCE.cause 0 0 != 7 &&
    s.rd F.RTE_NOVA.valid 0 0 == 1 && s.rd F.RTE_NOVA.job 0 0 == s.job && s.rd F.RTE_NOVA.origin 0 0 == s.eid

/-- A nova received in the same Observatory cycle as a cause of the module's own: the cause is NOVA, and the module's own nova, which has
not left a port yet, is not started (R468, R519). -/
def State.novaOver (n job eid reason start : Nat) (s : State) : State :=
  let own := Wire.nova job s.eid (s.rd F.RTE_NOVA.reason 0 0) (s.rd F.RTE_NOVA_TIME.start 0 0)
  let isOwn (x : Sent) : Bool := match x with | .wire _ w => w == own | _ => false
  let s1 := ({ s with sent := s.sent.filter (fun x => !(isOwn x)) } : State).novaOut (some n) job eid reason start
  let s2 := ((((s1.wr F.RTE_NOVA.reason 0 0 reason).wr F.RTE_NOVA.origin 0 0 eid).wr F.RTE_NOVA_TIME.start 0 0 start).wr F.RST_FENCE.cause 0 0 7)
  s2.mapRecs fun r => if r.kind = 0x61 ∧ r.s0.toNat % 16 = 6 ∧ r.time % 2 ^ 32 = s.rd F.RST_FENCE.since_lo 0 0 then
    { r with s0 := BitVec.ofNat 64 (6 + 7 * 2 ^ 8), s1 := s2.regWord .RTE_NOVA 0 0 } else r

/-- NOVA_RECEIVE. A later nova of the job finds the module no longer running or pending; a record left from an earlier job
of the same number makes no repeat of the first nova of a new one. -/
def State.novaIn (n job eid reason start : Nat) (s : State) : State :=
  if 16 ≤ n ∨ (s.port n).st.linked = false then s
  else if job = 0 ∨ job ≠ s.job then s.addSat F.RTE_NOVA.foreign 0 0 1
  else if s.ownNova then s.novaOver n job eid reason start
  else if s.inJob = false ∧ s.rd F.RTE_NOVA.valid 0 0 = 1 ∧ s.rd F.RTE_NOVA.job 0 0 = job then s.addSat F.RTE_NOVA.repeats 0 0 1
  else ((s.unstart.novaOut (some n) job eid reason start).novaRecord job eid reason start).eclipse 7

def execNovaReceive (n job eid reason start : Nat) (s : State) : Ans := .next (s.novaIn n job eid reason start)

end Sys2Proof.Machine
end

