-- ==== Sys2Proof/Machine/ExecMer.lean ====
section
/-! DEFINITION. Meridian between the tiles: routing, multicast, collisions, link errors and landings (R198 to R212). -/
namespace Sys2Proof.Machine

/-- Where a flit goes at a router: the outputs it needs (Table 6-1), and if it is discarded there, whether for an
unreachable link (true) or for its kind or position (false). -/
structure Turn where
  outs : List Nat
  drop : Option Bool
deriving DecidableEq, Repr

/-- The direction of a unicast flit's next link: first along x, then along y (R203); none at its destination. -/
def dirTo (x y dx dy : Nat) : Option Nat :=
  if x < dx then some 3 else if dx < x then some 1 else if y < dy then some 4 else if dy < y then some 2 else none

/-- An output over a link, or the discard before an unreachable link (R203). -/
def State.overLink (s : State) (x y dir : Nat) (also : List Nat) : Turn :=
  match s.neighbour x y dir with
  | some (_, _, cost) => if cost = 3 then ⟨also, some true⟩ else ⟨also ++ [dir], none⟩
  | none => ⟨also, some false⟩

/-- The output at its destination, by kind (Table 6-3). -/
def outputAt (x y kind : Nat) : Turn :=
  if kind = 2 ∨ kind = 3 then (if y = 0 ∨ y = 47 then ⟨[5], none⟩ else ⟨[], some false⟩)
  else if kind = 5 then (if x = 0 ∨ x = 47 then ⟨[6], none⟩ else ⟨[], some false⟩)
  else ⟨[0], none⟩

/-- What the router at (x, y) does with a flit (R203, R204). -/
def State.turn (s : State) (f : Flit) : Turn :=
  let x := f.x
  let y := f.y
  let dx := hDx f.hdr
  let dy := hDy f.hdr
  let k := hKind f.hdr
  let source := x == f.sx && y == f.sy
  if hCast f.hdr = 0 then
    match dirTo x y dx dy with
    | some d => s.overLink x y d []
    | none => outputAt x y k
  else if 1 < k ∨ hCast f.hdr = 3 ∨ (hCast f.hdr = 1 ∧ dy ≠ f.sy) then ⟨[], some false⟩
  else
    -- a row cast lands along its row, a column cast along its column; never at the tile that injected it
    let here : List Nat := if source ∨ (hCast f.hdr = 2 ∧ x ≠ dx) then [] else [0]
    match dirTo x y dx dy with
    | some d => s.overLink x y d here
    | none => ⟨here, none⟩

/-- Change the router registers of a position; a vacant position has none (R112). -/
def State.merRegs (t : Nat) (f : Ctx → Tile → Tile) (s : State) : State :=
  if (s.tile t).vacant then s else s.setTile t (f (s.ctx t) (s.tile t))

/-- TIL_MER_COLL as it reads. -/
def State.merColl (s : State) (t : Nat) : Word := if (s.tile t).vacant then 0 else (s.tile t).word .TIL_MER_COLL 0

/-- The check of a flit entering on inputs 1 to 6 (R212): 0 no error, 1 corrected, else uncorrectable. -/
def State.checkFlit (t : Nat) (f : Flit) (err : Nat) (s : State) : State × Bool :=
  if f.inp = 0 ∨ err = 0 then (s, true)
  else if err = 1 then
    (s.merRegs t (fun c tl => (tl.addSat F.TIL_MER_LINK.corrected 0 1).merFlag c F.TIL_MER_STATUS.corrected), true)
  else
    let s1 := s.merRegs t (fun c tl => (tl.addSat F.TIL_MER_LINK.uncorrectable 0 1).merFlag c F.TIL_MER_STATUS.uncorrectable)
    ((s1.tileRec t 0x11 6 0 0 f.hdr (BitVec.ofNat 64 (f.inp * 2 ^ 8)) 0 0 0 1 0).drive, false)

/-- A flit discarded at a router for its kind or position, or before an unreachable link (R203, R204). -/
def State.dropFlit (t : Nat) (f : Flit) (unreachable : Bool) (s : State) : State :=
  let s1 := s.merRegs t (fun c tl => tl.discardLanding c F.TIL_MER_STATUS.landing_range)
  let s2 := s1.tileRec t 0x12 6 0 0 f.hdr 0 0 0 0 unreachable.toNat 0
  if unreachable then s2.drive else s2

/-- A collision at an output (R209, R210). -/
def State.collide (t o : Nat) (win lose : Flit) (s : State) : State :=
  let s1 := s.merRegs t (fun c tl =>
    let t1 := tl.addSat F.TIL_MER_COLL.count 0 1
    let t2 := if tl.rd F.TIL_MER_STATUS.collision 0 = 1 then t1
      else (((((t1.wr F.TIL_MER_COLL.output 0 o).wr F.TIL_MER_COLL.win_input 0 win.inp).wr F.TIL_MER_COLL.lose_input 0 lose.inp).wr
        F.TIL_MER_COLL.since_lo 0 c.sidereal).wr F.TIL_MER_COLL_WIN.header 0 win.hdr.toNat).wr
        F.TIL_MER_COLL_LOSE.header 0 lose.hdr.toNat
    t2.merFlag c F.TIL_MER_STATUS.collision)
  (s1.tileRec t 0x10 6 0 0 win.hdr lose.hdr (s1.merColl t) 0 0 1 0).drive

/-- A flit leaves by an output: to a landing three cycles later, to the next router after the link's cost, to the memory
port in the cycle in which it is in the router (R275), or to the fabric port in the next cycle (R349). -/
def State.leave (t o : Nat) (f : Flit) (s : State) : State :=
  match o with
  | 0 => { s with landings := s.landings ++ [⟨t, f.at_ + 3, f.hdr, f.data, f.back⟩] }
  | 5 =>
    match allChans.find? (fun ch => chanY ch * 48 + chanX ch == t) with
    | some ch => let h := s.chan ch
                 s.setChan ch { h with arrived := h.arrived ++ [⟨f.at_, f.hdr, f.data, f.back⟩] }
    | none => s
  | 6 =>
    let n := homePort f.x f.y
    let p := s.port n
    s.setPort n { p with taken := p.taken ++ [⟨f.at_ + 1, f.y, f.hdr, f.data, f.fwd⟩] }
  | _ =>
    match s.neighbour f.x f.y o with
    | some (nx, ny, cost) => { s with flits := s.flits ++ [{ f with x := nx, y := ny, inp := inputOf o, at_ := f.at_ + cost }] }
    | none => s

/-- The flit on the lowest-numbered input. -/
def firstInput : List Flit → Option Flit
  | [] => none
  | f :: r => match firstInput r with
    | none => some f
    | some g => if g.inp < f.inp then some g else some f

/-- One output of the router in one cycle: the lowest input passes, the others are dropped (R209). -/
def State.output (t o : Nat) (fs : List Flit) (s : State) : State :=
  match firstInput fs with
  | none => s
  | some w =>
    let s1 := s.leave t o w
    match firstInput (fs.erase w) with
    | none => s1
    | some l => s1.collide t o w l

/-- The flits that are in the router of tile position `t` in the earliest cycle in which any is, up to the present. -/
def State.inRouter (s : State) (t : Nat) : List Flit :=
  let here := s.flits.filter (fun f => f.x + 48 * f.y == t && decide (f.at_ ≤ s.cycle))
  match (here.map (·.at_)).min? with
  | some a => here.filter (fun f => f.at_ == a)
  | none => []

/-- FLIT_ROUTE: the router of `t` passes on the flits of one cycle. `err` is what the check of each input finds: input
and 1 corrected or 2 uncorrectable. -/
def State.routeFlits (t : Nat) (err : List (Nat × Nat)) (s : State) : State :=
  let now := s.inRouter t
  let s0 := { s with flits := s.flits.filter (fun f => !(now.contains f)) }
  let chk := now.foldl (fun (a : State × List Flit) f =>
    let r := a.1.checkFlit t f (match err.find? (fun e => e.1 == f.inp) with | some e => e.2 | none => 0)
    (r.1, if r.2 then a.2 ++ [f] else a.2)) (s0, [])
  let turns := chk.2.map (fun f => (f, s.turn f))
  let s1 := turns.foldl (fun s p => match p.2.drop with | some u => s.dropFlit t p.1 u | none => s) chk.1
  (List.range 7).foldl (fun s o => s.output t o ((turns.filter (fun p => p.2.outs.contains o)).map (·.1))) s1

/-- FLIT_ROUTE (R203, R204, R209, R210, R212). -/
def execFlitRoute (t : Nat) (err : List (Nat × Nat)) (s : State) : Ans := .next (s.routeFlits t err)

/-- The landing with the earliest write cycle. -/
def firstLanding : List Landing → Option Landing
  | [] => none
  | l :: r => match firstLanding r with
    | none => some l
    | some m => if m.w < l.w then some m else some l

/-- LANDING (R207, R208): the tile's earliest landing, once its write cycle has come. -/
def State.landNext (t : Nat) (s : State) : State :=
  match firstLanding (s.landings.filter (fun l => l.tile == t && decide (l.w ≤ s.cycle))) with
  | none => s
  | some l => ({ s with landings := s.landings.erase l } : State).onTile t fun c tl => tl.land c l.hdr l.data l.back l.w

def execLanding (t : Nat) (s : State) : Ans := .next (s.landNext t)

end Sys2Proof.Machine
end

