-- ==== Sys2Proof/Machine/ExecVsp.lean ====
section
/-! DEFINITION. Vesper: packets on their way, and what endpoints do with requests and responses (R218 to R224, R246 to R249,
R281, R289, R376). -/
namespace Sys2Proof.Machine

/-- The head flit's bits 63:0 (Table 6-8). -/
def VPkt.head (p : VPkt) : Word :=
  BitVec.ofNat 64 (p.dx + p.dy * 2 ^ 6 + p.ep * 2 ^ 12 + p.vc * 2 ^ 14 + p.op * 2 ^ 16 + p.len * 2 ^ 20 + p.src * 2 ^ 29
    + p.rtag * 2 ^ 45)

/-- The packet is an answer: DATA, ACK or ERROR. -/
def VPkt.isResponse (p : VPkt) : Bool := p.op == 4 || p.op == 5 || p.op == 6

/-- A response to the sender of a request, entering by the endpoint `from_` at (x, y). -/
def State.respond (x y from_ : Nat) (p : VPkt) (op : Nat) (w : Word) (data : List Byte) (s : State) : State :=
  s.send x y from_ p.rx p.ry (respEp p.src) 1 op p.src p.rtag w data x y p.op

/-- The ERROR that answers a request (R224): its status; for an open request also its slot (R281). -/
def State.refuseReq (x y from_ : Nat) (p : VPkt) (status : Nat) (s : State) : State :=
  s.respond x y from_ p 6 (errWord status 0 (if p.op = 8 ∨ p.op = 9 then openSlot p else 0)) []

/-- A packet discarded by the router at (x, y) before an unreachable link (R224). A packet that carries a record itself raises no
further one (log entry 20). -/
def State.dropPkt (x y : Nat) (p : VPkt) (s : State) : State :=
  let t := x + 48 * y
  let s1 := if (s.tile t).vacant then s
    else s.setTile t (((s.tile t).addSat F.TIL_VSP_DISCARD.count 0 1).vspFlag (s.ctx t) F.TIL_VSP_STATUS.unreachable)
  if p.rec_.isSome then s1 else s1.tileRec t 0x12 7 0 p.op p.head 0 0 0 0 0 0

/-- A response to an access of the rack controller (R395). -/
def State.vendAnswer (p : VPkt) (s : State) : State :=
  if s.vend.any (fun v => v.1 == p.rtag) = false then s
  else
    let s1 : State := { s with vend := s.vend.filter (fun v => v.1 != p.rtag) }
    if p.op = 6 then s1.put (.vendor (bits p.w.toNat 0 16) 0)
    else s1.put (.vendor 0 (BitVec.ofNat 64 (leNat (p.data.take 8))))

/-- All flits of a packet have come to its endpoint: records reach the Observatory (R425), memory answers and answers to the Observatory
act at once, fabric packets go to the port die, answers to VSTs end there, everything else waits for its endpoint's command. -/
def State.eject (p : VPkt) (s : State) : State :=
  let t := p.dx + 48 * p.dy
  match p.rec_ with
  | some r => { s with recs := s.recs ++ [r] }
  | none =>
    match p.ep with
    | 0 =>
      if (p.rep = 8 ∨ p.rep = 9) ∧ (p.op = 4 ∨ p.op = 5) then s.onTile t fun c tl => tl.memAnswer c p.rtag p.data
      else if p.rep = 1 ∧ p.isResponse then
        -- a VST counts as done at its target; one that never got there ends with its ERROR (R98, R224)
        (if p.op = 6 then s.onTile t fun c tl => (tl.vstReached c, []) else s)
      else { s with inbox := s.inbox ++ [p] }
    | 2 => if p.op = 0 ∨ p.op = 1 then { s with inbox := s.inbox ++ [p] }
      else { s with routeQ := s.routeQ ++ [⟨if p.dx < 24 then 0 else 1, p.dy, none, FPkt.ofBytes p.data⟩] }
    | 3 => if p.isResponse then (if p.src = 1 then s.hostAnswer p else if p.src = 2 then s.vendAnswer p else s)
      else { s with inbox := s.inbox ++ [p] }
    | _ => { s with inbox := s.inbox ++ [p] }

/-- The check of a flit that came to the router at (x, y) on one of the inputs 1 to 6 (R212, R218): 1 corrected, else uncorrectable. -/
def State.vspError (x y inp : Nat) (p : VPkt) (err : Nat) (s : State) : State :=
  let t := x + 48 * y
  let reg (f g : Fld) (s : State) : State :=
    if (s.tile t).vacant then s else s.setTile t (((s.tile t).addSat f 0 1).merFlag (s.ctx t) g)
  if err = 1 then reg F.TIL_MER_LINK.corrected F.TIL_MER_STATUS.corrected s
  else (reg F.TIL_MER_LINK.uncorrectable F.TIL_MER_STATUS.uncorrectable s).tileRec t 0x11 7 0 p.op p.head
    (BitVec.ofNat 64 (1 + inp * 2 ^ 8)) 0 0 0 0 0

/-! ### The router (R218, R219, R223) -/

/-- The output of the router at (x, y) that a packet needs: a link, or its endpoint at its destination. -/
def VPkt.outAt (p : VPkt) (x y : Nat) : Nat := (dirTo x y p.dx p.dy).getD (epPort p.ep)

/-- The packet's flits in one input buffer of the router at (x, y). -/
def VPkt.hopAt (p : VPkt) (x y inp : Nat) : Option VHop := p.worm.find? (fun h => h.x == x && h.y == y && h.inp == inp)

/-- The packet's head flit has not left the router at (x, y). -/
def VPkt.headAt (p : VPkt) (x y : Nat) : Bool := p.gone == 0 && p.worm.getLast?.any (fun h => h.x == x && h.y == y)

/-- The packet holds its virtual channel on an output of the router at (x, y): its head has left by it and its tail has not. -/
def VPkt.holds (p : VPkt) (x y o : Nat) : Bool :=
  p.worm.any (fun h => h.x == x && h.y == y) && !(p.headAt x y) && p.outAt x y == o

/-- The first flit of a buffer belongs to the packet whose flits came there first; of packets that an endpoint hands over, to the one
handed over first. -/
def firstOf (inp : Nat) : List (VPkt × VHop) → Option (VPkt × VHop)
  | [] => none
  | q :: r => match firstOf inp r with
    | none => some q
    | some b => if 1 ≤ inp ∧ inp ≤ 4 ∧ b.2.buf.headD 0 < q.2.buf.headD 0 then some b else some q

def State.front (s : State) (x y inp vc : Nat) : Option (VPkt × VHop) :=
  firstOf inp (s.pkts.filterMap (fun p => match p.hopAt x y inp with
    | some h => if p.vc == vc && !h.buf.isEmpty then some (p, h) else none
    | none => none))

/-- The credits in use for a buffer: its flits, and those that have left it within 2 cycles (R218). -/
def State.inUse (s : State) (x y inp vc : Nat) : Nat :=
  (s.pkts.map (fun p => if p.vc = vc then (p.hopAt x y inp).elim 0 (·.buf.length) else 0)).sum
    + s.vcred.countP (fun d => d.1 == x + 48 * y && d.2.1 == inp && d.2.2.1 == vc && decide (s.cycle < d.2.2.2 + 2))

/-- A memory port takes the head of an open request only for a free entry of its queue (R282). -/
def State.portTakes (s : State) (p : VPkt) : Bool :=
  let here (q : VPkt) : Bool := q.ep == 1 && q.dx == p.dx && q.dy == p.dy && (q.op == 8 || q.op == 9)
  match allChans.find? (fun ch => chanX ch == p.dx && chanY ch == p.dy) with
  | none => true
  | some ch => decide ((s.chan ch).queue.length + s.inbox.countP here + s.pkts.countP (fun q => here q && decide (0 < q.gone)) < 64)

/-- The input's flit on one virtual channel that may leave by output `o` in this cycle. -/
def State.offers (s : State) (x y o vc inp : Nat) : Option (VPkt × VHop) :=
  match s.front x y inp vc with
  | none => none
  | some (p, h) =>
    let ready := decide (h.buf.headD 0 ≤ s.cycle) && p.outAt x y == o &&
      !(s.vcred.any (fun d => d.1 == x + 48 * y && d.2.1 == inp && d.2.2.1 == vc && d.2.2.2 == s.cycle))
    let free := !(p.headAt x y) || !(s.pkts.any (fun q => q.vc == vc && q.holds x y o))
    let credit := match s.neighbour x y o with
      | some (nx, ny, cost) => cost == 3 || decide (s.inUse nx ny (inputOf o) vc < 4)
      | none => !(p.headAt x y) || o ≠ 5 || !(p.op == 8 || p.op == 9) || s.portTakes p
    if ready && free && credit then some (p, h) else none

/-- What an output remembers: the cycle in which it last sent, the last of the virtual channels 0, 2 and 3 that it served, and by virtual
channel the last input that it served. -/
def State.outMem (s : State) (t o : Nat) : VOut := s.vout.get (t, o) ⟨none, 3, .empty⟩

/-- Virtual channels in the order in which an output serves them (R219): 1 first, then the others round-robin. -/
def vcOrder (last : Nat) : List Nat := if last = 0 then [1, 2, 3, 0] else if last = 2 then [1, 3, 0, 2] else [1, 0, 2, 3]

/-- Inputs in round-robin order after the last one served. -/
def inputOrder (last : Nat) : List Nat := (List.range 8).map (fun k => (last + 1 + k) % 8)

/-- The flit that an output sends in this cycle. -/
def State.pick (s : State) (x y o : Nat) : Option (VPkt × VHop) :=
  let m := s.outMem (x + 48 * y) o
  if m.used = some s.cycle then none
  else (vcOrder m.vc).findSome? (fun vc => (inputOrder (m.inps.get vc 7)).findSome? (fun inp => s.offers x y o vc inp))

/-- The first flit of a hop leaves the buffer; routers that all flits have left are forgotten. -/
def VPkt.leaves (p : VPkt) (h : VHop) (rest : List VHop → List VHop) : VPkt :=
  { p with worm := (rest (p.worm.map (fun g => if g = h then { g with buf := g.buf.tail } else g))).dropWhile (fun g => g.buf.isEmpty) }

/-- The flit goes to the next router, where it is after 1 and the link's cost (R223), or to the endpoint. -/
def VPkt.advance (p : VPkt) (h : VHop) (next : Option (Nat × Nat × Nat × Nat)) (now : Nat) : VPkt :=
  match next with
  | none =>
    let g := p.gone + 1
    { p.leaves h id with gone := g, ready := if g = p.len + 1 then now + 4 else p.ready }
  | some (nx, ny, ni, cost) =>
    let a := now + 1 + cost
    if p.headAt h.x h.y then { p.leaves h (· ++ [⟨nx, ny, ni, [a]⟩]) with x := nx, y := ny, ready := a }
    else p.leaves h (fun l => l.map (fun g => if g.x = nx ∧ g.y = ny then { g with buf := g.buf ++ [a] } else g))

/-- Remember what an output served, and that a credit of the buffer is on its way back. -/
def State.served (t o vc inp : Nat) (s : State) : State :=
  let m := s.outMem t o
  { s with vout := s.vout.set (t, o) ⟨some s.cycle, if vc = 1 then m.vc else vc, m.inps.set vc inp⟩,
           vcred := s.vcred.filter (fun d => decide (s.cycle < d.2.2.2 + 2)) ++ [(t, inp, vc, s.cycle)] }

/-- One output of the router at (x, y) in one cycle. `err` is what the check of a flit finds, by input and virtual channel. A packet with
an uncorrectable flit is dropped whole; a request before an unreachable link is answered, anything else discarded (R224). -/
def State.vspOut (x y : Nat) (err : List (Nat × Nat × Nat)) (s : State) (o : Nat) : State :=
  match s.pick x y o with
  | none => s
  | some (p, h) =>
    let found := if 1 ≤ h.inp ∧ h.inp ≤ 6 then ((err.find? (fun e => e.1 == h.inp && e.2.1 == p.vc)).map (·.2.2)).getD 0 else 0
    let s0 := s.served (x + 48 * y) o p.vc h.inp
    let gone : State := { s0 with pkts := s0.pkts.erase p }
    if 2 ≤ found then gone.vspError x y h.inp p found
    else
      let check (s : State) : State := if found = 1 then s.vspError x y h.inp p 1 else s
      match s.neighbour x y o with
      | none => check { s0 with pkts := s0.pkts.map (fun q => if q = p then p.advance h none s.cycle else q) }
      | some (nx, ny, cost) =>
        if cost ≠ 3 then
          check { s0 with pkts := s0.pkts.map (fun q => if q = p then p.advance h (some (nx, ny, inputOf o, cost)) s.cycle else q) }
        else if p.isResponse ∨ p.op = 7 ∨ p.op = 10 ∨ p.rec_.isSome then check (gone.dropPkt x y p)
        else check (gone.refuseReq x y 0 p 5)

/-- The packets that have come whole to an endpoint at (x, y). -/
def State.delivers (x y : Nat) (s : State) : State :=
  let come := s.pkts.filter (fun p => p.worm.isEmpty && p.dx == x && p.dy == y && decide (p.ready ≤ s.cycle))
  come.foldl (fun s p => s.eject p) { s with pkts := s.pkts.filter (fun p => !(come.contains p)) }

/-- VESPER_PACKET_ROUTE: one cycle of the Vesper router of tile position `t`. Each output sends at most one flit; the outputs are taken
links first. -/
def State.vspRouter (t : Nat) (err : List (Nat × Nat × Nat)) (s : State) : State :=
  if 2304 ≤ t then s
  else [1, 2, 3, 4, 0, 5, 6, 7].foldl (State.vspOut (t % 48) (t / 48) err) (s.delivers (t % 48) (t / 48))

def execVesperPacketRoute (t : Nat) (err : List (Nat × Nat × Nat)) (s : State) : Ans := .next (s.vspRouter t err)

/-- The first packet of the inbox that `q` accepts is taken; `f` acts on it. -/
def State.takeInbox (q : VPkt → Bool) (f : VPkt → State → State) (s : State) : State :=
  match s.inbox.find? q with
  | none => s
  | some p => f p { s with inbox := s.inbox.erase p }

/-- Addressed to the tile endpoint of tile `t`. -/
def VPkt.atTile (p : VPkt) (t : Nat) : Bool := p.ep == 0 && p.dx + 48 * p.dy == t

/-! ### Scratchpad accesses (R224, R376) -/

/-- The op-specific bytes of a scratchpad access, as the model lays them out (log entry 21): offset and length. -/
def scrWord (off len : Nat) : Word := BitVec.ofNat 64 (off + len * 2 ^ 21)

/-- The tile serves a scratchpad access through the SEQ class, 64 bytes in a cycle, and answers in the cycle of the last access; in
OFFLINE, FENCED and RETIRED it answers WRONG_STATE. -/
def State.serveScratch (p : VPkt) (s : State) : State :=
  let t := p.dx + 48 * p.dy
  let off := bits p.w.toNat 0 21
  let len := bits p.w.toNat 21 13
  let s1 := s.onTile t fun _ tl => (tl, [])
  let tl := s1.tile t
  if tl.deaf ∨ tl.vacant then s1.refuseReq p.dx p.dy 0 p 1
  else
    let data := if p.op = 2 then tl.bytes off len else p.data.take len
    let r := tl.copyLines (s1.ctx t) .vesper (p.op == 3) 256 s.cycle off data
    let s2 := s1.onTile t fun _ _ => r.1
    s2.during r.2 (State.respond p.dx p.dy 0 p (if p.op = 2 then 4 else 5) 0 (if p.op = 2 then data else []))

def execVesperScratchAccess (s : State) : Ans :=
  .next (s.takeInbox (fun p => p.ep == 0 && (p.op == 2 || p.op == 3)) State.serveScratch)

/-! ### Responses and messages at a tile -/

/-- VLD_RESPONSE (R97, R224). -/
def execVldResponse (t : Nat) (s : State) : Ans :=
  .next (s.takeInbox (fun p => p.atTile t && p.isResponse && p.rep == 0) fun p s =>
    s.onTile t fun c tl => tl.vldReply c p.rtag (p.op == 6) (BitVec.ofNat 64 (leNat (p.data.take 8))))

/-- MEM_ERROR_RECEIVE (R289): the ERROR names its slot and the abort reason; an answer to a calendar request has no tag. -/
def execMemErrorReceive (t : Nat) (s : State) : Ans :=
  .next (s.takeInbox (fun p => p.atTile t && p.op == 6 && (p.rep == 8 || p.rep == 9 || p.rep == 2)) fun p s =>
    s.onTile t fun c tl => tl.memError c (bits p.w.toNat 24 3) (bits p.w.toNat 16 8) (if p.rep = 2 then none else some p.rtag))

/-- CHAN_MESSAGE_ARRIVAL (R246, R247, R249). -/
def execChanMessageArrival (t : Nat) (s : State) : Ans :=
  .next (s.takeInbox (fun p => p.atTile t && p.op == 7) fun p s =>
    let n := p.w.toNat
    s.onTile t fun c tl => tl.msgArrives c (bits n 0 6)
      { bytes := p.data.take (bits n 12 13), src := p.src - 0x1000, sendIndex := bits n 6 6, remote := bits n 25 1 == 1,
        srcEid := bits n 26 14, at_ := c.cycle })

/-- A channel reply of one code reaches its sender (Table 7-2). -/
def State.takeReply (t code : Nat) (s : State) : State :=
  s.takeInbox (fun p => p.atTile t && p.op == 5 && p.rep == 7 && bits p.w.toNat 0 2 == code) fun p s =>
    let n := p.w.toNat
    s.onTile t fun c tl => tl.reply c code (bits n 2 6) (bits n 8 5)

/-- An ACCEPTED reply completes the send OK (R246). -/
def execChanReplyAccepted (t : Nat) (s : State) : Ans := .next (s.takeReply t 0)
/-- A CLOSED reply returns its credit and completes the send CLOSED (R246). -/
def execChanReplyClosed (t : Nat) (s : State) : Ans := .next (s.takeReply t 1)
/-- A REFUSED reply is handled like a CLOSED one (R246). -/
def execChanReplyRefused (t : Nat) (s : State) : Ans := .next (s.takeReply t 2)
/-- A CREDIT reply returns credits (R241). -/
def execChanReplyCredit (t : Nat) (s : State) : Ans := .next (s.takeReply t 3)

/-! ### Requests at a memory port -/

/-- OPEN_REQUEST_ARRIVAL (R281, R282, R285): a request stays where it is while the queue has no free entry. -/
def State.openArrival (ch : Nat) (s : State) : State :=
  match s.inbox.find? (fun p => p.ep == 1 && (p.op == 8 || p.op == 9) && p.dx == chanX ch && p.dy == chanY ch) with
  | none => s
  | some p => match (s.chan ch).openArrives (s.ctx ch) p with
    | none => s
    | some _ => ({ s with inbox := s.inbox.erase p } : State).onChan ch fun c h => ((h.openArrives c p).getD (h, []))

def execOpenRequestArrival (ch : Nat) (s : State) : Ans := .next (s.openArrival ch)

end Sys2Proof.Machine
end

