-- ==== Sys2Proof/Machine/RegAccess.lean ====
section
/-! DEFINITION. The CTL window: what every register reads as, what a read clears and what a write does (R6, R7, R9,
R369 to R371, R539), with the few registers of chapters 8, 13 and 15 whose writes have rules of their own. -/
namespace Sys2Proof.Machine

/-! ### Records as bytes (Table 13-1) -/

def Rec.bytes (r : Rec) : List Byte :=
  leBytes 8 r.time ++ leBytes 4 r.seq ++ leBytes 1 r.kind ++ leBytes 1 r.unitType ++ leBytes 1 r.die ++ leBytes 1 r.unitIndex ++
  leBytes 1 r.x ++ leBytes 1 r.y ++ leBytes 2 r.op ++ leBytes 2 r.temp ++ leBytes 2 r.mv ++ leBytes 8 r.s0.toNat ++
  leBytes 8 r.s1.toNat ++ leBytes 8 r.s2.toNat ++ leBytes 8 r.s3.toNat ++ leBytes 1 r.rept ++ leBytes 1 r.flags ++
  leBytes 2 r.count ++ leBytes 2 r.job ++ leBytes 2 r.status

/-- The record of the volatile log with a sequence number. -/
def State.recAt (s : State) (seq : Nat) : Option Rec := s.log.find? (fun r => r.seq == seq)

/-! ### Views -/

/-- Seconds in cycles of the tile clock (R3). -/
def second : Nat := 2000000000

/-- The cycles between two transits of one tile (R435). -/
def State.transitPeriod (s : State) : Nat := s.rd F.ERR_TRANSIT_CFG.period 0 0 * second

/-- Positions of a die that hold a tile in service. -/
def State.inService (s : State) (d : Nat) : Nat := 576 - (s.tiles.keys.filter (fun t => tileDie t == d && (s.tile t).vacant)).length
def State.vacantCount (s : State) : Nat := (s.tiles.keys.filter (fun t => (s.tile t).vacant)).length
/-- Columns of a die whose spare is in use (Table 1-3). DESIGN CHOICE (log entry 78): a column whose first failure still waits for its remap
is not counted: Table 1-3 counts spares in use, R29's last sentence says from its first failure on. -/
def State.sparesUsed (s : State) (d : Nat) : Nat := ((List.range 24).filter (fun x => s.skip.get (d, x) 24 != 24)).length

/-- Fewest free spare columns of any sub-bank of a tile (Table 13-16): each has 4. -/
def State.sparesMin (s : State) (t : Nat) : Nat :=
  (List.range 64).foldl (fun m b => min m (4 - (s.repairs.filter (fun r => r.1 == t && r.2.1 == b)).length)) 4

/-- Times that every tile in service has completed a sweep (Table 13-10). -/
def State.sweeps (s : State) : Nat :=
  (allTiles.filter (fun t => !(s.tile t).vacant)).foldl (fun m t => min m (s.bgSweeps.get t 0)) (2 ^ 64)

def bitSum (n : Nat) (p : Nat → Bool) : Nat := (List.range n).foldl (fun a k => a + (p k).toNat * 2 ^ k) 0

/-- What a field of a module register reads as: fields with a home of their own are taken from it. An RC counter reads as it stood before
the increments of this cycle, which a read leaves in it: R155 and R263 say so of a tile's counters, and the model takes it for every RC
field (DEDUCED, log entry 86). -/
def State.field (s : State) (r : Reg) (i j : Nat) (f : Fld) : Nat :=
  let pick (l : List (Fld × Nat)) : Nat := match l.find? (fun p => p.1.id == f.id) with
    | some p => p.2
    | none => s.regs.seen f i j
  match r with
  | .GLB_SIDEREAL => s.sidereal
  | .GLB_DIST => pick [(F.GLB_DIST.router_failed, (s.failedAt (j % 48) (j / 48)).toNat), (F.GLB_DIST.vacant, ((s.tile j).vacant && !(s.pendingRemap.contains j)).toNat),
      (F.GLB_DIST.south, s.southCost (j % 48) (j / 48)), (F.GLB_DIST.east, s.eastCost (j % 48) (j / 48))]
  | .GLB_MESH_STATUS => pick [(F.GLB_MESH_STATUS.vacant_count, s.vacantCount), (F.GLB_MESH_STATUS.complete, (s.vacantCount == 0).toNat),
      (F.GLB_MESH_STATUS.spares_used_d3, s.sparesUsed 3), (F.GLB_MESH_STATUS.spares_used_d2, s.sparesUsed 2),
      (F.GLB_MESH_STATUS.spares_used_d1, s.sparesUsed 1), (F.GLB_MESH_STATUS.spares_used_d0, s.sparesUsed 0)]
  | .MEM_GLB_MAP => pick [(F.MEM_GLB_MAP.n, s.chansIn.length)]
  | .FAB_PORT_PARTNER => pick [(F.FAB_PORT_PARTNER.valid, ((s.port i).markerAt.any (fun a => decide (s.cycle ≤ a + 61440))).toNat)]
  | .FAB_LANE => pick [(F.FAB_LANE.active, bits (s.rd F.FAB_PORT_STATE.lane_set i 0) j 1)]
  | .FAB_PORT_CREDIT => pick [(F.FAB_PORT_CREDIT.c_avail, (s.port i).creditsC), (F.FAB_PORT_CREDIT.m_avail, (s.port i).creditsM)]
  | .RTE_FLEET_STATUS => pick [(F.RTE_FLEET_STATUS.conj_state, match s.conj with | none => 0 | some c => if c.running then 2 else 1)]
  | .OBS_MBX_STATUS => pick [(F.OBS_MBX_STATUS.locked, bitSum 32 (fun k => s.owner k != 0)), (F.OBS_MBX_STATUS.full, bitSum 32 s.full)]
  | .OBS_LOG_SEL => pick [(F.OBS_LOG_SEL.valid, (s.recAt (s.rd F.OBS_LOG_SEL.sel 0 0)).isSome.toNat)]
  | .OBS_LOG_REC => match s.recAt (s.rd F.OBS_LOG_SEL.sel 0 0) with
    | some q => leNat ((q.bytes.drop (8 * j)).take 8)
    | none => 0
  | .ERR_TRANSIT_STATE => pick [(F.ERR_TRANSIT_STATE.open, s.windows.length), (F.ERR_TRANSIT_STATE.in_transit, s.saves.length),
      (F.ERR_TRANSIT_STATE.overdue, ((s.due ++ s.windows).filter (fun t => decide (s.dueAt.get t s.cycle + s.transitPeriod < s.cycle))).length)]
  | .ERR_BG_STATE => pick [(F.ERR_BG_STATE.sweeps, s.sweeps), (F.ERR_BG_STATE.held, (s.bg.keys.filter (fun t => (s.bg.find t).any (·.held))).length)]
  | .ERR_TILE_DIGEST => (s.tile j).digest.toNat
  | .ERR_TILE_TEST => pick [(F.ERR_TILE_TEST.bg_region, match s.bg.find j with | some b => b.region | none => 0),
      (F.ERR_TILE_TEST.bg_held, ((s.bg.find j).any (·.held)).toNat), (F.ERR_TILE_TEST.spares_min, s.sparesMin j)]
  | .RST_STATUS => pick [(F.RST_STATUS.busy_domain, match s.resets.getLast? with | some q => q.dom | none => 0)]
  | .DIE_STATE => pick [(F.DIE_STATE.pending_remap, (s.pendingRemap.filter (fun t => tileDie t == i)).length),
      (F.DIE_STATE.in_service, s.inService i),
      (F.DIE_STATE.state, if s.resets.any (fun q => (q.dom == 2 && q.idx == i) || q.dom == 6) then 1
        else if bits (s.rd F.RST_FENCE.dies 0 0) i 1 = 1 then 2 else 0)]
  | .PWR_CLK => pick [(F.PWR_CLK.root_src, (s.rd F.GLB_TIME_CFG.role 0 0 == 2).toNat)]
  | .PWR_THROTTLE => pick [(F.PWR_THROTTLE.cycles, min (s.gated / 2 ^ 20) 0xFFFFFFFF)]
  | .MBX_SENDER => pick [(F.MBX_SENDER.owner, s.owner i)]
  | _ => s.regs.seen f i j

/-- A module register as a 64-bit word. -/
def State.word (s : State) (r : Reg) (i j : Nat) : Word := BitVec.ofNat 64 (assemble r.fields (s.field r i j))

/-- What a read clears; PWR_TEMP.max restarts from the present reading (Table 16-16). -/
def State.clearReg (r : Reg) (i j off4 size : Nat) (s : State) : State :=
  let s1 : State := { s with regs := s.regs.readClear r i j off4 size }
  match r with
  | .PWR_TEMP => if F.PWR_TEMP.max.within off4 size then s1.wr F.PWR_TEMP.max i j (s.rd F.PWR_TEMP.temp i j) else s1
  | _ => s1

/-! ### Where registers live -/

def inTil (off : Nat) : Bool := decide (0x1000000 ≤ off) && decide (off < 0x2200000)
def inChan (off : Nat) : Bool := decide (0x400000 ≤ off) && decide (off < 0x460000)
def inFab (off : Nat) : Bool := decide (0x200000 ≤ off) && decide (off < 0x300000)

/-- The position and endpoint of a register reached on Vesper; none: the Observatory serves it (R539). -/
def vspTarget (off : Nat) : Option (Nat × Nat × Nat) :=
  if inTil off then let t := (off - 0x1000000) / 0x2000
                    some (t % 48, t / 48, 0)
  else if inChan off then let ch := (off - 0x400000) / 0x1000
                          some (chanX ch, chanY ch, 1)
  else if inFab off then let n := (off - 0x200000) / 0x10000
                         some (portX n, 6 * (n % 8), 2)
  else none

/-- The bytes of a word that an access of `size` bytes at byte `off4` reads. -/
def cutWord (w : Word) (off4 size : Nat) : Nat := w.toNat / 2 ^ (8 * off4) % 2 ^ (8 * size)

/-! ### The MSI-X table and pending bits (R392) -/

/-- A vector becomes unmasked: it is signalled if it was pending. -/
def State.unmask (v : Nat) (s : State) : State :=
  if bits (s.msixWord (2 * v + 1)).toNat 32 1 = 0 ∧ bits s.pba v 1 = 1 then
    ({ s with pba := s.pba - 2 ^ v } : State).put (.vector v)
  else s

def State.writeMsix (off : Nat) (size : Nat) (v : Word) (s : State) : State :=
  let k := (off - 0x180000) / 8
  let old := (s.msixWord k).toNat
  let a : Access := ⟨off % 8, size, v⟩
  let m := (2 ^ (8 * size) - 1) * 2 ^ (8 * (off % 8))
  ({ s with msix := s.msix.set k (BitVec.ofNat 64 (old - (old &&& m) + a.word)) } : State).unmask (k / 2)

/-! ### Reads -/

/-- A register of a tile as it reads; TIL_STATE.phys_row is the row of the column assignment, counted from the memory edge
(Table 3-15, log entry 8). -/
def State.tileWord (s : State) (t : Nat) (r : Reg) (j : Nat) : Word :=
  let w := (s.tile t).regRead (s.ctx t) r j
  if r = .TIL_STATE ∧ (s.tile t).vacant = false then w + BitVec.ofNat 64 (s.physRow (t % 48) (t / 48) * 2 ^ 24) else w

/-- Read `size` bytes of the CTL window, as at their target; `clears` says whether RC fields are cleared (R7, R395). A tile
is first brought up to the present. -/
def State.ctlRead (clears : Bool) (off size : Nat) (s : State) : State × Nat :=
  if 0x180000 ≤ off ∧ off < 0x180400 then (s, cutWord (s.msixWord ((off - 0x180000) / 8)) (off % 8) size)
  else if 0x181000 ≤ off ∧ off < 0x181008 then (s, cutWord (BitVec.ofNat 64 s.pba) (off % 8) size)
  else match regAt off with
    | none => (s, 0)
    | some (r, i, j, b) =>
      if inTil off then
        let s1 := s.onTile i fun _ tl => (tl, [])
        let v := cutWord (s1.tileWord i r j) b size
        (if clears then s1.setTile i ((s1.tile i).regClear (s1.ctx i) r j b size) else s1, v)
      else if inChan off then
        let v := cutWord ((s.chan i).regRead r j) b size
        (if clears then s.setChan i ((s.chan i).regClear r j b size) else s, v)
      else (if clears then s.clearReg r i j b size else s, cutWord (s.word r i j) b size)

/-! ### Writes with rules of their own -/

def State.enableMask (s : State) : Nat := s.rd F.MEM_GLB_ENABLE_LO.enable 0 0 + s.rd F.MEM_GLB_ENABLE_HI.enable 0 0 * 2 ^ 64

/-- The test content, the distance table or the channel map has changed: the module is no longer proven (R488). -/
def State.unproven (s : State) : State := s.wr F.RTE_FLEET_STATUS.proven 0 0 0

/-- A write of MEM_GLB_ENABLE (R291). A channel that leaves the map becomes DISABLED (R290). -/
def State.writeEnable (hi : Bool) (a : Access) (s : State) : State :=
  let f := if hi then F.MEM_GLB_ENABLE_HI.enable else F.MEM_GLB_ENABLE_LO.enable
  if a.hits f = false then s
  else
    let base := if hi then 64 else 0
    let s1 := s.wr f 0 0 (a.val f)
    let ok := (s.st == .ready || s.st == .joined) &&
      allChans.all (fun ch => (s.chan ch).rd F.MEM_CAL_CTRL.enable 0 == 0 && (s.chan ch).queue.isEmpty) &&
      allChans.all (fun ch => ch < base || bits (a.val f) (ch - base) 1 == 0 || (s.chan ch).st == .active)
    if ok = false then
      (s.flag F.MEM_GLB_MAP.again_count F.MEM_GLB_MAP.cfg_ignored 0 0 1).refusedRec (if hi then 0x460008 else 0x460000)
    else if s1.enableMask = s.enableMask then s
    else
      let gone := allChans.filter (fun ch => bits s.enableMask ch 1 == 1 && bits s1.enableMask ch 1 == 0)
      let s2 := gone.foldl (fun s ch => s.setChan ch { (s.chan ch) with st := .disabled }) s1
      (s2.addWrap F.MEM_GLB_MAP.gen 0 0 1).unproven

/-- Writes of ERR_CTRL, ERR_TRANSIT_CFG and ERR_BG_CFG (R456): the first one's other fields take writes in every state. -/
def State.writeErr (r : Reg) (a : Access) (s : State) : State :=
  let open_ := s.st == .ready || s.st == .joined
  let ignored (s : State) : State := s.flag F.ERR_STATUS.again_count F.ERR_STATUS.cfg_ignored 0 0 1
  let stored : State := { s with regs := s.regs.store r 0 0 s.cycle a }
  if open_ then stored
  else match r with
    | .ERR_CTRL =>
      let old := s.rd F.ERR_CTRL.history_mode 0 0
      let kept := stored.wr F.ERR_CTRL.history_mode 0 0 old
      if a.hits F.ERR_CTRL.history_mode && a.val F.ERR_CTRL.history_mode != old then ignored kept else kept
    | _ => ignored s

/-- A write of RTE_PLACE_GEN or RTE_PLACE_NEED (R503); the need of each port is a field of its own (R9). -/
def State.writePlace (need : Bool) (a : Access) (s : State) : State :=
  if s.inJob then s.rteRefuse 1 (if need then 0x300050 else 0x300048)
  else if need = false then ({ s with regs := s.regs.store .RTE_PLACE_GEN 0 0 s.cycle a } : State)
  else
    let old := s.rd F.RTE_PLACE_NEED.need 0 0
    let merged := (List.range 16).foldl (fun m n =>
      let lo := 3 * n
      let inside := decide (a.off4 * 8 ≤ lo) && decide (lo + 3 ≤ (a.off4 + a.size) * 8)
      let v := bits a.word lo 3
      m + (if inside && decide (v < 6) then v else bits old lo 3) * 2 ^ lo) 0
    let s1 := s.wr F.RTE_PLACE_NEED.need 0 0 merged
    if a.hits F.RTE_PLACE_NEED.check then s1.wr F.RTE_PLACE_NEED.check 0 0 (a.val F.RTE_PLACE_NEED.check) else s1

/-- RTE_CTRL: each action named by a 1 bit, in bit order (R340, R363). -/
def State.writeRteCtrl (a : Access) (s : State) : State :=
  let on (f : Fld) : Bool := a.hits f && a.val f == 1
  let s1 := if on F.RTE_CTRL.join then s.join else s
  let s2 := if on F.RTE_CTRL.leave then s1.leaveFabric else s1
  if on F.RTE_CTRL.nova then s2.hostNova else s2

/-- A write of a module register by a source. Writes that reach no writable field do nothing (R6, R7). -/
def State.writeReg (src : Nat) (r : Reg) (i j : Nat) (a : Access) (s : State) : State :=
  if r ≠ .RTE_PLACE_NEED ∧ (r.fields.any (fun f => a.hits f && f.acc != .ro && f.acc != .rc)) = false then s
  else match r with
    | .GLB_TIME_CFG => s.writeTimeCfg a
    | .FAB_PORT_CTRL => s.portCmd i (a.val F.FAB_PORT_CTRL.cmd)
    | .FAB_PORT_CFG => s.writePortCfg i a
    | .RTE_SELF => s.writeSelf a
    | .RTE_CTRL => s.writeRteCtrl a
    | .RTE_ROUTE => s.writeTable 0 j a
    | .RTE_ROW => s.writeTable 1 j a
    | .RTE_COL => s.writeTable 2 j a
    | .RTE_GBAR => s.writeGbar j a
    | .RTE_PLACE_GEN => s.writePlace false a
    | .RTE_PLACE_NEED => s.writePlace true a
    | .MEM_GLB_ENABLE_LO => s.writeEnable false a
    | .MEM_GLB_ENABLE_HI => s.writeEnable true a
    | .OBS_MBX_BREAK => if src = 1 then s.mbxBreak (a.val F.OBS_MBX_BREAK.index) else s
    | .ERR_CTRL => s.writeErr r a
    | .ERR_TRANSIT_CFG => s.writeErr r a
    | .ERR_BG_CFG => s.writeErr r a
    | .PWR_ENV_CFG => s.writeEnvCfg a
    | _ => { s with regs := s.regs.store r i j s.cycle a }

/-- Write `size` bytes of the CTL window, as at their target. -/
def State.ctlWrite (src off size : Nat) (v : Word) (s : State) : State :=
  if 0x180000 ≤ off ∧ off < 0x180400 then s.writeMsix off size v
  else match regAt off with
    | none => s
    | some (r, i, j, b) =>
      let a : Access := ⟨b, size, v⟩
      if inTil off then s.onTile i fun c tl => tl.regWrite c r j a
      else if inChan off then s.onChan i fun c h => (h.regWrite c r j a, [])
      else s.writeReg src r i j a

/-! ### Sources and windows (R371, R378, R395) -/

/-- A source number of Table 11-5. -/
def validSrc (src : Nat) : Bool :=
  src == 1 || src == 2 || src == 0x10 || src == 0x11 || (decide (0x1000 ≤ src) && decide (src < 0x1000 + 2304))

/-- A mailbox window access of `size` bytes at `off` meets R371: a register-sized one, or payload bytes of one mailbox, or
the RSVD range. -/
def mbxSizeOk (off size : Nat) : Bool :=
  let o := off % 0x1000
  if 0x20000 ≤ off then decide (0 < size) && decide (size ≤ 512) && decide (off + size ≤ 0x100000)
  else if 0x40 ≤ o then decide (0 < size) && decide (size ≤ 512) && decide (o + size ≤ 0x1000)
  else goodSize off size

/-- In the dark state of R465, and with the rails latched off (R510, R520), the endpoints answer reads of these blocks only. -/
def State.ctlDead (s : State) : Bool := s.pwr.dead || s.pwr.latched
def deadReadable (off : Nat) : Bool :=
  decide (off < 0x200000) || (decide (0x3000000 ≤ off) && decide (off < 0x3100000)) || (decide (0x3300000 ≤ off) && decide (off < 0x3400000))

/-- The source can reach the module: its rails are on, or only the Observatory's are (R509 to R511), and no cold reset holds it
(R459). -/
def State.reachable (s : State) : Bool := (s.pwr.railsOn || s.pwr.latched) && s.pwr.perstN

end Sys2Proof.Machine
end

