-- ==== Sys2Proof/Machine/PowerOps.lean ====
section
/-! DEFINITION. Warnings, emergencies and throttling as operations (R513 to R519), the sensors of PLDM (R396), and the pins
that follow from the state. -/
namespace Sys2Proof.Machine

/-- Scheduled operation (R515). -/
def State.scheduled (s : State) : Bool := s.st == .running || s.st == .draining || s.startPending

/-- An emergency of codes 0x1 to 0x6 holds. -/
def State.holding (s : State) : Bool := s.pwr.emerg.any (fun e => decide (e.1 ≤ 6))
def State.level (s : State) : Nat := s.rd F.PWR_THROTTLE.level 0 0

/-- The ENV record (R514): condition, emergency or not, its unit, and the signed reading. -/
def State.envRec (code : Nat) (em : Bool) (unit : Nat) (reading : Int) (s : State) : State :=
  s.obsRec 0x63 13 0 0 (s.word .PWR_ENV_STATUS 0 0)
    (BitVec.ofNat 64 (code + em.toNat * 2 ^ 4 + unit % 2 ^ 8 * 2 ^ 8 + (reading % 2 ^ 32).toNat * 2 ^ 16)) (s.word .PWR_THROTTLE 0 0)
    0 0 0 0

def State.setHolding (s : State) : State := s.wr F.PWR_ENV_STATUS.holding 0 0 s.holding.toNat

/-- A warning, an emergency or both of one condition begin: the bits, the interrupt, and one record (R513, R519). -/
def State.begins (code : Nat) (w em : Bool) (unit : Nat) (reading : Int) (s : State) : State :=
  let s1 := if w then s.flag F.PWR_ENV_STATUS.again_count F.PWR_ENV_STATUS.warning 0 0 (2 ^ (code - 1)) else s
  let s2 := if em then
      ({ s1 with pwr := { s1.pwr with emerg := s1.pwr.emerg ++ [(code, unit)] } } : State).flag F.PWR_ENV_STATUS.again_count
        F.PWR_ENV_STATUS.emergency 0 0 (2 ^ (code - 1))
    else s1
  ((s2.setHolding).irq 5).envRec code em unit reading

/-- An emergency of a condition ends. -/
def State.clears (code unit : Nat) (s : State) : State :=
  ({ s with pwr := { s.pwr with emerg := s.pwr.emerg.filter (· != (code, unit)) } } : State).setHolding

/-- An emergency found in scheduled operation fences the module (R516). -/
def State.fenceIfEmergency (s : State) : State := if s.holding ∧ s.scheduled then s.eclipse 4 else s

/-! ### PLDM sensors (R396, Table 11-24) -/

def sgn16 (v : Nat) : Int := if v < 2 ^ 15 then v else (v : Int) - 2 ^ 16

/-- The highest of some sensors, as its 16 bits. -/
def State.hottest (s : State) (ks : List Nat) : Nat :=
  ks.foldl (fun m k => if sgn16 m < sgn16 (s.rd F.PWR_TEMP.temp 0 k) then s.rd F.PWR_TEMP.temp 0 k else m) 0x8000

/-- Attestation signatures left (R416). -/
def State.signaturesLeft (s : State) : Nat :=
  if s.rd F.SEC_KEY_STATUS.exhausted 0 0 = 1 then 0 else 1047552 - s.rd F.SEC_KEY_INDEX.next 0 0

def State.sensor (s : State) (k : Nat) : Nat :=
  match k with
  | 1 => s.rd F.PWR_INPUT.voltage 0 0
  | 2 => s.rd F.PWR_INPUT.power 0 0
  | 3 => s.rd F.PWR_CORE.voltage 0 0
  | 4 => s.rd F.PWR_CORE.current 0 0
  | 5 => s.hottest (List.range 38)
  | 6 => s.hottest (List.range' 0 8)
  | 7 => s.hottest (List.range' 8 8)
  | 8 => s.hottest (List.range' 16 8)
  | 9 => s.hottest (List.range' 24 8)
  | 10 => s.rd F.PWR_TEMP.temp 0 36
  | 11 => allChans.foldl (fun m ch => max m ((s.chan ch).rd F.MEM_CH_STATE.mr4 0)) 0
  | 12 => s.rd F.PWR_TEMP.temp 0 38
  | 13 => s.st.code
  | 14 => s.timeSt
  | 15 => (allPorts.filter (fun n => (s.port n).st == .up)).length
  | 16 => 2304 - s.vacantCount
  | 17 => s.chansIn.length
  | 18 => s.rd F.OBS_LOG_HEAD.next 0 0
  | 19 => s.signaturesLeft
  | _ => 0

/-- A sensor's refreshed reading as a number: temperatures are signed. -/
def State.reading (s : State) (k : Nat) : Int :=
  let v := s.pwr.pldm.get k 0
  if (5 ≤ k ∧ k ≤ 10) ∨ k = 12 then sgn16 v else v

/-- The rack controller sets a threshold of sensor k, the upper or the lower one (R396). -/
def Power.setThr (p : Power) (upper : Bool) (k : Nat) (v : Int) : Power :=
  if upper then { p with pldmHigh := p.pldmHigh.set k v } else { p with pldmLow := p.pldmLow.set k v }

/-- The level of ALERT_N (R396): low while a sensor lies beyond a threshold or the module is FENCED; high-impedance while the Observatory
rail is off (R521). -/
def State.alertN (s : State) : Bool :=
  !(s.reachable && (s.st == .fenced || (List.range' 1 19).any (fun k =>
    (s.pwr.pldm.find k).isSome && ((s.pwr.pldmHigh.find k).any (fun t => decide (t < s.reading k)) ||
      (s.pwr.pldmLow.find k).any (fun t => decide (s.reading k < t))))))

end Sys2Proof.Machine
end

