-- ==== Sys2Proof/Machine/ExecReg.lean ====
section
/-! DEFINITION. Register accesses as commands: writes and reads of the CTL and MBX windows by every source, their service
at the end of a Vesper path, and the rack controller's messages (R6, R7, R369 to R373, R393 to R395, R539). In these commands
an offset with bit 28 set lies in the MBX window. -/
namespace Sys2Proof.Machine

/-- The op-specific bytes of a register access, as the model lays them out (log entry 21): offset, window, and a 1 for a
32-bit access. -/
def regAccessWord (off : Nat) (mbx : Bool) (size : Nat) : Word :=
  BitVec.ofNat 64 (off + mbx.toNat * 2 ^ 28 + (size == 4).toNat * 2 ^ 29)

/-- The Observatory sends a host access of a TIL, MEM or FAB register on its Vesper path (R539). -/
def State.hostReg (write : Bool) (q : Nat × Nat × Nat) (off size : Nat) (v : Word) (s : State) : State :=
  let tag := s.hostNext % 4096
  let part : HPart := { tag := tag, line := none, off := 0, len := size, wr := [], merging := false, done := false, got := [] }
  let r : HReq := { id := s.hostNext, win := 0, write := write, offset := off, at_ := s.cycle, parts := [part], failed := none }
  let data := if write then padTo 16 (leBytes 8 v.toNat) else []
  ({ s with host := s.host ++ [r], hostNext := s.hostNext + 2 } : State).send 0 46 3 q.1 q.2.1 q.2.2 0 write.toNat 1 tag
    (regAccessWord off false size) data 0 46 0

/-- A host read that the Observatory answers itself. -/
def State.complete (c : Cpl) (s : State) : State :=
  ({ s with hostNext := s.hostNext + 1 } : State).put (.completion s.hostNext c)

/-- A management core's access of a TIL, MEM or FAB register enters Vesper at (0, 47) (R222, R539). -/
def State.coreReg (src : Nat) (write : Bool) (q : Nat × Nat × Nat) (off size : Nat) (v : Word) (s : State) : State :=
  s.send 0 47 3 q.1 q.2.1 q.2.2 0 write.toNat src 0 (regAccessWord off false size) (if write then padTo 16 (leBytes 8 v.toNat) else []) 0 47 0

/-- A read of the rack controller of such a register enters Vesper at (0, 46). -/
def State.vendReg (q : Nat × Nat × Nat) (off size : Nat) (s : State) : State :=
  let tag := s.hostNext % 4096
  ({ s with vend := s.vend ++ [(tag, s.cycle)], hostNext := s.hostNext + 1 } : State).send 0 46 3 q.1 q.2.1 q.2.2 0 0 2 tag
    (regAccessWord off false size) [] 0 46 0

def winSize (mbx : Bool) : Nat := if mbx then 0x100000 else 0x4000000

/-- A write in the MBX window by a register-sized or short access. -/
def State.mbxWinWrite (src o size : Nat) (v : Word) (s : State) : State :=
  if 0x20000 ≤ o then s else (s.mbxHandled src).mbxWrite src (o / 0x1000) (o % 0x1000) size v

def State.mbxWinRead (src o size : Nat) (s : State) : State × Nat :=
  if 0x20000 ≤ o then (s, 0) else (s.mbxHandled src).mbxRead src (o / 0x1000) (o % 0x1000) size

/-- The access meets R371. -/
def accessOk (mbx : Bool) (o size : Nat) : Bool := if mbx then mbxSizeOk o size else goodSize o size

/-- REGISTER_WRITE. The rack controller writes through I3C_VENDOR_MESSAGE only; of a tile this is the write at its target, where its VST
arrives. An access of the MBX window that comes after one of a higher source in its Observatory cycle waits for the next (R383). -/
def State.regWriteCmd (src off size : Nat) (v : Word) (s : State) : State :=
  let mbx := bits off 28 1 == 1
  let o := off % 2 ^ 28
  if validSrc src = false ∨ src = 2 ∨ s.reachable = false ∨ winSize mbx ≤ o then s
  else if accessOk mbx o size = false then (if src = 1 then s.hostErr F.OBS_HOST_ERR.size mbx.toNat true o 0 else s)
  else if s.ctlDead ∨ (mbx ∧ s.mbxLater src) then s
  else if mbx then s.mbxWinWrite src o size v
  else if src = 1 then
    match vspTarget o with
    | some q => s.hostReg true q o size v
    | none => s.ctlWrite src o size v
  else if src < 0x1000 then
    match vspTarget o with
    | some q => s.coreReg src true q o size v
    | none => s.ctlWrite src o size v
  else s.ctlWrite src o size v

def execRegisterWrite (src off size : Nat) (v : Word) (s : State) : Ans := .next (s.regWriteCmd src off size v)

/-- A read of the host: it waits for every earlier host write (R372), then it is answered. -/
def State.hostRead (mbx : Bool) (o size : Nat) (s : State) : State :=
  if s.hostWriting then s
  else if accessOk mbx o size = false then (s.hostErr F.OBS_HOST_ERR.size mbx.toNat false o 0).complete .unsupported
  else if s.ctlDead then
    (if mbx = false ∧ deadReadable o then (s.ctlRead true o size).1.complete (.data (leBytes size (s.ctlRead true o size).2))
     else s.complete .abort)
  else if mbx then
    if s.mbxLater 1 then s else
    let r := s.mbxWinRead 1 o size
    r.1.complete (.data (leBytes size r.2))
  else match vspTarget o with
    | some q => s.hostReg false q o size 0
    | none =>
      let r := s.ctlRead true o size
      r.1.complete (.data (leBytes size r.2))

/-- RC_FIELD_READ: a read returns the present values and clears RC fields (R7). Reads of the rack controller clear nothing
(R395). -/
def State.regReadCmd (src off size : Nat) (s : State) : State :=
  let mbx := bits off 28 1 == 1
  let o := off % 2 ^ 28
  if validSrc src = false ∨ src = 2 ∨ s.reachable = false ∨ winSize mbx ≤ o then s
  else if src = 1 then s.hostRead mbx o size
  else if accessOk mbx o size = false ∨ s.ctlDead then s
  else if mbx then (if s.mbxLater src then s else (s.mbxWinRead src o size).1)
  else if src < 0x1000 then
    match vspTarget o with
    | some q => s.coreReg src false q o size 0
    | none => (s.ctlRead true o size).1
  else (s.ctlRead true o size).1

def execRcFieldRead (src off size : Nat) (s : State) : Ans := .next (s.regReadCmd src off size)

/-! ### At the end of a Vesper path (R224) -/

/-- The register target of a REG_RD or REG_WR serves it and answers; a tile's VST ends when it has reached its target
(R98). -/
def State.serveReg (p : VPkt) (s : State) : State :=
  let off := bits p.w.toNat 0 28
  let mbx := bits p.w.toNat 28 1 == 1
  let size := if bits p.w.toNat 29 1 = 1 then 4 else 8
  let v := BitVec.ofNat 64 (leNat (p.data.take 8))
  if p.op = 0 then
    let r := if mbx then s.mbxWinRead p.src off size else s.ctlRead (p.src != 2) off size
    r.1.respond p.dx p.dy p.ep p 4 0 (padTo 16 (leBytes 8 r.2))
  else
    let s1 := if mbx then s.mbxWinWrite p.src off size v else s.ctlWrite p.src off size v
    let s2 := if 0x1000 ≤ p.src then s1.onTile (p.src - 0x1000) (fun c tl => (tl.vstReached c, [])) else s1
    s2.respond p.dx p.dy p.ep p 5 0 []

/-- An access of a mailbox that has to wait for the next Observatory cycle (R383). -/
def State.regWaits (s : State) (p : VPkt) : Bool := bits p.w.toNat 28 1 == 1 && s.mbxLater p.src

def execVesperRegAccess (s : State) : Ans :=
  .next (s.takeInbox (fun p => (p.op == 0 || p.op == 1) && !(s.regWaits p)) State.serveReg)

/-! ### The rack controller (R393 to R396) -/

def State.vendor (status : Nat) (v : Nat) (s : State) : State := s.put (.vendor status (BitVec.ofNat 64 v))

/-- The static I3C address: 0x30 and up by SLOT_ID, passing over 0x3E, 0x5E and 0x6E (R393, R522). -/
def i3cAddress (slot : Nat) : Nat :=
  0x30 + slot + (if 14 ≤ slot then 1 else 0) + (if 45 ≤ slot then 1 else 0) + (if 60 ≤ slot then 1 else 0)

/-- The I3C endpoint acknowledges its address: from the end of the boot ROM's first step on, in every module state (R393). -/
def State.rackOn (s : State) : Bool := s.reachable && !s.bootReady

/-- The MCTP message types that the endpoint supports (R394): control, PLDM, SPDM and vendor-defined PCI messages. The first three codes
are those of MCTP (PRESUMED, log entry 79). -/
def mctpTypes : List Nat := [0x00, 0x01, 0x05, 0x7E]

/-- I3C_VENDOR_MESSAGE: the rack controller reads CTL, or reads or writes a mailbox; any other write is DENIED. -/
def State.vendorMsg (mbx write : Bool) (off size : Nat) (v : Word) (s : State) : State :=
  if s.rackOn = false then s
  else if write ∧ mbx = false then s.vendor 8 0
  else if winSize mbx ≤ off ∨ accessOk mbx off size = false ∨ 8 < size then s.vendor 2 0
  else if s.ctlDead ∧ ¬(mbx = false ∧ deadReadable off) then s.vendor 7 0
  else if mbx = false then
    match vspTarget off with
    | some q => s.vendReg q off size
    | none =>
      let r := s.ctlRead false off size
      r.1.vendor 0 r.2
  else if s.mbxLater 2 then s
  else if write then (s.mbxWinWrite 2 off size v).vendor 0 0
  else
    let r := s.mbxWinRead 2 off size
    r.1.vendor 0 r.2

/-- A PLDM message of the rack controller that sets the threshold of sensor k, the upper or the lower one (R396). -/
def State.setThreshold (upper : Bool) (k : Nat) (v : Word) (s : State) : State :=
  if s.rackOn ∧ 1 ≤ k ∧ k ≤ 19 then { s with pwr := s.pwr.setThr upper k v.toInt } else s

/-- A message of MCTP type `mt.1`: the vendor-defined ones, to MBX where `mt.2`; of PLDM, the one that sets a threshold, a write to sensor
`off`, the upper one where `mt.2` (its layout is PLDM's: log entry 79). SPDM has commands of its own, control concerns MCTP alone, and any
other type is answered as unsupported (R394). -/
def execI3cVendorMessage (mt : Nat × Bool) (write : Bool) (off size : Nat) (v : Word) (s : State) : Ans :=
  .next (if mt.1 = 0x7E then s.vendorMsg mt.2 write off size v
    else if mt.1 = 0x01 ∧ write = true then s.setThreshold mt.2 off v
    else if s.rackOn ∧ mctpTypes.contains mt.1 = false then s.put (.unsupported mt.1) else s)

/-- I3C_TARGET_RESET: the rack controller's mailbox locks are freed (R384, R393); answers to its reads in the mesh find no request. -/
def execI3cTargetReset (s : State) : Ans := .next (({ s with vend := [] } : State).freeLocks 2)

end Sys2Proof.Machine
end

