-- ==== Sys2Proof/Machine/ExecHost.lean ====
section
/-! DEFINITION. The host's bulk accesses through APR, their timeouts, the PCIe link, and the mailboxes as commands (R368 to
R377, R379 to R385). -/
namespace Sys2Proof.Machine

/-! ### The APR window (R374 to R377) -/

/-- Where an access of `len` bytes at an APR offset leads (R374): an LPDDR address, or a tile and byte offset. -/
inductive AprPlace where
  | unmapped
  | lpddr (a : Nat)
  | scratch (t off : Nat)
deriving DecidableEq, Repr

def State.aprSpace (s : State) (off : Nat) : Nat := s.rd F.OBS_APR_SEG.space 0 (bits off 34 2)

def State.aprMap (s : State) (off len : Nat) : AprPlace :=
  let w := bits off 0 34
  match s.aprSpace off with
  | 1 =>
    let a := s.rd F.OBS_APR_SEG.base 0 (bits off 34 2) * 2 ^ 30 + w
    if a + len ≤ s.chansIn.length * (lineCount * 64) then .lpddr a else .unmapped
  | 2 =>
    let t := w / 2 ^ 21
    let o := w % 2 ^ 21
    if t ≤ 2303 ∧ o + len ≤ Tile.reset.size then .scratch t o else .unmapped
  | _ => .unmapped

/-- A PCIe request crosses no 4 KiB boundary (R374), and carries at least one byte. -/
def aprOk (off len : Nat) : Bool := decide (0 < len) && decide (off % 4096 + len ≤ 4096) && decide (off < 2 ^ 36)

/-- The parts of an LPDDR access, one for each line it touches: address in the line, length, and the bytes to write. -/
def lineParts : Nat → Nat → Nat → List Byte → List (Nat × Nat × List Byte)
  | 0, _, _, _ => []
  | n + 1, a, len, data =>
    if len = 0 then []
    else
      let k := min len (64 - a % 64)
      (a, k, data.take k) :: lineParts n (a + k) (len - k) (data.drop k)

/-- One line of a host access to LPDDR is sent into the mesh (R375): a write that covers part of a group reads it first. -/
def State.sendLine (write : Bool) (tag : Nat) (q : Nat × Nat × List Byte) (s : State) : HPart × State :=
  let (ch, m) := lpddrMap s.chansIn q.1
  let off := q.1 % 64
  let merge := write && partGroup off q.2.1
  let part : HPart := { tag := tag, line := some (ch, m), off := off, len := q.2.1, wr := q.2.2, merging := merge, done := false, got := [] }
  if write ∧ merge = false then
    (part, s.hostMem ch m tag true (groupMask off q.2.1) (padTo 64 (List.replicate off 0 ++ q.2.2)))
  else (part, s.hostMem ch m tag false 0 [])

def State.sendLines (write : Bool) : List (Nat × Nat × List Byte) → Nat → State → List HPart × State
  | [], _, s => ([], s)
  | q :: r, tag, s =>
    let a := s.sendLine write (tag % 4096) q
    let b := State.sendLines write r (tag + 1) a.2
    (a.1 :: b.1, b.2)

/-- A mapped access becomes a request of the host. -/
def State.aprSend (write : Bool) (off len : Nat) (data : List Byte) (p : AprPlace) (s : State) : State :=
  let r (parts : List HPart) : HReq :=
    { id := s.hostNext, win := 2, write := write, offset := off, at_ := s.cycle, parts := parts, failed := none }
  match p with
  | .unmapped => s
  | .lpddr a =>
    let x := s.sendLines write (lineParts 66 a len data) s.hostNext
    { x.2 with host := s.host ++ [r x.1], hostNext := s.hostNext + x.1.length + 1 }
  | .scratch t o =>
    let tag := s.hostNext % 4096
    let part : HPart := { tag := tag, line := none, off := 0, len := len, wr := [], merging := false, done := false, got := [] }
    ({ s with host := s.host ++ [r [part]], hostNext := s.hostNext + 2 } : State).send 0 46 3 (t % 48) (t / 48) 0 0 (if write then 3 else 2) 1
      tag (scrWord o len) (if write then data else []) 0 46 0

/-- An access through APR: unmapped, it is completed or dropped with an error (R374, R377); a read of that kind, too, waits
for earlier writes (R372). -/
def State.apr (write : Bool) (off len : Nat) (data : List Byte) (s : State) : State :=
  if aprOk off len = false ∨ s.reachable = false then s
  else if s.ctlDead then (if write ∨ s.hostWriting then s else s.complete .abort)
  else match s.aprMap off len with
    | .unmapped =>
      if write then s.hostErr F.OBS_HOST_ERR.unmapped 2 true off 0
      else if s.hostWriting then s
      else (s.hostErr F.OBS_HOST_ERR.unmapped 2 false off 0).complete .unsupported
    | p => s.aprSend write off len data p

/-- APR_LPDDR_READ (R375): a segment that leads to scratchpads is not this command's. A write carries at most 512 bytes (R367). -/
def execAprLpddrRead (off len : Nat) (s : State) : Ans := .next (if s.aprSpace off = 2 then s else s.apr false off len [])
def execAprLpddrWrite (off : Nat) (data : List Byte) (s : State) : Ans :=
  .next (if s.aprSpace off = 2 ∨ 512 < data.length then s else s.apr true off data.length data)
/-- APR_SCRATCH_ACCESS (R376). A write carries at most 512 bytes (R367). -/
def execAprScratchAccess (write : Bool) (off len : Nat) (data : List Byte) (s : State) : Ans :=
  .next (if s.aprSpace off = 1 ∨ (write ∧ (data.length ≠ len ∨ 512 < len)) then s else s.apr write off len data)

def execObsAprSegWrite (seg : Nat) (v : Word) (s : State) : Ans :=
  .next (if seg < 4 then s.writeReg 1 .OBS_APR_SEG 0 seg (.full v) else s)

/-! ### Timeouts and the link (R368, R373) -/

/-- A request whose target gave no answer for 400,000 cycles ends. -/
def State.hostTimeout (write : Bool) (id : Nat) (s : State) : State :=
  match s.host.find? (fun r => r.id == id && r.write == write && !r.ended && decide (r.at_ + 400000 ≤ s.cycle)) with
  | none => s
  | some r =>
    let s1 := (({ s with host := s.host.erase r } : State).hostErr F.OBS_HOST_ERR.timeout r.win write r.offset 0)
    if write then s1.settleHosts else s1.put (.completion r.id .abort)

def execHostReadTimeout (id : Nat) (s : State) : Ans := .next (s.hostTimeout false id)
def execHostWriteTimeout (id : Nat) (s : State) : Ans := .next (s.hostTimeout true id)

/-- PCIE_LINK_DOWN: requests not completed are discarded, those in the mesh take effect and their answers are dropped, and
the host's locks are freed. -/
def execPcieLinkDown (s : State) : Ans := .next (({ s with host := [] } : State).freeLocks 1)

/-! ### Mailboxes (R380 to R385) -/

/-- A mailbox command of a source takes place; one that has to wait (R383) is offered again. -/
def State.mbxOk (s : State) (src k : Nat) : Bool := validSrc src && decide (k < 32) && s.reachable && !s.ctlDead && !(s.mbxLater src)

/-- What a source's mailbox read returns goes to the host or the rack controller; a tile's comes by Vesper. -/
def State.tell (src size v : Nat) (s : State) : State :=
  if src = 1 then s.complete (.data (leBytes size v)) else if src = 2 then s.vendor 0 v else s

/-- A mailbox access with a bad size: the host's is an error, the rack controller's is answered BAD_ARGUMENT (R371, R395). -/
def State.mbxSize (write : Bool) (src k off : Nat) (s : State) : State :=
  if s.reachable = false then s
  else if src = 1 then
    let s1 := s.hostErr F.OBS_HOST_ERR.size 1 write (k * 0x1000 + off) 0
    if write then s1 else s1.complete .unsupported
  else if src = 2 then s.vendor 2 0 else s

/-- A mailbox write of the rack controller is answered (R395). -/
def State.wrote (src : Nat) (s : State) : State := if src = 2 then s.vendor 0 0 else s

/-- MBX_LOCK_READ (R380). -/
def State.lockRead (src k off size : Nat) (s : State) : State :=
  if 8 ≤ off ∨ 32 ≤ k ∨ (src = 1 ∧ s.hostWriting) then s
  else if goodSize off size = false then s.mbxSize false src k off
  else if s.mbxOk src k = false then s
  else
    let r := (s.mbxHandled src).mbxLockRead src k off
    r.1.tell src size r.2

def execMbxLockRead (src k off size : Nat) (s : State) : Ans := .next (s.lockRead src k off size)

def execMbxLockWrite (src k off size : Nat) (s : State) : Ans :=
  .next (if 8 ≤ off ∨ 32 ≤ k then s
    else if goodSize off size = false then s.mbxSize true src k off
    else if s.mbxOk src k = false then s
    else ((s.mbxHandled src).mbxLockWrite src k off).wrote src)

/-- MBX_CONTENT_WRITE: bytes from offset `off` of the mailbox, MBX_CMD and MBX_REF with register accesses (R371, R381). -/
def State.contentWrite (src k off : Nat) (data : List Byte) (s : State) : State :=
  if s.mbxOk src k = false ∨ off < 0x18 ∨ (0x28 ≤ off ∧ off < 0x40) then s
  else if mbxSizeOk (k * 0x1000 + off) data.length = false then
    s.mbxSize true src k off
  else ((s.mbxHandled src).mbxContent src k off data).wrote src

def execMbxContentWrite (src k off : Nat) (data : List Byte) (s : State) : Ans := .next (s.contentWrite src k off data)
def execMbxPost (src k : Nat) (s : State) : Ans := .next (if s.mbxOk src k then ((s.mbxHandled src).mbxFlag src k true false).wrote src else s)
def execMbxTake (src k : Nat) (s : State) : Ans := .next (if s.mbxOk src k then ((s.mbxHandled src).mbxFlag src k false true).wrote src else s)

/-- MBX_BREAK: a write of OBS_MBX_BREAK (R385); from any source other than the host it is ignored. -/
def execMbxBreak (src : Nat) (v : Word) (s : State) : Ans :=
  .next (if s.reachable ∧ s.ctlDead = false then s.writeReg src .OBS_MBX_BREAK 0 0 (.full v) else s)

end Sys2Proof.Machine
end

