-- ==== Sys2Proof/Machine/Firmware.lean ====
section
/-! DEFINITION. How firmware takes a host command from its mailbox, checks it and answers (R386 to R389, R402, R500). -/
namespace Sys2Proof.Machine

/-- What Table 11-12 says of a command code: the module states in which it is legal (that of RESET depends on its domain),
who may send it besides the host, and its bound in cycles. -/
structure CmdInfo where
  legal : List ModState
  rack : Bool
  tiles : Bool
  bound : Nat
deriving DecidableEq, Repr

def notDark : List ModState := [.held, .ready, .joined, .running, .draining, .fenced]

/-- Table 11-12; none: the code is not in it. RESET's bound is that of its domain. -/
def cmdInfo (code : Nat) : Option CmdInfo :=
  match code with
  | 0x01 => some ⟨notDark, true, true, 200000⟩
  | 0x10 => some ⟨[.joined], false, false, 4000000⟩
  | 0x11 => some ⟨[.ready, .joined], false, false, 2000000⟩
  | 0x12 => some ⟨[.held], false, false, 200000000⟩
  | 0x20 => some ⟨[.held], false, false, 200000000⟩
  | 0x21 => some ⟨[.held, .ready], false, false, 2 * second⟩
  | 0x22 => some ⟨[.held, .ready], false, false, 10 * second⟩
  | 0x30 => some ⟨notDark, false, false, 10 * second⟩
  | 0x31 => some ⟨[.joined, .running, .draining, .fenced], false, false, 2000000⟩
  | 0x32 => some ⟨[.fenced], false, false, 200000000⟩
  | 0x40 => some ⟨[.ready, .joined], false, false, 5 * second⟩
  | 0x41 => some ⟨[.ready, .joined], false, false, second⟩
  | 0x50 => some ⟨notDark, true, false, 2000000⟩
  | 0x51 => some ⟨notDark, true, false, 20000000⟩
  | 0x60 => some ⟨[.ready, .joined], false, false, second⟩
  | 0x61 => some ⟨[.joined], false, false, 10 * second⟩
  | _ => none

/-- The sender may send the command. -/
def CmdInfo.allows (i : CmdInfo) (src : Nat) : Bool :=
  src == 1 || (i.rack && src == 2) || (i.tiles && decide (0x1000 ≤ src))

/-- Bytes of a command's payload as a number. -/
def Cmd.num (c : Cmd) (off n : Nat) : Nat := leNat ((c.args.drop off).take n)
/-- Bytes `a` to `b` of the payload are 0. -/
def Cmd.zero (c : Cmd) (a b : Nat) : Bool := c.num a (b + 1 - a) == 0

/-- The ROM serves commands in place of firmware (R402). -/
def State.romRecovery (s : State) : Bool := s.rd F.SEC_BOOT_STATUS.stage 0 0 == 7

/-- Firmware runs: not in DARK, and not while the Observatory or the module resets. -/
def State.fwRuns (s : State) : Bool := s.st != .dark && !s.ctlDead && !s.resets.any (fun r => r.dom == 5 || r.dom == 6)

/-- The command posted in mailbox `k`. -/
def State.posted (s : State) (k : Nat) : Cmd :=
  let len := s.rd F.MBX_CMD.length k 0
  { k := k, code := s.rd F.MBX_CMD.code k 0, seq := s.rd F.MBX_CMD.seq k 0, sender := s.rd F.MBX_SENDER.sender k 0, len := len,
    args := Mem.bytes 0 s.mbx (k * 0x1000 + 0x40) len, taken := s.cycle }

/-- Firmware may take a command from mailbox `k` (R386). -/
def State.eligible (s : State) (k : Nat) : Bool :=
  decide (k < 4) && s.fwRuns && s.full k && !s.full (k + 4) && s.owner (k + 4) == 0

/-- It takes that command now: one posted in the same Observatory cycle in a lower mailbox comes first (R387). -/
def State.canTake (s : State) (k : Nat) : Bool :=
  s.eligible k && (List.range k).all (fun j => !(s.eligible j && (s.postAt.find j).isSome && s.postAt.find j == s.postAt.find k))

/-- An ADOPT is in progress, and the code is one that it holds up (R500); likewise a conjunction holds the tiles and a port
(R387). -/
def State.heldUp (s : State) (c : Cmd) : Bool :=
  (s.adopt.isSome && (c.code == 0x10 || c.code == 0x11 || c.code == 0x60 || c.code == 0x61 || c.code == 0x31 || c.code == 0x40
    || (c.code == 0x30 && c.num 0 1 != 6))) ||
  (s.conj.isSome && (c.code == 0x10 || c.code == 0x11 || c.code == 0x60 || c.code == 0x61 || c.code == 0x40))

/-- Take the command of mailbox `k` if the row is the one for it, check it in the order of R387, and act. `args` judges the
payload (a status, 0 when it is well-formed), `state` what else Table 11-12's chapter asks of the state (0, WRONG_STATE or
BUSY), `act` does the rest. -/
def State.firmware (k : Nat) (mine : Cmd → Bool) (args : Cmd → State → Nat) (state : Cmd → State → Nat)
    (act : Cmd → State → State) (s : State) : State :=
  let c := s.posted k
  if s.canTake k = false then s
  else
    let s1 := s.mbxFlag 0x10 k false true
    match cmdInfo c.code with
    | none => s1.reply c 4 []
    | some i =>
      if mine c = false then s
      else if i.allows c.sender = false then s1.reply c 8 []
      else if s.romRecovery ∧ c.code ≠ 0x01 ∧ c.code ≠ 0x22 then s1.reply c 4 []
      else if args c s ≠ 0 then s1.reply c (args c s) []
      else if i.legal.contains s.st = false then (s1.reply c 1 []).refusedRec c.code
      else if state c s = 1 then (s1.reply c 1 []).refusedRec c.code
      else if s.heldUp c then s1.reply c 3 []
      else if state c s ≠ 0 then s1.reply c (state c s) []
      else act c s1

/-- The command has no payload. -/
def noPayload (c : Cmd) (_ : State) : Nat := if c.len = 0 then 0 else 2
def noFurther (_ : Cmd) (_ : State) : Nat := 0

/-- REPLY_LOCK_RETRY: firmware reads the lock of mailbox k + 4 again, and posts the oldest reply that waits for it (R386). -/
def State.replyRetry (k : Nat) (s : State) : State :=
  match s.replies.find? (fun r => r.cmd.k == k) with
  | none => s
  | some r => if s.owner (k + 4) = 0 ∧ s.fwRuns then ({ s with replies := s.replies.erase r } : State).post r else s

/-- Every command in progress, and those whose reply waits, end with SOURCE_LOST (R462). -/
def State.loseCommands (s : State) : State :=
  let ps := s.prog.map (·.cmd)
  let s1 : State := { s with prog := [] }
  ps.foldl (fun s c => s.reply c 5 []) s1

end Sys2Proof.Machine
end

