-- ==== Sys2Proof/Machine/ExecJob.lean ====
section
/-! DEFINITION. A job's life: START with its checks (R36 to R39, R226, R242, R332, R390, R502, R518), the start cycle (R108), the
end of the job (R473, R474), the abort line (R469), and HOLD (R408). -/
namespace Sys2Proof.Machine

/-! ### What START checks -/

/-- The tiles that a start releases: IDLE with TIL_ENTRY.release (R108). -/
def State.released (s : State) : List Nat :=
  s.tiles.keys.filter (fun t => (s.tile t).st == .idle && !(s.tile t).vacant && (s.tile t).rd F.TIL_ENTRY.release 0 == 1)

/-- Every barrier tree of the released tiles is consistent (R226). -/
def State.treesOk (s : State) : Bool :=
  s.released.all (fun t => (List.range 32).all (fun i => s.node t i F.TIL_PUL_BAR.enable == 0 || s.treeOk i t))

/-- A field of a send-table entry or a queue of a tile; a vacant position reads 0 (R112). -/
def State.chs (s : State) (t e : Nat) (f : Fld) : Nat := if (s.tile t).vacant then 0 else (s.tile t).rd f e

/-- Enabled local send-table entries of the module: tile and entry. -/
def State.localEntries (s : State) : List (Nat × Nat) :=
  s.tiles.keys.flatMap (fun t => ((List.range 64).filter (fun e =>
    s.chs t e F.TIL_CHS_CFG.enable == 1 && s.chs t e F.TIL_CHS_CFG.remote == 0)).map (fun e => (t, e)))

/-- The queue of a tile agrees with the enabled local entries that name it (R242). -/
def State.queueOk (s : State) (es : List (Nat × Nat)) (t q : Nat) : Bool :=
  let g (f : Fld) : Nat := s.chs t q f
  let mine := es.filter (fun p => s.chs p.1 p.2 F.TIL_CHS_CFG.tile == t && s.chs p.1 p.2 F.TIL_CHS_CFG.queue == q)
  let credits := (mine.map (fun p => s.chs p.1 p.2 F.TIL_CHS_CFG.credits)).sum + g F.TIL_CHQ_CFG.remote_credits
  let point := g F.TIL_CHQ_CFG.kind == 0
  g F.TIL_CHQ_CFG.enable == 0 ||
    (decide (credits ≤ g F.TIL_CHQ_CFG.depth) &&
      !(point && g F.TIL_CHQ_CFG.peer_remote == 0 && mine.any (fun p => p.1 != g F.TIL_CHQ_CFG.peer_tile)) &&
      !(point && g F.TIL_CHQ_CFG.peer_remote == 1 && !mine.isEmpty))

/-- The channel configuration of the released tiles is consistent (R242). -/
def State.channelsOk (s : State) : Bool :=
  let es := s.localEntries
  let rel := s.released
  (es.filter (fun p => rel.contains p.1)).all (fun p =>
    let d := s.chs p.1 p.2 F.TIL_CHS_CFG.tile
    let q := s.chs p.1 p.2 F.TIL_CHS_CFG.queue
    s.chs d q F.TIL_CHQ_CFG.enable == 1 &&
      decide (s.chs p.1 p.2 F.TIL_CHS_CFG.max_len * 16 ≤ s.chs d q F.TIL_CHQ_CFG.slot_blocks * 256)) &&
  s.tiles.keys.all (fun t => (List.range 64).all (fun q => s.queueOk es t q))

/-- The place declaration agrees with the module (R502). -/
def State.placeOk (s : State) : Bool :=
  s.rd F.RTE_PLACE_NEED.check 0 0 == 0 ||
    (s.rd F.GLB_DIST_GEN.gen 0 0 == s.rd F.RTE_PLACE_GEN.dist_gen 0 0 && s.rd F.MEM_GLB_MAP.gen 0 0 == s.rd F.RTE_PLACE_GEN.map_gen 0 0 &&
      allPorts.all (fun n => decide (bits (s.rd F.RTE_PLACE_NEED.need 0 0) (3 * n) 3 ≤ s.linkRate n)))

/-- START's payload (R390), without the job identifiers of ADOPT and CONJUNCTION (R528), and its start cycle (R36). -/
def startArgs (c : Cmd) (s : State) : Nat :=
  if c.len = 16 ∧ c.num 0 2 ≠ 0 ∧ c.num 0 2 < 0xFFE ∧ c.zero 2 7 ∧ s.sidereal + 200000 ≤ c.num 8 8 then 0 else 2

/-- The module's time, emergencies and throttling allow a start (R332, R518); none is pending. -/
def startState (_ : Cmd) (s : State) : Nat :=
  if s.timeSt = 1 ∨ s.timeSt = 3 ∨ s.timeSt = 4 ∨ s.holding ∨ s.level ≠ 0 then 1 else if s.startPending then 3 else 0

/-- The start is accepted and pending, unless the trees, the channels or the place refuse it. -/
def State.start (c : Cmd) (s : State) : State :=
  if s.treesOk = false ∨ s.channelsOk = false then s.reply c 2 []
  else if s.placeOk = false then (s.flag F.RTE_FLEET_STATUS.again_count F.RTE_FLEET_STATUS.place_refused 0 0 1).reply c 2 []
  else
    ((((s.wr F.GLB_START.start 0 0 (c.num 8 8)).wr F.GLB_MODULE_STATE.start_pending 0 0 1).setJob (c.num 0 2)).discoverAll).reply
      c 0 []

def execStart (k : Nat) (s : State) : Ans := .next (s.firmware k (fun c => c.code == 0x10) startArgs startState State.start)

/-! ### The start cycle (R108, R308) -/

/-- The module's own state of the job that ends gives way to the new one's. -/
def State.newJob (s : State) : State :=
  let s0 : State := { s with gbar := .empty, rank := [], jobFenced := false, lastS := s.cycle }
  -- the window of counted episodes is emptied (R486)
  let s1 := (s0.wr F.RTE_RANK.counted 0 0 0).wr F.RTE_RANK.late_count 0 0 0
  let s2 := allPorts.foldl (fun s n => s.wr F.FAB_PORT_STATE.job_port n 0 ((s.port n).st == .up).toNat) s1
  (s2.wr F.RTE_NOVA.valid 0 0 0).wr F.ERR_DIGEST_HEAD.stored 0 0 0

/-- START_CYCLE: the released tiles and the module enter RUNNING. A start whose module has left JOINED is dropped. -/
def State.startCycle (s : State) : State :=
  let at_ := s.rd F.GLB_START.start 0 0
  if s.startPending = false ∨ s.sidereal < at_ then s
  else if s.st ≠ .joined then s.cancelStart
  else
    let ts := s.released
    let s0 : State := { s with started := some (s.cycle, ts.map (fun t => (t, s.tile t))) }
    let s1 := ((s0.wr F.GLB_MODULE_STATE.start_pending 0 0 0).setMod .running).newJob
    ts.foldl (fun s t => s.onTile t fun c tl => (tl.enterRunning { c with cycle := s.cycleOf at_ } s.job (BitVec.ofNat 64 at_), [])) s1

def execStartCycle (s : State) : Ans := .next s.startCycle

/-! ### The end of the job (R473, R474) -/

/-- No tile is RUNNING or in a transit entered from RUNNING. -/
def State.allStopped (s : State) : Bool :=
  s.tiles.keys.all (fun t => let tl := s.tile t
    tl.st != .running && !(tl.st == .transit && tl.transit.any (fun x => x.from_ == .running)))

/-- JOB_DRAIN_BEGIN (Table 14-6). -/
def execJobDrainBegin (s : State) : Ans :=
  .next (if s.st = .running ∧ s.allStopped then
    (if s.jobFenced then s.eclipse 6 else ({ s with drainBegan := s.cycle } : State).setMod .draining)
  else s)

/-- An open request from a tile is queued at a port. -/
def State.tileRequests (s : State) : Bool :=
  allChans.any (fun ch => ((s.chan ch).queue.map (·.pkt) ++ (s.chan ch).comb.flatMap (·.members)).any (fun p => decide (0x1000 ≤ p.src)))

/-- A calendar read of the module is outstanding: its request or its return is on Meridian, at a port, or on its way to a bank. -/
def State.calReads (s : State) : Bool :=
  s.flits.any (fun f => hKind f.hdr == 2 || hKind f.hdr == 4) || s.landings.any (fun l => hKind l.hdr == 4) ||
    allChans.any (fun ch => !(s.chan ch).rets.isEmpty || (s.chan ch).arrived.any (fun q => hKind q.hdr == 2))

/-- The three conditions of R474. -/
def State.quiet (s : State) : Bool := decide (s.lastS + 8192 ≤ s.cycle) && !s.calReads && !s.tileRequests

/-- The job is over: GLB_JOB and GLB_START read 0 (Tables 11-14 and 11-15). -/
def State.endJob (s : State) : State := (s.wr F.GLB_START.start 0 0 0).setJob 0

def execDrainingEnd (s : State) : Ans :=
  .next (if s.st = .draining ∧ s.quiet then s.endJob.setMod .joined else s)

def execDrainingTimeout (s : State) : Ans :=
  .next (if s.st = .draining ∧ s.drainBegan + 2000000 ≤ s.cycle then s.eclipse 6 else s)

/-! ### Eclipses reach their units (R440, R466, R469) -/

/-- An eclipse reaches a tile: one in TRANSIT has its region and lattice restored first (R440). -/
def Tile.eclipsed (c : Ctx) (tl : Tile) : Tile :=
  match tl.st, tl.transit with
  | .transit, some x =>
    let t1 : Tile := { (tl.storeBytes 0x58000 x.saved) with lat := { tl.lat with cfg := x.cfg }, transit := none }
    ((t1.endIdleTransit c x).setStop 4 0 (tl.seq.pc.toNat % 2 ^ 21)).toFenced c
  | _, _ => tl.eclipse c

def State.eclipseTile (t : Nat) (s : State) : State :=
  let s1 := s.onTile t fun c tl => (tl.eclipsed c, [])
  { s1 with saves := s1.saves.filter (· != t), windows := s1.windows.filter (· != t) }

/-- ABORT_LINE_SEEN: 96 cycles after the abort line was driven. -/
def State.abortSeen (s : State) : State :=
  if s.abortAt.any (fun a => decide (a + 96 ≤ s.cycle)) then
    let s1 := s.tiles.keys.foldl (fun s t => s.eclipseTile t) ({ s with abortAt := none } : State)
    s1.chans.keys.foldl (fun s ch => s.onChan ch fun c h => (h.eclipse c, [])) s1
  else s

def execAbortLineSeen (s : State) : Ans := .next s.abortSeen

/-! ### HOLD (R408) -/

/-- HOLD's payload is empty; it waits for no pending start. -/
def holdState (_ : Cmd) (s : State) : Nat := if s.startPending then 3 else 0

def State.hold (c : Cmd) (s : State) : State :=
  let s1 := allPorts.foldl (fun s n => if (s.port n).st ≠ .dark then (s.portStatus n 2 0).portDark n else s) s
  ((s1.wr F.RTE_SELF.eid_valid 0 0 0).setMod .held).reply c 0 []

def execHold (k : Nat) (s : State) : Ans := .next (s.firmware k (fun c => c.code == 0x11) noPayload holdState State.hold)

end Sys2Proof.Machine
end

