-- ==== Sys2Proof/Machine/Boot.lean ====
section
/-! DEFINITION. The almanac's entries (R450), retirement and the column assignment (R23, R24, R27, R464), the verification of
images in flash (R401, R441), and boot steps 2 to 6 (R399, R400, R402). -/
namespace Sys2Proof.Machine

/-! ### The almanac (R450 to R453) -/

/-- Power-on hours (log entry 50): whole hours of model cycles. -/
def State.powerHours (s : State) : Nat := s.hours + s.cycle / (3600 * second)

/-- The five unit bytes of a record. -/
def Rec.unit (r : Rec) : List Nat := [r.unitType, r.die, r.unitIndex, r.x, r.y]

/-- The almanac entry of a record: `typ` 1 FAULT, 2 REPAIR, 3 RETIRE. -/
def State.almOf (s : State) (typ : Nat) (r : Rec) : Alm :=
  { phys := if r.x < 48 ∧ r.y < 48 then some (s.physTile (48 * r.y + r.x)) else none, typ := typ, cls := r.rept, count := r.count, hours := s.powerHours, unit := r.unit, kind := r.kind, s0 := r.s0, s1 := r.s1,
    s2 := r.s2, s3 := r.s3 }

/-- An entry waits to be written; at most 1,024 do (R452). A REPAIR or RETIRE entry is never dropped. -/
def State.almWait (a : Alm) (s : State) : State :=
  if 1024 ≤ s.almQ.length ∧ a.typ = 1 then s.flag F.ERR_STATUS.again_count F.ERR_STATUS.almanac_full 0 0 1
  else { s with almQ := s.almQ ++ [a] }

/-- Send a record and hand its almanac entry to firmware (R451); the record's flag bit 2 says so (Table 13-1). -/
def State.almRec (typ kind unitType t unitIndex : Nat) (s0 s1 s2 s3 : Word) (rept : Nat) (s : State) : State :=
  let r := s.recOf kind unitType (tileDie t) unitIndex (t % 48) (t / 48) 0 (tileSensor t) s.coreMv s0 s1 s2 s3 rept 4 0
  ({ s with recs := s.recs ++ [r] } : State).almWait (s.almOf typ r)

/-- The tile of an entry of a tile position. -/
def Alm.tile (a : Alm) : Option Nat :=
  match a.unit with
  | [_, _, _, x, y] => if x < 48 ∧ y < 48 then some (48 * y + x) else none
  | _ => none

/-- The entries of the almanac, those waiting included, that count for the N16 rule of a unit (R453). -/
def State.history (s : State) (p : Alm → Bool) : Nat :=
  ((s.almanac ++ s.almQ).filter (fun a => a.typ == 1 && decide (s.powerHours ≤ a.hours + 720) && p a)).length

/-- A scratchpad entry's sub-bank and column (Table 13-2). -/
def Alm.column (a : Alm) : Nat × Nat := (bits a.s1.toNat 8 6, bits a.s1.toNat 16 7)

/-! ### Retirement and the column assignment (R23, R24, R27, R216, R464) -/

/-- The tile at an edge row of a column of a die. -/
def columnTile (die col e : Nat) : Nat := (if die < 2 then e else 47 - e) * 48 + col + 24 * (die % 2)
/-- Die, column and edge row of a tile. -/
def tileColumn (t : Nat) : Nat × Nat × Nat := (tileDie t, t % 24, edgeRow (t / 48))

/-- GLB_DIST has changed (R216, R488). -/
def State.distChanged (s : State) : State := (s.addWrap F.GLB_DIST_GEN.gen 0 0 1).unproven

/-- The first tile of a column to fail was, by the fuses, its spare: the spare is what the column skips (R23). -/
def State.spareFirst (s : State) (d c : Nat) : Bool := s.fusedDefects.find? (fun q => q / 25 == 24 * d + c) == some (600 * d + 25 * c + 24)

/-- The column's skipped tile is still its unused spare, and no retired tile waits for it. -/
def State.firstFailure (s : State) (t : Nat) : Bool :=
  let (d, c, _) := tileColumn t
  s.skip.get (d, c) 24 == 24 && !(s.spareFirst d c) && s.pendingRemap.all (fun u => (tileColumn u).1 != d || (tileColumn u).2.1 != c)

/-- Steps 1 and 2 of R464, for a tile that is OFFLINE or FENCED; step 3 waits for its column. GLB_DIST changes now for a vacancy under
R27, and at the column's change for its first failure (R216; log entry 78). -/
def State.retireTile (t : Nat) (routerFailed : Bool) (s : State) : State :=
  let first := s.firstFailure t
  let p := s.physTile t
  let s1 := s.onTile t fun c tl => (tl.retire c, [])
  let s2 : State := { s1 with
    routerFailed := if routerFailed ∧ s1.routerFailed.contains p = false then s1.routerFailed ++ [p] else s1.routerFailed
    pendingRemap := if first then s1.pendingRemap ++ [t] else s1.pendingRemap
    newRepairs := s1.newRepairs.filter (fun r => r.1 != t) }
  let s3 := ((s2.flag F.RST_STATUS.again_count F.RST_STATUS.retired 0 0 1).addSat F.DIE_STATE.retired (tileDie t) 0 1)
  (s3.mapIf (!first) State.distChanged).almRec 3 0x13 1 t 0 (s3.tileWord t .TIL_STATE 0) 0 0 0 0

/-- The tile that a shift of a column moves into the place of another. -/
def State.shifted (s : State) (die col e0 e : Nat) : Tile :=
  if e < e0 then s.tile (columnTile die col e)
  else if e < 23 then s.tile (columnTile die col (e + 1))
  else Tile.reset

/-- The assignment of a column changes: the retired tile is skipped, and the tiles beyond it move one place towards the memory
edge in logical rows, the spare last (R23). The spare comes OFFLINE. -/
def State.remap (t : Nat) (s : State) : State :=
  let (d, c, e0) := tileColumn t
  let moved := (List.range 24).map (fun e => (columnTile d c e, s.shifted d c e0 e))
  let shiftRep (r : Nat × Nat × Nat) : List (Nat × Nat × Nat) :=
    let (d', c', e) := tileColumn r.1
    if d' = d ∧ c' = c then (if e = e0 then [] else if e0 < e then [(columnTile d c (e - 1), r.2)] else [r]) else [r]
  let s1 := moved.foldl (fun s p => s.setTile p.1 p.2) s
  ({ s1 with
    skip := s1.skip.set (d, c) e0
    pendingRemap := s1.pendingRemap.filter (· != t)
    repairs := s1.repairs.flatMap shiftRep
    newRepairs := s1.newRepairs.flatMap shiftRep } : State).distChanged

/-- The position that holds a physical tile: none for a skipped one. -/
def State.logical (s : State) (p : Nat) : Option Nat :=
  let k := s.skip.get (p / 600, p % 600 / 25) 24
  let e := p % 25
  if e = k then none else some (columnTile (p / 600) (p % 600 / 25) (if e < k then e else e - 1))

/-- A defect applied at boot (R23, R24, R27): the first of its column is skipped, a later one leaves its position vacant. -/
def State.applyDefect (s : State) (p : Nat) : State :=
  if p / 600 ≥ 4 then s
  else if s.skip.get (p / 600, p % 600 / 25) 24 = 24 ∧ p % 25 ≠ 24 ∧ s.spareFirst (p / 600) (p % 600 / 25) = false then { s with skip := s.skip.set (p / 600, p % 600 / 25) (p % 25) }
  else match s.logical p with
    | some t => s.setTile t { (s.tile t) with st := .retired, vacant := true }
    | none => s

/-- A RETIRE entry of the almanac applied at boot: the tile counts as retired in the field (Table 14-12). -/
def State.applyRetire (s : State) (p : Nat) : State := (s.applyDefect p).addSat F.DIE_STATE.retired (p / 600) 0 1

/-- Every tile of the column is OFFLINE, FENCED or RETIRED (R24). -/
def State.columnStill (s : State) (die col : Nat) : Bool :=
  (List.range 24).all (fun e => match (s.tile (columnTile die col e)).st with
    | .offline => true | .fenced => true | .retired => true | _ => false)

/-- The pending change of a column, if it can be made now. -/
def State.remapColumn (die col : Nat) (s : State) : State :=
  match s.pendingRemap.find? (fun u => (tileColumn u).1 == die && (tileColumn u).2.1 == col) with
  | some t => if s.columnStill die col then s.remap t else s
  | none => s

/-- Every pending change that can be made now (R464 step 3). -/
def State.remapAll (s : State) : State := (s.pendingRemap.map tileColumn).foldl (fun s q => s.remapColumn q.1 q.2.1) s

/-! ### Images in flash (R401, R441) -/

/-- The first check of R401 that an image fails: 1 magic or version, 2 body length, 3 key slot, 4 key hash, 5 svn floor, 6
signature; 0: it is valid. Test content is not held to the floor. -/
def State.imageFail (s : State) (base magic : Nat) (floor : Bool) : Nat :=
  let n (o k : Nat) : Nat := s.flashNum (base + o) k
  let key := s.flashBytes (base + 0x10) 68
  let slot := n 5 1
  let fused := (List.range 4).flatMap (fun j => leBytes 8 (s.rd F.SEC_KEY_HASH.hash 0 (4 * slot + j)))
  let digest := shake256 (s.flashBytes base 256 ++ s.flashBytes (base + 0x1000) (n 12 4))
  if n 0 4 ≠ magic ∨ n 4 1 ≠ 1 then 1
  else if 0xFFF000 < n 12 4 then 2
  else if 3 < slot ∨ bits (s.rd F.SEC_FUSE.programmed 0 0) slot 1 = 0 ∨ bits (s.rd F.SEC_FUSE.revoked 0 0) slot 1 = 1 then 3
  else if shake256 key ≠ fused then 4
  else if floor ∧ n 6 1 < s.rd F.SEC_FUSE.svn_floor 0 0 then 5
  else if xmssValid key (s.flashBytes (base + 0x100) 2820) digest = false then 6
  else 0

def fwBase (k : Nat) : Nat := 0x01000000 + k % 2 * 0x01000000
def contentBase (k : Nat) : Nat := 0x04000000 + k % 2 * 0x02000000

def State.fwFail (s : State) (k : Nat) : Nat := s.imageFail (fwBase k) 0x4638344E true
def State.contentFail (s : State) (k : Nat) : Nat := s.imageFail (contentBase k) 0x4354344E false

/-- The signed digest of firmware slot `k` (R401). -/
def State.fwDigest (s : State) (k : Nat) : List Byte :=
  shake256 (s.flashBytes (fwBase k) 256 ++ s.flashBytes (fwBase k + 0x1000) (s.flashNum (fwBase k + 12) 4))

/-- ERR_CONTENT: the valid slot with the higher version is in use (R441); none: the built-in kernels. -/
def State.useValid (s : State) : State :=
  let v (k : Nat) : Nat := s.flashNum (contentBase k + 8) 4
  let a := s.rd F.ERR_CONTENT.slot0_valid 0 0 == 1
  let b := s.rd F.ERR_CONTENT.slot1_valid 0 0 == 1
  let slot := if a && b then (if v 0 < v 1 then 1 else 0) else if b then 1 else 0
  let version := if a || b then v slot else 0
  let s1 := (s.wr F.ERR_CONTENT.slot 0 0 slot).wr F.ERR_CONTENT.version 0 0 version
  if version = s.rd F.ERR_CONTENT.version 0 0 ∧ slot = s.rd F.ERR_CONTENT.slot 0 0 then s1 else s1.unproven

/-- Verify both content slots and use them (R441). -/
def State.useContent (s : State) : State :=
  let a := s.contentFail 0 == 0
  let b := s.contentFail 1 == 0
  let s1 := ((s.wr F.ERR_CONTENT.slot0_valid 0 0 a.toNat).wr F.ERR_CONTENT.slot1_valid 0 0 b.toNat).useValid
  if a || b then s1 else s1.flag F.ERR_STATUS.again_count F.ERR_STATUS.content_invalid 0 0 1

/-! ### Boot steps (R399, R400, R402) -/

def State.stage (n : Nat) (s : State) : State := s.wr F.SEC_BOOT_STATUS.stage 0 0 n

/-- Step 2: the slot that runs; none: ROM recovery. `slot` is tried first, then `other`. -/
def State.pickFirmware (slot other : Nat) (s : State) : State × Option Nat :=
  let mark (k : Nat) (ok : Bool) (s : State) : State :=
    s.wr (if k = 0 then F.SEC_BOOT_STATUS.slot0_valid else F.SEC_BOOT_STATUS.slot1_valid) 0 0 ok.toNat
  let a := s.fwFail slot == 0
  let s1 := mark slot a s
  if a then (s1, some slot)
  else if other = slot then (s1, none)
  else
    let b := s.fwFail other == 0
    (mark other b s1, if b then some other else none)

/-- The running firmware's slot, version and svn. -/
def State.runs (slot : Nat) (s : State) : State :=
  ((s.wr F.SEC_BOOT_STATUS.slot 0 0 slot).wr F.SEC_BOOT_STATUS.fw_version 0 0 (s.flashNum (fwBase slot + 8) 4)).wr F.SEC_BOOT_STATUS.svn 0 0
    (s.flashNum (fwBase slot + 6) 1)

/-- The signature index after a boot: the start of the first block after the highest one used in either copy (R414). -/
def State.nextIndex (s : State) : Nat :=
  let used := s.flash.filterMap (fun c =>
    if 0x10000 ≤ c.1 ∧ c.1 < 0x14000 then some (c.1 - 0x10000) else if 0x14000 ≤ c.1 ∧ c.1 < 0x18000 then some (c.1 - 0x14000) else none)
  (used.foldl (fun m k => max m (64 * (k + 1))) 0)

/-- The KEY record (Table 13-2). -/
def State.keyRec (s : State) : State := s.obsRec 0x43 12 0 0 (s.regWord .SEC_KEY_INDEX 0 0) 0 0 0 0 0 0

/-- More than 90% of the signatures are used (R415). -/
def State.keyWarn (s : State) : State := ((s.flag F.SEC_KEY_STATUS.again_count F.SEC_KEY_STATUS.key_warn 0 0 1).irq 8).keyRec

/-- The key becomes exhausted (R416). -/
def State.exhaust (s : State) : State :=
  if s.rd F.SEC_KEY_STATUS.exhausted 0 0 = 1 then s
  else (((s.wr F.SEC_KEY_STATUS.exhausted 0 0 1).flag F.SEC_KEY_STATUS.again_count F.SEC_KEY_STATUS.key_exhausted_event 0 0 1).irq 8).keyRec

/-- The identity key at boot: the seed is loaded unless the module is scan-tainted (R421), and the indices reserved so far are given up; an unreadable region loses the key (R414). -/
def State.bootKey (lost : Bool) (s : State) : State :=
  let n := s.nextIndex
  let s0 : State := { s with sec := { s.sec with seed := s.rd F.SEC_TAINT.scan_tainted 0 0 == 0 } }
  let s1 := (s0.wr F.SEC_KEY_INDEX.next 0 0 n).wr F.SEC_KEY_INDEX.reserved_end 0 0 n
  let s2 := if lost then s1.wr F.SEC_KEY_STATUS.lost 0 0 1 else s1
  -- the block given up may hold the index at which the warning is due (R415)
  let s3 := if lost = false ∧ 943719 ≤ n ∧ n < 1047552 then s2.keyWarn else s2
  if lost ∨ 1047552 ≤ n then s3.exhaust else s3

/-- Step 4 after a cold reset: the fused defects, then the almanac's retirements, and the repairs are applied in their order, the tiles enter IDLE, and
those that fail BIST are retired (R23, R24, R27, R443). -/
def State.bootTiles (bad : List Nat) (s : State) : State :=
  let s1 : State := { s with tiles := ⟨allTiles.map (fun t => (t, Tile.reset))⟩ }
  let s2 := ((s1.almanac.filter (·.typ == 3)).filterMap (·.phys)).foldl State.applyRetire (s1.fusedDefects.foldl State.applyDefect s1)
  let s3 := bad.foldl (fun s t => if t < 2304 ∧ (s.tile t).vacant = false then (s.retireTile t false).remapAll else s) s2
  let reps := s3.fusedRepairs.filterMap (fun r => (s3.logical r.1).map (fun t => (t, r.2))) ++
    (s3.almanac.filter (·.typ == 2)).filterMap (fun a => (a.phys.bind s3.logical).map (fun t => (t, a.column)))
  { s3 with repairs := reps, tiles := s3.tiles.mapVals (fun _ tl => if tl.st = .offline then { tl with st := .idle } else tl) }

/-- Step 5 after a cold reset: every channel is trained; one that fails step `p.2` of training stays DISABLED, out of the map,
with a record (R290). -/
def State.bootChans (bad : List (Nat × Nat)) (s : State) : State :=
  let bad := bad.filter (fun p => 1 ≤ p.2 ∧ p.2 ≤ 6)
  let s1 : State := { s with chans := ⟨allChans.map (fun ch =>
    (ch, match bad.find? (fun p => p.1 == ch) with
      | some p => ({ Chan.reset with st := .disabled } : Chan).wr F.MEM_CH_STATE.train_fail 0 p.2
      | none => { Chan.reset with st := .active }))⟩ }
  let on (ch : Nat) : Bool := bad.all (fun p => p.1 != ch)
  let s2 := (s1.wr F.MEM_GLB_ENABLE_LO.enable 0 0 (bitSum 64 on)).wr F.MEM_GLB_ENABLE_HI.enable 0 0 (bitSum 32 (fun k => on (64 + k)))
  (allChans.filter (fun ch => !on ch)).foldl (fun s ch => s.chanRec ch 0x22 0 ((s.chan ch).regRead .MEM_CH_STATE 0) 0 0 0) s2

/-- Steps 4 and 5 after a module warm reset: the tiles that fail BIST are retired, the others are released, and the channels leave
self-refresh (R27, R293, R400). -/
def State.rebootUnits (bad : List Nat) (s : State) : State :=
  let s1 := bad.foldl (fun s t => if (s.tile t).vacant then s else (s.retireTile t false).remapAll) s.remapAll
  let s2 := s1.tiles.keys.foldl (fun s t => s.onTile t fun c tl => (tl.release c, [])) s1
  s2.chans.keys.foldl (fun s ch => s.onChan ch fun _ h => (h.reactivate, [])) s2

/-- Step 6: the module leaves DARK (or, in ROM recovery, HELD) for READY or HELD (R399, R405 to R407). -/
def State.bootLast (s : State) : State :=
  let s1 := (s.stage 6).cfgStatus
  if s1.bankReady = false then (s1.setMod .held).configRec
  else if s1.bankHold s1.activeBank then s1.setMod .held
  else s1.enterReady

/-- Steps 2 to 6 as one (log entry 5 names what the model loads in them): `slot` is the firmware slot tried first, `other` the one after
it. Step 3 fails with `clockFails`. -/
def State.bootFrom (slot other : Nat) (clockFails : Bool) (badTiles : List Nat) (badChans : List (Nat × Nat)) (s : State) : State :=
  let r := (s.stage 2).pickFirmware slot other
  match r.2 with
  | none => (((r.1.stage 7).wr F.SEC_BOOT_STATUS.fw_version 0 0 0).wr F.SEC_BOOT_STATUS.svn 0 0 0).cfgStatus.setMod .held
  | some k =>
    let s1 := (r.1.runs k).stage 3
    if clockFails then ({ s1 with pwr := { s1.pwr with faultN := false } } : State).setMod .dark
    else
      let s2 := (if s1.tiles.keys.length < 2304 then (s1.bootTiles badTiles).bootChans badChans else s1.rebootUnits badTiles).useContent
      s2.bootLast

end Sys2Proof.Machine
end

