-- ==== Sys2Proof/Machine/Resets.lean ====
section
/-! DEFINITION. Reset domains (R457 to R464), soft repairs (R443, R447, R453) and eclipses of units (R466, R467) as operations. -/
namespace Sys2Proof.Machine

/-! ### Scopes (Table 14-1) -/

/-- Domain `d` with index `i` contains a tile, a channel. -/
def hasTile (d i t : Nat) : Bool := d == 6 || (d == 2 && tileDie t == i) || (d == 1 && t == i)
def hasChan (d i ch : Nat) : Bool := d == 6 || (d == 2 && ch / 24 == i) || (d == 3 && ch == i)

/-- The scopes of two domains overlap (R461). -/
def overlaps (d i e j : Nat) : Bool :=
  d == 6 || e == 6 || (d == e && (i == j || d == 5)) ||
    match d, e with
    | 1, 2 => tileDie i == j | 2, 1 => tileDie j == i
    | 3, 2 => i / 24 == j | 2, 3 => j / 24 == i
    | _, _ => false

/-- The number of units of a domain; 0: the code is not one that commands may name. -/
def domUnits (d : Nat) : Nat := match d with | 1 => 2304 | 2 => 4 | 3 => 96 | 4 => 16 | 5 => 1 | 6 => 1 | _ => 0

/-- The cycles after which a reset escalates, and to which domain and index (Table 14-1). -/
def escalateAt (d : Nat) : Nat :=
  match d with | 1 => 100000 | 2 => 10000000 | 3 => 200000 | 4 => 200000 | 5 => 100000000 | _ => 400000000
def enclosing (d i : Nat) : Nat × Nat := match d with | 1 => (2, tileDie i) | 3 => (2, i / 24) | _ => (6, 0)

/-! ### Eclipses -/

/-- The unit lies in an eclipse (R466). -/
def State.eclipsed (s : State) (d i : Nat) : Bool :=
  s.ecl.any (fun e => (e.dom == d && e.idx == i) || e.dom == 6 || (d == 1 && hasTile e.dom e.idx i) || (d == 3 && hasChan e.dom e.idx i))

/-- Eclipses that end: nothing is left to drain, and a FENCE that waits for it is done (R467, R471). -/
def State.dropEcl (p : Ecl → Bool) (s : State) : State :=
  let gone := s.ecl.filter p
  let s1 : State := { s with ecl := s.ecl.filter (fun e => !p e) }
  gone.foldl (fun (s : State) e =>
    (s.prog.filter (fun q => q.task == .fence e.dom e.idx)).foldl (fun (s : State) q => s.finish q 0 []) s) s1

/-! ### Soft repairs -/

/-- A soft repair of a column: `w` holds bit, sub-bank and column as s1 of SCRATCH_FAIL. It takes the next free spare and is
applied at the tile's next reset; false: the sub-bank has none (R443, R447). -/
def State.softRepair (t : Nat) (w : Word) (s : State) : State × Bool :=
  let sub := bits w.toNat 8 6
  let used := ((s.repairs ++ s.newRepairs).filter (fun r => r.1 == t && r.2.1 == sub)).length
  if 4 ≤ used then (s, false)
  else
    let s1 : State := { s with newRepairs := s.newRepairs ++ [(t, sub, bits w.toNat 16 7)] }
    let s2 := s1.flag F.ERR_STATUS.again_count F.ERR_STATUS.repair 0 0 1
    (s2.almRec 2 0x53 4 t (sub / 16) (w + BitVec.ofNat 64 (used * 2 ^ 24)) 0 0 0 0, true)

/-- The N16 rule at a tile's reset (R453): units with three FAULT entries are treated as permanent. True: the tile is to be
retired. -/
def State.n16 (t : Nat) (s : State) : State × Bool :=
  if s.rd F.ERR_CTRL.history_mode 0 0 = 0 then (s, false)
  else
    let mine := (s.almanac ++ s.almQ).filter (fun a => a.typ == 1 && a.tile == some t)
    let cells := mine.filter (fun a => a.unit.head? == some 4)
    let other := mine.any (fun a => a.unit.head? != some 4 && decide (3 ≤ s.history (fun b => b.unit == a.unit)))
    let bad := cells.filter (fun a => decide (3 ≤ s.history (fun b => b.unit == a.unit && b.column == a.column)))
    bad.foldl (fun q a =>
      if (q.1.repairs ++ q.1.newRepairs).contains (t, a.column) then q
      else let r := q.1.softRepair t a.s1
           (r.1, q.2 || !r.2)) (s, other)

/-! ### What a reset does to its units -/

/-- Scratchpad accesses that the tile has accepted over Vesper and not completed are answered with WRONG_STATE (R194 step 5). -/
def State.refuseScratch (t : Nat) (s : State) : State :=
  let mine := s.inbox.filter (fun p => p.ep == 0 && p.dx + 48 * p.dy == t && (p.op == 2 || p.op == 3))
  mine.foldl (fun (s : State) p => s.refuseReq p.dx p.dy 0 p 1) { s with inbox := s.inbox.filter (fun p => !(mine.contains p)) }

/-- A tile's reset begins: it enters OFFLINE, its transit and region test end, and its new repairs are in use. -/
def State.offlineTile (t : Nat) (s : State) : State :=
  let s1 := (s.onTile t fun c tl => tl.toOffline c).refuseScratch t
  let q := ({ s1 with
    windows := s1.windows.filter (· != t)
    urgent := s1.urgent.filter (· != t)
    saves := s1.saves.filter (· != t)
    bg := s1.bg.filter (fun u _ => u != t) } : State).n16 t
  let s2 := q.1
  let s3 : State := { s2 with
    repairs := s2.repairs ++ s2.newRepairs.filter (·.1 == t)
    newRepairs := s2.newRepairs.filter (·.1 != t) }
  if q.2 ∧ (s3.tile t).vacant = false then s3.retireTile t false else s3

def State.sleepChan (ch : Nat) (s : State) : State := s.onChan ch fun _ h => (h.toSelfRefresh, [])

/-- What is in the routers of a die is lost (Table 14-1): a packet of which a flit is there is lost whole. -/
def State.loseFlits (d : Nat) (s : State) : State :=
  let here (x y : Nat) : Bool := tileDie (y * 48 + x) == d
  { s with
    flits := s.flits.filter (fun f => !here f.x f.y)
    pkts := s.pkts.filter (fun p => !(p.worm.any (fun h => here h.x h.y) || (p.worm.isEmpty && here p.dx p.dy)))
    vcred := s.vcred.filter (fun v => tileDie v.1 != d)
    vout := s.vout.filter (fun k _ => tileDie k.1 != d) }

/-- A die's reset begins: what is in its routers is lost, then its tiles hand over the replies they owe (R255); its channels; TIL_STOP
takes its reset value (R115). -/
def State.offlineDie (d : Nat) (s0 : State) : State :=
  let s := s0.loseFlits d
  let s1 := (s.tiles.keys.filter (fun t => tileDie t == d)).foldl (fun (s : State) t =>
    let u := s.offlineTile t
    u.setTile t { (u.tile t) with regs := (u.tile t).regs.forget [.TIL_STOP] }) s
  let s2 := (s1.chans.keys.filter (fun ch => ch / 24 == d)).foldl (fun (s : State) ch => s.sleepChan ch) s1
  let dies := s2.rd F.RST_FENCE.dies 0 0
  s2.wr F.RST_FENCE.dies 0 0 (dies - bits dies d 1 * 2 ^ d)

/-- A port's reset begins: DARK at once, without a notice (Table 9-4). -/
def State.offlinePort (n : Nat) (s : State) : State :=
  let s1 := s.movePort n .dark
  s1.setPort n Port.reset

/-- Firmware releases a tile after a reset, unless its die or the module is eclipsed (R467). -/
def State.releaseTile (t : Nat) (s : State) : State :=
  if s.ecl.any (fun e => (e.dom == 2 || e.dom == 6) && hasTile e.dom e.idx t) then s
  else s.onTile t fun c tl => (tl.release c, [])

/-- A conjunction ends: every tile is reset, index 31 is as it was, and the job register reads 0 (R491 step 5). The tiles are
released at once, unless an eclipse keeps them OFFLINE. -/
def State.stopConj (s : State) : State :=
  match s.conj with
  | none => s
  | some c =>
    let s1 := (s.tiles.keys.foldl (fun (s : State) t => s.offlineTile t) s).setJob 0
    let s2 := c.bars.foldl (fun (s : State) p =>
      let tl := s.tile p.1
      s.setTile p.1 { tl with regs := Reg.TIL_PUL_BAR.fields.foldl (fun r f => r.wr f 0 31 (bits p.2 f.lo f.width)) tl.regs }) s1
    let s3 := Reg.RTE_GBAR.fields.foldl (fun (s : State) f => s.wr f 0 31 (bits c.gbar f.lo f.width)) s2
    let s4 : State := { s3 with conj := none }
    s4.tiles.keys.foldl (fun (s : State) t => s.releaseTile t) s4

/-- A conjunction fails: conj_fail is set (R492). -/
def State.failConj (s : State) : State :=
  if s.conj.isSome then s.stopConj.flag F.RTE_FLEET_STATUS.again_count F.RTE_FLEET_STATUS.conj_fail 0 0 1 else s

/-- Line `j` of a region: its channel and line (R268). -/
def State.regionLine (s : State) (base j : Nat) : Nat × Nat := lpddrMap s.chansIn (base + 64 * j)

/-- The destination region is undefined: every byte is a free value (R499). -/
def State.freeRegion (base len : Nat) (s : State) : State :=
  (List.range (len / 64)).foldl (fun (s : State) j =>
    let q := s.regionLine base j
    ({ s with fresh := s.fresh + 8 } : State).setChan q.1 ((s.chan q.1).writeLine q.2 255 (freeBytes s.fresh 8))) s

/-- What an adoption that fails after step 3 leaves of the place's identity and of the destination region (R499). -/
def State.dropPlace (s : State) : State :=
  match s.adopt with
  | some a =>
    let s1 := (({ s with adopt := none } : State).setJob 0).wr F.RTE_FLEET_STATUS.adopt_step 0 0 0
    if a.role = 0 ∧ 4 ≤ a.step then (((s1.freeRegion a.dst a.len).wr F.RTE_SELF.eid 0 0 0).wr F.RTE_SELF.eid_valid 0 0 0).discoverAll else s1
  | none => s

/-- The management cores lose their state: commands in progress wait for the restarted firmware to answer them (R462), and
their locks are free (R384). -/
def State.loseFirmware (s0 : State) : State :=
  let s := s0.failConj.dropPlace
  let cmds := s.prog.map (·.cmd) ++ s.replies.map (·.cmd) ++ s.resets.filterMap (·.cmd)
  (({ s with
    prog := cmds.map (fun c => ⟨c, Task.reset⟩)
    replies := []
    resets := s.resets.map (fun r => { r with cmd := none }) } : State).freeLocks 0x10).freeLocks 0x11

/-- The counters of the FAB block return to their reset values. -/
def State.clearFab (s : State) : State :=
  let rs := s.regs.forget [.FAB_PORT_FEC, .FAB_PORT_PKT, .FAB_PORT_SCHED]
  { s with regs := { rs with vals := rs.vals.filter (fun k _ => k.1 != F.FAB_LANE.symbols.id) } }

/-- What is in the networks and at their endpoints is lost. -/
def State.loseNets (s : State) : State :=
  { s with flits := [], landings := [], pkts := [], inbox := [], vcred := [], vout := .empty }

/-- A module warm reset begins. -/
def State.offlineModule (s : State) : State :=
  let s0 := s.loseNets.loseFirmware
  let s1 := ((List.range 4).foldl (fun (s : State) d => s.offlineDie d) ({ s0 with resets := [] } : State)).dropEcl (fun _ => true)
  let s2 := (allPorts.foldl (fun (s : State) n => s.offlinePort n) s1).clearFab
  let s3 : State := { s2 with
    flits := []
    landings := []
    barRel := .empty
    faults := []
    abortAt := none
    routeQ := []
    gather := []
    frags := []
    reasm := []
    windows := []
    due := []
    urgent := []
    saves := []
    bg := .empty }
  let s4 := ((s3.wr F.RST_FENCE.module 0 0 0).wr F.RST_FENCE.cause 0 0 0).wr F.GLB_MODULE_STATE.start_pending 0 0 0
  (((s4.wr F.GLB_START.start 0 0 0).setJob 0).unproven).setMod .dark

/-- A reset of a domain begins, for a command or by escalation. -/
def State.beginReset (d i : Nat) (cmd : Option Cmd) (status : Nat) (s : State) : State :=
  let s1 := match d with
    | 1 => (s.offlineTile i).dropEcl (fun e => e.dom == 1 && e.idx == i)
    | 2 => (s.offlineDie i).dropEcl (fun e => (e.dom == 2 && e.idx == i) || (e.dom == 1 && tileDie e.idx == i) || (e.dom == 3 && e.idx / 24 == i))
    | 3 => (s.sleepChan i).dropEcl (fun e => e.dom == 3 && e.idx == i)
    | 4 => s.offlinePort i
    | 5 => s.loseFirmware
    | _ => s.offlineModule
  let r : Rst := { dom := d, idx := i, began := s.cycle, cmd := cmd, status := status }
  { s1 with resets := s1.resets ++ [r] }

/-- RST_LAST (Table 14-10): `result` is 1 DONE, 2 ESCALATED. -/
def State.rstLast (r : Rst) (result : Nat) (s : State) : State :=
  (((s.wr F.RST_LAST.cycles 0 0 (min (s.cycle - r.began) 0xFFFFFFFF)).wr F.RST_LAST.result 0 0 result).wr F.RST_LAST.domain 0 0 r.dom).wr
    F.RST_LAST.index 0 0 r.idx

end Sys2Proof.Machine
end

