-- ==== Sys2Proof/Machine/ExecReset.lean ====
section
/-! DEFINITION. RESET, its end and its escalation, retirement, FENCE and UNFENCE as commands (R457 to R472). -/
namespace Sys2Proof.Machine

/-! ### RESET (R460 to R462) -/

/-- The payload of R460, for RESET and FENCE: domain, index, and zeros. -/
def domArgs (ok : Nat → Bool) (c : Cmd) (_ : State) : Nat :=
  if c.len = 16 ∧ ok (c.num 0 1) ∧ c.num 2 2 < domUnits (c.num 0 1) ∧ c.zero 1 1 ∧ c.zero 4 15 then 0 else 2

def resetArgs : Cmd → State → Nat := domArgs (fun d => decide (1 ≤ d) && decide (d ≤ 6))

/-- Table 14-2, and BUSY for an overlapping reset. -/
def resetState (c : Cmd) (s : State) : Nat :=
  let d := c.num 0 1
  let i := c.num 2 2
  let atRest := s.st == .held || s.st == .ready || s.st == .joined || s.st == .fenced
  let ok := match d with
    | 1 => (s.tile i).st == .idle || (s.tile i).st == .fenced
    | 2 => atRest && !s.startPending
    | 3 => atRest && ((s.chan i).rd F.MEM_CAL_CTRL.enable 0 == 0 || (s.chan i).st == .fenced)
    | 4 => (s.port i).st != .up
    | _ => true
  if ok = false then 1 else if s.resets.any (fun r => overlaps d i r.dom r.idx) then 3 else 0

def State.reset_ (c : Cmd) (s : State) : State := s.beginReset (c.num 0 1) (c.num 2 2) (some c) 0

/-- The RESET row for one domain: also that for any payload that names no domain. -/
def isReset (d : Nat) (c : Cmd) : Bool := c.code == 0x30 && (c.num 0 1 == d || c.num 0 1 == 0 || decide (6 < c.num 0 1))

def execResetTile (k : Nat) (s : State) : Ans := .next (s.firmware k (isReset 1) resetArgs resetState State.reset_)
def execResetDie (k : Nat) (s : State) : Ans := .next (s.firmware k (isReset 2) resetArgs resetState State.reset_)
def execResetChannel (k : Nat) (s : State) : Ans := .next (s.firmware k (isReset 3) resetArgs resetState State.reset_)
def execResetPort (k : Nat) (s : State) : Ans := .next (s.firmware k (isReset 4) resetArgs resetState State.reset_)
def execResetObservatory (k : Nat) (s : State) : Ans := .next (s.firmware k (isReset 5) resetArgs resetState State.reset_)
def execResetModuleWarm (k : Nat) (s : State) : Ans := .next (s.firmware k (isReset 6) resetArgs resetState State.reset_)

/-- RESET_DONE: the units are back, and the command is answered. After a module warm reset the boot runs again, and `badTiles`
fail its BIST (R400, R448). -/
def State.resetDone (d i : Nat) (badTiles : List Nat) (s : State) : State :=
  match s.resets.find? (fun r => r.dom == d && r.idx == i) with
  | none => s
  | some r =>
    let s1 := ({ s with resets := s.resets.erase r } : State).rstLast r 1
    let s2 := match d with
      | 1 => s1.releaseTile i
      | 2 =>
        let u := (s1.tiles.keys.filter (fun t => tileDie t == i)).foldl (fun (s : State) t => s.releaseTile t) s1.remapAll
        (u.chans.keys.filter (fun ch => ch / 24 == i)).foldl (fun (s : State) ch => s.onChan ch fun _ h => (h.reactivate, [])) u
      | 3 => s1.onChan i fun _ h => (h.reactivate, [])
      | 4 => s1
      | 5 => s1.loseCommands
      | _ => (s1.bootFrom s1.bootSlot (s1.rd F.SEC_BOOT_STATUS.slot 0 0) false (badTiles.filter (· < 2304)) []).loseCommands
    match r.cmd with
    | some c => s2.reply c r.status []
    | none => s2

def execResetDone (dom idx : Nat) (badTiles : List Nat) (s : State) : Ans := .next (s.resetDone dom idx badTiles)

/-- RESET_ESCALATION (R463, R465). -/
def State.escalate (d i : Nat) (s : State) : State :=
  match s.resets.find? (fun r => r.dom == d && r.idx == i) with
  | none => s
  | some r =>
    if s.cycle < r.began + escalateAt d then s
    else
      let s1 := ({ s with resets := s.resets.erase r } : State).rstLast r 2
      let s2 := (s1.obsRec 0x62 0 0 0 (s1.regWord .RST_LAST 0 0) 0 0 0 0 0 7).flag F.RST_STATUS.again_count F.RST_STATUS.escalated 0 0 1
      if d = 6 then
        let s3 := s2.addSat F.RST_ESC.to_dark 0 0 1
        { s3 with resets := [], pwr := { s3.pwr with dead := true, faultN := false } }
      else
        let s3 := s2.addSat (if d = 1 ∨ d = 3 then F.RST_ESC.to_die else F.RST_ESC.to_warm) 0 0 1
        let s4 := if s3.st = .running ∨ s3.st = .draining ∨ s3.startPending then s3.eclipse 6 else s3
        s4.beginReset (enclosing d i).1 (enclosing d i).2 r.cmd 7

def execResetEscalation (dom idx : Nat) (s : State) : Ans := .next (s.escalate dom idx)

/-! ### Retirement (R464) -/

/-- The tile is to be retired: its die's reset began 20 µs ago, or it was classified permanent and is FENCED. -/
def State.mayRetire (s : State) (t : Nat) : Bool :=
  decide (t < 2304) && !(s.tile t).vacant &&
    (((s.tile t).st == .offline && s.resets.any (fun r => (r.dom == 2 || r.dom == 6) && hasTile r.dom r.idx t && decide (r.began + 40000 ≤ s.cycle))) ||
     ((s.tile t).st == .fenced && (s.tile t).rd F.TIL_STOP.stop_reason 0 == 5))

/-- TILE_RETIRE: `routerFailed` says that a router of the tile has failed. Its column changes if it can (R464 step 3). -/
def execTileRetire (t : Nat) (routerFailed : Bool) (s : State) : Ans :=
  .next (if s.mayRetire t then s.retireTile t routerFailed else s)

def execColumnRemap (die col : Nat) (s : State) : Ans := .next (if die < 4 ∧ col < 24 then s.remapColumn die col else s)

/-! ### FENCE (R466, R471) -/

def fenceArgs : Cmd → State → Nat := domArgs (fun d => d == 1 || d == 2 || d == 3 || d == 6)

/-- An eclipse of a tile, a die or a channel begins, with its record (R482). -/
def State.fenceUnit (d i : Nat) (s : State) : State :=
  let s1 := match d with
    | 1 => s.eclipseTile i
    | 2 =>
      let dies := s.rd F.RST_FENCE.dies 0 0
      let u := (s.tiles.keys.filter (fun t => tileDie t == i)).foldl (fun (s : State) t => s.eclipseTile t) (s.wr F.RST_FENCE.dies 0 0 (setBit dies i))
      (u.chans.keys.filter (fun ch => ch / 24 == i)).foldl (fun (s : State) ch => s.onChan ch fun c h => (h.eclipse c, [])) u
    | _ => s.onChan i fun c h => (h.eclipse c, [])
  ({ s1 with ecl := s1.ecl ++ [(⟨d, i, s.cycle, false⟩ : Ecl)] } : State).obsRec 0x61 0 0 0 (BitVec.ofNat 64 (d + i * 2 ^ 16)) 0 0 0 0 0 0

def State.fence (c : Cmd) (s : State) : State :=
  let d := c.num 0 1
  let i := c.num 2 2
  if s.eclipsed d i then s.reply c 0 []
  else
    let s1 := if d = 6 then s.eclipse 5 else s.fenceUnit d i
    { s1 with prog := s1.prog ++ [⟨c, Task.fence d i⟩] }

/-- The FENCE row for one domain: also that for any payload that names none. -/
def isFence (d : Nat) (c : Cmd) : Bool :=
  c.code == 0x31 && (c.num 0 1 == d || !(c.num 0 1 == 1 || c.num 0 1 == 2 || c.num 0 1 == 3 || c.num 0 1 == 6))

def execFenceTile (k : Nat) (s : State) : Ans := .next (s.firmware k (isFence 1) fenceArgs noFurther State.fence)
def execFenceDie (k : Nat) (s : State) : Ans := .next (s.firmware k (isFence 2) fenceArgs noFurther State.fence)
def execFenceChannel (k : Nat) (s : State) : Ans := .next (s.firmware k (isFence 3) fenceArgs noFurther State.fence)
def execFenceModule (k : Nat) (s : State) : Ans := .next (s.firmware k (isFence 6) fenceArgs noFurther State.fence)

/-! ### UNFENCE (R472) -/

/-- Steps 2 to 5 of R472. -/
def State.unfence (s : State) : State :=
  let s1 := (s.tiles.keys.foldl (fun (s : State) t => s.offlineTile t) s).remapAll
  let s2 := s1.chans.keys.foldl (fun (s : State) ch =>
    if (s.chan ch).st = .fenced ∨ (s.chan ch).st = .active then
      s.onChan ch fun _ h => (h.toSelfRefresh.reactivate, [])
    else s) s1
  let s3 := ((s2.noJobPorts.endJob).dropEcl (fun _ => true)).wr F.RST_FENCE.dies 0 0 0
  let s4 := (({ s3 with jobFenced := false } : State).wr F.RST_FENCE.module 0 0 0).wr F.RST_FENCE.cause 0 0 0
  let s5 := s4.tiles.keys.foldl (fun (s : State) t => s.releaseTile t) s4
  if s5.rd F.RTE_SELF.eid_valid 0 0 = 0 then s5.enterReady else s5.setMod .joined

/-- UNFENCE's answer, and its effect. -/
def State.unfenceNow (c : Cmd) (s : State) : State :=
  s.unfence.reply c (if c.taken + 200000000 < s.cycle then 7 else 0) []

/-- The drain of the module eclipse has ended. -/
def State.drainedAll (s : State) : Bool := s.ecl.all (fun e => e.dom != 6 || e.drained)

def State.unfenceCmd (c : Cmd) (s : State) : State :=
  if s.drainedAll then s.unfenceNow c else { s with prog := s.prog ++ [⟨c, Task.unfence⟩] }

def execUnfence (k : Nat) (s : State) : Ans := .next (s.firmware k (fun c => c.code == 0x32) noPayload noFurther State.unfenceCmd)

/-- ECLIPSE_DRAIN_END: 100 µs after an eclipse began, the open requests still queued get their errors, and FENCE and UNFENCE
go on (R466, R471, R472). -/
def State.drainEnd (d i : Nat) (s : State) : State :=
  match s.ecl.find? (fun e => e.dom == d && e.idx == i && !e.drained) with
  | none => s
  | some e =>
    if s.cycle < e.began + 200000 then s
    else
      let s1 : State := { s with ecl := s.ecl.map (fun x => if x = e then { x with drained := true } else x) }
      let s2 := (s1.chans.keys.filter (fun ch => hasChan d i ch && (s1.chan ch).st == .fenced)).foldl (fun (s : State) ch =>
        s.onChan ch fun c h => h.drainEnds c) s1
      let s3 := (s2.prog.filter (fun q => q.task == .fence d i)).foldl (fun (s : State) q => s.finish q 0 []) s2
      (s3.prog.filter (fun q => q.task == .unfence && d == 6)).foldl (fun (s : State) q =>
        ({ s with prog := s.prog.erase q } : State).unfenceNow q.cmd) s3

def execEclipseDrainEnd (dom idx : Nat) (s : State) : Ans := .next (s.drainEnd dom idx)

end Sys2Proof.Machine
end

