-- ==== Sys2Proof/Machine/ExecFleet.lean ====
section
/-! DEFINITION. Conjunction and adoption (R488 to R500), the place declaration (R503), and the global barrier packets that count a
conjunction's episodes. -/
namespace Sys2Proof.Machine

/-- Every tile in service is IDLE. -/
def State.allIdle (s : State) : Bool := s.tiles.keys.all (fun t => (s.tile t).vacant || (s.tile t).st == .idle)
/-- The scan-tainted module answers DENIED. -/
def State.tainted (s : State) : Bool := s.rd F.SEC_TAINT.scan_tainted 0 0 == 1

/-! ### Conjunction (R489 to R492) -/

def conjArgs (c : Cmd) (s : State) : Nat :=
  let port := c.num 1 1
  let start := c.num 16 8
  if s.tainted then 8
  else if c.len = 32 ∧ c.num 0 1 ≤ 1 ∧ port < 16 ∧ 1 ≤ c.num 2 2 ∧ c.num 2 2 ≤ 1024 ∧ c.zero 4 7 ∧ c.zero 24 31 ∧
      (s.port port).st = .up ∧ s.rd F.FAB_PORT_NBR.serial port 0 = c.num 8 8 ∧ s.sidereal + 200000 ≤ start ∧
      start ≤ s.sidereal + 400000000 then 0
  else 2

def conjState (_ : Cmd) (s : State) : Nat :=
  if s.vacantCount ≠ 0 ∨ s.allIdle = false ∨ (s.timeSt ≠ 2 ∧ s.role ≠ 1) then 1 else if s.startPending then 3 else 0

/-- A register of a tile or of the module as its stored bits. -/
def Tile.stored (tl : Tile) (r : Reg) (j : Nat) : Nat := assemble r.fields (fun f => tl.rd f j)

/-- The tile that takes part in index 31 for the module: the first of the port's home rows (DESIGN CHOICE, log entry 48). -/
def conjTile (port : Nat) : Nat := 6 * (port % 8) * 48 + portX port

/-- Load a program from address 0 and name its entry (R105). -/
def Tile.loadProgram (l : List Byte) (tl : Tile) : Tile := (tl.storeBytes 0 l).wr F.TIL_ENTRY.pc 0 0

/-- Steps 1 and 2 of R491. -/
def State.conjunction (c : Cmd) (s : State) : State :=
  let port := c.num 1 1
  let role := c.num 0 1
  let x : Conj := {
    cmd := c, role := role, port := port, episodes := c.num 2 2, peer := c.num 8 8, start := c.num 16 8, running := false,
    done := 0, gbar := (s.regWord .RTE_GBAR 0 31).toNat, bars := s.tiles.keys.map (fun t => (t, (s.tile t).stored .TIL_PUL_BAR 31)) }
  let clear (tl : Tile) : Tile := Reg.TIL_PUL_BAR.fields.foldl (fun tl f => tl.wr f 31 0) tl
  let one (tl : Tile) : Tile := ((tl.wr F.TIL_PUL_BAR.enable 31 1).wr F.TIL_PUL_BAR.participant 31 1).wr F.TIL_PUL_BAR.global 31 1
  let image := Config.kernelImage (s.rd F.ERR_CONTENT.version 0 0)
  let s1 : State := { s with
    conj := some x
    prog := s.prog ++ [⟨c, Task.conjunction⟩]
    tiles := s.tiles.mapVals (fun t tl =>
      let u := clear tl
      let v := if t = conjTile port then one u else u
      if tl.vacant then v else v.loadProgram image) }
  let s2 := (((s1.setGb 31 .reset).wr F.RTE_GBAR.enable 0 31 1).wr F.RTE_GBAR.root 0 31 (1 - role)).wr F.RTE_GBAR.children 0 31
    (if role = 0 then 2 ^ port else 0)
  ((s2.wr F.RTE_GBAR.parent 0 31 (if role = 1 then port else 0)).wr F.RTE_CONJ.matched 0 0 0).wr F.RTE_CONJ.mismatched 0 0 0
    |>.setJob 0xFFF

def execConjunction (k : Nat) (s : State) : Ans :=
  .next (s.firmware k (fun c => c.code == 0x60) conjArgs conjState State.conjunction)

/-- CONJUNCTION_START (R491 step 3). -/
def State.conjStart (s : State) : State :=
  match s.conj with
  | none => s
  | some x =>
    if x.running ∨ s.sidereal < x.start then s
    else
      let ts := s.tiles.keys.filter (fun t => (s.tile t).st == .idle)
      ts.foldl (fun (s : State) t => s.onTile t fun c tl =>
        (tl.enterRunning { c with cycle := s.cycleOf x.start } 0xFFF (BitVec.ofNat 64 x.start), [])) { s with conj := some { x with running := true } }

def execConjunctionStart (s : State) : Ans := .next s.conjStart

/-- The command of a task that ends. -/
def State.endTask (t : Task) (status : Nat) (body : List Byte) (s : State) : State :=
  (s.prog.filter (fun p => p.task == t)).foldl (fun (s : State) p => s.finish p status body) s

/-- The conjunction ends (R492): when every episode is done, or with SOURCE_LOST or TIMEOUT. -/
def State.endConj (status : Nat) (s : State) : State :=
  match s.conj with
  | none => s
  | some x =>
    let bad := s.rd F.RTE_CONJ.mismatched 0 0
    let body := leBytes 2 (s.rd F.RTE_CONJ.matched 0 0) ++ leBytes 2 bad ++ leBytes 2 x.done ++ leBytes 10 0
    if status = 0 ∧ bad = 0 then (s.stopConj.wr F.RTE_FLEET_STATUS.proven 0 0 1).endTask .conjunction 0 body
    else s.failConj.endTask .conjunction status (if status = 0 then body else [])

/-- After a release: was it the last episode's? -/
def State.conjSettle (s : State) : State :=
  match s.conj with
  | some x => if x.running ∧ x.episodes ≤ x.done then s.endConj 0 else s
  | none => s

/-- CONJUNCTION_RELEASE_TIMEOUT: a release has not come in time, or the port has left UP. -/
def execConjunctionReleaseTimeout (s : State) : Ans :=
  .next (match s.conj with
    | some x => if (s.port x.port).st ≠ .up ∨ (x.running ∧ x.start + 500000 * (x.done + 2) ≤ s.sidereal) then s.endConj 5 else s
    | none => s)

/-! ### Global barriers as commands -/

def execBarrierRootArrival (root i : Nat) (s : State) : Ans := .next (s.rootArrives root i).conjSettle
def execBarArriveReceive (n : Nat) (s : State) : Ans := .next (s.barArriveIn n).conjSettle
def execBarReleaseReceive (n : Nat) (s : State) : Ans := .next (s.barReleaseIn n).conjSettle

/-! ### Adoption (R493 to R500) -/

/-- The latency that an ADOPT names for port `n`. -/
def Cmd.latency (c : Cmd) (n : Nat) : Nat := c.num (48 + 2 * n) 2

def adoptArgs (c : Cmd) (s : State) : Nat :=
  let role := c.num 0 1
  let port := c.num 1 1
  let eid := c.num 2 2
  let len := c.num 40 8
  let start := c.num 16 8
  let okLat (v : Nat) : Bool := decide (64 ≤ v) && decide (v ≤ 4096)
  let lats := if role = 0 then allPorts.all (fun n => c.latency n == 0 || okLat (c.latency n)) && c.latency port != 0
    else okLat (c.latency 0) && c.zero 50 79 && (s.port port).st != .dark
  if s.tainted then 8
  else if c.len = 80 ∧ role ≤ 1 ∧ port < 16 ∧ eid < 2 ^ 14 ∧ c.zero 4 7 ∧ c.num 24 8 % 64 = 0 ∧ c.num 32 8 % 64 = 0 ∧ len % 256 = 0 ∧
      256 ≤ len ∧ (if role = 0 then c.num 32 8 else c.num 24 8) + len ≤ lpddrTop (s.ctx 0) ∧ lats ∧
      allPorts.all (fun n => !(s.rd F.FAB_PORT_NBR_ID.eid_valid n 0 == 1 && s.rd F.FAB_PORT_NBR_ID.eid n 0 == eid)) ∧
      s.sidereal + 2400000000 ≤ start ∧ start ≤ s.sidereal + 6000000000 then 0
  else 2

def adoptState (c : Cmd) (s : State) : Nat :=
  if (c.num 0 1 = 0 ∧ s.rd F.RTE_FLEET_STATUS.proven 0 0 = 0) ∨ s.allIdle = false then 1 else if s.startPending then 3 else 0

def State.adoptStep (n : Nat) (s : State) : State :=
  match s.adopt with
  | some a => ({ s with adopt := some { a with step := n } } : State).wr F.RTE_FLEET_STATUS.adopt_step 0 0 n
  | none => s

/-- The adoption as taken. -/
def State.beginAdopt (c : Cmd) (s : State) : State :=
  let a : Adopt := {
    cmd := c, role := c.num 0 1, port := c.num 1 1, eid := c.num 2 2, partner := c.num 8 8, start := c.num 16 8,
    src := c.num 24 8, dst := c.num 32 8, len := c.num 40 8,
    lat := if c.num 0 1 = 0 then allPorts.map c.latency else allPorts.map (fun n => if n = c.num 1 1 then c.latency 0 else 0),
    step := 2, ready := false, copying := false, attempt := 0, next := c.num 16 8, lastAt := 0, lines := 0 }
  let s1 := (({ s with adopt := some a, prog := s.prog ++ [⟨c, Task.adopt⟩] } : State).wr F.RTE_ADOPT.attempt 0 0 0).wr F.RTE_ADOPT.lines_k 0 0 0
  s1.adoptStep 2

/-- A command of firmware to a port, as by FAB_PORT_CTRL. -/
def State.drainPort (n : Nat) (s : State) : State := if (s.port n).open_ then (s.portStatus n 3 0).beginDrain n else s

/-- ADOPT_TAKE: after the checks every UP port drains (Table 15-3 steps 1 and 2). -/
def State.adoptTake (c : Cmd) (s : State) : State := allPorts.foldl (fun (s : State) n => s.drainPort n) (s.beginAdopt c)

def isAdopt (role : Nat) (c : Cmd) : Bool := c.code == 0x61 && (c.num 0 1 == role || decide (1 < c.num 0 1))

def execAdoptTake (k : Nat) (s : State) : Ans := .next (s.firmware k (isAdopt 0) adoptArgs adoptState State.adoptTake)

/-- Write a port's latency and train it, where its state allows (R495 step 4, R496 step 3). -/
def State.trainAt (n l : Nat) (s : State) : State :=
  if (s.port n).st = .dark ∨ (s.port n).st = .down then ((s.wr F.FAB_PORT_CFG.latency n 0 l).portStatus n 1 0).portTrain n else s

/-- SOURCE keeps its port toward the spare: trained whenever it is DARK, or DOWN for one of the reasons of R496. -/
def State.keepPort (a : Adopt) (s : State) : State :=
  let p := (s.port a.port).st
  let r := s.rd F.FAB_PORT_STATE.down_reason a.port 0
  if p = .dark ∨ (p = .down ∧ r ≠ 4) then s.trainAt a.port (a.lat.getD a.port 0) else s

/-- SOURCE's step at the take: a port that trains goes DARK (R496 step 1). -/
def State.adoptSource (c : Cmd) (s : State) : State :=
  let s1 := (s.beginAdopt c).adoptStep 4
  let n := c.num 1 1
  if (s.port n).st = .training ∨ (s.port n).st = .parallax then (s1.portStatus n 2 0).portDark n
  else match s1.adopt with
    | some a => s1.keepPort a
    | none => s1

/-- ADOPT_SOURCE: the take, and until the port's deadline every further step of R496. -/
def execAdoptSource (k : Nat) (s : State) : Ans :=
  .next (match s.adopt with
    | some a => if a.role = 1 ∧ a.cmd.k = k ∧ a.ready = false ∧ s.fwRuns then s.keepPort a
                else s.firmware k (isAdopt 1) adoptArgs adoptState State.adoptSource
    | none => s.firmware k (isAdopt 1) adoptArgs adoptState State.adoptSource)

/-- The tiles of a port's home rows (R31). -/
def homeTiles (n : Nat) : List Nat := allTiles.filter (fun t => homePort (t % 48) (t / 48) == n)

/-- The copy digest over a region (R497). -/
def State.copyDigest (s : State) (base len : Nat) : Word :=
  (List.range (len / 64)).foldl (fun d j =>
    let q := s.regionLine base j
    d ^^^ crc64 0 (leBytes 8 j ++ (s.chan q.1).line q.2)) 0

/-- Every tile is reset and released; GLB_JOB reads 0 (Table 15-3 step 7). -/
def State.resetTiles (ts : List Nat) (s : State) : State :=
  let s1 := ts.foldl (fun (s : State) t => s.offlineTile t) s
  ts.foldl (fun (s : State) t => s.releaseTile t) s1

/-- The adoption fails with a status (R498, R499): tiles that copied are reset. -/
def State.failAdopt (status : Nat) (s : State) : State :=
  match s.adopt with
  | none => s
  | some a =>
    let s1 := if 0 < a.attempt then s.resetTiles ((homeTiles a.port).filter (fun t => !(s.tile t).vacant)) else s
    let s3 := s1.dropPlace
    let s4 := if a.role = 0 ∧ 4 ≤ a.step ∧ s3.st = .joined then s3.enterReady else s3
    s4.endTask .adopt status []

/-- The adoption is done. -/
def State.endAdopt (s : State) : State :=
  let s1 := ((s.resetTiles (s.tiles.keys.filter (fun t => !(s.tile t).vacant))).setJob 0).wr F.RTE_FLEET_STATUS.adopt_step 0 0 0
  ({ s1 with adopt := none } : State).endTask .adopt 0 []

/-- ADOPT_PORTS_DRAINED: once no port is UP every port that is not DARK is commanded DARK (step 2, within 1 ms); once every port
is DARK the spare takes the place's EID and trains its ports (steps 3 and 4). -/
def State.portsDrained (s : State) : State :=
  match s.adopt with
  | none => s
  | some a =>
    if a.role ≠ 0 ∨ a.step ≠ 2 then s
    else if allPorts.all (fun n => (s.port n).st == .dark) then
      let s1 := ((s.wr F.RTE_SELF.eid 0 0 a.eid).wr F.RTE_SELF.eid_valid 0 0 1).discoverAll.adoptStep 4
      allPorts.foldl (fun (s : State) n => if a.lat.getD n 0 = 0 then s else s.trainAt n (a.lat.getD n 0)) s1
    else if allPorts.all (fun n => (s.port n).st != .up) then
      allPorts.foldl (fun (s : State) n => if (s.port n).st = .dark ∨ (s.port n).darkNotice then s else (s.portStatus n 2 0).portDark n) s
    else if a.cmd.taken + 2000000 ≤ s.cycle then s.failAdopt 7
    else s

def execAdoptPortsDrained (s : State) : Ans := .next s.portsDrained

/-- Port `n` is UP at a latency. -/
def State.upAt (s : State) (n l : Nat) : Bool := (s.port n).st == .up && s.rd F.FAB_PORT_PARALLAX.latency n 0 == l
def State.outOfRange (s : State) (n : Nat) : Bool := (s.port n).st == .down && s.rd F.FAB_PORT_STATE.down_reason n 0 == 4

/-- ADOPT_PORT_DEADLINE, 400,000 cycles before the start. -/
def State.portDeadline (s : State) : State :=
  match s.adopt with
  | none => s
  | some a =>
    if a.ready ∨ s.sidereal + 400000 < a.start then s
    else
      let ns := allPorts.filter (fun n => a.lat.getD n 0 != 0)
      let up := a.step == 4 && ns.all (fun n => s.upAt n (a.lat.getD n 0))
      let serial := s.rd F.FAB_PORT_NBR.serial a.port 0
      if a.role = 0 then
        if up ∧ (s.timeSt = 2 ∨ s.role = 1) then { s with adopt := some { a with ready := true } }
        else s.failAdopt (if ns.any s.outOfRange then 2 else 7)
      else
        let known := s.rd F.FAB_PORT_NBR_ID.fresh a.port 0 == 1
        if up ∧ known ∧ serial = a.partner then { s with adopt := some { a with ready := true } }
        else s.failAdopt (if s.outOfRange a.port ∨ ((s.port a.port).st = .up ∧ known ∧ serial ≠ a.partner) then 2 else 7)

def execAdoptPortDeadline (s : State) : Ans := .next s.portDeadline

/-- An attempt begins on the tiles of the home rows (R497). -/
def State.copyAttempt (a : Adopt) (s : State) : State :=
  let ts := (homeTiles a.port).filter (fun t => (s.tile t).st == .idle && !(s.tile t).vacant)
  let s1 : State := { s with adopt := some { a with copying := true, attempt := a.attempt + 1, lastAt := s.cycle, lines := 0, step := 5 } }
  let s2 := ((s1.setJob 0xFFE).wr F.RTE_ADOPT.attempt 0 0 (a.attempt + 1)).wr F.RTE_ADOPT.lines_k 0 0 0
  let s3 := s2.adoptStep 5
  ts.foldl (fun (s : State) t => s.onTile t fun c tl =>
    ((tl.loadProgram (Config.copyProgram a.role)).enterRunning { c with cycle := s.cycleOf a.next } 0xFFE (BitVec.ofNat 64 a.next), [])) s3

/-- ADOPT_COPY_START: the first attempt, at the start cycle. -/
def execAdoptCopyStart (s : State) : Ans :=
  .next (match s.adopt with
    | some a => if a.ready ∧ a.attempt = 0 ∧ a.next ≤ s.sidereal then s.copyAttempt a else s
    | none => s)

/-- ADOPT_COPY_RETRY: a further attempt, 2,000,000 cycles after a mismatched final packet. -/
def execAdoptCopyRetry (s : State) : Ans :=
  .next (match s.adopt with
    | some a => if a.ready ∧ 0 < a.attempt ∧ a.copying = false ∧ a.next ≤ s.sidereal then s.copyAttempt a else s
    | none => s)

/-- ADOPT_DIGEST_COMPARE: the partner's copy digest against the module's own. The spare records a mismatch; the third one ends
the adoption. -/
def State.digestCompare (theirs : Word) (s : State) : State :=
  match s.adopt with
  | none => s
  | some a =>
    if a.copying = false then s
    else
      let own := s.copyDigest (if a.role = 0 then a.dst else a.src) a.len
      let s1 := s.adoptStep 6
      if own = theirs then s1.endAdopt
      else
        let s2 := if a.role = 0 then s1.obsRec 0x55 0 0 0 own theirs (BitVec.ofNat 64 (1 + a.attempt * 2 ^ 8)) (BitVec.ofNat 64 a.partner) 0 0 0
          else s1
        if 3 ≤ a.attempt then s2.failAdopt 5
        else { s2 with adopt := some { a with copying := false, step := 6, next := s.sidereal + 2000000 } }

def execAdoptDigestCompare (theirs : Word) (s : State) : Ans := .next (s.digestCompare theirs)

/-- An uncorrectable calendar read of the mirror since the copy began: only the copy reads in that class (R497, R498). -/
def State.mirrorBad (s : State) (a : Adopt) : Bool :=
  (s.recsOut ++ s.log).any (fun r => r.kind == 0x20 && r.s1.toNat % 2 == 0 && decide (a.start ≤ r.time))

/-- The cycles that a copy of `len` bytes takes at a port's link data rate, 6,400 / 2^(5 − code) in units of 1/32 byte per cycle, less
packet overhead: 256 bytes of payload in 276, and of every 20,480 cycles one codeword of 640 bytes for maintenance (R497's example;
DEDUCED, log entry 84). -/
def copyTime (rate len : Nat) : Nat := (len * 69 + 2 * (6400 / 2 ^ (5 - rate) - 1) - 1) / (2 * (6400 / 2 ^ (5 - rate) - 1))

/-- ADOPT_PACKET_GAP: the losses of R498, and of the spare also the end of step 5's bound (Table 15-3). -/
def State.packetGap (s : State) : State :=
  match s.adopt with
  | none => s
  | some a =>
    let link := (s.port a.port).st != .up
    let lost := if a.role = 0 then
        0 < a.attempt && (link || s.rd F.FAB_PORT_NBR_ID.fresh a.port 0 == 0 || (a.copying && (decide (a.lastAt + 2000000 ≤ s.cycle) ||
          decide (a.next + copyTime (s.linkRate a.port) a.len + 2000000 ≤ s.sidereal))))
      else decide (a.start ≤ s.sidereal) && a.ready && (link || s.mirrorBad a ||
        (homeTiles a.port).any (fun t => (s.tile t).st == .fenced || (s.tile t).st == .offline))
    if lost then s.failAdopt 5 else s

def execAdoptPacketGap (s : State) : Ans := .next s.packetGap

/-! ### Bounds of commands (R388) -/

/-- COMMAND_TIMEOUT: the command of pair `k` has passed its bound. RESET and UNFENCE have rules of their own (R462, R472). -/
def State.timeout (k : Nat) (s : State) : State :=
  match s.prog.find? (fun p => p.cmd.k == k && (cmdInfo p.cmd.code).any (fun i => decide (p.cmd.taken + i.bound ≤ s.cycle))) with
  | none => s
  | some p => match p.task with
    | .fence _ _ => s.finish p 7 []
    | .conjunction => s.endConj 7
    | .adopt => s.failAdopt 7
    | _ => s

def execCommandTimeout (k : Nat) (s : State) : Ans := .next (s.timeout k)

/-! ### The place declaration (R503) -/

def execRtePlaceWrite (need : Bool) (v : Word) (s : State) : Ans := .next (s.writePlace need (.full v))

end Sys2Proof.Machine
end

