-- ==== Sys2Proof/Machine/ExecCmds.lean ====
section
/-! DEFINITION. The remaining host commands: GET_INFO, RELEASE, the configuration banks, firmware and test content, the log and
the almanac, SELF_TEST (R391, R409 to R412, R428, R442, R449, R454, R455). -/
namespace Sys2Proof.Machine

/-- REPLY_LOCK_RETRY. -/
def execReplyLockRetry (k : Nat) (s : State) : Ans := .next (s.replyRetry k)

/-! ### GET_INFO (R391) -/

/-- The reply's 48 bytes. For the bank NONE the spec gives no code, and without running firmware no digest: free values. -/
def State.info (s : State) : List Byte :=
  let rom := s.romRecovery
  let bank := if rom then 0xFF else if s.activeBank = 3 then (Config.freeWord s.fresh).toNat % 256 else s.activeBank
  let digest := if rom then leBytes 8 (Config.freeWord s.fresh).toNat ++ leBytes 8 (Config.freeWord (s.fresh + 1)).toNat
    else (s.fwDigest (s.rd F.SEC_BOOT_STATUS.slot 0 0)).take 16
  leBytes 8 (s.word .GLB_ID 0 0).toNat ++ leBytes 8 (s.word .RTE_SERIAL 0 0).toNat ++ leBytes 4 (s.rd F.SEC_BOOT_STATUS.fw_version 0 0) ++
    leBytes 1 bank ++ leBytes 3 0 ++ leBytes 8 (s.word .GLB_MODULE_STATE 0 0).toNat ++ digest

def State.getInfo (c : Cmd) (s : State) : State := ({ s with fresh := s.fresh + 2 } : State).reply c 0 s.info

def execGetInfo (k : Nat) (s : State) : Ans := .next (s.firmware k (fun c => c.code == 0x01) noPayload noFurther State.getInfo)

/-! ### RELEASE and CONFIG_SELECT (R409, R410) -/

def State.releaseHeld (c : Cmd) (s : State) : State :=
  if s.cfgStatus.bankReady then s.cfgStatus.enterReady.reply c 0 [] else s.reply c 2 []

def execRelease (k : Nat) (s : State) : Ans := .next (s.firmware k (fun c => c.code == 0x12) noPayload noFurther State.releaseHeld)

/-- The bank that CONFIG_SELECT's byte 0 names: 0 A, 1 B, 2 the valid one with the higher seq, A at equal ones; none where no bank
is valid. -/
def State.pickBank (s : State) (v : Nat) : Option Nat :=
  let ok (b : Nat) : Bool := s.bankFail b == 0
  if v < 2 then some v
  else if ok 0 && ok 1 then some (if s.bankSeq 0 < s.bankSeq 1 then 1 else 0)
  else if ok 0 then some 0 else if ok 1 then some 1 else none

/-- A CONFIG_WRITE of another pair that names the bank is in progress: its reply waits (R411). -/
def State.bankBusy (s : State) (c : Cmd) (b : Nat) : Bool :=
  s.replies.any (fun r => r.cmd.code == 0x21 && r.cmd.k != c.k && r.cmd.num 0 1 == b)

def selectArgs (c : Cmd) (_ : State) : Nat := if c.len = 16 ∧ c.num 0 1 ≤ 2 ∧ c.zero 1 15 then 0 else 2
def selectState (c : Cmd) (s : State) : Nat := if (s.pickBank (c.num 0 1)).any (s.bankBusy c) then 3 else 0

def State.select (c : Cmd) (s : State) : State :=
  match s.pickBank (c.num 0 1) with
  | some b => if s.bankFail b = 0 then ((s.writeBoot s.bootSlot b).cfgStatus).reply c 0 [] else s.reply c 2 []
  | none => s.reply c 2 []

def execConfigSelect (k : Nat) (s : State) : Ans := .next (s.firmware k (fun c => c.code == 0x20) selectArgs selectState State.select)

/-! ### Chunks written to flash (R411, R412, R442) -/

/-- Bytes 1 to 15 of a chunk's payload and its length; `size` is that of the region. -/
def chunkShape (c : Cmd) (size : Nat) : Bool :=
  let n := c.len - 16
  decide (32 ≤ c.len) && decide (c.len ≤ 4032) && n % 16 == 0 && decide (c.num 1 1 < 4) && c.zero 2 3 && c.zero 8 15 &&
    c.num 4 4 % 16 == 0 && decide (c.num 4 4 + n ≤ size)

def Cmd.first (c : Cmd) : Bool := c.num 1 1 % 2 == 1
def Cmd.last (c : Cmd) : Bool := c.num 1 1 / 2 % 2 == 1

/-- The chunk touches bytes of region `r` written since the last erase. -/
def State.chunkHits (s : State) (r : Nat) (c : Cmd) : Bool :=
  !c.first && (s.chunks.get r []).any (fun p => decide (p.1 < c.num 4 4 + (c.len - 16)) && decide (c.num 4 4 < p.1 + p.2))

/-- Write the chunk into region `r` at `base`, after an erase of `size` bytes if it is the first. -/
def State.writeChunk (r base size : Nat) (c : Cmd) (s : State) : State :=
  let o := c.num 4 4
  let n := c.len - 16
  let s1 : State := if c.first then { s with flash := s.flash.filter (fun e => decide (e.1 < base) || decide (base + size ≤ e.1)), chunks := s.chunks.set r [] }
    else s
  { s1 with flash := Mem.putBytes 0xFF s1.flash (base + o) ((c.args.drop 16).take n), chunks := s1.chunks.set r ((o, n) :: s1.chunks.get r []) }

def configArgs (c : Cmd) (s : State) : Nat :=
  if chunkShape c 0x100000 ∧ c.num 0 1 ≤ 1 ∧ c.num 0 1 ≠ s.activeBank ∧ s.chunkHits (c.num 0 1) c = false then 0 else 2
def configState (c : Cmd) (s : State) : Nat := if s.bankBusy c (c.num 0 1) then 3 else 0

def State.configWrite (c : Cmd) (s : State) : State :=
  let b := c.num 0 1
  let s1 := (s.writeChunk b (bankBase b) 0x100000 c).cfgStatus
  s1.reply c (if c.last ∧ s1.bankFail b ≠ 0 then 2 else 0) []

def execConfigWrite (k : Nat) (s : State) : Ans :=
  .next (s.firmware k (fun c => c.code == 0x21) configArgs configState State.configWrite)

/-- The firmware slot that FW_UPDATE writes. -/
def State.updateSlot (s : State) : Nat := if s.romRecovery then s.bootSlot else 1 - s.rd F.SEC_BOOT_STATUS.slot 0 0

def updateArgs (c : Cmd) (s : State) : Nat :=
  if chunkShape c 0x1000000 ∧ c.num 0 1 = 0 ∧ s.chunkHits (2 + s.updateSlot) c = false then 0 else 2

def State.fwUpdate (c : Cmd) (s : State) : State :=
  let k := s.updateSlot
  let s1 := s.writeChunk (2 + k) (fwBase k) 0x1000000 c
  if c.last = false then s1.reply c 0 []
  else
    let ok := s1.fwFail k == 0
    let s2 := s1.wr (if k = 0 then F.SEC_BOOT_STATUS.slot0_valid else F.SEC_BOOT_STATUS.slot1_valid) 0 0 ok.toNat
    if ok = false then s2.reply c 2 []
    else
      let s3 := (s2.writeBoot k s2.activeBank).reply c 0 []
      if s.romRecovery then s3.bootFrom k (1 - k) false [] [] else s3

def execFwUpdateWrite (k : Nat) (s : State) : Ans :=
  .next (s.firmware k (fun c => c.code == 0x22 && c.num 0 1 != 1) updateArgs noFurther State.fwUpdate)

/-- RAISE_FLOOR is legal in READY only. -/
def floorState (_ : Cmd) (s : State) : Nat := if s.st = .ready then 0 else 1

def State.raiseFloor (c : Cmd) (s : State) : State :=
  let svn := s.rd F.SEC_BOOT_STATUS.svn 0 0
  (if s.rd F.SEC_FUSE.svn_floor 0 0 < svn then s.wr F.SEC_FUSE.svn_floor 0 0 svn else s).reply c 0 []

def floorArgs (c : Cmd) (_ : State) : Nat := if 1 ≤ c.len then 0 else 2

def execFwUpdateRaiseFloor (k : Nat) (s : State) : Ans :=
  .next (s.firmware k (fun c => c.code == 0x22 && c.num 0 1 == 1) floorArgs floorState State.raiseFloor)

/-- The test content slot that TEST_CONTENT writes: the one not in use (with none in use, slot 1: DESIGN CHOICE, log entry 51). -/
def State.contentSlot (s : State) : Nat := 1 - s.rd F.ERR_CONTENT.slot 0 0

def contentArgs (c : Cmd) (s : State) : Nat :=
  if chunkShape c 0x2000000 ∧ c.num 0 1 = 0 ∧ s.chunkHits (4 + s.contentSlot) c = false then 0 else 2

def State.testContent (c : Cmd) (s : State) : State :=
  let k := s.contentSlot
  let mark (ok : Bool) (s : State) : State := s.wr (if k = 0 then F.ERR_CONTENT.slot0_valid else F.ERR_CONTENT.slot1_valid) 0 0 ok.toNat
  let s1 := s.writeChunk (4 + k) (contentBase k) 0x2000000 c
  if c.last = false then (if c.first then mark false s1 else s1).reply c 0 []
  else
    let why := s1.contentFail k
    let s2 := mark (why == 0) s1
    if why = 0 then s2.reply c 0 []
    else
      ((s2.flag F.ERR_STATUS.again_count F.ERR_STATUS.content_invalid 0 0 1).obsRec 0x54 11 0 0 (BitVec.ofNat 64 k) (BitVec.ofNat 64 why) 0 0 0 0
        2).reply c 2 []

def execTestContent (k : Nat) (s : State) : Ans :=
  .next (s.firmware k (fun c => c.code == 0x41) contentArgs noFurther State.testContent)

/-! ### LOG_READ and fault signatures (R428, R455) -/

/-- The head of a CBOR item: its major type and argument, in the shortest form. -/
def cborHead (major n : Nat) : List Byte :=
  if n < 24 then leBytes 1 (major * 32 + n)
  else if n < 2 ^ 8 then leBytes 1 (major * 32 + 24) ++ beBytes 1 n
  else if n < 2 ^ 16 then leBytes 1 (major * 32 + 25) ++ beBytes 2 n
  else if n < 2 ^ 32 then leBytes 1 (major * 32 + 26) ++ beBytes 4 n
  else leBytes 1 (major * 32 + 27) ++ beBytes 8 n

def cborUint (n : Nat) : List Byte := cborHead 0 n
def cborInt (i : Int) : List Byte := if 0 ≤ i then cborHead 0 i.toNat else cborHead 1 (-1 - i).toNat
/-- A map of integer keys, in the order given. -/
def cborMap (l : List (Nat × List Byte)) : List Byte := cborHead 5 l.length ++ l.flatMap (fun p => cborUint p.1 ++ p.2)

/-- What the device did for a record: 0 none, 1 column repaired, 2 region held, 3 tile fenced, 4 tile retired, 5 module fenced
(Table 13-4; which record stands for which action is DEDUCED, log entry 52). -/
def Rec.action (r : Rec) : Nat :=
  match r.kind with
  | 0x53 => 1
  | 0x51 => if r.rept = 2 then 2 else 0
  | 0x50 => if r.rept = 2 then 3 else 0
  | 0x52 => if r.rept = 2 ∧ r.unitType ≠ 9 then 3 else 0
  | 0x13 => 4
  | 0x61 => if r.s0.toNat % 16 = 6 then 5 else if r.s0.toNat % 16 = 1 then 3 else 0
  | 0x02 => 3
  | _ => if r.flags / 2 % 2 = 1 then 5 else 0

/-- The fault signature of a record (R455). A REPAIR record holds no word address: a free value. -/
def State.signature (s : State) (r : Rec) : List Byte :=
  let pos := r.x ≠ 0xFF
  let unit := cborMap ([(0, cborUint r.die), (1, cborUint r.unitType), (2, cborUint r.unitIndex)] ++
    (if pos then [(3, cborUint r.x), (4, cborUint r.y)] else []))
  let syn := leBytes 8 r.s0.toNat ++ leBytes 8 r.s1.toNat ++ leBytes 8 r.s2.toNat ++ leBytes 8 r.s3.toNat
  let w := (if r.kind = 0x51 then r.s1 else r.s0).toNat
  let addr := if r.kind = 0x51 then r.s0.toNat else (Config.freeWord (2 ^ 64 + r.seq)).toNat % 2 ^ 21
  let scratch := cborMap [(0, cborUint addr), (1, cborUint (bits w 0 5)), (2, cborUint (bits w 12 2)), (3, cborUint (bits w 8 4)),
    (4, cborUint (bits w 16 7))]
  let m := r.s0.toNat % 2 ^ 27
  let memory := cborMap [(0, cborUint r.unitIndex), (1, cborUint m), (2, cborUint (lpddrBank m / 16)), (3, cborUint (lpddrBank m % 16))]
  cborMap ([(0, cborUint 1), (1, cborUint (s.rd F.RTE_SERIAL.serial 0 0)), (2, cborUint r.seq), (3, cborUint r.time), (4, cborUint r.kind),
      (5, unit), (6, cborUint r.op), (7, cborInt (sgn16 r.temp)), (8, cborUint r.mv), (9, cborHead 2 32 ++ syn), (10, cborUint r.rept),
      (11, cborUint r.count)] ++
    (if r.job = 0 then [] else [(12, cborUint r.job)]) ++
    [(13, cborUint (s.rd F.SEC_BOOT_STATUS.fw_version 0 0)), (14, cborUint (s.rd F.ERR_CONTENT.version 0 0)), (15, cborUint s.powerHours)] ++
    (if r.kind = 0x51 ∨ r.kind = 0x53 then [(16, scratch)] else []) ++ (if r.kind = 0x20 then [(17, memory)] else []) ++
    [(18, cborUint r.action)])

/-- The longest start of a list of items that fits with the head of its array. -/
def fitting (room : Nat) : List (List Byte) → List (List Byte)
  | [] => []
  | x :: r => if x.length ≤ room then x :: fitting (room - x.length) r else []

def logArgs (c : Cmd) (_ : State) : Nat := if c.len = 16 ∧ 1 ≤ c.num 4 1 ∧ c.num 4 1 ≤ 62 ∧ c.num 5 1 ≤ 1 ∧ c.zero 6 15 then 0 else 2

/-- The head of a reply of records or entries: the first number, the total, the count. -/
def listHead (first next count : Nat) : List Byte := leBytes 4 first ++ leBytes 4 next ++ leBytes 1 count ++ leBytes 7 0

def State.logRead (c : Cmd) (s : State) : State :=
  let rs := (s.log.filter (fun r => decide (c.num 0 4 ≤ r.seq))).take (c.num 4 1)
  let first := match rs with | r :: _ => r.seq | [] => c.num 0 4
  let next := s.rd F.OBS_LOG_HEAD.next 0 0
  if c.num 5 1 = 0 then s.reply c 0 (listHead first next rs.length ++ rs.flatMap Rec.bytes)
  else
    -- the array's head takes one byte below 24 items and two from there on
    let few := fitting 4015 (rs.map s.signature)
    let items := if few.length < 24 then few else fitting 4014 (rs.map s.signature)
    s.reply c 0 (listHead first next items.length ++ cborHead 4 items.length ++ items.flatten)

def execLogRead (k : Nat) (s : State) : Ans := .next (s.firmware k (fun c => c.code == 0x50) logArgs noFurther State.logRead)

/-! ### ALMANAC_READ (R450, R454) -/

/-- An entry's 64 bytes. -/
def Alm.bytes (a : Alm) : List Byte :=
  let l := leBytes 1 a.typ ++ leBytes 1 a.cls ++ leBytes 2 a.count ++ leBytes 4 a.hours ++ padTo 8 (a.unit.flatMap (leBytes 1)) ++
    leBytes 1 a.kind ++ leBytes 7 0 ++ leBytes 8 a.s0.toNat ++ leBytes 8 a.s1.toNat ++ leBytes 8 a.s2.toNat ++ leBytes 8 a.s3.toNat
  l ++ leBytes 8 (crc64 0 l).toNat

def almArgs (c : Cmd) (_ : State) : Nat := if c.len = 16 ∧ 1 ≤ c.num 4 1 ∧ c.num 4 1 ≤ 62 ∧ c.zero 5 15 then 0 else 2

def State.almRead (c : Cmd) (s : State) : State :=
  let es := (s.almanac.drop (c.num 0 4)).take (c.num 4 1)
  s.reply c 0 (listHead (c.num 0 4) s.almanac.length es.length ++ es.flatMap Alm.bytes)

def execAlmanacRead (k : Nat) (s : State) : Ans := .next (s.firmware k (fun c => c.code == 0x51) almArgs noFurther State.almRead)

end Sys2Proof.Machine
end

