-- ==== Sys2Proof/Machine/ExecSelf.lean ====
section
/-! DEFINITION. Self-test and the log (chapter 13): SELF_TEST, the arrival and writing of error records, runtime checksum
failures, the almanac, transits, the background scratchpad test, and the ERR configuration. -/
namespace Sys2Proof.Machine

/-! ### The record queue and the log (R424 to R427) -/

/-- Two records come from one unit. -/
def Rec.sameUnit (a b : Rec) : Bool := a.unit == b.unit

/-- The order of records that reach the queue in the same Observatory cycle: die, then tile index, then unit_type (R425). -/
def Rec.before (a b : Rec) : Bool :=
  let x := a.y * 48 + a.x
  let y := b.y * 48 + b.x
  decide (a.die < b.die) || (a.die == b.die && (decide (x < y) || (x == y && decide (a.unitType < b.unitType))))

/-- A record put in its place among those of its Observatory cycle, after those that it does not come before. -/
def Rec.insert (r : Rec) : List Rec → List Rec
  | [] => [r]
  | e :: l => if r.before e then r :: e :: l else e :: r.insert l

/-- ERROR_RECORD_ARRIVAL: record `n` of those on their way reaches the queue, not before an earlier one of its unit; a full queue
drops it (R425). -/
def State.recordArrives (n : Nat) (s : State) : State :=
  match s.recs[n]? with
  | none => s
  | some r =>
    if (s.recs.take n).any (Rec.sameUnit r) then s
    else
      let s1 : State := { s with recs := s.recs.eraseIdx n }
      if 512 ≤ s.logQ.length then (s1.addSat F.OBS_LOG_HEAD.dropped 0 0 1).flag F.ERR_STATUS.again_count F.ERR_STATUS.log_dropped 0 0 1
      else
        let n := if s1.logNew.1 = s1.cycle / 4 then min s1.logNew.2 s1.logQ.length else 0
        let old := s1.logQ.length - n
        { s1 with logQ := s1.logQ.take old ++ r.insert (s1.logQ.drop old), logNew := (s1.cycle / 4, n + 1) }

def execErrorRecordArrival (n : Nat) (s : State) : Ans := .next (s.recordArrives n)

/-- A new record matches an earlier one of the log (R427). -/
def Rec.matches (r e : Rec) : Bool :=
  r.rept == 0 && e.rept == 0 && r.kind == e.kind && r.unit == e.unit && r.s0 == e.s0 && r.s1 == e.s1 && r.s2 == e.s2 && r.s3 == e.s3 &&
    decide (r.time ≤ e.time + 2000000) && decide (e.time ≤ r.time + 2000000)

/-- LOG_WRITE: the oldest queued record is merged into a matching one of the last 64, or written with the next seq; a record
with a repeat class also gives an almanac entry (R426, R427, R451). -/
def State.logWrite (s : State) : State :=
  match s.logQ with
  | [] => s
  | r :: rest =>
    let s1 : State := { s with logQ := rest }
    match (s.log.reverse.take 64).find? (Rec.matches r) with
    | some e => { s1 with log := s1.log.map (fun x => if x = e then { x with count := min (x.count + 1) 0xFFFF } else x) }
    | none =>
      let seq := s.rd F.OBS_LOG_HEAD.next 0 0
      let alm := r.rept != 0
      let w : Rec := { r with seq := seq, flags := if alm ∧ r.flags / 4 % 2 = 0 then r.flags + 4 else r.flags }
      let kept := if 8192 ≤ s.log.length then s.log.drop 1 else s.log
      let s2 := (({ s1 with log := kept ++ [w] } : State).addWrap F.OBS_LOG_HEAD.next 0 0 1).irq 1
      if alm then s2.almWait (s2.almOf 1 w) else s2

def execLogWrite (s : State) : Ans := .next s.logWrite

/-! ### The almanac (R450 to R452) -/

/-- Entries that one half holds. -/
def almCap : Nat := 3145728

/-- FAULT entries of class transient of one unit and kind within an hour are merged (R451). -/
def Alm.merges (a e : Alm) : Bool :=
  a.typ == 1 && e.typ == 1 && a.cls == 1 && e.cls == 1 && a.unit == e.unit && a.kind == e.kind && decide (a.hours ≤ e.hours + 1)

/-- Drop FAULT entries, oldest first, until at most `room` entries are left. -/
def dropFaults : Nat → List Alm → List Alm
  | 0, l => l
  | _, [] => []
  | n + 1, a :: r => if a.typ = 1 then dropFaults n r else a :: dropFaults (n + 1) r

/-- The copy to the other half (R452). -/
def State.almCopy (s : State) : State :=
  let keep := s.almanac.filter (fun a => a.typ != 1 || decide (s.powerHours ≤ a.hours + 720))
  let fits := dropFaults (keep.length - almCap) keep
  let s1 : State := { s with almHalf := 1 - s.almHalf, almanac := fits }
  if almCap < keep.length then s1.flag F.ERR_STATUS.again_count F.ERR_STATUS.almanac_full 0 0 1 else s1

/-- ALMANAC_APPEND: firmware writes the oldest waiting entry. -/
def State.almAppend (s : State) : State :=
  match s.almQ with
  | [] => s
  | a :: rest =>
    let s1 : State := { s with almQ := rest }
    match s.almanac.reverse.find? (Alm.merges a) with
    | some e => { s1 with almanac := s1.almanac.map (fun x => if x = e then { x with count := min (x.count + a.count) 0xFFFF } else x) }
    | none =>
      let s2 := if almCap ≤ s1.almanac.length then s1.almCopy else s1
      { s2 with almanac := s2.almanac ++ [a] }

def execAlmanacAppend (s : State) : Ans := .next s.almAppend

/-! ### Transits (R435 to R440) -/

/-- Tokens that a lattice holds in any place, MX's banks and readouts among them (log entry 25). -/
def Tile.tokens (tl : Tile) : Nat := (List.range 16).foldl (fun n u => n + tl.unitTokens u) 0

/-- Cycle 0 of Table 13-3, with the loading of the kernels: `junk` is what the transit region holds until it is restored. A tile that
comes from IDLE begins its wait here. -/
def Tile.enterTransit (c : Ctx) (urgent : Bool) (junk : List Byte) (tl : Tile) : Tile × List Out :=
  let t0 := tl.cpCut c
  let t1 := if tl.st = .idle then
      { t0.leaveIdle with seq := { t0.seq with since := c.sidereal, sinceCycle := c.cycle } }
    else t0
  let t2 := t1.phaseDiscard c t1.tokens
  let x : TransitSt := { from_ := tl.st, began := c.cycle, saved := tl.bytes 0x58000 0x8000, cfg := tl.lat.cfg, cls := 0, urgent := urgent }
  ({ (t2.storeBytes 0x58000 junk) with st := .transit, transit := some x, lat := { t2.lat with
    units := Tab.empty.set 3 { LUnit.reset with cpSending := (t2.unit 3).cpSending } } }, [])

/-- The region and the lattice are restored, and the lattice starts as after a commit (R151, R439). A load in its drain goes on
draining. -/
def Tile.transitRestore (c : Ctx) (x : TransitSt) (tl : Tile) : Tile :=
  let r := ({ (tl.storeBytes 0x58000 x.saved) with transit := none } : Tile).commit c x.cfg (x.began + 200000) false
  match r.lat.load with
  | some ld => if ld.st = .draining then
      { r with lat := { r.lat with stopped := true, units := r.lat.units.mapVals (fun _ u => { u with sqLoop := none }) } }
    else r
  | none => r

/-- Cycle 200,000: the tile returns, or enters FENCED after a permanent failure (R107, R438). -/
def Tile.leaveTransit (c : Ctx) (x : TransitSt) (tl : Tile) : Tile × List Out :=
  let t1 := (tl.transitRestore c x).endIdleTransit c x
  if x.cls = 3 then ((t1.setStop 5 0 (tl.seq.pc.toNat % 2 ^ 21)).toFenced c, [])
  else if x.from_ = .running then
    let t2 : Tile := { t1 with st := .running }
    (match t2.seq.blk with
      | some b => t2.complete c b.rd 0
      | none => t2, [])
  else ({ t1 with st := .idle }, [])

/-- A region test that is neither ended nor held is abandoned and the region restored (R437, R446). -/
def State.abandonTest (t : Nat) (s : State) : State :=
  match s.bg.find t with
  | some b => if b.held then s else ({ s with bg := s.bg.filter (fun u _ => u != t) } : State).addSat F.ERR_BG_STATE.abandoned 0 0 1
  | none => s

/-- A transit of tile `t` starts, with the content in use from now on (R435, R437, R442). -/
def State.startTransit (t : Nat) (s : State) : State :=
  let urgent := s.urgent.contains t
  let s1 := (s.useValid.abandonTest t)
  let junk := freeBytes s1.fresh 4096
  let s2 := ({ s1 with fresh := s1.fresh + 4096 } : State).onTile t fun c tl => tl.enterTransit c urgent junk
  { s2 with
    windows := s2.windows.filter (· != t)
    due := s2.due.filter (· != t)
    urgent := s2.urgent.filter (· != t)
    saves := s2.saves ++ [t] }

/-- A waiting tile can be served now: it is RUNNING, or IDLE while no start, conjunction or adoption needs it (R435, R436); while a
conjunction runs no window opens (R491). -/
def State.servable (s : State) (t : Nat) : Bool :=
  !s.windows.contains t && !s.saves.contains t &&
    (((s.tile t).st == .running && !(s.conj.any (·.running))) || ((s.tile t).st == .idle && !s.startPending && s.conj.isNone && s.adopt.isNone))

/-- Free save slots go to urgent tiles first, then to those due, in order (R429, R435). -/
def State.serveDue : Nat → State → State
  | 0, s => s
  | n + 1, s =>
    if s.rd F.ERR_TRANSIT_CFG.max_open 0 0 ≤ s.windows.length + s.saves.length then s
    else match (s.urgent ++ s.due).find? s.servable with
      | none => s
      | some t =>
        if (s.tile t).st = .running then
          State.serveDue n { s with windows := s.windows ++ [t], due := s.due.filter (· != t) }
        else State.serveDue n (s.startTransit t)

/-- The last due time of a tile up to now: times are staggered by tile index over the period. -/
def State.lastDue (s : State) (t : Nat) : Option Nat :=
  let off := t * s.transitPeriod / 2304
  if s.cycle < off ∨ s.transitPeriod = 0 then none else some (s.cycle - (s.cycle - off) % s.transitPeriod)

/-- TRANSIT_DUE. -/
def State.transitDue (t : Nat) (s : State) : State :=
  if 2304 ≤ t ∨ (s.tile t).vacant ∨ s.rd F.ERR_CTRL.transit_en 0 0 = 0 ∨ s.st = .dark then s
  else match s.lastDue t with
    | none => s
    | some d =>
      if s.due.contains t ∨ s.windows.contains t ∨ (s.dueAt.find t).any (fun a => decide (d ≤ a)) then s.serveDue 16
      else ({ s with due := s.due ++ [t], dueAt := s.dueAt.set t d } : State).serveDue 16

def execTransitDue (t : Nat) (s : State) : Ans := .next (s.transitDue t)

/-- TRANSIT_ENTER: the first cycle after a TRNS with every slot at rest and every fused slot idle (R195, R437). -/
def State.transitEnter (t : Nat) (s : State) : State :=
  let tl := s.tile t
  let waits : Bool := match tl.seq.blk with
    | some b => b.wait == .transit && decide (tl.seq.sinceCycle < s.cycle)
    | none => false
  if t < 2304 ∧ tl.st = .running ∧ waits ∧ s.windows.contains t ∧ tl.slotsAll (fun x => x.st.atRest) ∧ tl.fusedAll (fun x => !x.busy) then
    s.startTransit t
  else s

def execTransitEnter (t : Nat) (s : State) : Ans := .next (s.transitEnter t)

/-- The unit that a kernel tests; an urgent transit runs the MX kernels (R430). -/
def State.kernelOf (s : State) (urgent : Bool) (k : Nat) : Nat × Nat :=
  let w := (Config.kernelUnit (s.rd F.ERR_CONTENT.version 0 0) k).toNat
  if urgent then (2, 5) else (bits w 0 8, bits w 8 8)

/-- The KAT_FAIL record (Table 13-2): `runs` tells which of runs 1 to 3 failed. -/
def State.katFail (t : Nat) (urgent : Bool) (kernel : Nat) (expected got : Word) (runs : List Bool) (s : State) : State :=
  let u := s.kernelOf urgent kernel
  let perm := (runs.drop 1).any id
  (s.flag F.ERR_STATUS.again_count F.ERR_STATUS.kat_fail 0 0 1).tileRec t 0x50 u.1 u.2 0 (BitVec.ofNat 64 kernel) expected got
    (BitVec.ofNat 64 (bitSum 3 (fun k => runs.getD k false))) (if perm then 2 else 1) 0 0

/-- The seq of the newest CHECKSUM record of a tile; where it was dropped or is not yet written, a free value. -/
def State.checksumSeq (s : State) (t : Nat) : Nat :=
  match s.log.reverse.find? (fun r => r.kind == 0x03 && r.x == t % 48 && r.y == t / 48) with
  | some r => r.seq
  | none => (Config.freeWord s.fresh).toNat % 2 ^ 32

/-- TRANSIT_CLASSIFY (R430, R438): one failing kernel with the results of its three runs (true: it failed), or none failing. An
urgent transit also classifies the checksum failure. -/
def State.transitClassify (t kernel : Nat) (expected got : Word) (runs : List Bool) (s : State) : State :=
  match (s.tile t).transit with
  | none => s
  | some x =>
    if 2304 ≤ t ∨ (s.tile t).st ≠ .transit ∨ s.cycle < x.began + 128193 ∨ runs.length ≠ 3 then s
    else
      let fail := runs.getD 0 false
      let perm := fail && ((runs.drop 1).any id || x.urgent)
      let cls := max x.cls (if perm then 3 else if fail then 2 else 1)
      let s1 := if fail then s.katFail t x.urgent kernel expected got runs else s
      let s2 := if x.urgent ∧ x.cls = 0 then
          ({ s1 with fresh := s1.fresh + 1 } : State).tileRec t 0x52 2 5 0 (BitVec.ofNat 64 (s1.checksumSeq t)) 0 0 0 (if fail then 2 else 1) 0 0
        else s1
      (s2.setTile t { (s2.tile t) with transit := some { x with cls := cls } }).wr F.ERR_TILE_TEST.last 0 t cls

def execTransitClassify (t kernel : Nat) (expected got : Word) (runs : List Bool) (s : State) : Ans :=
  .next (s.transitClassify t kernel expected got runs)

/-- TRANSIT_END. -/
def State.transitEnd (t : Nat) (s : State) : State :=
  match (s.tile t).transit with
  | none => s
  | some x =>
    if 2304 ≤ t ∨ (s.tile t).st ≠ .transit ∨ s.cycle < x.began + 200000 ∨ x.cls = 0 then s
    else
      let s1 := s.onTile t fun c tl => tl.leaveTransit c x
      let s2 : State := { s1 with saves := s1.saves.filter (· != t) }
      let s3 := (s2.addWrap F.ERR_TRANSIT_STATE.completed 0 0 1).addWrap F.ERR_TILE_TEST.transits 0 t 1
      (s3.wr F.ERR_TILE_TEST.since_lo 0 t s.sidereal).serveDue 16

def execTransitEnd (t : Nat) (s : State) : Ans := .next (s.transitEnd t)

/-! ### Runtime checksum failures (R429) -/

/-- CHECKSUM_RESPONSE: checksum, an urgent window, and the fence that ERR_CTRL asks for. -/
def State.checksumResponse (t : Nat) (s : State) : State :=
  if s.chk.contains t = false then s
  else
    let s1 := ({ s with chk := s.chk.filter (· != t) } : State).flag F.ERR_STATUS.again_count F.ERR_STATUS.checksum 0 0 1
    let s2 : State := if s1.urgent.contains t ∨ s1.saves.contains t then s1 else { s1 with urgent := s1.urgent ++ [t] }
    let s3 := s2.serveDue 16
    if s3.rd F.ERR_CTRL.checksum_action 0 0 = 0 ∨ s3.rd F.RST_FENCE.module 0 0 = 1 ∨ s3.st = .dark then s3
    else
      let mark (r : Rec) : Rec := if r.kind = 0x03 ∧ r.x = t % 48 ∧ r.y = t / 48 ∧ r.flags / 2 % 2 = 0 then { r with flags := r.flags + 2 } else r
      (s3.mapRecs mark).eclipse 6

def execChecksumResponse (t : Nat) (s : State) : Ans := .next (s.checksumResponse t)

/-! ### Scratchpad faults (R430, R431, R443) -/

/-- Bit, bank with sub-bank, and column of a bit of a scratchpad word, as s1 of SCRATCH_FAIL. -/
def scratchWord (a bit : Nat) : Word :=
  BitVec.ofNat 64 (bit + (16 * (a / 0x60000) + a / 4 % 16) * 2 ^ 8 + (4 * bit + a / 64 % 4) * 2 ^ 16)

def State.scratchFail (t a bit : Nat) (expected got : Word) (rept : Nat) (s : State) : State :=
  s.tileRec t 0x51 4 (a / 0x60000) 0 (BitVec.ofNat 64 a) (scratchWord a bit) expected got rept 0 0

/-- A unit of the tile is classified permanent: the tile is fenced (R431). -/
def State.fenceTest (t : Nat) (s : State) : State :=
  s.onTile t fun c tl => match tl.st with
    | .idle => ((tl.leaveIdle.setStop 5 0 (tl.seq.pc.toNat % 2 ^ 21)).toFenced c, [])
    | .running => ((tl.setStop 5 0 (tl.seq.pc.toNat % 2 ^ 21)).toFenced c, [])
    | _ => (tl, [])

/-! ### The background test (R444 to R447) -/

/-- BG_REGION_START. -/
def State.bgStart (t : Nat) (s : State) : State :=
  let ok := decide (t < 2304) && !(s.tile t).vacant && ((s.tile t).st == .idle || (s.tile t).st == .running) &&
    s.rd F.ERR_CTRL.bg_enable 0 0 == 1 && (s.bg.find t).isNone &&
    (match s.bgAt.find t with | some a => decide (a + s.rd F.ERR_BG_CFG.interval 0 0 ≤ s.cycle) | none => true)
  if ok then
    let b : BgTest := { region := s.bgNext.get t 0, began := s.cycle, copied := 0, redirected := false, restored := none, held := false }
    { s with bg := s.bg.set t b, bgAt := s.bgAt.set t s.cycle }
  else s

def execBgRegionStart (t : Nat) (s : State) : Ans := .next (s.bgStart t)

/-- An atomic is pending on a region: a stream's write or a landing on its way to the bank. -/
def State.atomicPending (s : State) (t k : Nat) : Bool :=
  let hit (a n : Nat) : Bool := decide (a < 4096 * k + 4096) && decide (4096 * k < a + n)
  (s.tile t).bank.atoms.any (fun x => hit x.addr x.bytes.length) ||
    (List.range 8).any (fun i => ((s.tile t).slot i).writes.any (fun w => w.atomic != 0 && hit w.addr w.bytes.length)) ||
    s.landings.any (fun l => l.tile == t && hAtomic l.hdr != 0 && hit (64 * hLine l.hdr) 64)

/-- BG_REDIRECT: from the cycle after the 64 lines are copied. What the region reads as does not change. -/
def State.bgRedirect (t : Nat) (s : State) : State :=
  match s.bg.find t with
  | some b =>
    if b.redirected ∨ b.copied ≠ 64 ∨ s.atomicPending t b.region then s
    else { s with bg := s.bg.set t { b with redirected := true } }
  | none => s

def execBgRedirect (t : Nat) (s : State) : Ans := .next (s.bgRedirect t)

/-- The region is restored: the sweep goes on. -/
def State.bgDone (t : Nat) (b : BgTest) (s : State) : State :=
  let s1 : State := { s with bg := s.bg.filter (fun u _ => u != t), bgNext := s.bgNext.set t ((b.region + 1) % 384) }
  if b.region = 383 then { s1 with bgSweeps := s1.bgSweeps.set t (s1.bgSweeps.get t 0 + 1) } else s1

/-- The engine's access of the cycle that ends (R444, R445): in a cycle in which nobody else asks for the bank's port, it copies a line
into the shadow or, after the march, restores one. -/
def State.bgAdvance (s : State) (t : Nat) : State :=
  match s.bg.find t with
  | none => s
  | some b =>
    let tl := s.tile t
    let free (write : Bool) : Bool := (tl.grant? s.cycle (tl.bankOf (4096 * b.region)) write).isNone
    match b.restored with
    | some n =>
      if free true = false then s
      else if 63 ≤ n then s.bgDone t b
      else { s with bg := s.bg.set t { b with restored := some (n + 1) } }
    | none => if b.copied < 64 ∧ free false then { s with bg := s.bg.set t { b with copied := b.copied + 1 } } else s

/-- The march has ended and nothing keeps the region in the shadow: it is restored line by line (R445 step 4). -/
def State.bgRestore (t : Nat) (b : BgTest) (s : State) : State := { s with bg := s.bg.set t { b with restored := some 0 } }

/-- BG_MARCH_END: `bad` is a mismatch, as word address, bit, expected and read word; `runs` are its two repeats (true: failed). -/
def State.bgMarchEnd (t : Nat) (bad : Option (Nat × Nat × Word × Word)) (runs : List Bool) (s : State) : State :=
  match s.bg.find t with
  | none => s
  | some b =>
    if b.redirected = false ∨ b.restored.isSome ∨ b.held then s
    else match bad with
      | none => s.bgRestore t b
      | some (a, bit, e, g) =>
        if a / 4096 ≠ b.region ∨ a % 4 ≠ 0 ∨ 32 ≤ bit ∨ runs.length ≠ 2 then s
        else
          let s1 := s.flag F.ERR_STATUS.again_count F.ERR_STATUS.bg_fail 0 0 1
          if runs.any id = false then (s1.scratchFail t a bit e g 1).bgRestore t b
          else
            let r := (s1.scratchFail t a bit e g 2).softRepair t (scratchWord a bit)
            if r.2 then { r.1 with bg := r.1.bg.set t { b with held := true } }
            else (r.1.bgDone t b).fenceTest t

def execBgMarchEnd (t : Nat) (bad : Option (Nat × Nat × Word × Word)) (runs : List Bool) (s : State) : Ans :=
  .next (s.bgMarchEnd t bad runs)

/-- BG_REGION_ABANDON: the test has not finished within the interval; the next start retries the region. -/
def State.bgAbandon (t : Nat) (s : State) : State :=
  match s.bg.find t with
  | some b => if b.began + s.rd F.ERR_BG_CFG.interval 0 0 ≤ s.cycle then s.abandonTest t else s
  | none => s

def execBgRegionAbandon (t : Nat) (s : State) : Ans := .next (s.bgAbandon t)

/-! ### SELF_TEST (R448, R449) -/

def selfArgs (c : Cmd) (_ : State) : Nat :=
  let n := match c.num 1 1 with | 0 => 1 | 1 => 4 | 2 => 2304 | _ => 0
  if c.len = 16 ∧ c.num 0 1 < 4 ∧ c.num 2 2 < n ∧ c.zero 4 15 then 0 else 2

def selfState (_ : Cmd) (s : State) : Nat := if s.startPending then 3 else 0

/-- A fault that a test has found: tile, class (1, 2 a kernel, transient or permanent; 3, 4 a scratchpad bit likewise), and the
kernel or 32 times the word address plus the bit. The outcomes of the runs and the words are free values. -/
def State.found (p : Nat × Nat × Nat) (s : State) : State :=
  let (t, cls, x) := p
  let f := s.fresh
  let w (k : Nat) : Word := Config.freeWord (f + k)
  let s0 : State := { s with fresh := f + 3 }
  let runs := match cls with
    | 1 => [true, false, false]
    | _ => match (w 2).toNat % 3 with | 0 => [true, true, false] | 1 => [true, false, true] | _ => [true, true, true]
  let low (v : Word) : Word := BitVec.ofNat 64 (v.toNat % 2 ^ 32)
  if cls ≤ 2 then
    let s1 := s0.katFail t false x (w 0) (w 1) runs
    if cls = 2 then s1.fenceTest t else s1
  else
    let a := x / 32
    let bit := x % 32
    let s1 := (s0.flag F.ERR_STATUS.again_count F.ERR_STATUS.bist_fail 0 0 1).scratchFail t a bit (low (w 0)) (low (w 1)) (cls - 2)
    if cls = 3 then s1
    else
      let r := s1.softRepair t (scratchWord a bit)
      if r.2 then r.1 else r.1.fenceTest t

/-- The tiles of SELF_TEST's scope. -/
def selfScope (c : Cmd) : List Nat :=
  match c.num 1 1 with
  | 0 => allTiles
  | 1 => allTiles.filter (fun t => tileDie t == c.num 2 2)
  | _ => [c.num 2 2]

/-- A fault of the list belongs to the tests asked for, to a tile tested and to a word of the scratchpad. -/
def selfFound (c : Cmd) (tested : List Nat) (p : Nat × Nat × Nat) : Bool :=
  tested.contains p.1 &&
    ((bits (c.num 0 1) 1 1 == 1 && (p.2.1 == 1 || p.2.1 == 2)) ||
     (bits (c.num 0 1) 0 1 == 1 && (p.2.1 == 3 || p.2.1 == 4) && p.2.2 / 32 % 4 == 0 && decide (p.2.2 / 32 < 0x180000)))

def State.selfTest (found : List (Nat × Nat × Nat)) (c : Cmd) (s : State) : State :=
  let scope := selfScope c
  let tested := scope.filter (fun t => (s.tile t).st == .idle && !(s.tile t).vacant)
  let fs := found.filter (selfFound c tested)
  let s0 := match fs.find? (fun p => p.2.1 == 4) with
    | some (t, _, x) =>
      ((s.wr F.ERR_BIST_LAST.tile 0 0 t).wr F.ERR_BIST_LAST.bit 0 0 (x % 32)).wr F.ERR_BIST_LAST.address 0 0 (x / 32)
    | none => s
  let s1 := fs.foldl (fun (s : State) p => s.found p) s0
  let repaired := tested.filter (fun t => s1.newRepairs.any (fun r => r.1 == t) && fs.any (fun p => p.1 == t && p.2.1 == 4))
  let s2 := repaired.foldl (fun (s : State) t => (s.offlineTile t).releaseTile t) s1
  let count (p : Nat → Bool) : List Byte := leBytes 2 (tested.filter p).length
  let has (t : Nat) (cls : List Nat) : Bool := fs.any (fun q => q.1 == t && cls.contains q.2.1)
  s2.reply c 0 (leBytes 2 tested.length ++ count (fun t => !has t [1, 2, 3, 4]) ++ count (fun t => has t [1, 3]) ++
    count (fun t => has t [2, 4]) ++ leBytes 2 (scope.length - tested.length) ++ leBytes 2 repaired.length ++ leBytes 4 0)

def execSelfTest (k : Nat) (found : List (Nat × Nat × Nat)) (s : State) : Ans :=
  .next (s.firmware k (fun c => c.code == 0x40) selfArgs selfState (State.selfTest found))

/-! ### ERR registers (R456) -/

/-- ERR_CONFIG_WRITE: 0 ERR_CTRL, 1 ERR_TRANSIT_CFG, 2 ERR_BG_CFG. -/
def execErrConfigWrite (which : Nat) (v : Word) (s : State) : Ans :=
  .next (match which with
    | 0 => s.writeErr .ERR_CTRL (.full v)
    | 1 => s.writeErr .ERR_TRANSIT_CFG (.full v)
    | 2 => s.writeErr .ERR_BG_CFG (.full v)
    | _ => s)

end Sys2Proof.Machine
end

