-- ==== Sys2Proof/Machine/ExecSec.lean ====
section
/-! DEFINITION. The boot sequence as a command (R399), the identity key and its answers over SPDM (R413 to R419), and the scan
path (R420, R421). -/
namespace Sys2Proof.Machine

/-! ### The boot sequence (R399, R522, R523) -/

/-- Step 1 may begin: the rails are good, PERST_N is high and nothing holds the module dark. -/
def State.mayBoot (s : State) : Bool :=
  s.st == .dark && s.bootReady && s.pwr.pwrEn && s.pwr.inputOk && s.pwr.senseAt.any (fun a => decide (a ≤ s.cycle)) && s.pwr.railsOn &&
    s.pwr.perstN && !s.pwr.latched && !s.pwr.dead && s.resets.isEmpty

/-- Step 1: SLOT_ID is sampled, REFCLK_100 and the root PLL are good. -/
def State.bootFirst (s : State) : State :=
  (((({ s with bootReady := false } : State).stage 1).wr F.PWR_SLOT.slot_id 0 0 s.pwr.slotPins).wr F.PWR_CLK.refclk_ok 0 0 1).wr F.PWR_CLK.root_lock 0 0 1

/-- BOOT_SEQUENCE: `fail` names a step that fails for a cause outside the model (1 or 3) or an index region that cannot be read (10,
R414); `badTiles` fail BIST, `badChans` are channels with the step of training that fails. -/
def State.bootAll (fail : Nat) (badTiles : List Nat) (badChans : List (Nat × Nat)) (s : State) : State :=
  if s.mayBoot = false then s
  else
    let s1 := s.bootFirst
    if fail = 1 then { s1 with pwr := { s1.pwr with faultN := false } }
    else (s1.bootKey (fail == 10)).bootFrom s1.bootSlot (1 - s1.bootSlot) (fail == 3) (badTiles.filter (· < 2304)) (badChans.filter (fun p => p.1 < 96 ∧ p.2 < 8))

def execBootSequence (fail : Nat) (badTiles : List Nat) (badChans : List (Nat × Nat)) (s : State) : Ans :=
  .next (s.bootAll fail badTiles badChans)

/-! ### Signature indices (R413 to R416) -/

/-- Reserve the block of the next index, if it is not reserved: one byte in each copy of the region (R414). -/
def State.reserve (s : State) : State :=
  let n := s.rd F.SEC_KEY_INDEX.next 0 0
  let k := n / 64
  if n % 64 ≠ 0 then s
  else ({ s with flash := Mem.putNum 0xFF (Mem.putNum 0xFF s.flash (0x10000 + k) 1 0) (0x14000 + k) 1 0 } : State).wr
    F.SEC_KEY_INDEX.reserved_end 0 0 ((n + 64) % 2 ^ 20)

/-- The next index is used. -/
def State.useIndex (s : State) : State :=
  let n := s.rd F.SEC_KEY_INDEX.next 0 0 + 1
  let s1 := s.reserve.wr F.SEC_KEY_INDEX.next 0 0 n
  let s2 := if n = 943719 then s1.keyWarn else s1
  if n = 1047552 then s2.exhaust else s2

/-- Sign `msg` for a request with `nonce`: the index and the signature, or the error of R416 and R419. -/
def State.sign (nonce msg : List Byte) (s : State) : State × (Spdm ⊕ Nat × List Byte) :=
  let n := s.rd F.SEC_KEY_INDEX.next 0 0
  if s.tainted then (s, .inl (.error 8 []))
  else if s.rd F.SEC_KEY_STATUS.exhausted 0 0 = 0 then
    let s1 : State := { s with sec := { s.sec with issued := s.sec.issued + 1 } }
    (s1.useIndex, .inr (n, Config.signature n msg))
  else if s.rd F.SEC_KEY_STATUS.lost 0 0 = 0 ∧ n < 1048576 then
    -- an exhaustion statement: serial, nonce, signatures issued, and its signature
    let body := leBytes 8 (s.rd F.RTE_SERIAL.serial 0 0) ++ nonce ++ leBytes 4 s.sec.issued
    let st := body ++ Config.signature n body
    ((({ s with sec := { s.sec with statement := st } } : State).useIndex).addSat F.SEC_KEY_STATUS.statements 0 0 1, .inl (.error 6 st))
  else (s, .inl (.error 6 s.sec.statement))

/-! ### SPDM (R417 to R419) -/

/-- The responder answers: firmware runs, and the endpoints are reachable. -/
def State.spdmUp (s : State) : Bool := s.reachable && s.fwRuns && !s.romRecovery

def State.spdm (a : Spdm) (s : State) : State := if s.spdmUp then s.put (.spdm a) else s

def execSpdmGetVersion (s : State) : Ans := .next (s.spdm (.version 1 2))
def execSpdmGetCapabilities (s : State) : Ans := .next (s.spdm (.capabilities true true true))
/-- The code points: XMSS-SHAKE256_20_256 is 0x12 in SP 800-208, SHA3-256 is bit 3 of SPDM's hash algorithms (PRESUMED, log entry
14). -/
def execSpdmNegotiateAlgorithms (s : State) : Ans := .next (s.spdm (.algorithms 0x12 0x8))
def execSpdmGetDigests (s : State) : Ans := .next (s.spdm (.digests (sha3 Config.certChain)))
def execSpdmGetCertificate (off len : Nat) (s : State) : Ans := .next (s.spdm (.certificate off ((Config.certChain.drop off).take len)))

/-- Table 12-7. -/
def State.measurement (s : State) (k : Nat) : List Byte :=
  match k with
  | 1 => Config.romDigest
  | 2 => s.fwDigest (s.rd F.SEC_BOOT_STATUS.slot 0 0) ++ leBytes 1 (s.rd F.SEC_BOOT_STATUS.svn 0 0) ++ leBytes 4 (s.rd F.SEC_BOOT_STATUS.fw_version 0 0)
  | 3 => if s.activeBank = 3 then List.replicate 32 0
         else s.flashBytes (bankBase s.activeBank + 0x10) 32 ++ leBytes 4 (s.bankSeq s.activeBank)
  | 4 => leBytes 4 (s.rd F.ERR_CONTENT.version 0 0)
  | 5 => leBytes 1 (s.rd F.SEC_FUSE.svn_floor 0 0) ++ leBytes 1 (s.rd F.SEC_FUSE.revoked 0 0) ++ leBytes 1 (s.rd F.SEC_TAINT.scan_tainted 0 0)
  | _ => []

/-- The measurements of a request: 0 asks for their number only, 0xFF for all, else for one (PRESUMED, log entry 14). -/
def State.measured (s : State) (index : Nat) : List (List Byte) :=
  if index = 0xFF then (List.range' 1 5).map s.measurement else if 1 ≤ index ∧ index ≤ 5 then [s.measurement index] else []

/-- CHALLENGE: what is signed binds the nonce and every measurement (log entry 49). -/
def State.challenge (nonce : List Byte) (s : State) : State :=
  if s.spdmUp = false then s
  else
    let r := s.sign nonce (nonce ++ (s.measured 0xFF).flatten)
    r.1.put (.spdm (match r.2 with | .inl e => e | .inr q => .challenge q.1 nonce q.2))

def execSpdmChallenge (nonce : List Byte) (s : State) : Ans := .next (s.challenge nonce)

/-- GET_MEASUREMENTS: unsigned ones are answered in every case (R419). -/
def State.getMeasurements (index : Nat) (sign : Bool) (nonce : List Byte) (s : State) : State :=
  if s.spdmUp = false then s
  else
    let l := s.measured index
    if sign = false then s.put (.spdm (.measurements l none []))
    else
      let r := s.sign nonce (nonce ++ l.flatten)
      r.1.put (.spdm (match r.2 with | .inl e => e | .inr q => .measurements l (some q.1) q.2))

def execSpdmGetMeasurements (index : Nat) (sign : Bool) (nonce : List Byte) (s : State) : Ans :=
  .next (s.getMeasurements index sign nonce)

/-! ### Scan (R420, R421) -/

/-- SCAN_INSTRUCTION at Update-IR. IDCODE and SAMPLE/PRELOAD are no scan instructions and do not come as this command; 0xFF is BYPASS, which touches nothing (PRESUMED, log entry 14). SEC_TAINT keeps the first one. -/
def State.scan (ir : Nat) (s : State) : State :=
  if ir % 256 = 255 ∨ (s.pwr.railsOn || s.pwr.latched) = false then s
  else
    let at_ := match s.sec.scanAt with | some a => a | none => s.cycle
    let s1 : State := { s with sec := { s.sec with seed := false, scanAt := some at_ } }
    if s.tainted then s1
    else ((s1.wr F.SEC_TAINT.since_lo 0 0 s.sidereal).wr F.SEC_TAINT.instruction 0 0 ir).wr F.SEC_TAINT.scan_tainted 0 0 1

def execScanInstruction (ir : Nat) (s : State) : Ans := .next (s.scan ir)

/-- SCAN_ECLIPSE: 20 µs after Update-IR the module domain is eclipsed, with reason MODULE. -/
def State.scanEclipse (s : State) : State :=
  match s.sec.scanAt with
  | none => s
  | some a => if s.cycle < a + 40000 then s else ({ s with sec := { s.sec with scanAt := none } } : State).eclipse 6

def execScanEclipse (s : State) : Ans := .next s.scanEclipse

end Sys2Proof.Machine
end

