-- ==== Sys2Proof/Machine/ExecPwr.lean ====
section
/-! DEFINITION. Power, clocks and sensors as commands (R459, R504 to R525). -/
namespace Sys2Proof.Machine

/-! ### Cold resets and power (R457, R459, R509 to R511, R520, R523) -/

/-- Registers that a cold reset does not change: fuses and what manufacture fixes (R457, log entry 3). -/
def fuseRegs : List Reg := [.SEC_FUSE, .SEC_KEY_HASH, .RTE_SERIAL]

/-- A cold reset: everything returns to its reset value but the fuses, the NOR flash with the boot record and the almanac, the pins,
and, while power stays, scan_tainted and rail_fault (R421, R457, Table 16-13). The model's own fields go on. -/
def State.cold (s : State) : State :=
  let ids := fuseRegs.flatMap (fun g => g.fields.map (·.id)) ++ Reg.SEC_TAINT.fields.map (·.id) ++ [F.PWR_CORE.setpoint.id, F.PWR_ENV_STATUS.rail_fault.id]
  let kept := s.regs.vals.filter (fun k _ => ids.contains k.1)
  let r0 := State.reset
  let vals := kept.keys.foldl (fun t k => t.set k (kept.get k 0)) (r0.regs.vals.filter (fun k _ => !(ids.contains k.1)))
  { r0 with
    cycle := s.cycle
    regs := { r0.regs with vals := vals }
    flash := s.flash
    boot := s.boot
    chunks := s.chunks
    almHalf := s.almHalf
    almanac := s.almanac
    routerFailed := s.routerFailed
    fusedDefects := s.fusedDefects
    fusedRepairs := s.fusedRepairs
    hours := s.hours
    sec := { s.sec with seed := false }
    pwr := { s.pwr with dead := false, faultN := !s.pwr.latched || !s.pwr.thermtripN, warn := [], emerg := [], lastMs := 0, lastTenMs := 0, pldmHigh := .empty, pldmLow := .empty, pldm := .empty }
    sent := s.sent
    fresh := s.fresh
    pending := s.pending }

/-- Power is lost (R511): a cold reset that also clears scan_tainted and rail_fault; no rail drives the output pins. -/
def State.unpower (s : State) : State :=
  let s1 := ((((s.wr F.SEC_TAINT.scan_tainted 0 0 0).wr F.SEC_TAINT.instruction 0 0 0).wr F.SEC_TAINT.since_lo 0 0 0).wr
    F.PWR_ENV_STATUS.rail_fault 0 0 0).cold
  { s1 with
    bootReady := false
    pwr := { s1.pwr with railsOn := false, latched := false, faultN := true, thermtripN := true }
    sec := { s1.sec with scanAt := none } }

/-- PERST_LOW (R459). -/
def State.perstLow (s : State) : State :=
  if s.pwr.perstN = false then s
  else
    let s1 := if s.pwr.railsOn || s.pwr.latched then s.cold else s
    { s1 with bootReady := false, pwr := { s1.pwr with perstN := false } }

def execPerstLow (s : State) : Ans := .next s.perstLow

/-- PERST_HIGH: the cold reset ends and the sidereal count starts at 0 (R322). -/
def State.perstHigh (s : State) : State :=
  if s.pwr.perstN then s
  else { s with sidereal := 0, bootReady := s.pwr.railsOn, pwr := { s.pwr with perstN := true } }

def execPerstHigh (s : State) : Ans := .next s.perstHigh

/-- PWR_EN_RISE: PWR_EN is high and the input lies between 40 V and 60 V; the rails come up once the sense contact has mated for 50 ms
(the times of Table 16-3 are left out). -/
def State.powerUp (s : State) : State :=
  let s1 : State := { s with pwr := { s.pwr with pwrEn := true, inputOk := true } }
  if s1.pwr.railsOn ∨ s1.pwr.latched ∨ s1.pwr.senseAt.any (fun a => decide (a ≤ s1.cycle)) = false then s1
  else { s1 with sidereal := 0, bootReady := s1.pwr.perstN, pwr := { s1.pwr with railsOn := true } }

def execPwrEnRise (s : State) : Ans := .next s.powerUp

/-- SENSE_CONTACT_MATE: from 50 ms on the module may power up (R523). -/
def execSenseContactMate (s : State) : Ans :=
  .next (if s.pwr.railsOn ∨ s.pwr.latched then s else { s with pwr := { s.pwr with senseAt := some (s.cycle + 100000000) } })

/-- POWER_OFF. -/
def execPowerOff (s : State) : Ans :=
  .next (let s1 := if s.pwr.railsOn ∨ s.pwr.latched then s.unpower else s
    { s1 with pwr := { s1.pwr with pwrEn := false } })

/-- Every rail but the Observatory's turns off and stays off until PWR_EN goes low: the module is DARK. -/
def State.railsDown (s : State) : State :=
  let s1 := s.offlineModule
  { s1 with bootReady := false, pwr := { s1.pwr with railsOn := false, latched := true } }

/-- RAIL_FAULT of rail 0 SRAM, 1 I/O, 2 VDD1, 3 VDD2H, 4 VDDQ, 5 Observatory, 6 core (R510). -/
def State.railFault (r : Nat) (s : State) : State :=
  if 7 ≤ r ∨ (s.pwr.railsOn || s.pwr.latched) = false then s
  else if r = 5 then s.unpower
  else if s.pwr.railsOn = false then s
  else
    let s1 := s.railsDown.wr F.PWR_ENV_STATUS.rail_fault 0 0 1
    { s1 with pwr := { s1.pwr with faultN := false } }

def execRailFault (r : Nat) (s : State) : Ans := .next (s.railFault r)

/-- THERMAL_TRIP of a junction sensor (R520): the ENV record and its almanac entry carry the sensor's latest reading. -/
def State.thermalTrip (k : Nat) (s : State) : State :=
  if 38 ≤ k ∨ s.pwr.railsOn = false then s
  else
    let s1 := s.railsDown
    let s2 := ({ s1 with pwr := { s1.pwr with thermtripN := false } } : State).envRec 1 true k (sgn16 (s.rd F.PWR_TEMP.temp 0 k))
    match s2.recs.getLast? with
    | some r =>
      let r' : Rec := { r with flags := 4 }
      ({ s2 with recs := s2.recs.dropLast ++ [r'] } : State).almWait (s2.almOf 1 r')
    | none => s2

def execThermalTrip (sensor : Nat) (s : State) : Ans := .next (s.thermalTrip sensor)

/-! ### REFCLK (R320, R507) -/

def State.refclkLoss (s : State) : State :=
  if s.rd F.PWR_CLK.refclk_ok 0 0 = 0 then s
  else
    let s1 := (s.wr F.PWR_CLK.refclk_ok 0 0 0).begins 7 false true 0 0
    if s1.role = 1 ∧ s1.timeSt ≠ 4 then s1.loseTime else s1

def execRefclkLoss (s : State) : Ans := .next s.refclkLoss

/-- REFCLK_RESTORE: 1,000 edges within R504's limit. -/
def State.refclkRestore (s : State) : State :=
  if s.rd F.PWR_CLK.refclk_ok 0 0 = 1 ∨ s.reachable = false then s else (s.wr F.PWR_CLK.refclk_ok 0 0 1).clears 7 0

def execRefclkRestore (s : State) : Ans := .next s.refclkRestore

/-! ### Samples (R512, R513, R519) -/

/-- One sensor's reading and its maximum (Table 16-16). -/
def State.sampleTemp (k v : Nat) (s : State) : State :=
  let v16 := v % 2 ^ 16
  let s1 := s.wr F.PWR_TEMP.temp 0 k v16
  if sgn16 (s.rd F.PWR_TEMP.max 0 k) < sgn16 v16 then s1.wr F.PWR_TEMP.max 0 k v16 else s1

/-- The regulation band of rail `r` (Table 16-2), in mV. -/
def railGood (r mv : Nat) : Bool :=
  match r with
  | 0 => decide (735 ≤ mv) && decide (mv ≤ 765)
  | 1 => decide (882 ≤ mv) && decide (mv ≤ 918)
  | 2 => decide (1746 ≤ mv) && decide (mv ≤ 1854)
  | 3 => decide (1029 ≤ mv) && decide (mv ≤ 1071)
  | 4 => decide (490 ≤ mv) && decide (mv ≤ 510)
  | _ => decide (735 ≤ mv) && decide (mv ≤ 765)

/-- What the sample finds of one condition: whether its warning and emergency columns are met, whether the clear column is, for
the warning and for the emergency, the threshold a warning met, the unit and the reading. -/
structure Found where
  code : Nat
  warn : Bool
  em : Bool
  warnClear : Bool
  emClear : Bool
  thr : Nat
  unit : Nat
  reading : Int
deriving DecidableEq, Repr

/-- One condition of Table 16-5. -/
def State.condition (s : State) (f : Found) : State :=
  let hasW := s.pwr.warn.any (fun p => p.1 == f.code)
  let hasE := s.pwr.emerg.any (fun p => p.1 == f.code)
  let newW := f.warn && !hasW
  let newE := f.em && !hasE
  let warn := if newW then s.pwr.warn ++ [(f.code, f.thr)]
    else if f.warnClear && !f.warn then s.pwr.warn.filter (fun p => p.1 != f.code) else s.pwr.warn
  let s1 : State := { s with pwr := { s.pwr with warn := warn } }
  let s2 := if hasE && f.emClear && !f.em then
      (s.pwr.emerg.filter (fun p => p.1 == f.code)).foldl (fun (s : State) p => s.clears p.1 p.2) s1
    else s1
  if newW || newE then s2.begins f.code newW newE f.unit f.reading else s2

/-- The threshold that a warning of a condition met. -/
def State.warnThr (s : State) (code dflt : Nat) : Nat :=
  match s.pwr.warn.find? (fun p => p.1 == code) with
  | some p => p.2
  | none => dflt

/-- The conditions of a sample, in the order of their codes. `avg1s` and `avg10ms` are the input power's averages; `inputOver` and
`coreOver` say that the emergency's duration has passed. -/
def State.conditions (s : State) (mv avg1s avg10ms coreCur : Nat) (inputOver coreOver : Bool) : List Found :=
  let hot := s.hottest (List.range 38)
  let unit := ((List.range 38).find? (fun k => s.rd F.PWR_TEMP.temp 0 k == hot)).getD 0
  let h := sgn16 hot
  let wt := s.rd F.PWR_ENV_CFG.warn_temp 0 0
  let wp := s.rd F.PWR_ENV_CFG.warn_power 0 0
  let inlet := sgn16 (s.rd F.PWR_TEMP.temp 0 38)
  [ { code := 1, warn := decide ((wt : Int) ≤ h), em := decide (816 ≤ h), warnClear := decide (h < (s.warnThr 1 wt : Int) - 40),
      emClear := decide (h < 776), thr := wt, unit := unit, reading := h },
    { code := 2, warn := decide (wp ≤ avg1s), em := decide (34000 ≤ avg10ms), warnClear := decide (avg1s + 1000 < s.warnThr 2 wp),
      emClear := decide (avg1s < 33000), thr := wp, unit := 0, reading := if 34000 ≤ avg10ms then avg10ms else avg1s },
    { code := 3, warn := decide (mv < 40000) || decide (60000 < mv), em := inputOver && (decide (mv < 38000) || decide (62000 < mv)), warnClear := decide (40000 ≤ mv) && decide (mv ≤ 60000),
      emClear := decide (40000 ≤ mv) && decide (mv ≤ 60000), thr := 40000, unit := 0, reading := mv },
    { code := 4, warn := decide (40000 ≤ coreCur), em := coreOver && decide (42000 ≤ coreCur), warnClear := decide (coreCur < 39000), emClear := decide (coreCur < 39000),
      thr := 40000, unit := 0, reading := coreCur },
    { code := 6, warn := decide (320 ≤ inlet), em := decide (360 ≤ inlet), warnClear := decide (inlet < 304), emClear := decide (inlet < 304),
      thr := 320, unit := 0, reading := inlet } ]

/-- ENV_SAMPLE: the readings of one sample, in the units of the PWR registers. -/
def State.envSample (temps : List Nat) (mv power avg1s avg10ms coreMv coreCur : Nat) (rails : List (Nat × Nat)) (coreOver inputOver : Bool)
    (s : State) : State :=
  if s.reachable = false ∨ s.pwr.dead ∨ temps.length ≠ 40 ∨ rails.length ≠ 6 then s
  else
    let s1 := temps.zipIdx.foldl (fun (s : State) p => s.sampleTemp p.2 p.1) s
    let s2 := (((s1.wr F.PWR_INPUT.voltage 0 0 mv).wr F.PWR_INPUT.power 0 0 power).wr F.PWR_CORE.voltage 0 0 coreMv).wr F.PWR_CORE.current 0 0 coreCur
    let s3 := rails.zipIdx.foldl (fun (s : State) p =>
      ((s.wr F.PWR_RAIL.voltage 0 p.2 p.1.1).wr F.PWR_RAIL.current 0 p.2 p.1.2).wr F.PWR_RAIL.good 0 p.2 (railGood p.2 p.1.1).toNat) s2
    let s4 : State := { s3 with pwr := { s3.pwr with inputOk := decide (40000 ≤ mv) && decide (mv ≤ 60000) } }
    let s5 := (s4.conditions mv avg1s avg10ms coreCur inputOver coreOver).foldl State.condition s4
    -- an emergency that began earlier has fenced the module already
    s5.fenceIfEmergency

def execEnvSample (temps : List Nat) (mv power avg1s avg10ms coreMv coreCur : Nat) (rails : List (Nat × Nat)) (coreOver inputOver : Bool)
    (s : State) : Ans :=
  .next (s.envSample temps mv power avg1s avg10ms coreMv coreCur rails coreOver inputOver)

/-! ### Throttling (R517) -/

/-- THROTTLE_RAISE, at a 1 ms boundary of the sidereal count. -/
def State.throttleRaise (s : State) : State :=
  let m := s.sidereal / 2000000
  if s.sidereal % 2000000 ≠ 0 ∨ m = s.pwr.lastMs ∨ s.holding = false ∨ s.scheduled then s
  else ({ s with pwr := { s.pwr with lastMs := m } } : State).wr F.PWR_THROTTLE.level 0 0 (min 15 (s.level + 4))

def execThrottleRaise (s : State) : Ans := .next s.throttleRaise

/-- THROTTLE_LOWER, at a 10 ms boundary. -/
def State.throttleLower (s : State) : State :=
  let m := s.sidereal / 20000000
  if s.sidereal % 20000000 ≠ 0 ∨ m = s.pwr.lastTenMs ∨ s.holding ∨ s.scheduled then s
  else ({ s with pwr := { s.pwr with lastTenMs := m } } : State).wr F.PWR_THROTTLE.level 0 0 (s.level - 1)

def execThrottleLower (s : State) : Ans := .next s.throttleLower

/-! ### PLDM and PWR_ENV_CFG (R396, R525) -/

/-- PLDM_SENSOR_REFRESH; ALERT_N is State.alertN of the refreshed readings and the thresholds. -/
def execPldmSensorRefresh (s : State) : Ans :=
  .next (if s.reachable ∧ s.pwr.dead = false then
    { s with pwr := { s.pwr with pldm := (List.range' 1 19).foldl (fun t k => t.set k (s.sensor k)) s.pwr.pldm } }
  else s)

def execPwrEnvCfgWrite (v : Word) (s : State) : Ans := .next (s.writeEnvCfg (.full v))

end Sys2Proof.Machine
end

