-- ==== Sys2Proof/Machine/ExecHang.lean ====
section
/-! DEFINITION. The wait-graph detector (R475 to R483). It reads the master's copies of the publication records. -/
namespace Sys2Proof.Machine

/-! ### Records, candidates and dependencies (R476) -/

/-- The master's copy of a record; before the first one the tile is OFFLINE. -/
def State.pub (s : State) (t : Nat) : Pub := s.pubs.get t ⟨0xD, 0, .offline, false⟩

def Pub.kind (p : Pub) : Nat := p.word % 16
def Pub.object (p : Pub) : Nat := bits p.word 4 6
def Pub.peer (p : Pub) : Nat := bits p.word 10 12
/-- Kind, object and since, which R478 and R479 compare. -/
def Pub.key (t : Nat) (p : Pub) : Nat × Nat × Nat := (t, p.word % 1024, p.since)

def State.isCandidate (s : State) (t : Nat) : Bool :=
  let p := s.pub t
  !(s.tile t).vacant && p.st == .running && (p.kind == 1 || p.kind == 2 || p.kind == 4)

def State.isStopped (s : State) (t : Nat) : Bool :=
  let p := (s.pub t).st
  (s.tile t).vacant || p == .offline || p == .idle || p == .fenced || p == .retired

/-- A candidate's wait can be ended from outside the module (Table 14-7). -/
def State.waitExternal (s : State) (t : Nat) : Bool :=
  let p := s.pub t
  let g (f : Fld) : Nat := s.chs t p.object f
  match p.kind with
  | 2 => p.peer == 0xFFF
  | 1 => g F.TIL_CHQ_CFG.remote_credits != 0 || (g F.TIL_CHQ_CFG.kind == 0 && g F.TIL_CHQ_CFG.peer_remote == 1)
  | 4 => match s.rootOf p.object 129 t with
    | some r => s.node r p.object F.TIL_PUL_BAR.global == 1
    | none => false
  | _ => false

/-- Participants of the tree of index `i` that tile `t` belongs to. -/
def State.participants (s : State) (t i : Nat) : List Nat :=
  s.tiles.keys.filter (fun u => s.node u i F.TIL_PUL_BAR.enable == 1 && s.node u i F.TIL_PUL_BAR.participant == 1 &&
    s.rootOf i 129 u == s.rootOf i 129 t)

/-- The tiles that a candidate waits for (Table 14-7). -/
def State.waitsFor (s : State) (t : Nat) : List Nat :=
  let p := s.pub t
  match p.kind with
  | 2 => if p.peer = 0xFFF then [] else [p.peer]
  | 1 => ((s.localEntries.filter (fun e => s.chs e.1 e.2 F.TIL_CHS_CFG.tile == t && s.chs e.1 e.2 F.TIL_CHS_CFG.queue == p.object)).map (·.1)).eraseDups
  | 4 => (s.participants t p.object).filter (fun u => u != t && (s.pub u).word % 1024 != p.object * 16 + 4 && !(s.tile u).barPending p.object)
  | _ => []

/-! ### The hung set (R477) -/

/-- One pass of R477. A candidate that has left the set can still move, so it counts as free (DEDUCED, log entry 60). -/
def State.hungPass (s : State) (h : List Nat) : List Nat :=
  h.filter (fun t => (s.waitsFor t).all (fun d => h.contains d || s.isStopped d))

/-- Passes until no tile is removed. -/
def State.hungLoop (s : State) : Nat → List Nat → List Nat
  | 0, h => h
  | n + 1, h => let h' := s.hungPass h
                if h'.length = h.length then h else s.hungLoop n h'

def State.hungSet (s : State) : List Nat :=
  let h := allTiles.filter (fun t => s.isCandidate t && !s.waitExternal t)
  s.hungLoop (h.length + 1) h

/-- A member depends on a stopped tile: kind STOPPED, else CYCLE. -/
def State.hungKind (s : State) (h : List Nat) : Nat := if h.any (fun t => (s.waitsFor t).any s.isStopped) then 2 else 1

/-! ### Reports (R478, R481, R482) -/

/-- A tile's wait word and since, as s1 and s2 of the HANG record. -/
def State.waitOf (s : State) (t : Nat) : Word := BitVec.ofNat 64 ((s.pub t).word + (s.pub t).since * 2 ^ 32)

def leastOf : List Nat → Option Nat
  | [] => none
  | a :: r => match leastOf r with
    | none => some a
    | some b => some (min a b)

/-- Report a set of tiles, in ascending order, under kind 1 CYCLE, 2 STOPPED, 3 ALL or 4 LATTICE. -/
def State.report (kind : Nat) (h : List Nat) (s : State) : State :=
  let first := h.headD 0
  let s2 := match leastOf (if s.isCandidate first then s.waitsFor first else []) with | some d => s.waitOf d | none => 0
  let r1 := (((s.wr F.RST_HANG_REPORT.since_lo 0 0 s.sidereal).wr F.RST_HANG_REPORT.kind 0 0 kind).wr F.RST_HANG_REPORT.members 0 0 h.length).wr
    F.RST_HANG_REPORT.first 0 0 first
  let r2 := (List.range 36).foldl (fun (s : State) k => s.wr F.RST_HANG_SET.member 0 k (bitSum 64 (fun j => h.contains (64 * k + j)))) r1
  let r3 := ((r2.addSat F.RST_HANG_COUNT.reports 0 0 1).flag F.RST_STATUS.again_count F.RST_STATUS.hang 0 0 1).irq 4
  let action := s.rd F.RST_HANG_CFG.action 0 0
  let fences := (action == 1 && s.st == .running) || action == 2
  let r4 := r3.obsRec 0x60 11 0 0 (r3.regWord .RST_HANG_REPORT 0 0) (s.waitOf first) s2 0 0 (if fences then 2 else 0) 0
  if action = 1 ∧ s.st = .running then r4.eclipse 3
  else if action = 2 then h.foldl (fun (s : State) t => if s.eclipsed 1 t then s else s.fenceUnit 1 t) r4
  else r4

/-- LATTICE (R480): every record with the hang flag, once. -/
def State.reportLattice (s : State) : State :=
  let now := allTiles.filter (fun t => (s.pub t).hang)
  let s1 : State := { s with det := { s.det with lattice := now } }
  (now.filter (fun t => !s.det.lattice.contains t)).foldl (fun (s : State) t => s.report 4 [t]) s1

/-- A reported set is forgotten when the wait of a member has changed. -/
def State.stillTold (s : State) (l : List (List (Nat × Nat × Nat))) : List (List (Nat × Nat × Nat)) :=
  l.filter (fun h => h.all (fun m => (s.pub m.1).key m.1 == m))

/-- The hung set is reported when it is found the second time, unchanged (R478). -/
def State.reportHung (s : State) : State :=
  let h := s.hungSet
  let key := h.map (fun t => (s.pub t).key t)
  let told := s.stillTold s.det.told
  let go := !h.isEmpty && key == s.det.found && !told.contains key
  let s1 : State := { s with det := { s.det with found := key, told := if go then key :: told else told } }
  if go then s1.report (s.hungKind h) h else s1

/-- ALL (R479). -/
def State.reportAll (s : State) : State :=
  let run := allTiles.filter (fun t => !(s.tile t).vacant && (s.pub t).st == .running)
  let thr := s.rd F.RST_HANG_CFG.all_threshold 0 0
  let ok := s.st == .running && !run.isEmpty && run.all (fun t => (s.pub t).kind != 0 && (s.pub t).kind != 5 && (s.pub t).kind != 0xA)
  let key := if ok then run.map (fun t => (s.pub t).key t) else []
  let told := s.stillTold s.det.toldAll
  let old := run.all (fun t => decide (thr * 256 < (s.sidereal + 2 ^ 32 - (s.pub t).since) % 2 ^ 32))
  let go := ok && thr != 0 && key == s.det.all && old && !told.contains key
  let s1 : State := { s with det := { s.det with all := key, toldAll := if go then key :: told else told } }
  if go then s1.report 3 run else s1

/-- HANG_EVALUATION: at a multiple of E of the sidereal count. -/
def State.evaluate (s : State) : State :=
  let e := s.rd F.RST_HANG_CFG.interval 0 0 * 256
  if s.rd F.RST_HANG_CFG.enable 0 0 = 0 ∨ e = 0 ∨ s.sidereal % e ≠ 0 ∨ s.sidereal = s.det.last ∨ s.st = .dark then s
  else
    let s1 := ({ s with det := { s.det with last := s.sidereal } } : State).addWrap F.RST_HANG_COUNT.evaluations 0 0 1
    s1.reportLattice.reportHung.reportAll

def execHangEvaluation (s : State) : Ans := .next s.evaluate

def execRstHangCfgWrite (v : Word) (s : State) : Ans := .next (s.writeReg 1 .RST_HANG_CFG 0 0 (.full v))

end Sys2Proof.Machine
end

