-- ==== Sys2Proof/Machine/ExecLat.lean ====
section
/-! DEFINITION. The lattice: loads, tokens and the firings of its units (chapter 4). -/
namespace Sys2Proof.Machine

/-- R143. -/
def execLatticeLoadResult (t : Nat) (s : State) : Ans :=
  .next (s.onClocked t fun c tl => tl.loadResult c)

/-- R144. -/
def execDrainEnd (t : Nat) (s : State) : Ans :=
  .next (s.onClocked t fun c tl => tl.drainEnd c)

/-- R145. -/
def execDrainForced (t : Nat) (s : State) : Ans :=
  .next (s.onClocked t fun c tl => tl.drainForced c)

/-- R149. -/
def execFlushEnd (t : Nat) (s : State) : Ans :=
  .next (s.onClocked t fun c tl => tl.flushEnd c)

/-- R122, R123. -/
def execTokenArrival (t : Nat) (u i : Nat) (s : State) : Ans :=
  .next (s.onClocked t fun c tl => (tl.tokenArrives c u i, []))

/-- R154. -/
def execTagDeadlock (t : Nat) (u : Nat) (s : State) : Ans :=
  .next (s.onClocked t fun c tl => tl.tagDeadlock c u)

/-- VX ADD (R129, Table 4-3). -/
def execVxAdd (t : Nat) (u : Nat) (s : State) : Ans :=
  .next (s.onClocked t fun c tl => (tl.vxFire c u 1 4 vxAdd, []))

/-- VX SUB (R129, Table 4-3). -/
def execVxSub (t : Nat) (u : Nat) (s : State) : Ans :=
  .next (s.onClocked t fun c tl => (tl.vxFire c u 2 4 vxSub, []))

/-- VX MUL (R129, Table 4-3). -/
def execVxMul (t : Nat) (u : Nat) (s : State) : Ans :=
  .next (s.onClocked t fun c tl => (tl.vxFire c u 3 4 vxMul, []))

/-- VX FMA (R129, Table 4-3). -/
def execVxFma (t : Nat) (u : Nat) (s : State) : Ans :=
  .next (s.onClocked t fun c tl => (tl.vxFire c u 4 4 vxFma, []))

/-- VX MIN (R129, Table 4-3). -/
def execVxMin (t : Nat) (u : Nat) (s : State) : Ans :=
  .next (s.onClocked t fun c tl => (tl.vxFire c u 5 2 vxMin, []))

/-- VX MAX (R129, Table 4-3). -/
def execVxMax (t : Nat) (u : Nat) (s : State) : Ans :=
  .next (s.onClocked t fun c tl => (tl.vxFire c u 6 2 vxMax, []))

/-- VX CVT (R129, Table 4-3). -/
def execVxCvt (t : Nat) (u : Nat) (s : State) : Ans :=
  .next (s.onClocked t fun c tl => (tl.vxFire c u 7 4 vxCvt, []))

/-- VX QMX (R129, Table 4-3). -/
def execVxQmx (t : Nat) (u : Nat) (s : State) : Ans :=
  .next (s.onClocked t fun c tl => (tl.vxFire c u 8 6 vxQmx, []))

/-- VX XADD (R129, Table 4-3). -/
def execVxXadd (t : Nat) (u : Nat) (s : State) : Ans :=
  .next (s.onClocked t fun c tl => (tl.vxFire c u 9 2 vxXadd, []))

/-- VX RSUM (R129, Table 4-3). -/
def execVxRsum (t : Nat) (u : Nat) (s : State) : Ans :=
  .next (s.onClocked t fun c tl => (tl.vxFire c u 10 6 vxRsum, []))

/-- VX RMAX (R129, Table 4-3). -/
def execVxRmax (t : Nat) (u : Nat) (s : State) : Ans :=
  .next (s.onClocked t fun c tl => (tl.vxFire c u 11 4 vxRmax, []))

/-- VX PASS (R129, Table 4-3). -/
def execVxPass (t : Nat) (u : Nat) (s : State) : Ans :=
  .next (s.onClocked t fun c tl => (tl.vxFire c u 14 1 vxPass, []))

/-- VX CMPLT (R129). -/
def execVxCmplt (t : Nat) (u : Nat) (s : State) : Ans :=
  .next (s.onClocked t fun c tl => (tl.vxCompare c u 12 flt (fun a b => decide (a < b)), []))

/-- VX CMPEQ (R129). -/
def execVxCmpeq (t : Nat) (u : Nat) (s : State) : Ans :=
  .next (s.onClocked t fun c tl => (tl.vxCompare c u 13 feq (fun a b => decide (a = b)), []))

/-- XF EXP (R130). -/
def execXfExp (t : Nat) (s : State) : Ans :=
  .next (s.onClocked t fun c tl => (tl.xfFire c 1, []))

/-- XF LOG (R130). -/
def execXfLog (t : Nat) (s : State) : Ans :=
  .next (s.onClocked t fun c tl => (tl.xfFire c 2, []))

/-- XF RCP (R130). -/
def execXfRcp (t : Nat) (s : State) : Ans :=
  .next (s.onClocked t fun c tl => (tl.xfFire c 3, []))

/-- XF RSQ (R130). -/
def execXfRsq (t : Nat) (s : State) : Ans :=
  .next (s.onClocked t fun c tl => (tl.xfFire c 4, []))

/-- XF TANH (R130). -/
def execXfTanh (t : Nat) (s : State) : Ans :=
  .next (s.onClocked t fun c tl => (tl.xfFire c 5, []))

/-- ST SEL (R129, Table 4-3). -/
def execStSel (t : Nat) (u : Nat) (s : State) : Ans :=
  .next (s.onClocked t fun c tl => (tl.stFire c u 1 (fun b => some (0, if b then 0 else 1)), []))

/-- ST BR (R129, Table 4-3). -/
def execStBr (t : Nat) (u : Nat) (s : State) : Ans :=
  .next (s.onClocked t fun c tl => (tl.stFire c u 2 (fun b => some (if b then 0 else 1, 0)), []))

/-- ST MRG (R129, Table 4-3). -/
def execStMrg (t : Nat) (u : Nat) (s : State) : Ans :=
  .next (s.onClocked t fun c tl => (tl.stFire c u 3 (fun b => some (0, if b then 0 else 1)), []))

/-- ST FLT (R129, Table 4-3). -/
def execStFlt (t : Nat) (u : Nat) (s : State) : Ans :=
  .next (s.onClocked t fun c tl => (tl.stFire c u 4 (fun b => if b then some (0, 0) else none), []))

/-- ST DLY (R129). -/
def execStDly (t : Nat) (u : Nat) (s : State) : Ans :=
  .next (s.onClocked t fun c tl => (tl.stDelay c u, []))

/-- R131. -/
def execSqLoop (t : Nat) (u : Nat) (s : State) : Ans :=
  .next (s.onClocked t fun c tl => (tl.sqFire c u, []))

/-- R131. -/
def execSqIteration (t : Nat) (u : Nat) (s : State) : Ans :=
  .next (s.onClocked t fun c tl => (tl.sqIterate c u, []))

/-- R132. -/
def execLdRead (t : Nat) (u : Nat) (s : State) : Ans :=
  .next (s.onClocked t fun c tl => (tl.ldFire c u, []))

/-- R133. -/
def execSvWrite (t : Nat) (u : Nat) (s : State) : Ans :=
  .next (s.onClocked t fun c tl => (tl.svWrite c u, []))

/-- R133, R50. -/
def execSvQmx (t : Nat) (u : Nat) (s : State) : Ans :=
  .next (s.onClocked t fun c tl => (tl.svQmx c u, []))

/-- R134. -/
def execCpXferInbound (t : Nat) (s : State) : Ans :=
  .next (s.onClocked t fun c tl => tl.cpIn c)

/-- R134, R248. -/
def execCpXferOutbound (t : Nat) (s : State) : Ans :=
  .next (s.onClocked t fun c tl => tl.cpOutbound c)

/-- R135 to R137. -/
def execMxMma (t : Nat) (s : State) : Ans :=
  .next (s.onClocked t fun c tl => (tl.mxFire c, []))

/-- R137, R71 to R73. `cell` and `mask` are a fault in an accumulator that the checksums meet (none: mask 0). -/
def execMxReadout (t : Nat) (cell : Nat) (mask : BitVec 96) (s : State) : Ans :=
  .next (s.onClocked t fun c tl => tl.mxReadout c cell mask)

end Sys2Proof.Machine
end

