-- ==== Sys2Proof/Machine/ExecMch.lean ====
section
/-! DEFINITION. Memory channels as the module sees them: rereads, the maintenance slot, the channel map and the end of a
reset (R271, R290 to R294, R430). -/
namespace Sys2Proof.Machine

/-- The newest written MEM_ECC record of a channel's line; a merged occurrence is in the record it was merged into (R427). -/
def State.eccRec (s : State) (ch m : Nat) : Option Rec :=
  s.log.reverse.find? (fun r => r.kind == 0x20 && r.unitIndex == ch && r.s0.toNat % 2 ^ 27 == m)

def isEcc (ch m : Nat) (r : Rec) : Bool := r.kind == 0x20 && r.unitIndex == ch && r.s0.toNat % 2 ^ 27 == m

/-- LPDDR_REREAD: the CLASSIFY record follows the MEM_ECC record that it names, so that one is written first. Where that
record was dropped (R425), the number named is a free value. -/
def State.reread (ch : Nat) (err1 err2 : BitVec 544) (code : Nat) (s : State) : State :=
  let q := (s.chan ch).reread (s.ctx ch) err1 err2 code
  match q.2 with
  | none => s
  | some (r, ok) =>
    if 96 ≤ ch ∨ s.recsOut.any (isEcc ch r.m) then s
    else
      let seq : Word := match s.eccRec ch r.m with
        | some e => BitVec.ofNat 64 e.seq
        | none => BitVec.ofNat 64 ((Config.freeWord s.fresh).toNat % 2 ^ 32)
      let t := chanY ch * 48 + chanX ch
      (({ s with fresh := s.fresh + 1 } : State).setChan ch q.1).sendRec 1
        (s.recOf 0x52 9 (tileDie t) ch (t % 48) (t / 48) 0 (tileSensor t) s.ioMv seq 0 0 0 (if ok then 1 else 2) 0 0)

def execLpddrReread (ch : Nat) (ecc : BitVec 544 × BitVec 544 × Nat) (s : State) : Ans :=
  .next (s.reread ch ecc.1 ecc.2.1 ecc.2.2)

/-- MAINTENANCE_SLOT: what MR4 reads. A refresh rate of more than twice the base rate sets hot and is a thermal emergency of
code 0x5 until the field falls to twice the base rate or below (R294, R513). -/
def State.maintSlot (ch mr4 : Nat) (hot : Bool) (s : State) : State :=
  if 96 ≤ ch ∨ ((s.chan ch).st ≠ .active ∧ (s.chan ch).st ≠ .fenced) ∨ frameSlot (s.ctx ch) s.cycle ≠ 0 then s
  else
    let s1 := s.onChan ch fun c h => (h.maintain c mr4 hot, [])
    if hot then (if s.pwr.emerg.contains (5, ch) then s1 else (s1.begins 5 false true ch (mr4 : Int)).fenceIfEmergency)
    else s1.clears 5 ch

def execMaintenanceSlot (ch mr4 : Nat) (hot : Bool) (s : State) : Ans := .next (s.maintSlot ch mr4 hot)

def execMemGlbEnableWrite (hi : Bool) (v : Word) (s : State) : Ans := .next (s.writeEnable hi (.full v))

/-- CHANNEL_REACTIVATE: the port leaves self-refresh (R293); in a module warm reset boot step 5 does this (R400). -/
def execChannelReactivate (ch : Nat) (s : State) : Ans :=
  .next (if s.resets.any (fun r => r.dom == 6) then s else s.onChan ch fun _ h => (h.reactivate, []))

end Sys2Proof.Machine
end

