-- ==== Sys2Proof/Machine/ExecMem.lean ====
section
/-! DEFINITION. The loads, stores, atomics, branches and calls of the tile sequencer (chapter 3). -/
namespace Sys2Proof.Machine

/-- LD8 (R84, Table 3-3). -/
def execLd8 (t : Nat) (rd ra : BitVec 5) (imm : BitVec 16) (s : State) : Ans :=
  .next (s.onClocked t fun c tl => tl.issue c (encWord 16 rd ra imm) fun tl => loadOp c rd ra imm 1 (sextFrom 8) tl)

/-- LD8U (R84, Table 3-3). -/
def execLd8u (t : Nat) (rd ra : BitVec 5) (imm : BitVec 16) (s : State) : Ans :=
  .next (s.onClocked t fun c tl => tl.issue c (encWord 17 rd ra imm) fun tl => loadOp c rd ra imm 1 id tl)

/-- LD16 (R84, Table 3-3). -/
def execLd16 (t : Nat) (rd ra : BitVec 5) (imm : BitVec 16) (s : State) : Ans :=
  .next (s.onClocked t fun c tl => tl.issue c (encWord 18 rd ra imm) fun tl => loadOp c rd ra imm 2 (sextFrom 16) tl)

/-- LD16U (R84, Table 3-3). -/
def execLd16u (t : Nat) (rd ra : BitVec 5) (imm : BitVec 16) (s : State) : Ans :=
  .next (s.onClocked t fun c tl => tl.issue c (encWord 19 rd ra imm) fun tl => loadOp c rd ra imm 2 id tl)

/-- LD32 (R84, Table 3-3). -/
def execLd32 (t : Nat) (rd ra : BitVec 5) (imm : BitVec 16) (s : State) : Ans :=
  .next (s.onClocked t fun c tl => tl.issue c (encWord 20 rd ra imm) fun tl => loadOp c rd ra imm 4 (sextFrom 32) tl)

/-- LD32U (R84, Table 3-3). -/
def execLd32u (t : Nat) (rd ra : BitVec 5) (imm : BitVec 16) (s : State) : Ans :=
  .next (s.onClocked t fun c tl => tl.issue c (encWord 21 rd ra imm) fun tl => loadOp c rd ra imm 4 id tl)

/-- LD64 (R84, Table 3-3). -/
def execLd64 (t : Nat) (rd ra : BitVec 5) (imm : BitVec 16) (s : State) : Ans :=
  .next (s.onClocked t fun c tl => tl.issue c (encWord 22 rd ra imm) fun tl => loadOp c rd ra imm 8 id tl)

/-- ST8 (R84, Table 3-3). -/
def execSt8 (t : Nat) (rs ra : BitVec 5) (imm : BitVec 16) (s : State) : Ans :=
  .next (s.onClocked t fun c tl => tl.issue c (encWord 24 rs ra imm) fun tl => storeOp c rs ra imm 1 tl)

/-- ST16 (R84, Table 3-3). -/
def execSt16 (t : Nat) (rs ra : BitVec 5) (imm : BitVec 16) (s : State) : Ans :=
  .next (s.onClocked t fun c tl => tl.issue c (encWord 25 rs ra imm) fun tl => storeOp c rs ra imm 2 tl)

/-- ST32 (R84, Table 3-3). -/
def execSt32 (t : Nat) (rs ra : BitVec 5) (imm : BitVec 16) (s : State) : Ans :=
  .next (s.onClocked t fun c tl => tl.issue c (encWord 26 rs ra imm) fun tl => storeOp c rs ra imm 4 tl)

/-- ST64 (R84, Table 3-3). -/
def execSt64 (t : Nat) (rs ra : BitVec 5) (imm : BitVec 16) (s : State) : Ans :=
  .next (s.onClocked t fun c tl => tl.issue c (encWord 27 rs ra imm) fun tl => storeOp c rs ra imm 8 tl)

/-- AADDW (R84, R164, Table 3-3). -/
def execAaddw (t : Nat) (rd ra rb : BitVec 5) (s : State) : Ans :=
  .next (s.onClocked t fun c tl => tl.issue c (encAtom 0 rd ra rb) fun tl => atomOp c rd ra rb 4 (sextFrom 32) (fun o v => o + v) tl)

/-- AADDD (R84, R164, Table 3-3). -/
def execAaddd (t : Nat) (rd ra rb : BitVec 5) (s : State) : Ans :=
  .next (s.onClocked t fun c tl => tl.issue c (encAtom 1 rd ra rb) fun tl => atomOp c rd ra rb 8 id (fun o v => o + v) tl)

/-- ASWPW (R84, R164, Table 3-3). -/
def execAswpw (t : Nat) (rd ra rb : BitVec 5) (s : State) : Ans :=
  .next (s.onClocked t fun c tl => tl.issue c (encAtom 2 rd ra rb) fun tl => atomOp c rd ra rb 4 (sextFrom 32) (fun _ v => v) tl)

/-- ASWPD (R84, R164, Table 3-3). -/
def execAswpd (t : Nat) (rd ra rb : BitVec 5) (s : State) : Ans :=
  .next (s.onClocked t fun c tl => tl.issue c (encAtom 3 rd ra rb) fun tl => atomOp c rd ra rb 8 id (fun _ v => v) tl)

/-- BREQ (R85, Table 3-3). -/
def execBreq (t : Nat) (ra rb : BitVec 5) (off : BitVec 16) (s : State) : Ans :=
  .next (s.onClocked t fun c tl => tl.issue c (encWord 32 ra rb off) fun tl => branchOp ra rb off (fun a b => a == b) tl)

/-- BRNE (R85, Table 3-3). -/
def execBrne (t : Nat) (ra rb : BitVec 5) (off : BitVec 16) (s : State) : Ans :=
  .next (s.onClocked t fun c tl => tl.issue c (encWord 33 ra rb off) fun tl => branchOp ra rb off (fun a b => a != b) tl)

/-- BRLT (R85, Table 3-3). -/
def execBrlt (t : Nat) (ra rb : BitVec 5) (off : BitVec 16) (s : State) : Ans :=
  .next (s.onClocked t fun c tl => tl.issue c (encWord 34 ra rb off) fun tl => branchOp ra rb off (fun a b => a.slt b) tl)

/-- BRGE (R85, Table 3-3). -/
def execBrge (t : Nat) (ra rb : BitVec 5) (off : BitVec 16) (s : State) : Ans :=
  .next (s.onClocked t fun c tl => tl.issue c (encWord 35 ra rb off) fun tl => branchOp ra rb off (fun a b => !(a.slt b)) tl)

/-- BRLTU (R85, Table 3-3). -/
def execBrltu (t : Nat) (ra rb : BitVec 5) (off : BitVec 16) (s : State) : Ans :=
  .next (s.onClocked t fun c tl => tl.issue c (encWord 36 ra rb off) fun tl => branchOp ra rb off (fun a b => a.ult b) tl)

/-- BRGEU (R85, Table 3-3). -/
def execBrgeu (t : Nat) (ra rb : BitVec 5) (off : BitVec 16) (s : State) : Ans :=
  .next (s.onClocked t fun c tl => tl.issue c (encWord 37 ra rb off) fun tl => branchOp ra rb off (fun a b => !(a.ult b)) tl)

/-- CALL (R85, Table 3-3). -/
def execCall (t : Nat) (rd : BitVec 5) (off : BitVec 21) (s : State) : Ans :=
  .next (s.onClocked t fun c tl => tl.issue c (encLink 38 rd off) fun tl => callTo rd (tl.seq.pc + (off.signExtend 64 <<< 2)) tl)

/-- CALLR (R85, Table 3-3). -/
def execCallr (t : Nat) (rd ra : BitVec 5) (imm : BitVec 16) (s : State) : Ans :=
  .next (s.onClocked t fun c tl => tl.issue c (encWord 39 rd ra imm) fun tl => callTo rd (tl.gr ra + sext16 imm) tl)

end Sys2Proof.Machine
end

