-- ==== Sys2Proof/Machine/ExecNet.lean ====
section
/-! DEFINITION. A tile's injection stage and its timeouts (chapters 3, 6 and 7). -/
namespace Sys2Proof.Machine

/-- R205, R206, R432. -/
def execFlitInjection (t : Nat) (s : State) : Ans :=
  .next (s.onTile t fun c tl => tl.inject c)

/-- R224. -/
def execVldTimeout (t : Nat) (s : State) : Ans :=
  .next (s.onTile t fun c tl => tl.vldTimeout c)

/-- R258. -/
def execChanReplyTimeout (t : Nat) (e : Nat) (s : State) : Ans :=
  .next (s.onTile t fun c tl => tl.sendTimeout c e)

end Sys2Proof.Machine
end

