-- ==== Sys2Proof/Machine/ExecStream.lean ====
section
/-! DEFINITION. Stream slots and fused slots (chapter 5). -/
namespace Sys2Proof.Machine

/-- R187. -/
def execStreamValidate (t : Nat) (slot : Nat) (s : State) : Ans :=
  .next (s.onClocked t fun c tl => tl.streamValidate c slot)

/-- R178. -/
def execStreamSrc (t : Nat) (slot : Nat) (s : State) : Ans :=
  .next (s.onClocked t fun c tl => tl.streamSrc c slot)

/-- R178. -/
def execStreamDst (t : Nat) (slot : Nat) (s : State) : Ans :=
  .next (s.onClocked t fun c tl => tl.streamDst c slot)

/-- R178. -/
def execStreamLoop (t : Nat) (slot : Nat) (s : State) : Ans :=
  .next (s.onClocked t fun c tl => tl.streamLoop c slot)

/-- R180 to R182. -/
def execStreamMove (t : Nat) (slot : Nat) (s : State) : Ans :=
  .next (s.onClocked t fun c tl => tl.streamMove c slot)

/-- R183, R184. -/
def execStreamAt (t : Nat) (slot : Nat) (s : State) : Ans :=
  .next (s.onClocked t fun c tl => tl.streamAt c slot)

/-- R186. -/
def execStreamWaitc (t : Nat) (slot : Nat) (s : State) : Ans :=
  .next (s.onClocked t fun c tl => tl.streamWaitc c slot)

/-- R186. -/
def execStreamSignal (t : Nat) (slot : Nat) (s : State) : Ans :=
  .next (s.onClocked t fun c tl => tl.streamSignal c slot)

/-- R178. -/
def execStreamEnd (t : Nat) (slot : Nat) (s : State) : Ans :=
  .next (s.onClocked t fun c tl => tl.streamEnd c slot)

/-- R170. -/
def execStreamPassEnd (t : Nat) (slot : Nat) (s : State) : Ans :=
  .next (s.onClocked t fun c tl => tl.passEnd c slot)

/-- R286. -/
def execStreamRequestTimeout (t : Nat) (slot : Nat) (s : State) : Ans :=
  .next (s.onTile t fun c tl => tl.streamTimeout c slot)

/-- R190 step 1, R253. -/
def execFusedRecv (t : Nat) (f : Nat) (s : State) : Ans :=
  .next (s.onClocked t fun c tl => tl.fusedRecv c f)

/-- R190 steps 2 and 3, R192. -/
def execFusedArm (t : Nat) (f : Nat) (s : State) : Ans :=
  .next (s.onClocked t fun c tl => tl.fusedArm c f)

/-- R190 step 4, R193. -/
def execFusedWait (t : Nat) (f : Nat) (s : State) : Ans :=
  .next (s.onClocked t fun c tl => tl.fusedWait c f)

/-- R190 step 5, R248. -/
def execFusedSend (t : Nat) (f : Nat) (s : State) : Ans :=
  .next (s.onClocked t fun c tl => tl.fusedSend c f)

/-- R190 step 7. -/
def execFusedChain (t : Nat) (f : Nat) (s : State) : Ans :=
  .next (s.onClocked t fun c tl => tl.fusedChain c f)

end Sys2Proof.Machine
end

