-- ==== Sys2Proof/Machine/ExecSys.lean ====
section
/-! DEFINITION. The control-register and system instructions of the tile sequencer, HALT and trap entry (chapter 3). -/
namespace Sys2Proof.Machine

/-- GETC (R79, Table 3-6). -/
def execGetc (t : Nat) (rd ra : BitVec 5) (z : BitVec 4) (n : BitVec 8) (s : State) : Ans :=
  .next (s.onClocked t fun c tl => tl.issue c (encSys 0 rd ra (z ++ n)) fun tl => getcOp c (encSys 0 rd ra (z ++ n)) rd ra z n tl)

/-- XCHC (R79, Table 3-6). -/
def execXchc (t : Nat) (rd ra : BitVec 5) (z : BitVec 4) (n : BitVec 8) (s : State) : Ans :=
  .next (s.onClocked t fun c tl => tl.issue c (encSys 1 rd ra (z ++ n)) fun tl => ctlOp c (encSys 1 rd ra (z ++ n)) rd ra z n (fun _ v => v) tl)

/-- ORC (R79, Table 3-6). -/
def execOrc (t : Nat) (rd ra : BitVec 5) (z : BitVec 4) (n : BitVec 8) (s : State) : Ans :=
  .next (s.onClocked t fun c tl => tl.issue c (encSys 2 rd ra (z ++ n)) fun tl => ctlOp c (encSys 2 rd ra (z ++ n)) rd ra z n (fun o v => o ||| v) tl)

/-- ANDNC (R79, Table 3-6). -/
def execAndnc (t : Nat) (rd ra : BitVec 5) (z : BitVec 4) (n : BitVec 8) (s : State) : Ans :=
  .next (s.onClocked t fun c tl => tl.issue c (encSys 3 rd ra (z ++ n)) fun tl => ctlOp c (encSys 3 rd ra (z ++ n)) rd ra z n (fun o v => o &&& ~~~v) tl)

/-- HRET (R88). -/
def execHret (t : Nat) (rd ra : BitVec 5) (z : BitVec 12) (s : State) : Ans :=
  .next (s.onClocked t fun c tl => tl.issue c (encSys 8 rd ra z) fun tl => hretOp (encSys 8 rd ra z) rd ra z tl)

/-- TRAP raises SOFTWARE (R99, Table 3-6). -/
def execTrap (t : Nat) (rd ra : BitVec 5) (z : BitVec 4) (arg : BitVec 8) (s : State) : Ans :=
  .next (s.onClocked t fun c tl => tl.issue c (encSys 9 rd ra (z ++ arg)) fun tl => trapOp (encSys 9 rd ra (z ++ arg)) rd ra z arg tl)

/-- HALT (R110). -/
def execHalt (t : Nat) (rd ra : BitVec 5) (z : BitVec 12) (s : State) : Ans :=
  .next (s.onClocked t fun c tl => tl.issue c (encSys 10 rd ra z) fun tl => haltOp c (encSys 10 rd ra z) rd ra z tl)

/-- HALT, steps 2 to 4 (R110). -/
def execHaltComplete (t : Nat) (s : State) : Ans :=
  .next (s.onClocked t fun c tl => tl.haltEnds c)

/-- VSYNC (R87, R98). -/
def execVsync (t : Nat) (rd ra : BitVec 5) (z : BitVec 12) (s : State) : Ans :=
  .next (s.onClocked t fun c tl => tl.issue c (encSys 11 rd ra z) fun tl => vsyncOp c (encSys 11 rd ra z) rd ra z tl)

/-- A trap at an instruction boundary (R102 to R104). -/
def execTrapEntry (t : Nat) (s : State) : Ans :=
  .next (s.onClocked t fun c tl => tl.trapEntry c)

end Sys2Proof.Machine
end

