-- ==== Sys2Proof/Machine/ExecTileReg.lean ====
section
/-! DEFINITION. Writes of tile registers that act (chapters 2 to 7). -/
namespace Sys2Proof.Machine

/-- A write of TIL_CTRL (R109). -/
def execTilCtrlGo (t : Nat) (v : Word) (s : State) : Ans :=
  .next (s.onTile t fun c tl => tl.regWrite c .TIL_CTRL 0 (.full v))

/-- R113, R114. -/
def execTilEntryWrite (t : Nat) (v : Word) (s : State) : Ans :=
  .next (s.onTile t fun c tl => tl.regWrite c .TIL_ENTRY 0 (.full v))

/-- R116. -/
def execTilGregWrite (t : Nat) (j : Nat) (v : Word) (s : State) : Ans :=
  .next (s.onTile t fun c tl => tl.regWrite c .TIL_GREG j (.full v))

/-- R74. -/
def execTilSrSeedWrite (t : Nat) (v : Word) (s : State) : Ans :=
  .next (s.onTile t fun c tl => tl.regWrite c .TIL_SR_SEED 0 (.full v))

/-- R74. -/
def execTilSrCountWrite (t : Nat) (j : Nat) (v : Word) (s : State) : Ans :=
  .next (s.onTile t fun c tl => tl.regWrite c .TIL_SR_COUNT j (.full v))

/-- R197. -/
def execTilBankOwnerWrite (t : Nat) (v : Word) (s : State) : Ans :=
  .next (s.onTile t fun c tl => tl.regWrite c .TIL_BANK_OWNER 0 (.full v))

/-- R168. -/
def execTilArrivalWrite (t : Nat) (j : Nat) (v : Word) (s : State) : Ans :=
  .next (s.onTile t fun c tl => tl.regWrite c .TIL_ARRIVAL j (.full v))

/-- R155. -/
def execTilLatCtrClrWrite (t : Nat) (v : Word) (s : State) : Ans :=
  .next (s.onTile t fun c tl => tl.regWrite c .TIL_LAT_CTR_CLR 0 (.full v))

/-- R234. -/
def execTilPulBarWrite (t : Nat) (j : Nat) (v : Word) (s : State) : Ans :=
  .next (s.onTile t fun c tl => tl.regWrite c .TIL_PUL_BAR j (.full v))

/-- R237, R238. -/
def execTilChqCfgWrite (t : Nat) (j : Nat) (v : Word) (s : State) : Ans :=
  .next (s.onTile t fun c tl => tl.regWrite c .TIL_CHQ_CFG j (.full v))

/-- R239, R240. -/
def execTilChsCfgWrite (t : Nat) (j : Nat) (v : Word) (s : State) : Ans :=
  .next (s.onTile t fun c tl => tl.regWrite c .TIL_CHS_CFG j (.full v))

end Sys2Proof.Machine
end

