-- ==== Sys2Proof/Machine/Dispatch.lean ====
section
/-! DEFINITION. The meaning of every command, one arm per row of spec/opcode_table.json: one direct call each. -/
namespace Sys2Proof.Machine

/-- The effect of a command on everything but the queue of waiting commands. -/
def exec (i : Instr) (s : State) : Host.Outcome State Fault Refusal :=
  match i with
  | .registerWrite src off size v => Sys2Proof.Machine.execRegisterWrite src off size v s
  | .add t rd ra rb z => Sys2Proof.Machine.execAdd t rd ra rb z s
  | .sub t rd ra rb z => Sys2Proof.Machine.execSub t rd ra rb z s
  | .and t rd ra rb z => Sys2Proof.Machine.execAnd t rd ra rb z s
  | .or t rd ra rb z => Sys2Proof.Machine.execOr t rd ra rb z s
  | .xor t rd ra rb z => Sys2Proof.Machine.execXor t rd ra rb z s
  | .shl t rd ra rb z => Sys2Proof.Machine.execShl t rd ra rb z s
  | .shr t rd ra rb z => Sys2Proof.Machine.execShr t rd ra rb z s
  | .sar t rd ra rb z => Sys2Proof.Machine.execSar t rd ra rb z s
  | .lt t rd ra rb z => Sys2Proof.Machine.execLt t rd ra rb z s
  | .ltu t rd ra rb z => Sys2Proof.Machine.execLtu t rd ra rb z s
  | .min t rd ra rb z => Sys2Proof.Machine.execMin t rd ra rb z s
  | .max t rd ra rb z => Sys2Proof.Machine.execMax t rd ra rb z s
  | .minu t rd ra rb z => Sys2Proof.Machine.execMinu t rd ra rb z s
  | .maxu t rd ra rb z => Sys2Proof.Machine.execMaxu t rd ra rb z s
  | .mul t rd ra rb z => Sys2Proof.Machine.execMul t rd ra rb z s
  | .mulx t rd ra rb z => Sys2Proof.Machine.execMulx t rd ra rb z s
  | .mulxu t rd ra rb z => Sys2Proof.Machine.execMulxu t rd ra rb z s
  | .add32 t rd ra rb z => Sys2Proof.Machine.execAdd32 t rd ra rb z s
  | .sub32 t rd ra rb z => Sys2Proof.Machine.execSub32 t rd ra rb z s
  | .clz t rd ra rb z => Sys2Proof.Machine.execClz t rd ra rb z s
  | .ctz t rd ra rb z => Sys2Proof.Machine.execCtz t rd ra rb z s
  | .popc t rd ra rb z => Sys2Proof.Machine.execPopc t rd ra rb z s
  | .addi t rd ra imm => Sys2Proof.Machine.execAddi t rd ra imm s
  | .andi t rd ra imm => Sys2Proof.Machine.execAndi t rd ra imm s
  | .ori t rd ra imm => Sys2Proof.Machine.execOri t rd ra imm s
  | .xori t rd ra imm => Sys2Proof.Machine.execXori t rd ra imm s
  | .lti t rd ra imm => Sys2Proof.Machine.execLti t rd ra imm s
  | .ltiu t rd ra imm => Sys2Proof.Machine.execLtiu t rd ra imm s
  | .shiftiShl t rd ra z amt => Sys2Proof.Machine.execShiftiShl t rd ra z amt s
  | .shiftiShr t rd ra z amt => Sys2Proof.Machine.execShiftiShr t rd ra z amt s
  | .shiftiSar t rd ra z amt => Sys2Proof.Machine.execShiftiSar t rd ra z amt s
  | .lih t rd ra imm => Sys2Proof.Machine.execLih t rd ra imm s
  | .ld8 t rd ra imm => Sys2Proof.Machine.execLd8 t rd ra imm s
  | .ld8u t rd ra imm => Sys2Proof.Machine.execLd8u t rd ra imm s
  | .ld16 t rd ra imm => Sys2Proof.Machine.execLd16 t rd ra imm s
  | .ld16u t rd ra imm => Sys2Proof.Machine.execLd16u t rd ra imm s
  | .ld32 t rd ra imm => Sys2Proof.Machine.execLd32 t rd ra imm s
  | .ld32u t rd ra imm => Sys2Proof.Machine.execLd32u t rd ra imm s
  | .ld64 t rd ra imm => Sys2Proof.Machine.execLd64 t rd ra imm s
  | .st8 t rs ra imm => Sys2Proof.Machine.execSt8 t rs ra imm s
  | .st16 t rs ra imm => Sys2Proof.Machine.execSt16 t rs ra imm s
  | .st32 t rs ra imm => Sys2Proof.Machine.execSt32 t rs ra imm s
  | .st64 t rs ra imm => Sys2Proof.Machine.execSt64 t rs ra imm s
  | .aaddw t rd ra rb => Sys2Proof.Machine.execAaddw t rd ra rb s
  | .aaddd t rd ra rb => Sys2Proof.Machine.execAaddd t rd ra rb s
  | .aswpw t rd ra rb => Sys2Proof.Machine.execAswpw t rd ra rb s
  | .aswpd t rd ra rb => Sys2Proof.Machine.execAswpd t rd ra rb s
  | .breq t ra rb off => Sys2Proof.Machine.execBreq t ra rb off s
  | .brne t ra rb off => Sys2Proof.Machine.execBrne t ra rb off s
  | .brlt t ra rb off => Sys2Proof.Machine.execBrlt t ra rb off s
  | .brge t ra rb off => Sys2Proof.Machine.execBrge t ra rb off s
  | .brltu t ra rb off => Sys2Proof.Machine.execBrltu t ra rb off s
  | .brgeu t ra rb off => Sys2Proof.Machine.execBrgeu t ra rb off s
  | .call t rd off => Sys2Proof.Machine.execCall t rd off s
  | .callr t rd ra imm => Sys2Proof.Machine.execCallr t rd ra imm s
  | .getc t rd ra z n => Sys2Proof.Machine.execGetc t rd ra z n s
  | .xchc t rd ra z n => Sys2Proof.Machine.execXchc t rd ra z n s
  | .orc t rd ra z n => Sys2Proof.Machine.execOrc t rd ra z n s
  | .andnc t rd ra z n => Sys2Proof.Machine.execAndnc t rd ra z n s
  | .hret t rd ra z => Sys2Proof.Machine.execHret t rd ra z s
  | .trap t rd ra z arg => Sys2Proof.Machine.execTrap t rd ra z arg s
  | .halt t rd ra z => Sys2Proof.Machine.execHalt t rd ra z s
  | .haltComplete t => Sys2Proof.Machine.execHaltComplete t s
  | .vsync t rd ra z => Sys2Proof.Machine.execVsync t rd ra z s
  | .trapEntry t => Sys2Proof.Machine.execTrapEntry t s
  | .sarm t rd ra rb imm => Sys2Proof.Machine.execSarm t rd ra rb imm s
  | .srearm t rd ra rb imm => Sys2Proof.Machine.execSrearm t rd ra rb imm s
  | .sstop t rd ra rb imm => Sys2Proof.Machine.execSstop t rd ra rb imm s
  | .sstopIdle t slot => Sys2Proof.Machine.execSstopIdle t slot s
  | .swait t rd ra rb imm => Sys2Proof.Machine.execSwait t rd ra rb imm s
  | .lloadDrain t rd ra rb hi => Sys2Proof.Machine.execLloadDrain t rd ra rb hi s
  | .lloadCut t rd ra rb hi => Sys2Proof.Machine.execLloadCut t rd ra rb hi s
  | .lwait t rd ra rb imm => Sys2Proof.Machine.execLwait t rd ra rb imm s
  | .fuse t rd ra rb imm => Sys2Proof.Machine.execFuse t rd ra rb imm s
  | .fwait t rd ra rb imm => Sys2Proof.Machine.execFwait t rd ra rb imm s
  | .csend t rd ra rb imm => Sys2Proof.Machine.execCsend t rd ra rb imm s
  | .crecv t rd ra rb imm => Sys2Proof.Machine.execCrecv t rd ra rb imm s
  | .cpoll t rd ra rb imm => Sys2Proof.Machine.execCpoll t rd ra rb imm s
  | .cclose t rd ra rb imm => Sys2Proof.Machine.execCclose t rd ra rb imm s
  | .ctrwait t rd ra rb imm => Sys2Proof.Machine.execCtrwait t rd ra rb imm s
  | .ctrset t rd ra rb imm => Sys2Proof.Machine.execCtrset t rd ra rb imm s
  | .bar t rd ra rb imm => Sys2Proof.Machine.execBar t rd ra rb imm s
  | .bara t rd ra rb imm => Sys2Proof.Machine.execBara t rd ra rb imm s
  | .barw t rd ra rb imm => Sys2Proof.Machine.execBarw t rd ra rb imm s
  | .waits t rd ra rb imm => Sys2Proof.Machine.execWaits t rd ra rb imm s
  | .trns t rd ra rb imm => Sys2Proof.Machine.execTrns t rd ra rb imm s
  | .vld t rd ra rb imm => Sys2Proof.Machine.execVld t rd ra rb imm s
  | .vst t rd ra rb imm => Sys2Proof.Machine.execVst t rd ra rb imm s
  | .tilCtrlGo t v => Sys2Proof.Machine.execTilCtrlGo t v s
  | .tilEntryWrite t v => Sys2Proof.Machine.execTilEntryWrite t v s
  | .tilGregWrite t j v => Sys2Proof.Machine.execTilGregWrite t j v s
  | .tilSrSeedWrite t v => Sys2Proof.Machine.execTilSrSeedWrite t v s
  | .tilSrCountWrite t j v => Sys2Proof.Machine.execTilSrCountWrite t j v s
  | .tilBankOwnerWrite t v => Sys2Proof.Machine.execTilBankOwnerWrite t v s
  | .tilArrivalWrite t j v => Sys2Proof.Machine.execTilArrivalWrite t j v s
  | .tilLatCtrClrWrite t v => Sys2Proof.Machine.execTilLatCtrClrWrite t v s
  | .tilPulBarWrite t j v => Sys2Proof.Machine.execTilPulBarWrite t j v s
  | .tilChqCfgWrite t j v => Sys2Proof.Machine.execTilChqCfgWrite t j v s
  | .tilChsCfgWrite t j v => Sys2Proof.Machine.execTilChsCfgWrite t j v s
  | .latticeLoadResult t => Sys2Proof.Machine.execLatticeLoadResult t s
  | .drainEnd t => Sys2Proof.Machine.execDrainEnd t s
  | .drainForced t => Sys2Proof.Machine.execDrainForced t s
  | .flushEnd t => Sys2Proof.Machine.execFlushEnd t s
  | .tokenArrival t u inp => Sys2Proof.Machine.execTokenArrival t u inp s
  | .tagDeadlock t u => Sys2Proof.Machine.execTagDeadlock t u s
  | .vxAdd t u => Sys2Proof.Machine.execVxAdd t u s
  | .vxSub t u => Sys2Proof.Machine.execVxSub t u s
  | .vxMul t u => Sys2Proof.Machine.execVxMul t u s
  | .vxFma t u => Sys2Proof.Machine.execVxFma t u s
  | .vxMin t u => Sys2Proof.Machine.execVxMin t u s
  | .vxMax t u => Sys2Proof.Machine.execVxMax t u s
  | .vxCvt t u => Sys2Proof.Machine.execVxCvt t u s
  | .vxQmx t u => Sys2Proof.Machine.execVxQmx t u s
  | .vxXadd t u => Sys2Proof.Machine.execVxXadd t u s
  | .vxRsum t u => Sys2Proof.Machine.execVxRsum t u s
  | .vxRmax t u => Sys2Proof.Machine.execVxRmax t u s
  | .vxCmplt t u => Sys2Proof.Machine.execVxCmplt t u s
  | .vxCmpeq t u => Sys2Proof.Machine.execVxCmpeq t u s
  | .vxPass t u => Sys2Proof.Machine.execVxPass t u s
  | .xfExp t => Sys2Proof.Machine.execXfExp t s
  | .xfLog t => Sys2Proof.Machine.execXfLog t s
  | .xfRcp t => Sys2Proof.Machine.execXfRcp t s
  | .xfRsq t => Sys2Proof.Machine.execXfRsq t s
  | .xfTanh t => Sys2Proof.Machine.execXfTanh t s
  | .stSel t u => Sys2Proof.Machine.execStSel t u s
  | .stBr t u => Sys2Proof.Machine.execStBr t u s
  | .stMrg t u => Sys2Proof.Machine.execStMrg t u s
  | .stFlt t u => Sys2Proof.Machine.execStFlt t u s
  | .stDly t u => Sys2Proof.Machine.execStDly t u s
  | .sqLoop t u => Sys2Proof.Machine.execSqLoop t u s
  | .sqIteration t u => Sys2Proof.Machine.execSqIteration t u s
  | .ldRead t u => Sys2Proof.Machine.execLdRead t u s
  | .svWrite t u => Sys2Proof.Machine.execSvWrite t u s
  | .svQmx t u => Sys2Proof.Machine.execSvQmx t u s
  | .cpXferInbound t => Sys2Proof.Machine.execCpXferInbound t s
  | .cpXferOutbound t => Sys2Proof.Machine.execCpXferOutbound t s
  | .mxMma t => Sys2Proof.Machine.execMxMma t s
  | .mxReadout t cell mask => Sys2Proof.Machine.execMxReadout t cell mask s
  | .streamValidate t slot => Sys2Proof.Machine.execStreamValidate t slot s
  | .streamSrc t slot => Sys2Proof.Machine.execStreamSrc t slot s
  | .streamDst t slot => Sys2Proof.Machine.execStreamDst t slot s
  | .streamLoop t slot => Sys2Proof.Machine.execStreamLoop t slot s
  | .streamMove t slot => Sys2Proof.Machine.execStreamMove t slot s
  | .streamAt t slot => Sys2Proof.Machine.execStreamAt t slot s
  | .streamWaitc t slot => Sys2Proof.Machine.execStreamWaitc t slot s
  | .streamSignal t slot => Sys2Proof.Machine.execStreamSignal t slot s
  | .streamEnd t slot => Sys2Proof.Machine.execStreamEnd t slot s
  | .streamPassEnd t slot => Sys2Proof.Machine.execStreamPassEnd t slot s
  | .streamRequestTimeout t slot => Sys2Proof.Machine.execStreamRequestTimeout t slot s
  | .memErrorReceive t => Sys2Proof.Machine.execMemErrorReceive t s
  | .fusedRecv t f => Sys2Proof.Machine.execFusedRecv t f s
  | .fusedArm t f => Sys2Proof.Machine.execFusedArm t f s
  | .fusedWait t f => Sys2Proof.Machine.execFusedWait t f s
  | .fusedSend t f => Sys2Proof.Machine.execFusedSend t f s
  | .fusedChain t f => Sys2Proof.Machine.execFusedChain t f s
  | .flitInjection t => Sys2Proof.Machine.execFlitInjection t s
  | .flitRoute t err => Sys2Proof.Machine.execFlitRoute t err s
  | .landing t => Sys2Proof.Machine.execLanding t s
  | .vesperPacketRoute t err => Sys2Proof.Machine.execVesperPacketRoute t err s
  | .vesperRegAccess => Sys2Proof.Machine.execVesperRegAccess s
  | .vesperScratchAccess => Sys2Proof.Machine.execVesperScratchAccess s
  | .vldResponse t => Sys2Proof.Machine.execVldResponse t s
  | .vldTimeout t => Sys2Proof.Machine.execVldTimeout t s
  | .barrierRootArrival root k => Sys2Proof.Machine.execBarrierRootArrival root k s
  | .barrierRelease root k => Sys2Proof.Machine.execBarrierRelease root k s
  | .publicationRecord t => Sys2Proof.Machine.execPublicationRecord t s
  | .faultLineSeen => Sys2Proof.Machine.execFaultLineSeen s
  | .abortLineSeen => Sys2Proof.Machine.execAbortLineSeen s
  | .chanMessageArrival t => Sys2Proof.Machine.execChanMessageArrival t s
  | .chanReplyAccepted t => Sys2Proof.Machine.execChanReplyAccepted t s
  | .chanReplyClosed t => Sys2Proof.Machine.execChanReplyClosed t s
  | .chanReplyRefused t => Sys2Proof.Machine.execChanReplyRefused t s
  | .chanReplyCredit t => Sys2Proof.Machine.execChanReplyCredit t s
  | .chanReplyTimeout t e => Sys2Proof.Machine.execChanReplyTimeout t e s
  | .calendarRequest ch ecc => Sys2Proof.Machine.execCalendarRequest ch ecc s
  | .calendarReturn ch => Sys2Proof.Machine.execCalendarReturn ch s
  | .openRequestArrival ch => Sys2Proof.Machine.execOpenRequestArrival ch s
  | .openAccess ch ecc => Sys2Proof.Machine.execOpenAccess ch ecc s
  | .combiningEntryFree ch => Sys2Proof.Machine.execCombiningEntryFree ch s
  | .lpddrReread ch ecc => Sys2Proof.Machine.execLpddrReread ch ecc s
  | .maintenanceSlot ch mr4 hot => Sys2Proof.Machine.execMaintenanceSlot ch mr4 hot s
  | .perBankRefresh ch b => Sys2Proof.Machine.execPerBankRefresh ch b s
  | .memCalCtrlWrite ch v => Sys2Proof.Machine.execMemCalCtrlWrite ch v s
  | .calendarDisableDone ch => Sys2Proof.Machine.execCalendarDisableDone ch s
  | .memCalTableWrite ch j v => Sys2Proof.Machine.execMemCalTableWrite ch j v s
  | .memGlbEnableWrite hi v => Sys2Proof.Machine.execMemGlbEnableWrite hi v s
  | .channelReactivate ch => Sys2Proof.Machine.execChannelReactivate ch s
  | .portTrain n => Sys2Proof.Machine.execPortTrain n s
  | .portDark n => Sys2Proof.Machine.execPortDark n s
  | .portDrain n => Sys2Proof.Machine.execPortDrain n s
  | .portResume n => Sys2Proof.Machine.execPortResume n s
  | .fabPortCfgWrite n v => Sys2Proof.Machine.execFabPortCfgWrite n v s
  | .trainingDone n pass212 pass106 partnerMask partnerMin snr locks => Sys2Proof.Machine.execTrainingDone n pass212 pass106 partnerMask partnerMin snr locks s
  | .trainingNoPartner n => Sys2Proof.Machine.execTrainingNoPartner n s
  | .parallaxDone n up => Sys2Proof.Machine.execParallaxDone n up s
  | .maintenanceCodewordSend n => Sys2Proof.Machine.execMaintenanceCodewordSend n s
  | .maintenanceCodewordReceive n count role state depth dark ex => Sys2Proof.Machine.execMaintenanceCodewordReceive n count role state depth dark ex s
  | .codewordReceive n errs pkts begun => Sys2Proof.Machine.execCodewordReceive n errs pkts begun s
  | .signalLost n => Sys2Proof.Machine.execSignalLost n s
  | .scheduledDelivery n => Sys2Proof.Machine.execScheduledDelivery n s
  | .glbTimeCfgWrite v => Sys2Proof.Machine.execGlbTimeCfgWrite v s
  | .frequencyLock => Sys2Proof.Machine.execFrequencyLock s
  | .markerTimeout => Sys2Proof.Machine.execMarkerTimeout s
  | .holdoverExpiry => Sys2Proof.Machine.execHoldoverExpiry s
  | .discoverSend n => Sys2Proof.Machine.execDiscoverSend n s
  | .discoverReceive n => Sys2Proof.Machine.execDiscoverReceive n s
  | .neighbourStale n => Sys2Proof.Machine.execNeighbourStale n s
  | .rteSelfWrite v => Sys2Proof.Machine.execRteSelfWrite v s
  | .rteJoin => Sys2Proof.Machine.execRteJoin s
  | .rteLeave => Sys2Proof.Machine.execRteLeave s
  | .rteTableWrite tab k v => Sys2Proof.Machine.execRteTableWrite tab k v s
  | .drainNoticeReceive n => Sys2Proof.Machine.execDrainNoticeReceive n s
  | .portDrained n => Sys2Proof.Machine.execPortDrained n s
  | .portDrainTimeout n => Sys2Proof.Machine.execPortDrainTimeout n s
  | .resumeNoticeReceive n => Sys2Proof.Machine.execResumeNoticeReceive n s
  | .edgeFlitTake n => Sys2Proof.Machine.execEdgeFlitTake n s
  | .controlPacketSend n m => Sys2Proof.Machine.execControlPacketSend n m s
  | .creditPacketSend n => Sys2Proof.Machine.execCreditPacketSend n s
  | .creditPacketReceive n => Sys2Proof.Machine.execCreditPacketReceive n s
  | .fabPktRoute => Sys2Proof.Machine.execFabPktRoute s
  | .fragmentReassembly => Sys2Proof.Machine.execFragmentReassembly s
  | .reassemblyTimeout k => Sys2Proof.Machine.execReassemblyTimeout k s
  | .barArriveReceive n => Sys2Proof.Machine.execBarArriveReceive n s
  | .barReleaseReceive n => Sys2Proof.Machine.execBarReleaseReceive n s
  | .gbarReleaseSignal k => Sys2Proof.Machine.execGbarReleaseSignal k s
  | .rteGbarWrite k v => Sys2Proof.Machine.execRteGbarWrite k v s
  | .rteNova => Sys2Proof.Machine.execRteNova s
  | .novaReceive n job eid reason start => Sys2Proof.Machine.execNovaReceive n job eid reason start s
  | .startCycle => Sys2Proof.Machine.execStartCycle s
  | .jobDrainBegin => Sys2Proof.Machine.execJobDrainBegin s
  | .drainingEnd => Sys2Proof.Machine.execDrainingEnd s
  | .drainingTimeout => Sys2Proof.Machine.execDrainingTimeout s
  | .aprLpddrRead off len => Sys2Proof.Machine.execAprLpddrRead off len s
  | .aprLpddrWrite off data => Sys2Proof.Machine.execAprLpddrWrite off data s
  | .aprScratchAccess write off len data => Sys2Proof.Machine.execAprScratchAccess write off len data s
  | .hostReadTimeout id => Sys2Proof.Machine.execHostReadTimeout id s
  | .hostWriteTimeout id => Sys2Proof.Machine.execHostWriteTimeout id s
  | .pcieLinkDown => Sys2Proof.Machine.execPcieLinkDown s
  | .obsAprSegWrite seg v => Sys2Proof.Machine.execObsAprSegWrite seg v s
  | .mbxLockRead src k off size => Sys2Proof.Machine.execMbxLockRead src k off size s
  | .mbxLockWrite src k off size => Sys2Proof.Machine.execMbxLockWrite src k off size s
  | .mbxContentWrite src k off data => Sys2Proof.Machine.execMbxContentWrite src k off data s
  | .mbxPost src k => Sys2Proof.Machine.execMbxPost src k s
  | .mbxTake src k => Sys2Proof.Machine.execMbxTake src k s
  | .mbxBreak src v => Sys2Proof.Machine.execMbxBreak src v s
  | .replyLockRetry k => Sys2Proof.Machine.execReplyLockRetry k s
  | .commandTimeout k => Sys2Proof.Machine.execCommandTimeout k s
  | .getInfo k => Sys2Proof.Machine.execGetInfo k s
  | .start k => Sys2Proof.Machine.execStart k s
  | .hold k => Sys2Proof.Machine.execHold k s
  | .release k => Sys2Proof.Machine.execRelease k s
  | .configSelect k => Sys2Proof.Machine.execConfigSelect k s
  | .configWrite k => Sys2Proof.Machine.execConfigWrite k s
  | .fwUpdateWrite k => Sys2Proof.Machine.execFwUpdateWrite k s
  | .fwUpdateRaiseFloor k => Sys2Proof.Machine.execFwUpdateRaiseFloor k s
  | .resetTile k => Sys2Proof.Machine.execResetTile k s
  | .resetDie k => Sys2Proof.Machine.execResetDie k s
  | .resetChannel k => Sys2Proof.Machine.execResetChannel k s
  | .resetPort k => Sys2Proof.Machine.execResetPort k s
  | .resetObservatory k => Sys2Proof.Machine.execResetObservatory k s
  | .resetModuleWarm k => Sys2Proof.Machine.execResetModuleWarm k s
  | .resetDone dom idx badTiles => Sys2Proof.Machine.execResetDone dom idx badTiles s
  | .resetEscalation dom idx => Sys2Proof.Machine.execResetEscalation dom idx s
  | .tileRetire t routerFailed => Sys2Proof.Machine.execTileRetire t routerFailed s
  | .columnRemap die col => Sys2Proof.Machine.execColumnRemap die col s
  | .fenceTile k => Sys2Proof.Machine.execFenceTile k s
  | .fenceDie k => Sys2Proof.Machine.execFenceDie k s
  | .fenceChannel k => Sys2Proof.Machine.execFenceChannel k s
  | .fenceModule k => Sys2Proof.Machine.execFenceModule k s
  | .unfence k => Sys2Proof.Machine.execUnfence k s
  | .eclipseDrainEnd dom idx => Sys2Proof.Machine.execEclipseDrainEnd dom idx s
  | .selfTest k found => Sys2Proof.Machine.execSelfTest k found s
  | .testContent k => Sys2Proof.Machine.execTestContent k s
  | .logRead k => Sys2Proof.Machine.execLogRead k s
  | .almanacRead k => Sys2Proof.Machine.execAlmanacRead k s
  | .conjunction k => Sys2Proof.Machine.execConjunction k s
  | .conjunctionStart => Sys2Proof.Machine.execConjunctionStart s
  | .conjunctionReleaseTimeout => Sys2Proof.Machine.execConjunctionReleaseTimeout s
  | .adoptTake k => Sys2Proof.Machine.execAdoptTake k s
  | .adoptSource k => Sys2Proof.Machine.execAdoptSource k s
  | .adoptPortsDrained => Sys2Proof.Machine.execAdoptPortsDrained s
  | .adoptPortDeadline => Sys2Proof.Machine.execAdoptPortDeadline s
  | .adoptCopyStart => Sys2Proof.Machine.execAdoptCopyStart s
  | .adoptDigestCompare theirs => Sys2Proof.Machine.execAdoptDigestCompare theirs s
  | .adoptCopyRetry => Sys2Proof.Machine.execAdoptCopyRetry s
  | .adoptPacketGap => Sys2Proof.Machine.execAdoptPacketGap s
  | .rtePlaceWrite need v => Sys2Proof.Machine.execRtePlaceWrite need v s
  | .i3cVendorMessage mt write off size v => Sys2Proof.Machine.execI3cVendorMessage mt write off size v s
  | .pldmSensorRefresh => Sys2Proof.Machine.execPldmSensorRefresh s
  | .i3cTargetReset => Sys2Proof.Machine.execI3cTargetReset s
  | .spdmGetVersion => Sys2Proof.Machine.execSpdmGetVersion s
  | .spdmGetCapabilities => Sys2Proof.Machine.execSpdmGetCapabilities s
  | .spdmNegotiateAlgorithms => Sys2Proof.Machine.execSpdmNegotiateAlgorithms s
  | .spdmGetDigests => Sys2Proof.Machine.execSpdmGetDigests s
  | .spdmGetCertificate off len => Sys2Proof.Machine.execSpdmGetCertificate off len s
  | .spdmChallenge nonce => Sys2Proof.Machine.execSpdmChallenge nonce s
  | .spdmGetMeasurements index sign nonce => Sys2Proof.Machine.execSpdmGetMeasurements index sign nonce s
  | .bootSequence fail badTiles badChans => Sys2Proof.Machine.execBootSequence fail badTiles badChans s
  | .scanInstruction ir => Sys2Proof.Machine.execScanInstruction ir s
  | .scanEclipse => Sys2Proof.Machine.execScanEclipse s
  | .errorRecordArrival n => Sys2Proof.Machine.execErrorRecordArrival n s
  | .logWrite => Sys2Proof.Machine.execLogWrite s
  | .checksumResponse t => Sys2Proof.Machine.execChecksumResponse t s
  | .almanacAppend => Sys2Proof.Machine.execAlmanacAppend s
  | .transitDue t => Sys2Proof.Machine.execTransitDue t s
  | .transitEnter t => Sys2Proof.Machine.execTransitEnter t s
  | .transitClassify t kernel expected got runs => Sys2Proof.Machine.execTransitClassify t kernel expected got runs s
  | .transitEnd t => Sys2Proof.Machine.execTransitEnd t s
  | .bgRegionStart t => Sys2Proof.Machine.execBgRegionStart t s
  | .bgRedirect t => Sys2Proof.Machine.execBgRedirect t s
  | .bgMarchEnd t bad runs => Sys2Proof.Machine.execBgMarchEnd t bad runs s
  | .bgRegionAbandon t => Sys2Proof.Machine.execBgRegionAbandon t s
  | .errConfigWrite which v => Sys2Proof.Machine.execErrConfigWrite which v s
  | .hangEvaluation => Sys2Proof.Machine.execHangEvaluation s
  | .rstHangCfgWrite v => Sys2Proof.Machine.execRstHangCfgWrite v s
  | .perstLow => Sys2Proof.Machine.execPerstLow s
  | .perstHigh => Sys2Proof.Machine.execPerstHigh s
  | .pwrEnRise => Sys2Proof.Machine.execPwrEnRise s
  | .senseContactMate => Sys2Proof.Machine.execSenseContactMate s
  | .railFault r => Sys2Proof.Machine.execRailFault r s
  | .powerOff => Sys2Proof.Machine.execPowerOff s
  | .refclkLoss => Sys2Proof.Machine.execRefclkLoss s
  | .refclkRestore => Sys2Proof.Machine.execRefclkRestore s
  | .envSample temps mv power avg1s avg10ms coreMv coreCur rails coreOver inputOver => Sys2Proof.Machine.execEnvSample temps mv power avg1s avg10ms coreMv coreCur rails coreOver inputOver s
  | .throttleRaise => Sys2Proof.Machine.execThrottleRaise s
  | .throttleLower => Sys2Proof.Machine.execThrottleLower s
  | .thermalTrip sensor => Sys2Proof.Machine.execThermalTrip sensor s
  | .pwrEnvCfgWrite v => Sys2Proof.Machine.execPwrEnvCfgWrite v s
  | .waitsComplete t => Sys2Proof.Machine.execWaitsComplete t s
  | .rcFieldRead src off size => Sys2Proof.Machine.execRcFieldRead src off size s

end Sys2Proof.Machine
end

