-- ==== Sys2Proof/Machine/Tick.lean ====
section
/-! DEFINITION. The passing of time. -/
namespace Sys2Proof.Machine

/-- The counts of one tile clock cycle: the model's cycles and the sidereal count (R3, R322) go up by 1. -/
def State.count (s : State) : State :=
  { s with cycle := s.cycle + 1, started := none, sidereal := (s.sidereal + 1) % 2 ^ 64, gated := s.gated + s.gatedNow.toNat
           regs := { s.regs with now := s.cycle + 1 }
           chans := s.chans.mapVals (fun _ h => { h with regs := { h.regs with now := s.cycle + 1 } }) }

/-- Accesses of the rack controller whose target gives no answer within 200 us end with TIMEOUT (R395). -/
def State.vendLate (s : State) : State :=
  let late := s.vend.filter (fun v => decide (v.2 + 400000 ≤ s.cycle))
  late.foldl (fun (s : State) _ => s.put (.vendor 7 0)) { s with vend := s.vend.filter (fun v => decide (s.cycle < v.2 + 400000)) }

/-- One tile clock cycle passes: the background test engines make the accesses of the cycle that ends, the counts go up, and every tile does what it does by itself in the new cycle. What comes from outside
a unit happens when its command comes (log entry 1). DESIGN CHOICE. -/
def State.tick (s : State) : State :=
  s.tiles.keys.foldl (fun (s : State) t => s.onTile t fun _ tl => (tl, [])) (s.bg.keys.foldl State.bgAdvance s).count.vendLate

end Sys2Proof.Machine
end

