-- ==== Sys2Proof/Safety.lean ====
section
/-! DEFINITION. The terms in which claims about a run are made: a tile as a command finds it, an instruction at its boundary,
what an instruction leaves of a tile, and the memories in their canonical form. -/
namespace Sys2Proof.Machine

/-- Tile `t` brought up to the present cycle, as the next command on it finds it. -/
def State.seen (s : State) (t : Nat) : Tile := ((s.tile t).sync (s.ctx t)).1
/-- What tile `t` hands to the rest of the module while it is brought up to the present. -/
def State.seenOuts (s : State) (t : Nat) : List Out := ((s.tile t).sync (s.ctx t)).2
/-- The tile at its sequencer's boundary: a blocked instruction whose condition holds has completed. -/
def State.bound (s : State) (t : Nat) : Tile := (s.seen t).settle (s.ctx t)
/-- What the fetch of the line that holds the pc comes to at the boundary (R87, R159). -/
def State.fetched (s : State) (t : Nat) : Except Tile (Tile × List Out) := (s.bound t).fetchLine (s.ctx t)
/-- The tile with its next word fetched, as that instruction finds it. -/
def State.at_ (s : State) (t : Nat) : Tile := match s.fetched t with | .ok p => p.1 | .error x => x
/-- What an access hands out that the fetch makes give way. -/
def State.atOuts (s : State) (t : Nat) : List Out := match s.fetched t with | .ok p => p.2 | .error _ => []

/-- The module after a command whose effect on tile `t` is the tile `x` and which hands out `outs`. -/
def State.withTile (t : Nat) (x : Tile) (outs : List Out) (s : State) : State :=
  ((({ s with fresh := s.fresh + 1 } : State).setTile t x).tileMoved t (s.tile t).st x.st).emits false t (s.seenOuts t ++ outs)

/-- The module after an instruction of tile `t` that comes to the tile `x` and hands out `outs`. -/
def State.ran (t : Nat) (x : Tile) (outs : List Out) (s : State) : State := s.withTile t x (s.atOuts t ++ outs)

/-- Tile `t` is at an instruction boundary (R77), in a cycle that throttling does not gate (R517). -/
def State.Boundary (s : State) (t : Nat) : Prop := t < 2304 ∧ s.gatedNow = false ∧ (s.bound t).atBoundary (s.ctx t) = true

/-- Tile `t` is RUNNING, at an instruction boundary, and its pc, which lies in its scratchpad, names the word `w` (R77), whose line the
bank gives it in this cycle (R159). -/
def State.Fetches (s : State) (t : Nat) (w : BitVec 32) : Prop :=
  s.Boundary t ∧ (s.bound t).seq.pc.toNat < (s.bound t).size ∧ (s.bound t).fetch = w ∧ (s.fetched t).isOk = true ∧
  (s.at_ t).st = .running

/-- No asynchronous trap is to be taken at this boundary (R103). -/
def State.Quiet (s : State) (t : Nat) : Prop := (s.at_ t).dueTrap (s.ctx t) = none

/-- `x` is `b` after an instruction that ends here with result `v` in `rd` and changes nothing else of the tile: `rd` (unless it is
g0) takes `v`, the pc goes to the next word, and one more instruction is retired (R76, R77). -/
def Tile.Writes (b x : Tile) (rd : BitVec 5) (v : Word) : Prop :=
  x.gr rd = (if rd = 0 then 0 else v) ∧ (∀ r, r ≠ rd → x.gr r = b.gr r) ∧ x.seq.pc = b.seq.pc + 4 ∧
  x.seq.retired = b.seq.retired + 1 ∧
  x = { b with seq := { b.seq with g := x.seq.g, pc := x.seq.pc, retired := x.seq.retired } }

/-- `x` is `b` after an instruction that ends here with no result, at pc `target`, and changes nothing else of the tile. -/
def Tile.Goes (b x : Tile) (target : Word) : Prop :=
  x = { b with seq := { b.seq with pc := target, retired := b.seq.retired + 1 } }

/-- `x` is `b` after trap entry with a code (R102): the handler registers hold the trap, the pc is at the vector, and nothing else of
the tile changes but the trap_taken status bit. -/
def Tile.Traps (b x : Tile) (c : Ctx) (code : Nat) (async : Bool) (resume arg : Word) : Prop :=
  x = { b with
    regs := b.regs.hwSet F.TIL_SEQ_STATUS.again_count F.TIL_SEQ_STATUS.trap_taken 0 0 c.cycle 1,
    seq := { b.seq with hresume := resume, hcode := BitVec.ofNat 64 (code + if async then 256 else 0), harg := arg, inHandler := true,
                        pc := (b.seq.hbase &&& 0xFFFFFFFFFFFFFE00#64) + BitVec.ofNat 64 (16 * code) } }

/-- The conditions under which a trap is entered and does not stop the tile (R104). -/
def Tile.CanTrap (b : Tile) : Prop := b.seq.inHandler = false ∧ b.seq.hbase &&& 0xFFFFFFFFFFFFFE00#64 ≠ 0

/-- Every tile but `t`, and every memory outside it, as before: what a command on one tile leaves of the module. -/
def State.OnlyTile (s s' : State) (t : Nat) : Prop :=
  (∀ u, u ≠ t → s'.tile u = s.tile u) ∧ s'.chans = s.chans ∧ s'.ports = s.ports ∧ s'.mbx = s.mbx ∧ s'.flash = s.flash ∧
  s'.log = s.log ∧ s'.st = s.st ∧ s'.cycle = s.cycle ∧ s'.sidereal = s.sidereal ∧ s'.pending = s.pending

/-- The module's own memories are in canonical form: mailbox payloads (unlisted bytes read 0) and the NOR flash (0xFF). -/
def State.MemoriesOk (s : State) : Prop := Mem.wf 0 s.mbx = true ∧ Mem.wf 0xFF s.flash = true

/-- No bank port is taken in a coming cycle (R159). -/
def Tile.PortsIdle (b : Tile) (c : Ctx) : Prop := ∀ g ∈ b.bank.grants, g.at_ ≤ c.cycle

/-- A fused arm step has armed the slot in cycle `k` (R192). -/
def Slot.justArmed (sl : Slot) (k : Nat) : Prop := sl.heldBy ≠ none ∧ sl.st = .arming ∧ sl.got = [] ∧ sl.due = k + 1
/-- A fused arm step has re-armed the slot in cycle `k` (R192). -/
def Slot.justRearmed (sl : Slot) (k : Nat) : Prop := sl.heldBy ≠ none ∧ sl.baseAt = some (k + 1)

/-! ### The tables of the tile sequencer, row by row (chapter 3) -/

/-- Table 3-4: the rows of two operands with their func and their result. -/
def aluRows : List ((Nat → BitVec 5 → BitVec 5 → BitVec 5 → BitVec 5 → Instr) × Nat × (Word → Word → Word)) :=
  [(.add, 0x00, fun a b => a + b), (.sub, 0x01, fun a b => a - b), (.and, 0x02, fun a b => a &&& b),
   (.or, 0x03, fun a b => a ||| b), (.xor, 0x04, fun a b => a ^^^ b), (.shl, 0x05, fun a b => a <<< (b.toNat % 64)),
   (.shr, 0x06, fun a b => a >>> (b.toNat % 64)), (.sar, 0x07, fun a b => BitVec.ofInt 64 (a.toInt / 2 ^ (b.toNat % 64))),
   (.lt, 0x08, fun a b => if a.toInt < b.toInt then 1 else 0), (.ltu, 0x09, fun a b => if a.toNat < b.toNat then 1 else 0),
   (.min, 0x0A, fun a b => BitVec.ofInt 64 (min a.toInt b.toInt)), (.max, 0x0B, fun a b => BitVec.ofInt 64 (max a.toInt b.toInt)),
   (.minu, 0x0C, fun a b => BitVec.ofNat 64 (min a.toNat b.toNat)), (.maxu, 0x0D, fun a b => BitVec.ofNat 64 (max a.toNat b.toNat)),
   (.mul, 0x10, fun a b => a * b), (.mulx, 0x11, fun a b => BitVec.ofInt 64 (a.toInt * b.toInt / 2 ^ 64)),
   (.mulxu, 0x12, fun a b => BitVec.ofNat 64 (a.toNat * b.toNat / 2 ^ 64)),
   (.add32, 0x14, fun a b => ((a + b).extractLsb' 0 32).signExtend 64),
   (.sub32, 0x15, fun a b => ((a - b).extractLsb' 0 32).signExtend 64)]

/-- Table 3-3: the immediate rows with their opcode and their result. -/
def immRows : List ((Nat → BitVec 5 → BitVec 5 → BitVec 16 → Instr) × Nat × (Word → BitVec 16 → Word)) :=
  [(.addi, 0x02, fun a i => a + i.signExtend 64), (.andi, 0x03, fun a i => a &&& i.zeroExtend 64),
   (.ori, 0x04, fun a i => a ||| i.zeroExtend 64), (.xori, 0x05, fun a i => a ^^^ i.zeroExtend 64),
   (.lti, 0x06, fun a i => if a.toInt < i.toInt then 1 else 0),
   (.ltiu, 0x07, fun a i => if a.toNat < (i.signExtend 64).toNat then 1 else 0)]

/-- SHIFTI's functions with bits 15:14 and the result. -/
def shiftRows : List ((Nat → BitVec 5 → BitVec 5 → BitVec 8 → BitVec 6 → Instr) × Nat × (Word → Nat → Word)) :=
  [(.shiftiShl, 0, fun a n => a <<< n), (.shiftiShr, 1, fun a n => a >>> n),
   (.shiftiSar, 2, fun a n => BitVec.ofInt 64 (a.toInt / 2 ^ n))]

/-- The loads: opcode, bytes, and whether the loaded number is sign-extended. -/
def loadRows : List ((Nat → BitVec 5 → BitVec 5 → BitVec 16 → Instr) × Nat × Nat × Bool) :=
  [(.ld8, 0x10, 1, true), (.ld8u, 0x11, 1, false), (.ld16, 0x12, 2, true), (.ld16u, 0x13, 2, false),
   (.ld32, 0x14, 4, true), (.ld32u, 0x15, 4, false), (.ld64, 0x16, 8, false)]

/-- The stores: opcode and bytes. -/
def storeRows : List ((Nat → BitVec 5 → BitVec 5 → BitVec 16 → Instr) × Nat × Nat) :=
  [(.st8, 0x18, 1), (.st16, 0x19, 2), (.st32, 0x1A, 4), (.st64, 0x1B, 8)]

/-- The atomics: func, bytes, and whether the operand is added (else it replaces). -/
def atomRows : List ((Nat → BitVec 5 → BitVec 5 → BitVec 5 → Instr) × Nat × Nat × Bool) :=
  [(.aaddw, 0, 4, true), (.aaddd, 1, 8, true), (.aswpw, 2, 4, false), (.aswpd, 3, 8, false)]

/-- The branches: opcode and comparison. -/
def branchRows : List ((Nat → BitVec 5 → BitVec 5 → BitVec 16 → Instr) × Nat × (Word → Word → Bool)) :=
  [(.breq, 0x20, fun a b => decide (a = b)), (.brne, 0x21, fun a b => decide (a ≠ b)),
   (.brlt, 0x22, fun a b => decide (a.toInt < b.toInt)), (.brge, 0x23, fun a b => decide (b.toInt ≤ a.toInt)),
   (.brltu, 0x24, fun a b => decide (a.toNat < b.toNat)), (.brgeu, 0x25, fun a b => decide (b.toNat ≤ a.toNat))]

/-- A number of `n` bytes as a register word, sign- or zero-extended. -/
def widen (n : Nat) (signed : Bool) (v : Nat) : Word :=
  if signed then BitVec.ofInt 64 (if v < 2 ^ (8 * n - 1) then (v : Int) else (v : Int) - 2 ^ (8 * n)) else BitVec.ofNat 64 v

/-- An access of `n` bytes at `a` is allowed: naturally aligned and inside the scratchpad (R84). -/
def Tile.Allows (b : Tile) (a : Word) (n : Nat) : Prop := a.toNat % n = 0 ∧ a.toNat + n ≤ b.size

/-- `x`'s scratchpad is `b`'s with the low `n` bytes of `v` at `a`, little-endian, every other byte as before; both are well formed. -/
def Tile.Stored (b x : Tile) (a n : Nat) (v : Nat) : Prop :=
  (∀ k, k < n → Mem.get 0 x.spad (a + k) = BitVec.ofNat 8 (v / 256 ^ k)) ∧
  (∀ k, k < a ∨ a + n ≤ k → Mem.get 0 x.spad k = Mem.get 0 b.spad k) ∧ Mem.wf 0 x.spad = true

/-- Two tiles that differ at most in their scratchpads and in what their bank ports hold. -/
def Tile.SameButSpad (b x : Tile) : Prop := x = { b with spad := x.spad, bank := x.bank }

/-- Two tiles that differ at most in what their bank ports hold. -/
def Tile.SameButBank (b x : Tile) : Prop := x = { b with bank := x.bank }

/-- `x` is `b` after a cycle in which an access waited: nothing has changed but its bank's record of waits and TIL_BANK_WAIT (R160). -/
def Tile.Waits (b x : Tile) : Prop :=
  x = { b with bank := x.bank, regs := x.regs } ∧
  ∀ (f : Fld) (j : Nat), (∀ g ∈ Reg.fields .TIL_BANK_WAIT, f.id ≠ g.id) → x.rd f j = b.rd f j

/-- A bank port is free for `n` bytes at `a` in this cycle: it has granted nothing to another access (R159). -/
def Tile.PortFree (b : Tile) (c : Ctx) (write : Bool) (a n : Nat) : Prop := ∀ k ∈ b.banksOf a n, b.grant? c.cycle k write = none

/-- A write of `n` bytes at `a` lands in this cycle and is the last one there: the write ports are free, no atomic is in progress on its
bytes, and no write that gave way comes after it (R161, R165). -/
def Tile.WriteFree (b : Tile) (c : Ctx) (a n : Nat) : Prop :=
  b.PortFree c true a n ∧ b.inAtomic c.cycle a n = false ∧ ∀ g ∈ b.bank.grants, g.write = true → c.cycle < g.at_ → g.bytes = []

/-- The units of each class in R159's order: STR, LAT, SEQ, with the code of the class (Table 5-1). -/
def bankClasses : List (Nat × List BankUnit) :=
  [(1, (List.range 8).map .slot ++ (List.range 4).map .fused), (2, [.load, .transit]), (0, [.fetch, .data, .chan, .vesper])]

/-- The order in which a port of a bank grants, for owner class `o` (R159): LND, the owner's accesses, then the other classes'. -/
def bankOrder (o : Nat) : List BankUnit :=
  .landing :: ((bankClasses.filter (fun p => p.1 == o)).flatMap (·.2) ++ (bankClasses.filter (fun p => p.1 != o)).flatMap (·.2))

/-- No port of a bank is granted twice in one cycle (R159). -/
def Tile.OneGrant (b : Tile) : Prop :=
  b.bank.grants.Pairwise (fun g h => (g.at_, g.bank, g.write) ≠ (h.at_, h.bank, h.write))

/-- `x` is `b` blocked on a wait that begins in this cycle, its result to go to `rd`, and nothing else changed (R94). -/
def Tile.Blocks (b x : Tile) (c : Ctx) (rd : BitVec 5) (w : Wait) : Prop :=
  x = { b with seq := { b.seq with blk := some ⟨w, rd⟩, since := c.sidereal, sinceCycle := c.cycle } }

/-- An address operand: aligned, with `len` bytes inside the scratchpad (R90). -/
def Tile.InPad (b : Tile) (v : Word) (al len : Nat) : Prop := v.toNat % al = 0 ∧ v.toNat + len ≤ b.size

/-- Table 3-1: every listed control register with its content. -/
def controlRows (c : Ctx) (b : Tile) : List (BitVec 8 × Word) :=
  [(0x00, match b.seq.entered with | some e => BitVec.ofNat 64 (c.cycle - e) | none => 0), (0x01, BitVec.ofNat 64 c.sidereal),
   (0x02, BitVec.ofNat 64 (c.tile + c.tile % 48 * 2 ^ 16 + c.tile / 48 * 2 ^ 24)), (0x03, BitVec.ofNat 64 b.seq.job),
   (0x04, b.seq.start), (0x08, b.seq.hbase), (0x09, b.seq.hcode), (0x0A, b.seq.hresume), (0x0B, b.seq.harg),
   (0x0C, if b.seq.inHandler then 1 else 0), (0x10, b.seq.hsave0), (0x11, b.seq.hsave1), (0x18, b.seq.retired)]

/-- The RW registers of Table 3-1: number, content, and the sequencer with another content. -/
def controlRw : List (BitVec 8 × (Seq → Word) × (Seq → Word → Seq)) :=
  [(0x08, (·.hbase), fun q v => { q with hbase := v }), (0x09, (·.hcode), fun q v => { q with hcode := v &&& 0x1FF }),
   (0x0A, (·.hresume), fun q v => { q with hresume := v }), (0x0B, (·.harg), fun q v => { q with harg := v }),
   (0x10, (·.hsave0), fun q v => { q with hsave0 := v }), (0x11, (·.hsave1), fun q v => { q with hsave1 := v })]

/-- The control instructions that write: function, and the register's new content from the old one and ra. -/
def controlOps : List ((Nat → BitVec 5 → BitVec 5 → BitVec 4 → BitVec 8 → Instr) × Nat × (Word → Word → Word)) :=
  [(.xchc, 1, fun _ v => v), (.orc, 2, fun o v => o ||| v), (.andnc, 3, fun o v => o &&& ~~~v)]

/-- Table 3-8: the commands of register form with their cop and the fields that must be g0 or 0. -/
def cmdRows : List ((Nat → BitVec 5 → BitVec 5 → BitVec 5 → BitVec 5 → Instr) × Nat × (BitVec 5 → BitVec 5 → BitVec 5 → Bool)) :=
  [(.sarm, 0x00, fun _ _ i => decide (8 ≤ i.toNat)), (.srearm, 0x01, fun a _ i => decide (a ≠ 0 ∨ 8 ≤ i.toNat)),
   (.sstop, 0x02, fun a b i => decide (a ≠ 0 ∨ b ≠ 0 ∨ 8 ≤ i.toNat)), (.swait, 0x03, fun a b i => decide (a ≠ 0 ∨ b ≠ 0 ∨ 8 ≤ i.toNat)),
   (.lwait, 0x05, fun a b i => decide (a ≠ 0 ∨ b ≠ 0 ∨ i ≠ 0)), (.fuse, 0x08, fun _ b i => decide (b ≠ 0 ∨ 4 ≤ i.toNat)),
   (.fwait, 0x09, fun a b i => decide (a ≠ 0 ∨ b ≠ 0 ∨ 4 ≤ i.toNat)), (.csend, 0x0C, fun _ _ i => decide (i ≠ 0)),
   (.crecv, 0x0D, fun _ _ i => decide (i ≠ 0)), (.cpoll, 0x0E, fun _ _ i => decide (i ≠ 0)),
   (.cclose, 0x0F, fun a _ i => decide (a ≠ 0 ∨ i ≠ 0)), (.ctrwait, 0x14, fun _ _ i => decide (i ≠ 0)),
   (.ctrset, 0x15, fun _ _ i => decide (i ≠ 0)), (.bar, 0x18, fun a b _ => decide (a ≠ 0 ∨ b ≠ 0)),
   (.bara, 0x19, fun a b _ => decide (a ≠ 0 ∨ b ≠ 0)), (.barw, 0x1A, fun a b _ => decide (a ≠ 0 ∨ b ≠ 0)),
   (.waits, 0x1C, fun _ b i => decide (b ≠ 0 ∨ 2 ≤ i.toNat)), (.trns, 0x1D, fun a b i => decide (a ≠ 0 ∨ b ≠ 0 ∨ i ≠ 0)),
   (.vld, 0x20, fun _ b i => decide (b ≠ 0 ∨ i ≠ 0)), (.vst, 0x21, fun _ _ i => decide (i ≠ 0))]

/-- The forms with a must-be-0 field that is not 0 (R82): the command, its tile and its word. -/
inductive IllegalForm : Instr → Nat → BitVec 32 → Prop where
  | alu (e) (he : e ∈ aluRows) (t rd ra rb z) (hz : z ≠ 0) : IllegalForm (e.1 t rd ra rb z) t (encAlu e.2.1 rd ra rb z)
  | clz (t rd ra rb z) (h : z ≠ 0 ∨ rb ≠ 0) : IllegalForm (.clz t rd ra rb z) t (encAlu 0x1C rd ra rb z)
  | ctz (t rd ra rb z) (h : z ≠ 0 ∨ rb ≠ 0) : IllegalForm (.ctz t rd ra rb z) t (encAlu 0x1D rd ra rb z)
  | popc (t rd ra rb z) (h : z ≠ 0 ∨ rb ≠ 0) : IllegalForm (.popc t rd ra rb z) t (encAlu 0x1E rd ra rb z)
  | shift (e) (he : e ∈ shiftRows) (t rd ra z amt) (hz : z ≠ 0) : IllegalForm (e.1 t rd ra z amt) t (encShifti e.2.1 rd ra z amt)
  | lih (t rd ra imm) (h : ra ≠ 0) : IllegalForm (.lih t rd ra imm) t (encWord 0x09 rd ra imm)
  | getc (t rd ra z n) (h : ra ≠ 0 ∨ z ≠ 0) : IllegalForm (.getc t rd ra z n) t (encSys 0 rd ra (z ++ n))
  | control (e) (he : e ∈ controlOps) (t rd ra z n) (h : z ≠ 0) : IllegalForm (e.1 t rd ra z n) t (encSys e.2.1 rd ra (z ++ n))
  | hret (t rd ra z) (h : rd ≠ 0 ∨ ra ≠ 0 ∨ z ≠ 0) : IllegalForm (.hret t rd ra z) t (encSys 8 rd ra z)
  | trap (t rd ra z n) (h : rd ≠ 0 ∨ ra ≠ 0 ∨ z ≠ 0) : IllegalForm (.trap t rd ra z n) t (encSys 9 rd ra (z ++ n))
  | halt (t rd ra z) (h : rd ≠ 0 ∨ ra ≠ 0 ∨ z ≠ 0) : IllegalForm (.halt t rd ra z) t (encSys 10 rd ra z)
  | vsync (t rd ra z) (h : rd ≠ 0 ∨ ra ≠ 0 ∨ z ≠ 0) : IllegalForm (.vsync t rd ra z) t (encSys 11 rd ra z)
  | command (e) (he : e ∈ cmdRows) (t rd ra rb imm) (h : e.2.2 ra rb imm = true) :
      IllegalForm (e.1 t rd ra rb imm) t (encCmd e.2.1 rd ra rb imm)

/-- Bits 15:6 of CSEND's second operand are 0 and its length is 16 to 4,096, a multiple of 16 (Table 3-8). -/
def sendOperand (v : Word) : Prop :=
  v.toNat / 2 ^ 6 % 2 ^ 10 = 0 ∧ 16 ≤ v.toNat / 2 ^ 16 ∧ v.toNat / 2 ^ 16 ≤ 4096 ∧ v.toNat / 2 ^ 16 % 16 = 0

/-- A Vesper address of VLD and VST (R97): window 0b01 (MBX), or 0b00 (CTL) within the TIL block; an aligned offset; no other bit. -/
def vesperAddress (v : Word) : Prop :=
  v.toNat % 8 = 0 ∧ (v.toNat / 2 ^ 28 = 1 ∨ (v.toNat / 2 ^ 28 = 0 ∧ 0x01000000 ≤ v.toNat ∧ v.toNat ≤ 0x021FFFFF))

/-- Commands whose register operand fails its check, and the operand that fails (R90, Table 3-8, R93, R97, R243, R250, R254). -/
inductive BadOperand (b : Tile) : Instr → Nat → BitVec 32 → Word → Prop where
  | sarmProgram (t rd ra rb imm) (hi : imm.toNat < 8) (h : ¬ b.InPad (b.gr ra) 64 64) :
      BadOperand b (.sarm t rd ra rb imm) t (encCmd 0x00 rd ra rb imm) (b.gr ra)
  | sarmBase (t rd ra rb imm) (hi : imm.toNat < 8) (ha : b.InPad (b.gr ra) 64 64) (h : ¬ b.InPad (b.gr rb) 64 64) :
      BadOperand b (.sarm t rd ra rb imm) t (encCmd 0x00 rd ra rb imm) (b.gr rb)
  | srearm (t rd rb imm) (hi : imm.toNat < 8) (h : ¬ b.InPad (b.gr rb) 64 64) :
      BadOperand b (.srearm t rd 0 rb imm) t (encCmd 0x01 rd 0 rb imm) (b.gr rb)
  | fuse (t rd ra imm) (hi : imm.toNat < 4) (h : ¬ b.InPad (b.gr ra) 64 64) :
      BadOperand b (.fuse t rd ra 0 imm) t (encCmd 0x08 rd ra 0 imm) (b.gr ra)
  | lloadDrain (t rd ra) (h : ¬ b.InPad (b.gr ra) 64 64) :
      BadOperand b (.lloadDrain t rd ra 0 0) t (encCmd 0x04 rd ra 0 0) (b.gr ra)
  | lloadCut (t rd ra) (h : ¬ b.InPad (b.gr ra) 64 64) : BadOperand b (.lloadCut t rd ra 0 0) t (encCmd 0x04 rd ra 0 1) (b.gr ra)
  | csend (t rd ra rb) (h : ¬ sendOperand (b.gr rb)) : BadOperand b (.csend t rd ra rb 0) t (encCmd 0x0C rd ra rb 0) (b.gr rb)
  | csendEntry (t rd ra rb) (ho : sendOperand (b.gr rb))
      (h : b.rd F.TIL_CHS_STATE.state ((b.gr rb).toNat % 64) = 0 ∨
        b.rd F.TIL_CHS_CFG.max_len ((b.gr rb).toNat % 64) * 16 < (b.gr rb).toNat / 2 ^ 16) :
      BadOperand b (.csend t rd ra rb 0) t (encCmd 0x0C rd ra rb 0) (b.gr rb)
  | csendMessage (t rd ra rb) (ho : sendOperand (b.gr rb)) (hs : b.rd F.TIL_CHS_STATE.state ((b.gr rb).toNat % 64) ≠ 0)
      (hl : (b.gr rb).toNat / 2 ^ 16 ≤ b.rd F.TIL_CHS_CFG.max_len ((b.gr rb).toNat % 64) * 16)
      (h : ¬ b.InPad (b.gr ra) 16 ((b.gr rb).toNat / 2 ^ 16)) :
      BadOperand b (.csend t rd ra rb 0) t (encCmd 0x0C rd ra rb 0) (b.gr ra)
  | crecvQueue (t rd ra rb) (h : 64 ≤ (b.gr rb).toNat) : BadOperand b (.crecv t rd ra rb 0) t (encCmd 0x0D rd ra rb 0) (b.gr rb)
  | crecvClosed (t rd ra rb) (hq : (b.gr rb).toNat < 64) (h : b.rd F.TIL_CHQ_STATE.state (b.gr rb).toNat ≠ 1) :
      BadOperand b (.crecv t rd ra rb 0) t (encCmd 0x0D rd ra rb 0) (b.gr rb)
  | crecvCp (t rd ra rb) (hq : (b.gr rb).toNat < 64) (h : b.cpInbound = some (b.gr rb).toNat) :
      BadOperand b (.crecv t rd ra rb 0) t (encCmd 0x0D rd ra rb 0) (b.gr rb)
  | crecvBuffer (t rd ra rb) (hq : (b.gr rb).toNat < 64) (ho : b.rd F.TIL_CHQ_STATE.state (b.gr rb).toNat = 1)
      (hc : b.cpInbound ≠ some (b.gr rb).toNat) (h : ¬ b.InPad (b.gr ra) 16 4096) :
      BadOperand b (.crecv t rd ra rb 0) t (encCmd 0x0D rd ra rb 0) (b.gr ra)
  | cpollQueue (t rd ra rb) (h : 64 ≤ (b.gr rb).toNat) : BadOperand b (.cpoll t rd ra rb 0) t (encCmd 0x0E rd ra rb 0) (b.gr rb)
  | cpollClosed (t rd ra rb) (hq : (b.gr rb).toNat < 64) (h : b.rd F.TIL_CHQ_STATE.state (b.gr rb).toNat ≠ 1) :
      BadOperand b (.cpoll t rd ra rb 0) t (encCmd 0x0E rd ra rb 0) (b.gr rb)
  | cpollCp (t rd ra rb) (hq : (b.gr rb).toNat < 64) (h : b.cpInbound = some (b.gr rb).toNat) :
      BadOperand b (.cpoll t rd ra rb 0) t (encCmd 0x0E rd ra rb 0) (b.gr rb)
  | cpollBuffer (t rd ra rb) (hq : (b.gr rb).toNat < 64) (ho : b.rd F.TIL_CHQ_STATE.state (b.gr rb).toNat = 1)
      (hc : b.cpInbound ≠ some (b.gr rb).toNat) (h : ¬ b.InPad (b.gr ra) 16 4096) :
      BadOperand b (.cpoll t rd ra rb 0) t (encCmd 0x0E rd ra rb 0) (b.gr ra)
  | ccloseFused (t rd rb) (hq : (b.gr rb).toNat < 64) (h : b.fusedWaits (b.gr rb).toNat = true) :
      BadOperand b (.cclose t rd 0 rb 0) t (encCmd 0x0F rd 0 rb 0) (b.gr rb)
  | cclose (t rd rb) (h : 64 ≤ (b.gr rb).toNat ∨ b.rd F.TIL_CHQ_STATE.state ((b.gr rb).toNat % 64) = 0) :
      BadOperand b (.cclose t rd 0 rb 0) t (encCmd 0x0F rd 0 rb 0) (b.gr rb)
  | ctrwaitTarget (t rd ra rb) (h : 2 ^ 32 ≤ (b.gr ra).toNat) :
      BadOperand b (.ctrwait t rd ra rb 0) t (encCmd 0x14 rd ra rb 0) (b.gr ra)
  | ctrwaitCounter (t rd ra rb) (ha : (b.gr ra).toNat < 2 ^ 32) (h : 64 ≤ (b.gr rb).toNat) :
      BadOperand b (.ctrwait t rd ra rb 0) t (encCmd 0x14 rd ra rb 0) (b.gr rb)
  | ctrsetValue (t rd ra rb) (h : 2 ^ 32 ≤ (b.gr ra).toNat) :
      BadOperand b (.ctrset t rd ra rb 0) t (encCmd 0x15 rd ra rb 0) (b.gr ra)
  | ctrsetCounter (t rd ra rb) (ha : (b.gr ra).toNat < 2 ^ 32) (h : 64 ≤ (b.gr rb).toNat) :
      BadOperand b (.ctrset t rd ra rb 0) t (encCmd 0x15 rd ra rb 0) (b.gr rb)
  | bar (t rd imm) (h : b.rd F.TIL_PUL_BAR.enable imm.toNat ≠ 1 ∨ b.barPending imm.toNat = true) :
      BadOperand b (.bar t rd 0 0 imm) t (encCmd 0x18 rd 0 0 imm) (imm.zeroExtend 64)
  | bara (t rd imm) (h : b.rd F.TIL_PUL_BAR.enable imm.toNat ≠ 1 ∨ b.barPending imm.toNat = true) :
      BadOperand b (.bara t rd 0 0 imm) t (encCmd 0x19 rd 0 0 imm) (imm.zeroExtend 64)
  | barw (t rd imm) (h : b.barPending imm.toNat = false) :
      BadOperand b (.barw t rd 0 0 imm) t (encCmd 0x1A rd 0 0 imm) (imm.zeroExtend 64)
  | vld (t rd ra) (h : ¬ vesperAddress (b.gr ra)) : BadOperand b (.vld t rd ra 0 0) t (encCmd 0x20 rd ra 0 0) (b.gr ra)
  | vst (t rd ra rb) (h : ¬ vesperAddress (b.gr ra)) : BadOperand b (.vst t rd ra rb 0) t (encCmd 0x21 rd ra rb 0) (b.gr ra)

/-! ### The lattice (chapter 4) -/

/-- Tile `t` with its lattice's links brought up to the present cycle, as a firing finds it. -/
def State.lat_ (s : State) (t : Nat) : Tile := (s.seen t).pumpAll (s.ctx t)

/-- Fields outside TIL_LAT_FIRE, TIL_NUM_STATUS, TIL_SR_COUNT and the registers `rs` are as before. -/
def Tile.LatRegs (b x : Tile) (rs : List Reg) : Prop :=
  ∀ (f : Fld) (j : Nat), (∀ r ∈ [Reg.TIL_LAT_FIRE, .TIL_NUM_STATUS, .TIL_SR_COUNT] ++ rs, ∀ g ∈ Reg.fields r, f.id ≠ g.id) →
    x.rd f j = b.rd f j

/-- The firing of unit `u` is counted, modulo the width of the counter, unless the counter is cleared in this very cycle (Table 4-16,
R155). -/
def Tile.CountsFiring (b x : Tile) (c : Ctx) (u : Nat) : Prop :=
  x.rd F.TIL_LAT_FIRE.count u =
    if b.latClr = some c.cycle then b.rd F.TIL_LAT_FIRE.count u else (b.rd F.TIL_LAT_FIRE.count u + 1) % 2 ^ F.TIL_LAT_FIRE.count.width

/-- `x` is `b` after unit `u` has fired entry `e` in this cycle and placed `toks` in its pipeline: the entry is empty, the expected tag
goes up, the firing is counted, and no other unit's queues, tables or pipelines, no scratchpad byte, no configuration, no general
register and no register field but numeric status and rounding counts has changed (R123, R125, R126). -/
def Tile.Fires (b x : Tile) (c : Ctx) (u : Nat) (e : MEntry) (toks : List (Nat × Nat × Tok)) : Prop :=
  x.unit u = { b.unit u with table := (b.unit u).table.erase e, expTag := (b.unit u).expTag + 1, lastFire := some c.cycle,
                             pipe := (b.unit u).pipe ++ toks } ∧
  b.CountsFiring x c u ∧ (∀ v, v ≠ u → x.unit v = b.unit v) ∧ b.LatRegs x [] ∧ x.spad = b.spad ∧ x.lat.cfg = b.lat.cfg ∧
  x.lat.load = b.lat.load ∧ x.seq.g = b.seq.g ∧ x.seq.pc = b.seq.pc ∧ x.st = b.st

/-- Every input that the outputs of some tokens of unit `u` feed has room in this cycle (R121). -/
def Tile.HasRoom (b : Tile) (u : Nat) (toks : List (Nat × Tok)) : Prop :=
  ∀ q ∈ toks, ∀ d ∈ b.lat.cfg.dests u q.1, b.backlog d.1 d.2 < 6

/-- No other token of unit `u` is to leave in this cycle. -/
def Tile.PipeQuiet (b : Tile) (c : Ctx) (u : Nat) : Prop := ∀ p ∈ (b.unit u).pipe, c.cycle < p.2.1

/-- The tokens that unit `u` puts on its outputs in this cycle pass to every input that they feed, where they arrive two cycles later
(R120, R121); no other token has moved. -/
def Tile.Passes (b x : Tile) (c : Ctx) (u : Nat) (toks : List (Nat × Tok)) : Prop :=
  (x.unit u).pipe = (b.unit u).pipe ∧
  ∀ v, (x.unit v).inq = (b.unit v).inq ++
    toks.flatMap (fun q => ((b.lat.cfg.dests u q.1).filter (fun d => d.1 == v)).map (fun d => (d.2, c.cycle + 2, q.2)))

/-- The tokens that unit `u` puts on its outputs in this cycle are held, and its whole pipeline with them (R121). -/
def Tile.Holds (b x : Tile) (c : Ctx) (u : Nat) (toks : List (Nat × Tok)) : Prop :=
  (x.unit u).pipe = ((b.unit u).pipe ++ toks.map (fun q => (q.1, c.cycle, q.2))).map (fun p => (p.1, max p.2.1 c.cycle + 1, p.2.2)) ∧
  (x.unit u).heldAt = some c.cycle ∧ ∀ v, (x.unit v).inq = (b.unit v).inq

/-- A token of unit results: its output, the cycle it is ready, network, value, and the entry's tag in the phase in force. -/
def outTok (b : Tile) (e : MEntry) (out ready net val : Nat) : Nat × Nat × Tok := (out, ready, ⟨net, BitVec.ofNat 512 val, e.tag, b.lat.cfg.phase⟩)

/-- The VX rows of Table 4-3 that make an out0 token: op code, latency, and what they compute. -/
def vxRows : List ((Nat → Nat → Instr) × Nat × Nat × (OpBlk → List Nat → List Nat → List Nat → List Nat → Nat → VxRes)) :=
  [(.vxAdd, 1, 4, vxAdd), (.vxSub, 2, 4, vxSub), (.vxMul, 3, 4, vxMul), (.vxFma, 4, 4, vxFma), (.vxMin, 5, 2, vxMin),
   (.vxMax, 6, 2, vxMax), (.vxCvt, 7, 4, vxCvt), (.vxQmx, 8, 6, vxQmx), (.vxXadd, 9, 2, vxXadd), (.vxRsum, 10, 6, vxRsum),
   (.vxRmax, 11, 4, vxRmax), (.vxPass, 14, 1, vxPass)]

/-- Lane `k` of a 512-bit token of 32-bit lanes. -/
def lane (v : Line) (k : Nat) : Nat := v.toNat / 2 ^ (32 * k) % 2 ^ 32

/-- Lane `k` of an operand: a scalar is broadcast to every lane (R129). -/
def tokLane (t : Tok) (k : Nat) : Nat := if t.net = 0 then t.val.toNat % 2 ^ 32 else lane t.val k

/-- The signed value of a 32-bit lane. -/
def laneInt (n : Nat) : Int := if n < 2 ^ 31 then n else (n : Int) - 2 ^ 32

/-- The INT32 rows of VX and what a lane of the result is, from the lanes of in0, in1 and in2 (R129). -/
def vxIntRows : List ((Nat → Nat → Instr) × Nat × (Nat → Nat → Nat → Nat)) :=
  [(.vxAdd, 1, fun a b _ => (a + b) % 2 ^ 32), (.vxSub, 2, fun a b _ => (a + (2 ^ 32 - b)) % 2 ^ 32),
   (.vxMul, 3, fun a b _ => (a * b) % 2 ^ 32), (.vxFma, 4, fun a b c => (a * b + c) % 2 ^ 32),
   (.vxMin, 5, fun a b _ => if laneInt a ≤ laneInt b then a else b), (.vxMax, 6, fun a b _ => if laneInt b ≤ laneInt a then a else b)]

/-- The XF rows with their op codes. -/
def xfRows : List ((Nat → Instr) × Nat) := [(.xfExp, 1), (.xfLog, 2), (.xfRcp, 3), (.xfRsq, 4), (.xfTanh, 5)]

/-- The special inputs of R130 as binary32 lanes: op code, input, result. Zero is 0, infinity 0x7F800000, the sign bit 2 ^ 31; the
canonical NaN is 0x7FC00000. -/
def xfSpecial : List (Nat × Nat × Nat) :=
  [(1, 0x7FC00000, 0x7FC00000), (2, 0x7FC00000, 0x7FC00000), (3, 0x7FC00000, 0x7FC00000), (4, 0x7FC00000, 0x7FC00000),
   (5, 0x7FC00000, 0x7FC00000), (1, 0x7F800000, 0x7F800000), (1, 0xFF800000, 0), (1, 0x43000000, 0x7F800000),
   (1, 0xC3000000, 0), (2, 0, 0xFF800000), (2, 0x80000000, 0xFF800000), (2, 0xBF800000, 0x7FC00000), (3, 0, 0x7F800000),
   (3, 0x80000000, 0xFF800000), (4, 0x80000000, 0xFF800000), (4, 0xBF800000, 0x7FC00000), (5, 0x7F800000, 0x3F800000),
   (5, 0xFF800000, 0xBF800000)]

/-! ### Stream slots (chapter 5) -/

/-- A signed field of `w` bits held as the 64-bit value it extends to. -/
def signedField (w : Nat) (v : Word) : Prop := - 2 ^ (w - 1) ≤ v.toInt ∧ v.toInt < 2 ^ (w - 1)

/-- The encodings of Table 5-6 that are not reserved. -/
def SInstr.Ok : SInstr → Prop
  | .src b space mode w off pitch => b < 8 ∧ space < 6 ∧ signedField 40 off ∧ signedField 20 pitch ∧
      ((mode = 0 ∧ w = 0 ∧ pitch = 0) ∨ (mode = 1 ∧ 2 ≤ w ∧ w < 4) ∨ (mode = 2 ∧ w < 3))
  | .dst b space atomic _ off ctr cast => b < 8 ∧ space < 6 ∧ atomic < 4 ∧ signedField 40 off ∧ ctr < 64 ∧ cast < 3
  | .loop level count ss ds => level < 6 ∧ 1 ≤ count ∧ count < 2 ^ 24 ∧ signedField 40 ss ∧ signedField 40 ds
  | .move len gap => 4 ≤ len ∧ len ≤ 65536 ∧ gap < 256
  | .at_ b _ off => b < 8 ∧ signedField 40 off
  | .waitc b ctr off => b < 8 ∧ ctr < 64 ∧ signedField 40 off
  | .signal b space ctr off amount => b < 8 ∧ space < 2 ∧ ctr < 64 ∧ signedField 40 off ∧ 1 ≤ amount ∧ amount < 2 ^ 16
  | .end_ _ => True

/-- Slot `k` of a RUNNING tile is at instruction `i`, which is due and, in a timed section, not late (R182, R184). -/
def Tile.SlotAt (b : Tile) (c : Ctx) (k : Nat) (i : SInstr) : Prop :=
  b.st = .running ∧ (b.slot k).st = .running ∧ (b.slot k).ended = none ∧ (b.slot k).due ≤ c.cycle ∧
  ((b.slot k).timed = true → (b.slot k).due = c.cycle) ∧ (b.slot k).prog[(b.slot k).ip]? = some i

/-- `x` is `b` but for slot `k`, which is `y`. -/
def Tile.OnlySlot (b x : Tile) (k : Nat) (y : Slot) : Prop :=
  x.slot k = y ∧ (∀ j, j ≠ k → x.slot j = b.slot j) ∧ x = { b with slots := x.slots }

/-- Slot `k`, which no fused slot holds, has aborted with a reason: it is idle without program, the abort is recorded with its status bits,
STREAM_ABORT is pending, and an error record goes out (R100, R188); a sequencer that waits for the slot goes on, and nothing else of the
tile has changed. -/
def Tile.Aborts (b x : Tile) (c : Ctx) (k reason : Nat) (outs : List Out) : Prop :=
  ∃ y : Tile, x = y.settle c ∧
    y = { b with slots := y.slots, regs := y.regs, seq := { b.seq with
            pend := b.seq.pend ++ [⟨0x12, BitVec.ofNat 64 (k + reason * 256), c.cycle⟩] } } ∧
    (y.slot k).st = .idle ∧ (y.slot k).prog = [] ∧ (y.slot k).buf = [] ∧ (∀ j, j ≠ k → y.slot j = b.slot j) ∧
    y.rd F.TIL_STREAM_ABORT.reason 0 = reason ∧ y.rd F.TIL_STREAM_ABORT.slot 0 = k ∧ y.rd F.TIL_SEQ_STATUS.stream_abort 0 = 1 ∧
    bitOf (y.rd F.TIL_STREAM_STATUS.slot_abort 0) k = true ∧ ∃ w, outs = [.record 0x06 3 k 0 w 0 0 0]

/-- Slot `k`, which moves nothing else, has taken a beat of the MOVE `mv` of `len` bytes in this cycle: the beat counts, and its next beat
is due after the gap, or the next instruction in the next cycle (R180, R182). -/
def Slot.Moved (y : Slot) (b : Slot) (c : Ctx) (len gap : Nat) (mv : MoveSt) : Prop :=
  y.beats = (b.beats + 1) % 2 ^ 32 ∧
  (mv.off + 64 < len → y.move = some ⟨mv.idx, mv.off + 64⟩ ∧ y.ip = b.ip ∧ y.due = c.cycle + 1 + gap) ∧
  (len ≤ mv.off + 64 → match loopNext mv.idx b.loops with
    | some i => y.move = some ⟨i, 0⟩ ∧ y.ip = b.ip ∧ y.due = c.cycle + 1 + gap
    | none => y.move = none ∧ y.ip = b.ip + 1 ∧ y.due = c.cycle + 1)

/-- Fused slot `f` of a RUNNING tile is at step `n` of descriptor `d`, and the step may go on in this cycle (R190). -/
def Tile.FusedAt (b : Tile) (c : Ctx) (f n : Nat) (d : FDesc) : Prop :=
  b.st = .running ∧ (b.fslot f).busy = true ∧ (b.fslot f).step = n ∧ (b.fslot f).desc = some d ∧ (b.fslot f).due ≤ c.cycle

/-! ### Packets and messages at a tile (chapters 6 and 7) -/

/-- The state without packet `p` in its inbox. -/
def State.took (s : State) (p : VPkt) : State := { s with inbox := s.inbox.erase p }

/-- `x` is `b` after its blocked instruction has completed with result `v` in `rd`: scratchpad, slots and queues are as before. -/
def Tile.Ends (b x : Tile) (rd : BitVec 5) (v : Word) : Prop :=
  x.gr rd = (if rd = 0 then 0 else v) ∧ (∀ r, r ≠ rd → x.gr r = b.gr r) ∧ x.seq.pc = b.seq.pc + 4 ∧
  x.seq.retired = b.seq.retired + 1 ∧ x.seq.blk = none ∧ x.seq.inHandler = b.seq.inHandler ∧ x.spad = b.spad ∧ x.slots = b.slots ∧
  x.queues = b.queues ∧ x.st = b.st

/-- Queue `q` accepts the message `m` (R249): it is OPEN, its peer is the sender, the message fits, and a slot is free (R252). -/
def Tile.Accepts (b : Tile) (q : Nat) (m : Msg) : Prop :=
  b.vacant = false ∧ b.deaf = false ∧ b.rd F.TIL_CHQ_STATE.state q = 1 ∧
  (b.rd F.TIL_CHQ_CFG.kind q = 0 → b.rd F.TIL_CHQ_CFG.peer_remote q = m.remote.toNat ∧ b.rd F.TIL_CHQ_CFG.peer_tile q = m.src ∧
    (m.remote = true → b.rd F.TIL_CHQ_CFG.peer_eid q = m.srcEid)) ∧
  m.bytes.length ≤ b.rd F.TIL_CHQ_CFG.slot_blocks q * 256 ∧ b.slotsHeld q < b.rd F.TIL_CHQ_CFG.depth q

/-- The message that a CHAN_MSG packet carries (Table 7-1), as it arrives in cycle `k`. -/
def VPkt.msg (k : Nat) (p : VPkt) : Msg :=
  { bytes := p.data.take (bits p.w.toNat 12 13), src := p.src - 0x1000, sendIndex := bits p.w.toNat 6 6,
    remote := bits p.w.toNat 25 1 == 1, srcEid := bits p.w.toNat 26 14, at_ := k }

/-- A record goes out from a position of the mesh, as the newest packet in Vesper, to the Observatory's endpoint at (0, 47) (R222). -/
def State.Reports (s s' : State) (r : Rec) : Prop :=
  ∃ q : VPkt, s'.pkts = s.pkts ++ [q] ∧ q.rec_ = some r ∧ q.x = r.x ∧ q.y = r.y ∧ q.dx = 0 ∧ q.dy = 47 ∧ q.ep = 3

/-- The packet `p`, whose next flit came to input `inp` of the router at (x, y), is in no other router with any flit, and no flit is
behind that one but `l`. -/
def VPkt.only (p : VPkt) (x y inp : Nat) (a : Nat) (l : List Nat) : Prop := p.worm = [⟨x, y, inp, a :: l⟩]

/-- Output `o` of the router at (x, y), where packets need it, has sent nothing in this cycle, and no credit is on its way back. -/
def State.OutputIdle (s : State) (x y o : Nat) : Prop := x < 48 ∧ y < 48 ∧ s.vcred = [] ∧ (s.outMem (x + 48 * y) o).used ≠ some s.cycle

/-- The place of an input in the round-robin order of an output for a virtual channel (R219). -/
def State.turnOf (s : State) (t o vc inp : Nat) : Nat := (inp + 7 - (s.outMem t o).inps.get vc 7) % 8

/-- The oldest channel reply of a code in the inbox for tile `t`. -/
def State.replyFor (s : State) (t code : Nat) : Option VPkt :=
  s.inbox.find? (fun p => p.atTile t && p.op == 5 && p.rep == 7 && bits p.w.toNat 0 2 == code)

/-! ### Register accesses (chapters 0 and 11) -/

/-- `s'` is `s` after an access `a` has been stored in register `r` of unit `i`, index `j` (R6, R7, R9): each RW field wholly within the
access takes its bits unless they are a reserved encoding, no other RW field changes, and nothing outside the register does. -/
def State.Stores (s s' : State) (r : Reg) (i j : Nat) (a : Access) : Prop :=
  s' = { s with regs := s'.regs } ∧ (∀ f ∈ r.fields, f.acc = .rw → s'.rd f i j = a.new f (s.rd f i j)) ∧
  (∀ f ∈ r.fields, f.acc = .ro → s'.rd f i j = s.rd f i j) ∧
  ∀ g u k, (∀ f ∈ r.fields, (f.id, i, j) ≠ (g.id, u, k)) → s'.rd g u k = s.rd g u k

/-- The registers outside the TIL, MEM and FAB blocks whose writes have rules of their own. -/
def specialRegs : List Reg :=
  [.GLB_TIME_CFG, .RTE_SELF, .RTE_CTRL, .RTE_ROUTE, .RTE_ROW, .RTE_COL, .RTE_GBAR, .RTE_PLACE_GEN, .RTE_PLACE_NEED,
   .MEM_GLB_ENABLE_LO, .MEM_GLB_ENABLE_HI, .OBS_MBX_BREAK, .ERR_CTRL, .ERR_TRANSIT_CFG, .ERR_BG_CFG, .PWR_ENV_CFG]

/-- A CTL access of `size` bytes at `off` that the Observatory serves itself, by byte `b` of register `r`, unit `i`, index `j`, while the
module's register endpoints answer (R370, R371, R539). -/
def State.OwnReg (s : State) (off size : Nat) (r : Reg) (i j b : Nat) : Prop :=
  s.reachable = true ∧ s.ctlDead = false ∧ goodSize off size = true ∧ regAt off = some (r, i, j, b) ∧ off < 0x4000000 ∧
  (off < 0x180000 ∨ 0x182000 ≤ off) ∧ vspTarget off = none

/-- What a field of unit `i`, index `j` holds after a read of `size` bytes from byte `b` of its register (R6, R7): an RC field wholly within
the access holds the increments of this cycle alone (log entry 86), PWR_TEMP.max the present temperature (Table 16-4). -/
def State.afterRead (s : State) (f : Fld) (i j b size : Nat) : Nat :=
  if f.acc = .rc ∧ f.within b size = true then
    (if f.id = F.PWR_TEMP.max.id then s.rd F.PWR_TEMP.temp i j else s.rd f i j - s.regs.seen f i j) % 2 ^ f.width
  else s.rd f i j

/-- Only registers differ, and of them only fields of `r` of unit `i` and index `j`. -/
def State.OnlyReg (s s' : State) (r : Reg) (i j : Nat) : Prop :=
  s' = { s with regs := s'.regs } ∧ ∀ g u k, (∀ f ∈ r.fields, (f.id, i, j) ≠ (g.id, u, k)) → s'.rd g u k = s.rd g u k

/-! ### Memory channels (chapter 8) -/

/-- Memory channel `ch` as a command on it finds it. -/
def State.chanSeen (s : State) (ch : Nat) : Chan := { s.chan ch with regs := { (s.chan ch).regs with now := s.cycle } }

/-- The module after a command whose effect on memory channel `ch` is `x` and which hands out `outs`. -/
def State.withChan (ch : Nat) (x : Chan) (outs : List Out) (s : State) : State :=
  (({ s with fresh := s.fresh + 1 } : State).setChan ch x).emits true ch outs

/-- The oldest calendar request `q` at a port: its line `m`, tile, slot and direction; and its slots: the first `k` CAL slots, where a
read takes one, a write two, and a code line that is not held one more, from 24 cycles after its cycle at the port and after the last
request's (R275, R276). -/
structure Chan.Request (h : Chan) (c : Ctx) (q : CalReq) (rest : List CalReq) (m tile slot : Nat) (write : Bool) (ts : List Nat) :
    Prop where
  first : h.arrived = q :: rest
  here : q.z ≤ c.cycle
  fields : calFields q.hdr q.data = (m, tile, slot, write)
  slots : ts = h.calSlots c 1280
    ((if write then 2 else 1) + (if h.calEcc.find (lpddrBank m) = some (lpddrBlock m) then 0 else 1)) (slotStart c (max (q.z + 24) h.calEnd))

/-- The number of slots a calendar request takes. -/
def Chan.slotsFor (h : Chan) (m : Nat) (write : Bool) : Nat :=
  (if write then 2 else 1) + (if h.calEcc.find (lpddrBank m) = some (lpddrBlock m) then 0 else 1)

/-- The request is in time and meets no calendar access and no refresh of its bank (R276, R277). -/
def Chan.Admits (h : Chan) (c : Ctx) (z m : Nat) (write : Bool) (ts : List Nat) : Prop :=
  h.st = .active ∧ h.rd F.MEM_CAL_CTRL.enable 0 = 1 ∧ h.closing = false ∧ m < lineCount ∧ ts.length = h.slotsFor m write ∧
  ts.getLastD 0 ≤ z + 564 ∧
  h.bankMeets true (lpddrBank m) (ts.headD 0) (ts.headD 0 + 113 + 6 * h.slotsFor m write) = false ∧
  refreshMeets c (lpddrBank m) (ts.headD 0) (ts.headD 0 + 113 + 6 * h.slotsFor m write) = false

/-- `x`'s line `m` is `l` in the groups that the mask keeps and as before in the others, and no other byte has changed (R280). -/
def Chan.LineWritten (h x : Chan) (m mask : Nat) (l : List Byte) : Prop :=
  (∀ i, i < 64 → Mem.get 0 x.mem (m * 64 + i) = if bits mask (i / 8) 1 = 1 then l.getD i 0 else Mem.get 0 h.mem (m * 64 + i)) ∧
  ∀ a, a < m * 64 ∨ m * 64 + 64 ≤ a → Mem.get 0 x.mem a = Mem.get 0 h.mem a

/-- The answer to an open request `p` is a packet of op `op` back to its sender with its tag. -/
def answers (o : Out) (p : VPkt) (op : Nat) (data : List Byte) : Prop :=
  ∃ q : VPkt, o = .vpkt q ∧ q.op = op ∧ q.dx = p.rx ∧ q.dy = p.ry ∧ q.rtag = p.rtag ∧ q.data = data

/-- An ERROR answer with a status and a reason that names the request's slot (R281). -/
def refuses (o : Out) (p : VPkt) (status reason : Nat) : Prop :=
  ∃ q : VPkt, o = .vpkt q ∧ q.op = 6 ∧ q.dx = p.rx ∧ q.dy = p.ry ∧ q.rtag = p.rtag ∧ bits q.w.toNat 0 16 = status ∧
    bits q.w.toNat 16 8 = reason ∧ bits q.w.toNat 24 3 = bits p.w.toNat 27 3

/-! ### The fabric (chapters 9 and 10) -/

/-- Port `n` has the M packet `q` at the head of its receive buffer, to be acted on, with `rest` behind it. -/
def State.AtHead (s : State) (n : Nat) (q : FPkt) (rest : List FPkt) : Prop :=
  n < 16 ∧ (s.port n).rxM = q :: rest ∧ (s.port n).st.linked = true

/-- A command of the RTE block refused with WRONG_STATE: status 1, cmd_refused, one record, no other register outside RTE_STATUS. -/
def State.RteRefused (s s' : State) (f : Fld := F.RTE_STATUS.cmd_refused) : Prop :=
  s' = { s with regs := s'.regs, recs := s'.recs } ∧ s'.recs.length = s.recs.length + 1 ∧ s'.rd F.RTE_STATUS.last_status 0 0 = 1 ∧
  s'.rd f 0 0 = 1 ∧ ∀ g u k, (∀ f ∈ Reg.fields .RTE_STATUS, (f.id, 0, 0) ≠ (g.id, u, k)) → s'.rd g u k = s.rd g u k

/-- The module has entered FENCED for a cause (R468, R469): no tile, channel memory or mailbox has changed yet, and the abort line is driven. -/
def State.FencedFor (s s' : State) (cause : Nat) : Prop :=
  s'.st = .fenced ∧ s'.rd F.RST_FENCE.module 0 0 = 1 ∧ s'.rd F.RST_FENCE.cause 0 0 = cause ∧ s'.rd F.RST_STATUS.fence 0 0 = 1 ∧
  s'.abortAt = some s.cycle ∧ s'.tiles = s.tiles ∧ s'.chans = s.chans ∧ s'.mbx = s.mbx ∧ s'.rd F.GLB_MODULE_STATE.start_pending 0 0 = 0

/-- What a module eclipse by `cause` asks of the state: none is in force, and the module is not DARK. -/
def State.Unfenced (s : State) : Prop := s.rd F.RST_FENCE.module 0 0 = 0 ∧ s.st ≠ .dark

/-- A command of Table 9-3 is legal at port `n` (1 TRAIN, 2 DARK, 3 DRAIN, 4 RESUME) in its port state and module state (R305). -/
def State.MayPort (s : State) (n cmd : Nat) : Prop :=
  let p := (s.port n).st
  let up := s.st = .ready ∨ s.st = .joined ∨ s.st = .running
  (cmd = 1 ∧ (p = .dark ∨ p = .down) ∧ up) ∨ (cmd = 2 ∧ (p = .training ∨ p = .parallax ∨ p = .drained ∨ p = .down)) ∨
  (cmd = 3 ∧ p = .up ∧ (up ∨ s.st = .draining)) ∨ (cmd = 4 ∧ p = .drained ∧ (up ∨ s.st = .draining))

/-- Every port but `n` and every tile, channel and mailbox as before. -/
def State.OnlyPort (s s' : State) (n : Nat) : Prop :=
  (∀ m, m ≠ n → s'.port m = s.port m) ∧ s'.tiles = s.tiles ∧ s'.chans = s.chans ∧ s'.mbx = s.mbx ∧ s'.log = s.log

/-- Port `n` has gone DOWN for a reason (R306): its queues and elastic buffer are empty, and went_down is set. -/
def State.PortDown (s s' : State) (n reason : Nat) : Prop :=
  s.OnlyPort s' n ∧ (s'.port n).st = .down ∧ (s'.port n).elastic = [] ∧ (s'.port n).txC = [] ∧ s'.rd F.FAB_PORT_STATE.state n 0 = 5 ∧
  s'.rd F.FAB_PORT_STATE.down_reason n 0 = reason ∧ s'.rd F.FAB_PORT_STATUS.went_down n 0 = 1

/-- Port `n` has entered UP with full credits and empty queues (R346, R354). -/
def State.PortUp (s s' : State) (n : Nat) : Prop :=
  s.OnlyPort s' n ∧ (s'.port n).st = .up ∧ (s'.port n).creditsC = 64 ∧ (s'.port n).creditsM = 16 ∧ (s'.port n).txC = [] ∧
  (s'.port n).drainAt = none ∧ (s'.port n).discDue = true ∧ s'.rd F.FAB_PORT_STATE.state n 0 = 3

/-- The packet `p` left by port `n` as an uncredited M packet of op `op` with bits 127:64 `hi` and payload `data` (R337, R345, R355). -/
def sentM (x : Sent) (n op : Nat) (hi : Word) (data : List Byte) : Prop :=
  ∃ p : FPkt, x = .wire n (.pkt p p.crc) ∧ p.cls = 2 ∧ p.op = op ∧ p.hi = hi ∧ p.data = data

/-- The message `m` and the fragment `r` at a port die belong together (R358): one header, sender and port. -/
def ofMessage (m : Reasm) (r : RouteItem) : Prop :=
  m.x = r.x ∧ m.port = r.from_.getD 16 ∧ m.hi = setBits r.pkt.hi 49 4 0 ∧ bits m.lo.toNat 18 14 = r.pkt.src

/-! ### Commands of the host's mailboxes (chapter 11) -/

/-- The mailbox block has handled an access of source `src` in this Observatory cycle (R383), answered the rack controller's (R395), and
changed nothing but mailboxes. -/
def State.Served (s s' : State) (src : Nat) : Prop :=
  s' = { s with regs := s'.regs, mbx := s'.mbx, postAt := s'.postAt, mbxTurn := (s.cycle / 4, src), sent := s'.sent } ∧
  s'.sent = s.sent ++ if src = 2 then [.vendor 0 0] else []

/-- Mailbox `k` holds the command `c`, posted by another than firmware, and firmware may take it now (R386). -/
def State.Offers (s : State) (k : Nat) (c : Cmd) : Prop :=
  k < 4 ∧ s.canTake k = true ∧ s.owner k ≠ 0x10 ∧ Mem.wf 0 s.mbx = true ∧ c = s.posted k

/-- The command's sender may send it, and it is legal in the module's state; nothing holds it up (Table 11-12, R387, R402, R500). -/
def State.Legal (s : State) (c : Cmd) : Prop :=
  ∃ i, cmdInfo c.code = some i ∧ i.allows c.sender = true ∧ s.st ∈ i.legal ∧ s.romRecovery = false ∧ s.heldUp c = false

/-- A reply to `c` stands posted in mailbox k + 4 (R386). -/
def State.Replied (s' : State) (c : Cmd) (status : Nat) (body : List Byte) : Prop :=
  s'.full (c.k + 4) = true ∧ s'.owner (c.k + 4) = 0x10 ∧ s'.rd F.MBX_CMD.status (c.k + 4) 0 = status % 2 ^ 16 ∧
  s'.rd F.MBX_CMD.code (c.k + 4) 0 = c.code % 2 ^ 16 ∧ s'.rd F.MBX_CMD.seq (c.k + 4) 0 = c.seq % 2 ^ 16 ∧
  s'.rd F.MBX_CMD.length (c.k + 4) 0 = body.length ∧ Mem.bytes 0 s'.mbx ((c.k + 4) * 0x1000 + 0x40) body.length = body

/-- Mailbox `c.k` has been taken, and its lock is free. -/
def State.Taken (s' : State) (c : Cmd) : Prop := s'.full c.k = false ∧ s'.owner c.k = 0

/-- The command has been taken and answered. -/
def State.Posts (s' : State) (c : Cmd) (status : Nat) (body : List Byte) : Prop := s'.Taken c ∧ s'.Replied c status body

/-- Commands of firmware with a row of their own code, by code, with their command for mailbox `k`. -/
inductive FwRow (k : Nat) : Nat → Instr → Prop where
  | getInfo : FwRow k 0x01 (.getInfo k)
  | start : FwRow k 0x10 (.start k)
  | hold : FwRow k 0x11 (.hold k)
  | release : FwRow k 0x12 (.release k)
  | configSelect : FwRow k 0x20 (.configSelect k)
  | configWrite : FwRow k 0x21 (.configWrite k)
  | unfence : FwRow k 0x32 (.unfence k)
  | selfTest (l : List (Nat × Nat × Nat)) : FwRow k 0x40 (.selfTest k l)
  | testContent : FwRow k 0x41 (.testContent k)
  | logRead : FwRow k 0x50 (.logRead k)
  | almanacRead : FwRow k 0x51 (.almanacRead k)
  | conjunction : FwRow k 0x60 (.conjunction k)

/-- The bytes of a chunk are in flash at `base` and its offset, and no byte outside the chunk (outside the region of `size` bytes, if the
chunk is the first one, which erases it) has changed (R411, R412, R442). -/
def State.Written (s s' : State) (c : Cmd) (base size : Nat) : Prop :=
  s'.flashBytes (base + c.num 4 4) (c.len - 16) = (c.args.drop 16).take (c.len - 16) ∧
  ∀ a, (if c.first then a < base ∨ base + size ≤ a else a < base + c.num 4 4 ∨ base + c.num 4 4 + (c.len - 16) ≤ a) →
    Mem.get 0xFF s'.flash a = Mem.get 0xFF s.flash a

/-- A well-formed payload of RESET or FENCE for domain `d`, index `i` (R460, R471). -/
def Cmd.names (c : Cmd) (d i : Nat) : Prop :=
  c.len = 16 ∧ c.num 0 1 = d ∧ c.num 2 2 = i ∧ i < domUnits d ∧ c.zero 1 1 = true ∧ c.zero 4 15 = true

end Sys2Proof.Machine
end

