-- ==== Sys2Proof/Certificates/Slice0/Obligations.lean ====
section
/-! DEFINITION. The statements about the model, for the provers: each a proposition, and each says in its docstring which
rules of spec/ it states. -/
open Sys2Proof Sys2Proof.Machine

/-- STEP. A step of a state with command `c` in front of its queue is `c`'s effect with the queue's rest, and every command answers a next
state: no command of the table is refused, and none ends the run.

Model's choices it rests on: log entries 2, 9. -/
def Obligations.StepRunsFrontCommand : Prop :=
  (∀ (c : Instr) (rest : List Instr) (s : State), s.pending = c :: rest → step s = exec c { s with pending := rest }) ∧
  (∀ (c : Instr) (s : State), ∃ s', exec c s = .next s')

/-- IDLE STEP (the model's choice, log entry 1). On an empty queue one tile clock cycle passes: the model's cycle count and the
sidereal count go up by 1, and a cycle that the throttle level gates is counted (R517). Ports, mailboxes, the flash, the log, the
module's state, the memory channels' state and their data stay; where no tile is powered, no background test runs and the rack
controller waits for nothing, the counts are all that changes.

Model's choices it rests on: log entries 1, 77. -/
def Obligations.IdleStepPassesOneCycle : Prop :=
  ∀ s : State, s.pending = [] → ∃ s', step s = .next s' ∧ s'.cycle = s.cycle + 1 ∧ s'.pending = [] ∧
    s'.sidereal = (if s.sidereal = 2 ^ 64 - 1 then 0 else (s.sidereal + 1) % 2 ^ 64) ∧
    s'.gated = (if s.cycle % 16 < s.rd F.PWR_THROTTLE.level 0 0 then s.gated + 1 else s.gated) ∧
    s'.st = s.st ∧ s'.ports = s.ports ∧ s'.mbx = s.mbx ∧ s'.flash = s.flash ∧ s'.log = s.log ∧
    (∀ ch, (s'.chan ch).mem = (s.chan ch).mem ∧ (s'.chan ch).st = (s.chan ch).st ∧ (s'.chan ch).regs.vals = (s.chan ch).regs.vals) ∧
    (∀ t, t ∉ s.tiles.keys → s'.tile t = s.tile t) ∧
    (s.tiles.keys = [] → s.bg.keys = [] → s.vend = [] → s' = s.count)

/-- R83, Table 3-4. Every ALU row of two operands writes its result in rd, goes to the next word and changes nothing else of its
tile; g0 discards the result.

Table 3-4, CLZ, CTZ and POPC: leading zeros, trailing zeros and 1 bits of ra.

Table 3-3, the immediate rows, SHIFTI and LIH. -/
def Obligations.ArithmeticResults : Prop :=
  ((  ∀ e ∈ aluRows, ∀ (s : State) (t : Nat) (rd ra rb : BitVec 5),
    s.Fetches t (encAlu e.2.1 rd ra rb 0) → s.Quiet t →
    ∃ x : Tile, exec (e.1 t rd ra rb 0) s = .next (s.ran t x []) ∧
      (s.at_ t).Writes x rd (e.2.2 ((s.at_ t).gr ra) ((s.at_ t).gr rb))) ∧
(  ∀ (s : State) (t : Nat) (rd ra : BitVec 5), s.Quiet t →
    (s.Fetches t (encAlu 0x1C rd ra 0 0) → ∃ (x : Tile) (n : Nat), exec (.clz t rd ra 0 0) s = .next (s.ran t x []) ∧
      (s.at_ t).Writes x rd (BitVec.ofNat 64 n) ∧ n ≤ 64 ∧ (∀ k, k < n → ((s.at_ t).gr ra).getLsbD (63 - k) = false) ∧
      (n < 64 → ((s.at_ t).gr ra).getLsbD (63 - n) = true)) ∧
    (s.Fetches t (encAlu 0x1D rd ra 0 0) → ∃ (x : Tile) (n : Nat), exec (.ctz t rd ra 0 0) s = .next (s.ran t x []) ∧
      (s.at_ t).Writes x rd (BitVec.ofNat 64 n) ∧ n ≤ 64 ∧ (∀ k, k < n → ((s.at_ t).gr ra).getLsbD k = false) ∧
      (n < 64 → ((s.at_ t).gr ra).getLsbD n = true)) ∧
    (s.Fetches t (encAlu 0x1E rd ra 0 0) → ∃ x : Tile, exec (.popc t rd ra 0 0) s = .next (s.ran t x []) ∧
      (s.at_ t).Writes x rd (BitVec.ofNat 64 ((List.range 64).countP (fun k => ((s.at_ t).gr ra).getLsbD k)))))) ∧
((∀ e ∈ immRows, ∀ (s : State) (t : Nat) (rd ra : BitVec 5) (imm : BitVec 16),
    s.Fetches t (encWord e.2.1 rd ra imm) → s.Quiet t →
    ∃ x : Tile, exec (e.1 t rd ra imm) s = .next (s.ran t x []) ∧ (s.at_ t).Writes x rd (e.2.2 ((s.at_ t).gr ra) imm)) ∧
  (∀ e ∈ shiftRows, ∀ (s : State) (t : Nat) (rd ra : BitVec 5) (amt : BitVec 6),
    s.Fetches t (encShifti e.2.1 rd ra 0 amt) → s.Quiet t →
    ∃ x : Tile, exec (e.1 t rd ra 0 amt) s = .next (s.ran t x []) ∧ (s.at_ t).Writes x rd (e.2.2 ((s.at_ t).gr ra) amt.toNat)) ∧
  (∀ (s : State) (t : Nat) (rd : BitVec 5) (imm : BitVec 16), s.Fetches t (encWord 0x09 rd 0 imm) → s.Quiet t →
    ∃ x : Tile, exec (.lih t rd 0 imm) s = .next (s.ran t x []) ∧
      (s.at_ t).Writes x rd (BitVec.ofInt 64 (imm.toInt * 2 ^ 16))))

/-- R84, loads: rd takes the 8, 16, 32 or 64 bits at ra + sext(imm16), extended as the row says, through the read port of their bank where
it is free in this cycle (R159); every byte of every memory is as before. Where the port is another's the load waits: nothing but the
count of the wait changes, and it is offered again (R160; log entry 16). A misaligned or out-of-range address traps (LOAD_MISALIGNED 0x04
before LOAD_RANGE 0x05), which loads nothing.

R84, stores: the low 8, 16, 32 or 64 bits of rs at ra + sext(imm16), and no other byte, through the write port of their bank where it
is free (R159); a store that has to wait, for the port or for an atomic on its bytes (R165), changes nothing but the count of the wait; a
misaligned or out-of-range address traps (0x06 before 0x07) and writes nothing.

R84, R164 and Table 3-3, atomics: rd takes the old word (the 32-bit forms sign-extended), with the results of the atomics in progress in
it (R165); the sum or the operand is on its way to the same bytes, to be written two cycles later where the write port is free then; no
byte has changed yet, and nothing else does. A misaligned or out-of-range address traps as a store.

Model's choices it rests on: log entry 16. -/
def Obligations.LoadsStoresAndAtomics : Prop :=
  (∀ e ∈ loadRows, ∀ (s : State) (t : Nat) (rd ra : BitVec 5) (imm : BitVec 16),
    s.Fetches t (encWord e.2.1 rd ra imm) →
    ((s.at_ t).Allows ((s.at_ t).gr ra + imm.signExtend 64) e.2.2.1 → s.Quiet t →
      ((s.at_ t).PortFree (s.ctx t) false ((s.at_ t).gr ra + imm.signExtend 64).toNat e.2.2.1 →
        ∃ x y : Tile, exec (e.1 t rd ra imm) s = .next (s.ran t x []) ∧ y.SameButBank x ∧
          (s.at_ t).Writes y rd
            (widen e.2.2.1 e.2.2.2 (Mem.num 0 (s.at_ t).spad ((s.at_ t).gr ra + imm.signExtend 64).toNat e.2.2.1))) ∧
      (∀ y, (s.at_ t).ask (s.ctx t) s.cycle .data false false ((s.at_ t).gr ra + imm.signExtend 64).toNat e.2.2.1 [] = .error y →
        exec (e.1 t rd ra imm) s = .next (s.ran t y []) ∧ (s.at_ t).Waits y))
    ∧ (¬ (s.at_ t).Allows ((s.at_ t).gr ra + imm.signExtend 64) e.2.2.1 → (s.at_ t).CanTrap →
      ∃ x : Tile, exec (e.1 t rd ra imm) s = .next (s.ran t x []) ∧
        (s.at_ t).Traps x (s.ctx t) (if ((s.at_ t).gr ra + imm.signExtend 64).toNat % e.2.2.1 = 0 then 0x05 else 0x04) false
          (s.at_ t).seq.pc ((s.at_ t).gr ra + imm.signExtend 64))) ∧
(∀ e ∈ storeRows, ∀ (s : State) (t : Nat) (rs ra : BitVec 5) (imm : BitVec 16),
    s.Fetches t (encWord e.2.1 rs ra imm) →
    ((s.at_ t).Allows ((s.at_ t).gr ra + imm.signExtend 64) e.2.2 → s.Quiet t →
      (Mem.wf 0 (s.at_ t).spad = true → (s.at_ t).WriteFree (s.ctx t) ((s.at_ t).gr ra + imm.signExtend 64).toNat e.2.2 →
        ∃ x y : Tile, exec (e.1 t rs ra imm) s = .next (s.ran t x []) ∧ (s.at_ t).Goes y ((s.at_ t).seq.pc + 4) ∧
          y.SameButSpad x ∧ (s.at_ t).Stored x ((s.at_ t).gr ra + imm.signExtend 64).toNat e.2.2 ((s.at_ t).gr rs).toNat) ∧
      (∀ y, (s.at_ t).plainWrite (s.ctx t) s.cycle .data false ((s.at_ t).gr ra + imm.signExtend 64).toNat
          (leBytes e.2.2 ((s.at_ t).gr rs).toNat) = .error y →
        exec (e.1 t rs ra imm) s = .next (s.ran t y []) ∧ (s.at_ t).Waits y))
    ∧ (¬ (s.at_ t).Allows ((s.at_ t).gr ra + imm.signExtend 64) e.2.2 → (s.at_ t).CanTrap →
      ∃ x : Tile, exec (e.1 t rs ra imm) s = .next (s.ran t x []) ∧
        (s.at_ t).Traps x (s.ctx t) (if ((s.at_ t).gr ra + imm.signExtend 64).toNat % e.2.2 = 0 then 0x07 else 0x06) false
          (s.at_ t).seq.pc ((s.at_ t).gr ra + imm.signExtend 64))) ∧
(∀ e ∈ atomRows, ∀ (s : State) (t : Nat) (rd ra rb : BitVec 5),
    s.Fetches t (encAtom e.2.1 rd ra rb) →
    ((s.at_ t).Allows ((s.at_ t).gr ra) e.2.2.1 → s.Quiet t →
      ((s.at_ t).PortFree (s.ctx t) false ((s.at_ t).gr ra).toNat e.2.2.1 →
        ∃ (x y : Tile) (m : Atom), exec (e.1 t rd ra rb) s = .next (s.ran t x []) ∧ y.SameButBank x ∧
          (s.at_ t).Writes y rd (widen e.2.2.1 (e.2.2.1 == 4) (Mem.num 0 (s.at_ t).withAtoms.spad ((s.at_ t).gr ra).toNat e.2.2.1)) ∧
          x.bank.atoms = (s.at_ t).bank.atoms ++ [m] ∧ m.addr = ((s.at_ t).gr ra).toNat ∧ m.ctr = none ∧
          m.bytes = leBytes e.2.2.1 (if e.2.2.2 then
            Mem.num 0 (s.at_ t).withAtoms.spad ((s.at_ t).gr ra).toNat e.2.2.1 + ((s.at_ t).gr rb).toNat else ((s.at_ t).gr rb).toNat) ∧
          s.cycle + 2 ≤ m.at_ ∧
          ((∀ k ∈ (s.at_ t).banksOf m.addr e.2.2.1, (s.at_ t).grant? (s.cycle + 2) k true = none) → m.at_ = s.cycle + 2)) ∧
      (∀ y, (s.at_ t).ask (s.ctx t) s.cycle .data false false ((s.at_ t).gr ra).toNat e.2.2.1 [] = .error y →
        exec (e.1 t rd ra rb) s = .next (s.ran t y []) ∧ (s.at_ t).Waits y))
    ∧ (¬ (s.at_ t).Allows ((s.at_ t).gr ra) e.2.2.1 → (s.at_ t).CanTrap →
      ∃ x : Tile, exec (e.1 t rd ra rb) s = .next (s.ran t x []) ∧
        (s.at_ t).Traps x (s.ctx t) (if ((s.at_ t).gr ra).toNat % e.2.2.1 = 0 then 0x07 else 0x06) false
          (s.at_ t).seq.pc ((s.at_ t).gr ra)))

/-- Table 3-3 and R85, branches: pc + 4 × sext(off16) where the comparison holds, the next word where it does not; a taken branch to a
misaligned target raises FETCH_MISALIGNED.

Table 3-3 and R85, CALL and CALLR: rd takes pc + 4 and the pc the target; a misaligned target raises FETCH_MISALIGNED and writes no
link register. -/
def Obligations.BranchAndCallEffects : Prop :=
  (  ∀ e ∈ branchRows, ∀ (s : State) (t : Nat) (ra rb : BitVec 5) (off : BitVec 16),
    s.Fetches t (encWord e.2.1 ra rb off) →
    (s.Quiet t → (e.2.2 ((s.at_ t).gr ra) ((s.at_ t).gr rb) = true →
        ((s.at_ t).seq.pc + BitVec.ofInt 64 (4 * off.toInt)).toNat % 4 = 0) →
      ∃ x : Tile, exec (e.1 t ra rb off) s = .next (s.ran t x []) ∧
        (s.at_ t).Goes x (if e.2.2 ((s.at_ t).gr ra) ((s.at_ t).gr rb) then (s.at_ t).seq.pc + BitVec.ofInt 64 (4 * off.toInt)
          else (s.at_ t).seq.pc + 4))
    ∧ (e.2.2 ((s.at_ t).gr ra) ((s.at_ t).gr rb) = true →
        ((s.at_ t).seq.pc + BitVec.ofInt 64 (4 * off.toInt)).toNat % 4 ≠ 0 → (s.at_ t).CanTrap →
      ∃ x : Tile, exec (e.1 t ra rb off) s = .next (s.ran t x []) ∧
        (s.at_ t).Traps x (s.ctx t) 0x02 false (s.at_ t).seq.pc ((s.at_ t).seq.pc + BitVec.ofInt 64 (4 * off.toInt)))) ∧
(  ∀ (s : State) (t : Nat) (rd ra : BitVec 5) (off : BitVec 21) (imm : BitVec 16) (i : Instr) (w : BitVec 32) (target : Word),
    (i = .call t rd off ∧ w = encLink 0x26 rd off ∧ target = (s.at_ t).seq.pc + BitVec.ofInt 64 (4 * off.toInt) ∨
     i = .callr t rd ra imm ∧ w = encWord 0x27 rd ra imm ∧ target = (s.at_ t).gr ra + imm.signExtend 64) →
    s.Fetches t w →
    (target.toNat % 4 = 0 → s.Quiet t → ∃ x y : Tile, exec i s = .next (s.ran t x []) ∧
      (s.at_ t).Writes y rd ((s.at_ t).seq.pc + 4) ∧ x = { y with seq := { y.seq with pc := target } }) ∧
    (target.toNat % 4 ≠ 0 → (s.at_ t).CanTrap → ∃ x : Tile, exec i s = .next (s.ran t x []) ∧
      (s.at_ t).Traps x (s.ctx t) 0x02 false (s.at_ t).seq.pc target))

/-- R82. A must-be-0 field that is not 0 raises ILLEGAL: the trap is entered with the pc of the instruction and its word, and the
instruction has no effect. -/
def Obligations.NonZeroReservedFieldIsIllegal : Prop :=
  ∀ (i : Instr) (t : Nat) (w : BitVec 32) (s : State), IllegalForm i t w → s.Fetches t w → (s.at_ t).CanTrap →
    ∃ x : Tile, exec i s = .next (s.ran t x []) ∧
      (s.at_ t).Traps x (s.ctx t) 0x01 false (s.at_ t).seq.pc (w.setWidth 64)

/-- R79, Table 3-1, GETC: a listed number gives its content; an unlisted one raises ILLEGAL.

R79, Table 3-6, XCHC, ORC and ANDNC: rd takes the old content and the register the new one; an RO or unlisted number raises ILLEGAL
and changes nothing. -/
def Obligations.ControlRegisters : Prop :=
  (  ∀ (s : State) (t : Nat) (rd : BitVec 5) (n : BitVec 8), s.Fetches t (encSys 0 rd 0 (0#4 ++ n)) →
    (∀ v, (n, v) ∈ controlRows (s.ctx t) (s.at_ t) → s.Quiet t →
      ∃ x : Tile, exec (.getc t rd 0 0 n) s = .next (s.ran t x []) ∧ (s.at_ t).Writes x rd v) ∧
    (n ∉ (controlRows (s.ctx t) (s.at_ t)).map (·.1) → (s.at_ t).CanTrap →
      ∃ x : Tile, exec (.getc t rd 0 0 n) s = .next (s.ran t x []) ∧
        (s.at_ t).Traps x (s.ctx t) 0x01 false (s.at_ t).seq.pc ((encSys 0 rd 0 (0#4 ++ n)).setWidth 64))) ∧
(  ∀ e ∈ controlOps, ∀ (s : State) (t : Nat) (rd ra : BitVec 5) (n : BitVec 8), s.Fetches t (encSys e.2.1 rd ra (0#4 ++ n)) →
    (∀ r ∈ controlRw, n = r.1 → s.Quiet t →
      ∃ x y : Tile, exec (e.1 t rd ra 0 n) s = .next (s.ran t x []) ∧
        y = { s.at_ t with seq := r.2.2 (s.at_ t).seq (e.2.2 (r.2.1 (s.at_ t).seq) ((s.at_ t).gr ra)) } ∧
        y.Writes x rd (r.2.1 (s.at_ t).seq)) ∧
    (n ∉ controlRw.map (·.1) → (s.at_ t).CanTrap →
      ∃ x : Tile, exec (e.1 t rd ra 0 n) s = .next (s.ran t x []) ∧
        (s.at_ t).Traps x (s.ctx t) 0x01 false (s.at_ t).seq.pc ((encSys e.2.1 rd ra (0#4 ++ n)).setWidth 64)))

/-- R88 and Table 3-6, HRET: in a handler the pc takes hresume with bits 1:0 ignored and in_handler becomes 0; outside one it raises
ILLEGAL.

R102 and Table 3-11, TRAP: SOFTWARE is entered with the address after the TRAP and imm16 bits 7:0.

R99, R102 and R103, TRAP_ENTRY: at a boundary a pc beyond the scratchpad raises FETCH_RANGE and a reserved word ILLEGAL; where the
instruction at the pc raises a synchronous trap, that trap is taken; where it raises none, outside a handler, of the causes raised in earlier
cycles one of least code is taken and is no longer pending: NUMERIC's argument is TIL_NUM_STATUS bits 7:0, every other cause's its own.

Model's choices it rests on: log entry 12. -/
def Obligations.TrapEntryAndReturn : Prop :=
  (  ∀ (s : State) (t : Nat), s.Fetches t (encSys 8 0 0 0) →
    ((s.at_ t).seq.inHandler = true → s.Quiet t → ∃ x : Tile, exec (.hret t 0 0 0) s = .next (s.ran t x []) ∧
      x = { s.at_ t with seq := { (s.at_ t).seq with
        pc := ((s.at_ t).seq.hresume >>> 2) <<< 2, inHandler := false, retired := (s.at_ t).seq.retired + 1 } }) ∧
    ((s.at_ t).CanTrap → ∃ x : Tile, exec (.hret t 0 0 0) s = .next (s.ran t x []) ∧
      (s.at_ t).Traps x (s.ctx t) 0x01 false (s.at_ t).seq.pc ((encSys 8 0 0 0).setWidth 64))) ∧
(  ∀ (s : State) (t : Nat) (n : BitVec 8), s.Fetches t (encSys 9 0 0 (0#4 ++ n)) → (s.at_ t).CanTrap →
    ∃ x : Tile, exec (.trap t 0 0 0 n) s = .next (s.ran t x []) ∧
      (s.at_ t).Traps x (s.ctx t) 0x09 false ((s.at_ t).seq.pc + 4) (n.zeroExtend 64)) ∧
(  ∀ (s : State) (t : Nat), s.Boundary t → (s.bound t).CanTrap →
    ((s.bound t).size ≤ (s.bound t).seq.pc.toNat →
      ∃ x : Tile, exec (.trapEntry t) s = .next (s.withTile t x []) ∧
        (s.bound t).Traps x (s.ctx t) 0x03 false (s.bound t).seq.pc (s.bound t).seq.pc) ∧
    ((s.bound t).seq.pc.toNat < (s.bound t).size →
      (wordReserved (s.bound t).fetch = true →
        ∃ x : Tile, exec (.trapEntry t) s = .next (s.withTile t x []) ∧
          (s.bound t).Traps x (s.ctx t) 0x01 false (s.bound t).seq.pc ((s.bound t).fetch.setWidth 64)) ∧
      (∀ code resume arg, (s.bound t).actOf (s.ctx t) (s.bound t).fetch = .trap code resume arg →
        ∃ x : Tile, exec (.trapEntry t) s = .next (s.withTile t x []) ∧
          (s.bound t).Traps x (s.ctx t) code false resume arg) ∧
      ((∀ code resume arg, (s.bound t).actOf (s.ctx t) (s.bound t).fetch ≠ .trap code resume arg) →
        (∃ p ∈ (s.bound t).seq.pend, p.cycle < s.cycle) →
        ∃ (x : Tile) (p : Pend) (b : Tile), exec (.trapEntry t) s = .next (s.withTile t x []) ∧ p ∈ (s.bound t).seq.pend ∧
          p.cycle < s.cycle ∧ (∀ q ∈ (s.bound t).seq.pend, q.cycle < s.cycle → p.code ≤ q.code) ∧
          b = { s.bound t with seq := { (s.bound t).seq with pend := (s.bound t).seq.pend.erase p } } ∧
          b.Traps x (s.ctx t) p.code true (s.bound t).seq.pc
            (if p.code = 0x11 then BitVec.ofNat 64 ((b.word .TIL_NUM_STATUS 0).toNat % 2 ^ 8) else p.arg))))

/-- R104. A synchronous trap in a handler (DOUBLE_TRAP), or any trap while hbase names no handler (NO_VECTOR), stops the tile, here for
TRAP: FENCED with stop_reason, stop_cause and stop_pc, the status bit, and an error record.

Model's choices it rests on: log entry 12. -/
def Obligations.TrapThatCannotEnterStopsTile : Prop :=
  ∀ (s : State) (t : Nat) (n : BitVec 8), s.Fetches t (encSys 9 0 0 (0#4 ++ n)) → ¬ (s.at_ t).CanTrap →
    ∃ (x : Tile) (w : Word), exec (.trap t 0 0 0 n) s = .next (s.ran t x [.record 0x02 1 0 0 w 0 0 2]) ∧ x.st = .fenced ∧
      x.rd F.TIL_STOP.stop_reason 0 = (if (s.at_ t).seq.inHandler then 2 else 3) ∧ x.rd F.TIL_STOP.stop_cause 0 = 0x09 ∧
      x.rd F.TIL_STOP.stop_pc 0 = (s.at_ t).seq.pc.toNat % 2 ^ 21 ∧
      ((s.at_ t).seq.inHandler = true → x.rd F.TIL_SEQ_STATUS.double_trap 0 = 1) ∧
      ((s.at_ t).seq.inHandler = false → x.rd F.TIL_SEQ_STATUS.no_vector 0 = 1) ∧
      x.seq.g = (s.at_ t).seq.g ∧ x.seq.pc = (s.at_ t).seq.pc ∧ x.spad = (s.at_ t).spad

/-- R110, HALT and HALT_COMPLETE: HALT disarms parked slots and waits with wait word HALT_DRAIN; once every slot is idle or parked
the parked ones are disarmed (R175), the open queues close with their messages discarded (R254), halted is set, and the tile enters IDLE with release 0 and wait word IDLE.

Model's choices it rests on: log entries 17, 23. -/
def Obligations.HaltDrainsThenIdles : Prop :=
  (∀ (s : State) (t : Nat), s.Fetches t (encSys 10 0 0 0) → s.Quiet t →
    ∃ x y : Tile, exec (.halt t 0 0 0) s = .next (s.ran t x []) ∧ y.Blocks x (s.ctx t) 0 .haltDrain ∧ x.waitWord = 0xB ∧
      y = { s.at_ t with slots := y.slots } ∧
      ∀ k, (y.slot k).st = (if ((s.at_ t).slot k).st = .parked then .idle else ((s.at_ t).slot k).st)) ∧
  (∀ (s : State) (t : Nat), t < 2304 → s.gatedNow = false → (s.seen t).st = .running → (∃ rd, (s.seen t).seq.blk = some ⟨.haltDrain, rd⟩) →
    (∀ k, ((s.seen t).slot k).st.atRest = true) → (∀ f, ((s.seen t).fslot f).busy = false) →
    ∃ x : Tile, exec (.haltComplete t) s = .next (s.withTile t x []) ∧ x.st = .idle ∧ x.waitWord = 0xC ∧
      x.rd F.TIL_ENTRY.release 0 = 0 ∧ x.rd F.TIL_SEQ_STATUS.halted 0 = 1 ∧ x.seq.blk = none ∧
      (∀ k, (x.slot k).st = .idle) ∧ (∀ q, q < 64 → x.rd F.TIL_CHQ_STATE.state q ≠ 1 ∧
        ((s.seen t).rd F.TIL_CHQ_STATE.state q = 1 → x.queue q = [])) ∧ x.lat = (s.seen t).lat)

/-- R90. A register operand that fails its check raises CMD_OPERAND with the failing value, and the command has no effect. -/
def Obligations.FailedOperandCheckTraps : Prop :=
  ∀ (i : Instr) (t : Nat) (w : BitVec 32) (v : Word) (s : State), BadOperand (s.at_ t) i t w v → s.Fetches t w → (s.at_ t).CanTrap →
    ∃ x : Tile, exec i s = .next (s.ran t x []) ∧ (s.at_ t).Traps x (s.ctx t) 0x08 false (s.at_ t).seq.pc v

/-- R171, R173, R174, R175, R192, R193 and Table 3-8: SARM arms an idle slot with its program and base table, SREARM starts a parked slot again,
SSTOP and SSTOP_IDLE stop one, SWAIT waits for one. BUSY changes nothing but rd and the pc. A fused arm step that armed the slot in this very
cycle comes after the sequencer's SARM and aborts (R192); SSTOP ends the fused slot that holds the slot (R193).

R174 step 4, SSTOP_IDLE: a stopping slot with no write in progress enters IDLE without program and base table, and a blocked SSTOP on
it completes with OK.

Model's choices it rests on: log entries 24, 85. -/
def Obligations.StreamSlotCommands : Prop :=
  (  ∀ (s : State) (t : Nat) (rd ra rb imm : BitVec 5), imm.toNat < 8 → s.Quiet t →
    (s.Fetches t (encCmd 0x00 rd ra rb imm) → (s.at_ t).InPad ((s.at_ t).gr ra) 64 64 → (s.at_ t).InPad ((s.at_ t).gr rb) 64 64 →
      ((((s.at_ t).slot imm.toNat).st = .idle ∨ ((s.at_ t).slot imm.toNat).st = .stopping) → ((s.at_ t).slot imm.toNat).heldBy = none →
        ∃ x y : Tile, exec (.sarm t rd ra rb imm) s = .next (s.ran t x []) ∧ y.Writes x rd 0 ∧
          y = { s.at_ t with slots := y.slots } ∧ (∀ k, k ≠ imm.toNat → y.slot k = (s.at_ t).slot k) ∧
          (y.slot imm.toNat).st = .arming ∧ (y.slot imm.toNat).progAddr = ((s.at_ t).gr ra).toNat ∧
          (y.slot imm.toNat).baseAddr = ((s.at_ t).gr rb).toNat) ∧
      ((((s.at_ t).slot imm.toNat).st.armed = true ∨ ((s.at_ t).slot imm.toNat).heldBy ≠ none) →
        ¬ ((s.at_ t).slot imm.toNat).justArmed s.cycle →
        ∃ x : Tile, exec (.sarm t rd ra rb imm) s = .next (s.ran t x []) ∧ (s.at_ t).Writes x rd 2) ∧
      (∀ f, ((s.at_ t).slot imm.toNat).justArmed s.cycle → ((s.at_ t).slot imm.toNat).heldBy = some f → f < 4 →
        ∃ (x : Tile) (o : List Out), exec (.sarm t rd ra rb imm) s = .next (s.ran t x o) ∧ (x.slot imm.toNat).st = .arming ∧
          (x.slot imm.toNat).progAddr = ((s.at_ t).gr ra).toNat ∧ (x.slot imm.toNat).heldBy = none ∧ (x.fslot f).busy = false ∧
          x.rd F.TIL_STREAM_ABORT.reason 0 = 7 ∧ x.rd F.TIL_STREAM_ABORT.slot 0 = 8 + f ∧ x.gr rd = 0 ∧ x.seq.pc = (s.at_ t).seq.pc + 4)) ∧
    (s.Fetches t (encCmd 0x01 rd 0 rb imm) → (s.at_ t).InPad ((s.at_ t).gr rb) 64 64 →
      (((s.at_ t).slot imm.toNat).st = .parked → ((s.at_ t).slot imm.toNat).heldBy = none →
        ∃ x y : Tile, exec (.srearm t rd 0 rb imm) s = .next (s.ran t x []) ∧ y.Writes x rd 0 ∧
          y = { s.at_ t with slots := y.slots } ∧ (∀ k, k ≠ imm.toNat → y.slot k = (s.at_ t).slot k) ∧
          (y.slot imm.toNat).st = .running ∧ (y.slot imm.toNat).ip = 0 ∧ (y.slot imm.toNat).due = s.cycle + 2 ∧
          (y.slot imm.toNat).prog = ((s.at_ t).slot imm.toNat).prog ∧ (y.slot imm.toNat).baseAddr = ((s.at_ t).gr rb).toNat) ∧
      ((((s.at_ t).slot imm.toNat).st ≠ .parked ∨ ((s.at_ t).slot imm.toNat).heldBy ≠ none) →
        ¬ ((s.at_ t).slot imm.toNat).justRearmed s.cycle →
        ∃ x : Tile, exec (.srearm t rd 0 rb imm) s = .next (s.ran t x []) ∧ (s.at_ t).Writes x rd 2)) ∧
    (s.Fetches t (encCmd 0x02 rd 0 0 imm) →
      (((s.at_ t).slot imm.toNat).st = .idle →
        ∃ x : Tile, exec (.sstop t rd 0 0 imm) s = .next (s.ran t x []) ∧ (s.at_ t).Writes x rd 0) ∧
      (((s.at_ t).slot imm.toNat).st ≠ .idle → ((s.at_ t).slot imm.toNat).heldBy = none →
        ∃ x y : Tile, exec (.sstop t rd 0 0 imm) s = .next (s.ran t x []) ∧ y.Blocks x (s.ctx t) rd (.streamStop imm.toNat) ∧
          x.waitWord = 0x6 + imm.toNat * 2 ^ 4 ∧ y = { s.at_ t with slots := y.slots } ∧
          (∀ k, k ≠ imm.toNat → y.slot k = (s.at_ t).slot k) ∧ (y.slot imm.toNat).st = .stopping ∧
          (y.slot imm.toNat).buf = [] ∧ (y.slot imm.toNat).reqs.all (fun r => r.live = false) = true) ∧
      (∀ f, ((s.at_ t).slot imm.toNat).st ≠ .idle → ((s.at_ t).slot imm.toNat).heldBy = some f →
        ∃ x : Tile, exec (.sstop t rd 0 0 imm) s = .next (s.ran t x []) ∧ x.seq.blk = some ⟨.streamStop imm.toNat, rd⟩ ∧
          (x.slot imm.toNat).st = .stopping ∧ (x.fslot f).busy = false ∧ x.rd F.TIL_STREAM_STATUS.fused_stopped 0 = 1 ∧
          (∀ k, (x.slot k).heldBy ≠ some f) ∧ x.seq.g = (s.at_ t).seq.g ∧ x.seq.pc = (s.at_ t).seq.pc ∧ x.spad = (s.at_ t).spad)) ∧
    (s.Fetches t (encCmd 0x03 rd 0 0 imm) →
      ((((s.at_ t).slot imm.toNat).st = .idle ∨ ((s.at_ t).slot imm.toNat).st = .parked) →
        ∃ x : Tile, exec (.swait t rd 0 0 imm) s = .next (s.ran t x []) ∧ (s.at_ t).Writes x rd 0) ∧
      ((((s.at_ t).slot imm.toNat).st ≠ .idle ∧ ((s.at_ t).slot imm.toNat).st ≠ .parked) →
        ∃ x : Tile, exec (.swait t rd 0 0 imm) s = .next (s.ran t x []) ∧ (s.at_ t).Blocks x (s.ctx t) rd (.stream imm.toNat) ∧
          x.waitWord = 0x6 + imm.toNat * 2 ^ 4))) ∧
(  ∀ (s : State) (t k : Nat), t < 2304 → s.gatedNow = false → ((s.seen t).slot k).st = .stopping → ((s.seen t).slot k).due ≤ s.cycle →
    ((s.seen t).slot k).writes = [] → (∀ r ∈ ((s.seen t).slot k).reqs, r.write = false) →
    (∀ a ∈ (s.seen t).bank.atoms, a.by_ ≠ .slot k) → (s.seen t).st = .running →
    ∃ x : Tile, exec (.sstopIdle t k) s = .next (s.withTile t x []) ∧ (x.slot k).st = .idle ∧ (x.slot k).prog = [] ∧
      (x.slot k).base = [] ∧ (∀ j, j ≠ k → x.slot j = (s.seen t).slot j) ∧ x.spad = (s.seen t).spad ∧
      (∀ rd, (s.seen t).seq.blk = some ⟨.streamStop k, rd⟩ →
        x.seq.blk = none ∧ x.seq.pc = (s.seen t).seq.pc + 4 ∧ x.gr rd = 0 ∧ ∀ r, r ≠ rd → x.gr r = (s.seen t).gr r))

/-- R190 and Table 3-8, FUSE and FWAIT: FUSE takes an idle fused slot to its descriptor, BUSY if it is busy; FWAIT waits until it is
idle.

Model's choices it rests on: log entry 28. -/
def Obligations.FusedSlotCommands : Prop :=
  ∀ (s : State) (t : Nat) (rd ra imm : BitVec 5), imm.toNat < 4 → s.Quiet t →
    (s.Fetches t (encCmd 0x08 rd ra 0 imm) → (s.at_ t).InPad ((s.at_ t).gr ra) 64 64 →
      (((s.at_ t).fslot imm.toNat).busy = false →
        ∃ x y : Tile, exec (.fuse t rd ra 0 imm) s = .next (s.ran t x []) ∧ y.Writes x rd 0 ∧
          y = { s.at_ t with fused := y.fused } ∧ (∀ k, k ≠ imm.toNat → y.fslot k = (s.at_ t).fslot k) ∧
          (y.fslot imm.toNat).busy = true ∧ (y.fslot imm.toNat).step = 0 ∧ (y.fslot imm.toNat).addr = ((s.at_ t).gr ra).toNat ∧
          (y.fslot imm.toNat).due = s.cycle + 2) ∧
      (((s.at_ t).fslot imm.toNat).busy = true →
        ∃ x : Tile, exec (.fuse t rd ra 0 imm) s = .next (s.ran t x []) ∧ (s.at_ t).Writes x rd 2)) ∧
    (s.Fetches t (encCmd 0x09 rd 0 0 imm) →
      (((s.at_ t).fslot imm.toNat).busy = false →
        ∃ x : Tile, exec (.fwait t rd 0 0 imm) s = .next (s.ran t x []) ∧ (s.at_ t).Writes x rd 0) ∧
      (((s.at_ t).fslot imm.toNat).busy = true →
        ∃ x : Tile, exec (.fwait t rd 0 0 imm) s = .next (s.ran t x []) ∧ (s.at_ t).Blocks x (s.ctx t) rd (.fused imm.toNat) ∧
          x.waitWord = 0x8 + imm.toNat * 2 ^ 4))

/-- R141, R143, R147 and Table 3-8, LLOAD and LWAIT: LLOAD begins a load of the bundle at ra (mode DRAIN 0 or CUT 1), BUSY while one is in
progress; LWAIT waits until the phase of the last LLOAD is in force.

Model's choices it rests on: log entry 16. -/
def Obligations.LatticeLoadCommands : Prop :=
  ∀ (s : State) (t : Nat) (rd ra : BitVec 5), s.Quiet t →
    (∀ (cut : Bool) (i : Instr) (w : BitVec 32),
      (i = .lloadDrain t rd ra 0 0 ∧ w = encCmd 0x04 rd ra 0 0 ∧ cut = false ∨
       i = .lloadCut t rd ra 0 0 ∧ w = encCmd 0x04 rd ra 0 1 ∧ cut = true) →
      s.Fetches t w → (s.at_ t).InPad ((s.at_ t).gr ra) 64 64 →
      3 ≤ Mem.num 0 (s.at_ t).spad (((s.at_ t).gr ra).toNat + 4) 2 → Mem.num 0 (s.at_ t).spad (((s.at_ t).gr ra).toNat + 4) 2 ≤ 256 →
      ((s.at_ t).gr ra).toNat + 64 * Mem.num 0 (s.at_ t).spad (((s.at_ t).gr ra).toNat + 4) 2 ≤ (s.at_ t).size →
      (s.at_ t).PortFree (s.ctx t) false ((s.at_ t).gr ra).toNat 64 →
      ((s.at_ t).lat.load = none →
        ∃ (x : Tile) (ld : LatLoad), exec i s = .next (s.ran t x []) ∧ x.lat = { (s.at_ t).lat with load := some ld } ∧
          ld.st = .loading ∧ ld.cut = cut ∧ ld.issued = s.cycle ∧ ld.addr = ((s.at_ t).gr ra).toNat ∧
          ld.got = Mem.bytes 0 (s.at_ t).spad ((s.at_ t).gr ra).toNat 64 ∧
          ld.lines = Mem.num 0 (s.at_ t).spad (((s.at_ t).gr ra).toNat + 4) 2 ∧
          x.rd F.TIL_LAT_PHASE.mode 0 = cut.toNat ∧ x.gr rd = 0 ∧ (∀ r, r ≠ rd → x.gr r = (s.at_ t).gr r) ∧
          x.seq.pc = (s.at_ t).seq.pc + 4 ∧ x.spad = (s.at_ t).spad) ∧
      ((s.at_ t).lat.load ≠ none → ∃ x y : Tile, exec i s = .next (s.ran t x []) ∧ y.SameButBank x ∧ (s.at_ t).Writes y rd 2)) ∧
    (s.Fetches t (encCmd 0x05 rd 0 0 0) →
      (((s.at_ t).lat.load = none ∨ ∃ ld, (s.at_ t).lat.load = some ld ∧
          (ld.st = .flushing ∨ ld.st = .committing ∧ ld.inForce ≤ s.cycle)) →
        ∃ x : Tile, exec (.lwait t rd 0 0 0) s = .next (s.ran t x []) ∧ (s.at_ t).Writes x rd 0) ∧
      ((∃ ld, (s.at_ t).lat.load = some ld ∧
          (ld.st = .loading ∨ ld.st = .draining ∨ ld.st = .committing ∧ s.cycle < ld.inForce)) →
        ∃ x : Tile, exec (.lwait t rd 0 0 0) s = .next (s.ran t x []) ∧ (s.at_ t).Blocks x (s.ctx t) rd .lattice ∧
          x.waitWord = 0x7))

/-- R243, R244, R91 and Table 3-8, CSEND on an entry with no other send waiting: on an OPEN entry with a credit it takes the credit, hands
the message's bytes to Vesper two cycles later, where no bank port is taken (R244 steps 3 and 4), and waits for the reply; without a credit it waits; on a BROKEN entry nothing is sent, and it completes CLOSED in the cycle after (`Tile.endRefused`, which every tile does
by itself).

Model's choices it rests on: log entries 15, 93. -/
def Obligations.CsendHandsMessageOver : Prop :=
  ∀ (s : State) (t : Nat) (rd ra rb : BitVec 5) (e len : Nat), s.Fetches t (encCmd 0x0C rd ra rb 0) → s.Quiet t →
    sendOperand ((s.at_ t).gr rb) → e = ((s.at_ t).gr rb).toNat % 64 → len = ((s.at_ t).gr rb).toNat / 2 ^ 16 →
    len ≤ (s.at_ t).rd F.TIL_CHS_CFG.max_len e * 16 → (s.at_ t).InPad ((s.at_ t).gr ra) 16 len →
    (∀ y ∈ (s.at_ t).sends, y.entry ≠ e) →
    ((s.at_ t).rd F.TIL_CHS_STATE.state e = 1 → 1 ≤ (s.at_ t).rd F.TIL_CHS_STATE.credit e →
        (s.at_ t).rd F.TIL_CHS_STATE.credit e ≤ 16 → (s.at_ t).PortsIdle (s.ctx t) →
      ∃ x : Tile, exec (.csend t rd ra rb 0) s = .next (s.ran t x []) ∧
        x.outbox = (s.at_ t).outbox ++ [⟨s.cycle + 2, 0, false,
          .chanMsg ((s.at_ t).rd F.TIL_CHS_CFG.remote e == 1) ((s.at_ t).rd F.TIL_CHS_CFG.eid e) ((s.at_ t).rd F.TIL_CHS_CFG.tile e)
            ((s.at_ t).rd F.TIL_CHS_CFG.queue e) e (Mem.bytes 0 (s.at_ t).spad ((s.at_ t).gr ra).toNat len)⟩] ∧
        x.rd F.TIL_CHS_STATE.credit e = (s.at_ t).rd F.TIL_CHS_STATE.credit e - 1 ∧ x.seq.blk = some ⟨.send e, rd⟩ ∧
        x.seq.g = (s.at_ t).seq.g ∧ x.seq.pc = (s.at_ t).seq.pc ∧ x.spad = (s.at_ t).spad) ∧
    ((s.at_ t).rd F.TIL_CHS_STATE.state e = 1 → (s.at_ t).rd F.TIL_CHS_STATE.credit e = 0 →
      ∃ x : Tile, exec (.csend t rd ra rb 0) s = .next (s.ran t x []) ∧ x.seq.blk = some ⟨.send e, rd⟩ ∧
        x.regs = (s.at_ t).regs ∧ x.seq.g = (s.at_ t).seq.g ∧ x.spad = (s.at_ t).spad) ∧
    ((s.at_ t).rd F.TIL_CHS_STATE.state e = 2 →
      ∃ x : Tile, exec (.csend t rd ra rb 0) s = .next (s.ran t x []) ∧ x.seq.blk = some ⟨.send e, rd⟩ ∧
        x.refusing = (s.at_ t).refusing ++ [(s.cycle + 1, .csend, e)] ∧ x.regs = (s.at_ t).regs ∧ x.seq.g = (s.at_ t).seq.g ∧
        x.sends = (s.at_ t).sends ∧ x.outbox = (s.at_ t).outbox ∧ x.spad = (s.at_ t).spad) ∧
    (∀ (c : Ctx) (b x : Tile) (k : Nat), b.refusing = [(k, .csend, e)] → k ≤ c.cycle → b.seq.blk = some ⟨.send e, rd⟩ → x = b.endRefused c →
      x.refusing = [] ∧ x.seq.blk = none ∧ x.gr rd = (if rd = 0 then 0 else 1) ∧ (∀ r, r ≠ rd → x.gr r = b.gr r) ∧
      x.seq.pc = b.seq.pc + 4 ∧ x.rd F.TIL_SEQ_STATUS.closed_send 0 = 1 ∧ x.spad = b.spad)

/-- R250 to R252 and Table 3-8, CRECV and CPOLL on an OPEN queue that no CP takes from and for which no fused recv step has waited longer
(R253): a held message is written to the buffer, 64 bytes a cycle where no bank port is taken, its slot is freed with a CREDIT reply in the
cycle after the last bytes, and rd takes OK with its length; with no message CRECV waits and CPOLL answers EMPTY.

R254 and Table 3-8, CCLOSE on an OPEN queue with no fused recv step waiting: every held message is discarded and answered with CREDIT,
oldest first, in the next cycle, and the queue is CLOSED; a message that arrived in this very cycle gets CLOSED in place of ACCEPTED; on
a CLOSED queue it answers OK.

Model's choices it rests on: log entry 15. -/
def Obligations.ChannelQueues : Prop :=
  (  ∀ (s : State) (t : Nat) (rd ra rb : BitVec 5) (i : Instr) (w : BitVec 32) (poll : Bool),
    (i = .crecv t rd ra rb 0 ∧ w = encCmd 0x0D rd ra rb 0 ∧ poll = false ∨
     i = .cpoll t rd ra rb 0 ∧ w = encCmd 0x0E rd ra rb 0 ∧ poll = true) →
    s.Fetches t w → s.Quiet t → ((s.at_ t).gr rb).toNat < 64 → (s.at_ t).rd F.TIL_CHQ_STATE.state ((s.at_ t).gr rb).toNat = 1 →
    (s.at_ t).cpInbound ≠ some ((s.at_ t).gr rb).toNat → (s.at_ t).InPad ((s.at_ t).gr ra) 16 4096 → Mem.wf 0 (s.at_ t).spad = true →
    (s.at_ t).recvAhead ((s.at_ t).gr rb).toNat s.cycle = false →
    (∀ m r, (s.at_ t).queue ((s.at_ t).gr rb).toNat = m :: r → m.bytes.length ≤ 4096 → (s.at_ t).PortsIdle (s.ctx t) →
        (s.at_ t).bank.atoms = [] →
      ∃ x : Tile, exec i s = .next (s.ran t x []) ∧
        x.outbox = (s.at_ t).outbox ++ [⟨s.cycle + (m.bytes.length + 63) / 64 + 1, ((s.at_ t).gr rb).toNat, true,
          .chanReply m.remote m.srcEid m.src 3 m.sendIndex 1⟩] ∧
        x.queue ((s.at_ t).gr rb).toNat = r ∧ Mem.bytes 0 x.spad ((s.at_ t).gr ra).toNat m.bytes.length = m.bytes ∧
        (∀ k, k < ((s.at_ t).gr ra).toNat ∨ ((s.at_ t).gr ra).toNat + m.bytes.length ≤ k →
          Mem.get 0 x.spad k = Mem.get 0 (s.at_ t).spad k) ∧
        x.gr rd = (if rd = 0 then 0 else BitVec.ofNat 64 (m.bytes.length * 2 ^ 16)) ∧ (∀ r, r ≠ rd → x.gr r = (s.at_ t).gr r) ∧
        x.seq.pc = (s.at_ t).seq.pc + 4 ∧ x.seq.blk = none) ∧
    ((s.at_ t).queue ((s.at_ t).gr rb).toNat = [] →
      ∃ x : Tile, exec i s = .next (s.ran t x []) ∧
        (poll = true → (s.at_ t).Writes x rd 3) ∧
        (poll = false → (s.at_ t).Blocks x (s.ctx t) rd (.recv ((s.at_ t).gr rb).toNat ((s.at_ t).gr ra).toNat)))) ∧
(  ∀ (s : State) (t : Nat) (rd rb : BitVec 5), s.Fetches t (encCmd 0x0F rd 0 rb 0) → s.Quiet t → ((s.at_ t).gr rb).toNat < 64 →
    (s.at_ t).fusedWaits ((s.at_ t).gr rb).toNat = false →
    ((s.at_ t).rd F.TIL_CHQ_STATE.state ((s.at_ t).gr rb).toNat = 1 →
      ∃ x : Tile, exec (.cclose t rd 0 rb 0) s = .next (s.ran t x []) ∧
        ((∀ m ∈ (s.at_ t).queue ((s.at_ t).gr rb).toNat, m.at_ ≠ s.cycle) →
          x.outbox = (s.at_ t).outbox ++ ((s.at_ t).queue ((s.at_ t).gr rb).toNat).map (fun m =>
            ⟨s.cycle + 1, ((s.at_ t).gr rb).toNat, false, .chanReply m.remote m.srcEid m.src 3 m.sendIndex 1⟩)) ∧
        (∀ m, (s.at_ t).queue ((s.at_ t).gr rb).toNat = [m] → m.at_ = s.cycle →
          (⟨s.cycle + 1, ((s.at_ t).gr rb).toNat, false, .chanReply m.remote m.srcEid m.src 0 m.sendIndex 0⟩ : Later) ∈ (s.at_ t).outbox →
          x.outbox = (s.at_ t).outbox.erase
              ⟨s.cycle + 1, ((s.at_ t).gr rb).toNat, false, .chanReply m.remote m.srcEid m.src 0 m.sendIndex 0⟩ ++
            [⟨s.cycle + 1, ((s.at_ t).gr rb).toNat, false, .chanReply m.remote m.srcEid m.src 1 m.sendIndex 1⟩]) ∧
        x.queue ((s.at_ t).gr rb).toNat = [] ∧ x.rd F.TIL_CHQ_STATE.state ((s.at_ t).gr rb).toNat = 2 ∧
        (∀ q, q ≠ ((s.at_ t).gr rb).toNat → x.queue q = (s.at_ t).queue q) ∧ x.gr rd = 0 ∧ (∀ r, r ≠ rd → x.gr r = (s.at_ t).gr r) ∧
        x.seq.pc = (s.at_ t).seq.pc + 4 ∧ x.spad = (s.at_ t).spad) ∧
    ((s.at_ t).rd F.TIL_CHQ_STATE.state ((s.at_ t).gr rb).toNat = 2 →
      ∃ x : Tile, exec (.cclose t rd 0 rb 0) s = .next (s.ran t x []) ∧ (s.at_ t).Writes x rd 0))

/-- R92. CTRWAIT ends at once when (c − v) mod 2³² < 2³¹ and waits otherwise; CTRSET writes the counter, with this cycle's arrivals added,
and no other counter.

R93, R227, R228 and R433, BAR, BARA and BARW: on an index of the tile's configuration with no BARA outstanding BAR and BARA mark the
tile's arrival in this cycle, a participant with its digest contribution; BAR waits, BARA leaves its BARA outstanding; BARW takes a release
that has come, else waits.

Model's choices it rests on: log entry 17. -/
def Obligations.CountersAndBarriers : Prop :=
  (∀ (s : State) (t : Nat) (rd ra rb : BitVec 5), s.Quiet t → ((s.at_ t).gr ra).toNat < 2 ^ 32 → ((s.at_ t).gr rb).toNat < 64 →
    (s.Fetches t (encCmd 0x14 rd ra rb 0) →
      ((((s.at_ t).rd F.TIL_ARRIVAL.count ((s.at_ t).gr rb).toNat : Int) - ((s.at_ t).gr ra).toNat) % 2 ^ 32 < 2 ^ 31 →
        ∃ x : Tile, exec (.ctrwait t rd ra rb 0) s = .next (s.ran t x []) ∧ (s.at_ t).Writes x rd 0) ∧
      (¬ (((s.at_ t).rd F.TIL_ARRIVAL.count ((s.at_ t).gr rb).toNat : Int) - ((s.at_ t).gr ra).toNat) % 2 ^ 32 < 2 ^ 31 →
        ∃ x : Tile, exec (.ctrwait t rd ra rb 0) s = .next (s.ran t x []) ∧
          (s.at_ t).Blocks x (s.ctx t) rd (.counter ((s.at_ t).gr rb).toNat ((s.at_ t).gr ra).toNat) ∧
          x.waitWord = 0x3 + ((s.at_ t).gr rb).toNat * 2 ^ 4)) ∧
    (s.Fetches t (encCmd 0x15 rd ra rb 0) →
      ∃ x y : Tile, exec (.ctrset t rd ra rb 0) s = .next (s.ran t x []) ∧ y.Writes x rd 0 ∧
        y = { s.at_ t with regs := y.regs } ∧
        y.rd F.TIL_ARRIVAL.count ((s.at_ t).gr rb).toNat = 
          (((s.at_ t).gr ra).toNat + (match (s.at_ t).ctrAdds.find ((s.at_ t).gr rb).toNat with
            | some (k, n) => if k = s.cycle then n else 0 | none => 0)) % 2 ^ 32 ∧
        (∀ k, k ≠ ((s.at_ t).gr rb).toNat → y.rd F.TIL_ARRIVAL.count k = (s.at_ t).rd F.TIL_ARRIVAL.count k))) ∧
(∀ (s : State) (t : Nat) (rd imm : BitVec 5), s.Quiet t →
    ((s.at_ t).rd F.TIL_PUL_BAR.enable imm.toNat = 1 → (s.at_ t).barPending imm.toNat = false →
      (s.Fetches t (encCmd 0x18 rd 0 0 imm) →
        ∃ (x : Tile) (o : List Out), exec (.bar t rd 0 0 imm) s = .next (s.ran t x o) ∧
          x.arrived.find imm.toNat = some s.cycle ∧ x.seq.blk = some ⟨.barrier imm.toNat, rd⟩ ∧ x.waitWord = 0x4 + imm.toNat * 2 ^ 4 ∧
          x.seq.g = (s.at_ t).seq.g ∧ x.seq.pc = (s.at_ t).seq.pc ∧ x.regs = (s.at_ t).regs ∧
          ((s.at_ t).rd F.TIL_PUL_BAR.participant imm.toNat ≠ 1 → o = []) ∧
          ((s.at_ t).rd F.TIL_PUL_BAR.participant imm.toNat = 1 →
            o = [.digest imm.toNat (crc64 0 (leBytes 2 t ++ leBytes 8 (s.at_ t).digest.toNat))])) ∧
      (s.Fetches t (encCmd 0x19 rd 0 0 imm) →
        ∃ (x : Tile) (o : List Out), exec (.bara t rd 0 0 imm) s = .next (s.ran t x o) ∧
          x.arrived.find imm.toNat = some s.cycle ∧ x.barPending imm.toNat = true ∧ x.seq.blk = none ∧ x.gr rd = 0 ∧
          (∀ r, r ≠ rd → x.gr r = (s.at_ t).gr r) ∧ x.seq.pc = (s.at_ t).seq.pc + 4)) ∧
    (s.Fetches t (encCmd 0x1A rd 0 0 imm) → (s.at_ t).barPending imm.toNat = true →
      (bitOf ((s.at_ t).rd F.TIL_PUL_STATE.released 0) imm.toNat = true →
        ∃ x : Tile, exec (.barw t rd 0 0 imm) s = .next (s.ran t x []) ∧ x.barPending imm.toNat = false ∧
          bitOf (x.rd F.TIL_PUL_STATE.released 0) imm.toNat = false ∧ x.gr rd = 0 ∧ (∀ r, r ≠ rd → x.gr r = (s.at_ t).gr r) ∧
          x.seq.pc = (s.at_ t).seq.pc + 4 ∧ x.seq.blk = none) ∧
      (bitOf ((s.at_ t).rd F.TIL_PUL_STATE.released 0) imm.toNat = false →
        ∃ x : Tile, exec (.barw t rd 0 0 imm) s = .next (s.ran t x []) ∧
          (s.at_ t).Blocks x (s.ctx t) rd (.barrier imm.toNat))))

/-- R95, WAITS and WAITS_COMPLETE. In time it waits and completes in cycle t − 1 (at once if that is this cycle); late in not-before form it
completes at once, and in deadline form it raises SLIP (R96): the tile is FENCED with the target and the lateness in TIL_SLIP. -/
def Obligations.WaitsHoldsUntilTarget : Prop :=
  (∀ (s : State) (t : Nat) (rd ra imm : BitVec 5), s.Fetches t (encCmd 0x1C rd ra 0 imm) → s.Quiet t → imm.toNat < 2 →
    (s.sidereal + 1 < ((s.at_ t).gr ra).toNat →
      ∃ x : Tile, exec (.waits t rd ra 0 imm) s = .next (s.ran t x []) ∧
        (s.at_ t).Blocks x (s.ctx t) rd (.sidereal ((s.at_ t).gr ra)) ∧ x.waitWord = 0x5) ∧
    (s.sidereal + 1 = ((s.at_ t).gr ra).toNat ∨ (((s.at_ t).gr ra).toNat ≤ s.sidereal ∧ imm = 0) →
      ∃ x : Tile, exec (.waits t rd ra 0 imm) s = .next (s.ran t x []) ∧ (s.at_ t).Writes x rd 0) ∧
    (((s.at_ t).gr ra).toNat ≤ s.sidereal → imm = 1 →
      ∃ (x : Tile) (w : Word), exec (.waits t rd ra 0 imm) s = .next (s.ran t x [.faultLine, .record 0x01 1 0 0 w 0 0 3]) ∧
        x.st = .fenced ∧ x.rd F.TIL_SEQ_STATUS.slip 0 = 1 ∧ x.rd F.TIL_SLIP.target_lo 0 = ((s.at_ t).gr ra).toNat % 2 ^ 32 ∧
        x.rd F.TIL_SLIP.lateness 0 = min (s.sidereal - ((s.at_ t).gr ra).toNat + 1) (2 ^ 32 - 1) ∧
        x.rd F.TIL_STOP.stop_reason 0 = 1 ∧ x.rd F.TIL_STOP.stop_cause 0 = 0 ∧
        x.rd F.TIL_STOP.stop_pc 0 = (s.at_ t).seq.pc.toNat % 2 ^ 21 ∧ x.seq.g = (s.at_ t).seq.g ∧ x.seq.pc = (s.at_ t).seq.pc ∧
        x.spad = (s.at_ t).spad)) ∧
  (∀ (s : State) (t : Nat) (rd : BitVec 5) (w : Word), t < 2304 → s.gatedNow = false → (s.seen t).st = .running →
    (s.seen t).seq.blk = some ⟨.sidereal w, rd⟩ → w.toNat ≤ s.sidereal + 1 →
    ∃ x : Tile, exec (.waitsComplete t) s = .next (s.withTile t x []) ∧ x.seq.blk = none ∧ x.gr rd = 0 ∧
      (∀ r, r ≠ rd → x.gr r = (s.seen t).gr r) ∧ x.seq.pc = (s.seen t).seq.pc + 4 ∧ x.waitWord = 0)

/-- Table 3-6 and R98, VSYNC: it ends at once when every VST of the tile has reached its target, else it waits with wait word VESPER.

R97, R98, R195 and Table 3-8, TRNS, VLD and VST: TRNS answers BUSY without an open transit window and else waits with wait word TRANSIT;
VLD sends a register read and waits with wait word VESPER; VST sends its write and completes at issue.

Model's choices it rests on: log entries 19, 20. -/
def Obligations.TransitAndVesperCommands : Prop :=
  (  ∀ (s : State) (t : Nat), s.Fetches t (encSys 11 0 0 0) → s.Quiet t →
    ((s.at_ t).seq.vstOut = 0 → ∃ x : Tile, exec (.vsync t 0 0 0) s = .next (s.ran t x []) ∧
      (s.at_ t).Goes x ((s.at_ t).seq.pc + 4)) ∧
    ((s.at_ t).seq.vstOut ≠ 0 → ∃ x : Tile, exec (.vsync t 0 0 0) s = .next (s.ran t x []) ∧
      (s.at_ t).Blocks x (s.ctx t) 0 .vsync ∧ x.waitWord = 0x9)) ∧
(  ∀ (s : State) (t : Nat) (rd ra rb : BitVec 5), s.Quiet t →
    (s.Fetches t (encCmd 0x1D rd 0 0 0) →
      (t ∉ s.windows → ∃ x : Tile, exec (.trns t rd 0 0 0) s = .next (s.ran t x []) ∧ (s.at_ t).Writes x rd 2) ∧
      (t ∈ s.windows → ∃ x : Tile, exec (.trns t rd 0 0 0) s = .next (s.ran t x []) ∧
        (s.at_ t).Blocks x (s.ctx t) rd .transit ∧ x.waitWord = 0xA)) ∧
    (vesperAddress ((s.at_ t).gr ra) →
      (s.Fetches t (encCmd 0x20 rd ra 0 0) →
        ∃ x : Tile, exec (.vld t rd ra 0 0) s = .next (s.ran t x
            [.regReq false (((s.at_ t).gr ra).toNat / 2 ^ 28 == 1) (((s.at_ t).gr ra).toNat % 2 ^ 28) 0 (s.at_ t).nextTag]) ∧
          x.seq.blk = some ⟨.vld, rd⟩ ∧ x.waitWord = 0x9 ∧ x.seq.g = (s.at_ t).seq.g ∧ x.seq.pc = (s.at_ t).seq.pc ∧
          x.spad = (s.at_ t).spad) ∧
      (s.Fetches t (encCmd 0x21 rd ra rb 0) →
        ∃ x : Tile, exec (.vst t rd ra rb 0) s = .next (s.ran t x
            [.regReq true (((s.at_ t).gr ra).toNat / 2 ^ 28 == 1) (((s.at_ t).gr ra).toNat % 2 ^ 28) ((s.at_ t).gr rb)
              (s.at_ t).nextTag]) ∧
          x.seq.vstOut = (s.at_ t).seq.vstOut + 1 ∧ x.gr rd = 0 ∧ (∀ r, r ≠ rd → x.gr r = (s.at_ t).gr r) ∧
          x.seq.pc = (s.at_ t).seq.pc + 4 ∧ x.seq.blk = none ∧ x.spad = (s.at_ t).spad)))

/-- R80, R109, R113 to R116: writes of TIL_CTRL, TIL_ENTRY and TIL_GREG. On an IDLE tile TIL_ENTRY and TIL_GREG store and go = 1 (with release 0 and the
module READY or JOINED) starts the tile 8 cycles later; in any other tile state each sets cfg_ignored and does nothing else, go with an
error record.

R70, R74, R155, R168, R197: writes of TIL_SR_SEED, TIL_SR_COUNT, TIL_ARRIVAL, TIL_LAT_CTR_CLR and TIL_BANK_OWNER. A seed write sets every
counter to 0; seed and counters while RUNNING set cfg_ignored of TIL_NUM_STATUS and store nothing; TIL_ARRIVAL writes a counter as
CTRSET while the tile is not RUNNING; clear = 1 zeroes the lattice's counters; the owners
of a TIL_BANK_OWNER write count from the next cycle on.

R234, R237 to R240 on an IDLE tile: TIL_PUL_BAR stores; a TIL_CHS_CFG write that enables an entry with 1 to 16 credits and a length of 1 to
256 makes the entry OPEN with its credits, one that clears enable makes it DISABLED; a TIL_CHQ_CFG write that clears enable disables the
queue and answers each held message with CREDIT in the next cycle. -/
def Obligations.TileRegisterWrites : Prop :=
  (  ∀ (s : State) (t : Nat) (v : Word), t < 2304 → (s.seen t).vacant = false →
    ((s.seen t).st = .idle →
      (∃ x : Tile, exec (.tilEntryWrite t v) s = .next (s.withTile t x []) ∧ x = { s.seen t with regs := x.regs } ∧
        x.rd F.TIL_ENTRY.pc 0 = v.toNat / 4 % 2 ^ 19 ∧ x.rd F.TIL_ENTRY.release 0 = v.toNat / 2 ^ 63) ∧
      (∀ j, 0 < j → j < 32 → ∃ x : Tile, exec (.tilGregWrite t j v) s = .next (s.withTile t x []) ∧
        x = { s.seen t with seq := { (s.seen t).seq with g := x.seq.g } } ∧ x.gr (BitVec.ofNat 5 j) = v ∧
        ∀ r, r ≠ BitVec.ofNat 5 j → x.gr r = (s.seen t).gr r) ∧
      (exec (.tilGregWrite t 0 v) s = .next (s.withTile t (s.seen t) [])) ∧
      (v.toNat % 2 = 1 → (s.seen t).rd F.TIL_ENTRY.release 0 = 0 → (s.st = .ready ∨ s.st = .joined) → (s.seen t).goAt = none →
        exec (.tilCtrlGo t v) s = .next (s.withTile t { s.seen t with goAt := some (s.cycle + 8) } []))) ∧
    ((s.seen t).st ≠ .idle →
      ∀ i ∈ [Instr.tilEntryWrite t v, .tilGregWrite t 1 v, .tilPulBarWrite t 0 v, .tilChqCfgWrite t 0 v, .tilChsCfgWrite t 0 v],
        ∃ x : Tile, exec i s = .next (s.withTile t x []) ∧ x = { s.seen t with regs := x.regs } ∧
          x.rd F.TIL_SEQ_STATUS.cfg_ignored 0 = 1 ∧
          (∀ f ∈ Reg.fields .TIL_ENTRY ++ Reg.fields .TIL_PUL_BAR ++ Reg.fields .TIL_CHQ_CFG ++ Reg.fields .TIL_CHS_CFG,
            ∀ j, x.rd f j = (s.seen t).rd f j)) ∧
    ((s.seen t).st ≠ .idle → v.toNat % 2 = 1 →
      ∃ (x : Tile) (w : Word), exec (.tilCtrlGo t v) s = .next (s.withTile t x [.record 0x40 1 0 0x10 w 0 0 0]) ∧
        x = { s.seen t with regs := x.regs } ∧ x.rd F.TIL_SEQ_STATUS.cfg_ignored 0 = 1)) ∧
(  ∀ (s : State) (t j : Nat) (v : Word), t < 2304 → (s.seen t).vacant = false →
    ((s.seen t).st ≠ .running →
      (∃ x : Tile, exec (.tilSrSeedWrite t v) s = .next (s.withTile t x []) ∧ x.rd F.TIL_SR_SEED.seed 0 = v.toNat ∧
        (∀ u, u < 8 → x.rd F.TIL_SR_COUNT.count u = 0) ∧ x.seq = (s.seen t).seq ∧ x.spad = (s.seen t).spad) ∧
      (∃ x : Tile, exec (.tilSrCountWrite t j v) s = .next (s.withTile t x []) ∧ x = { s.seen t with regs := x.regs } ∧
        x.rd F.TIL_SR_COUNT.count j = v.toNat % 2 ^ F.TIL_SR_COUNT.count.width) ∧
      ((∀ a, (s.seen t).ctrAdds.find j = some a → a.1 ≠ s.cycle) →
        ∃ x : Tile, exec (.tilArrivalWrite t j v) s = .next (s.withTile t x []) ∧ x = { s.seen t with regs := x.regs } ∧
          x.rd F.TIL_ARRIVAL.count j = v.toNat % 2 ^ 32 ∧ ∀ k, k ≠ j → x.rd F.TIL_ARRIVAL.count k = (s.seen t).rd F.TIL_ARRIVAL.count k)) ∧
    ((s.seen t).st = .running →
      ∀ i ∈ [Instr.tilSrSeedWrite t v, .tilSrCountWrite t j v], ∃ x : Tile, exec i s = .next (s.withTile t x []) ∧
        x.rd F.TIL_NUM_STATUS.cfg_ignored 0 = 1 ∧ x.rd F.TIL_SR_SEED.seed 0 = (s.seen t).rd F.TIL_SR_SEED.seed 0 ∧
        (∀ u, x.rd F.TIL_SR_COUNT.count u = (s.seen t).rd F.TIL_SR_COUNT.count u) ∧ x.spad = (s.seen t).spad) ∧
    (v.toNat % 2 = 1 → ∃ x : Tile, exec (.tilLatCtrClrWrite t v) s = .next (s.withTile t x []) ∧
      x = { s.seen t with regs := x.regs, latClr := some s.cycle } ∧
      ∀ u, u < 16 → x.rd F.TIL_LAT_FIRE.count u = 0 ∧ x.rd F.TIL_LAT_IMBAL.cycles u = 0 ∧ x.rd F.TIL_LAT_OCC.max u = 0) ∧
    (∃ x : Tile, exec (.tilBankOwnerWrite t v) s = .next (s.withTile t x []) ∧ x = { s.seen t with regs := x.regs, bank := x.bank } ∧
      (∀ f ∈ Reg.fields .TIL_BANK_OWNER, f.acc = .rw → x.rd f 0 = v.toNat / 2 ^ f.lo % 2 ^ f.width) ∧
      ((∀ w, (s.seen t).bank.ownerWas = some w → w.1 ≤ s.cycle) → (∀ b, b < 4 → (s.seen t).rd (ownerField b) 0 < 4) →
        ∀ b, b < 4 → x.owner s.cycle b = (s.seen t).owner s.cycle b ∧ x.owner (s.cycle + 1) b = v.toNat / 4 ^ b % 4))) ∧
(  ∀ (s : State) (t e : Nat) (v : Word), t < 2304 → (s.seen t).vacant = false → (s.seen t).st = .idle →
    (∃ x : Tile, exec (.tilPulBarWrite t e v) s = .next (s.withTile t x []) ∧ x = { s.seen t with regs := x.regs } ∧
      ∀ f ∈ Reg.fields .TIL_PUL_BAR, f.acc = .rw → f.reserved = [] → x.rd f e = v.toNat / 2 ^ f.lo % 2 ^ f.width) ∧
    ((Access.full v).val F.TIL_CHS_CFG.enable = 1 → 1 ≤ (Access.full v).val F.TIL_CHS_CFG.credits →
      (Access.full v).val F.TIL_CHS_CFG.credits ≤ 16 → 1 ≤ (Access.full v).val F.TIL_CHS_CFG.max_len →
      (Access.full v).val F.TIL_CHS_CFG.max_len ≤ 256 → (Access.full v).val F.TIL_CHS_CFG.tile ≤ 2303 →
      ∃ x : Tile, exec (.tilChsCfgWrite t e v) s = .next (s.withTile t x []) ∧ x = { s.seen t with regs := x.regs } ∧
        x.rd F.TIL_CHS_STATE.state e = 1 ∧ x.rd F.TIL_CHS_STATE.credit e = (Access.full v).val F.TIL_CHS_CFG.credits ∧
        x.rd F.TIL_CHS_CFG.tile e = (Access.full v).val F.TIL_CHS_CFG.tile) ∧
    ((Access.full v).val F.TIL_CHS_CFG.enable = 0 →
      ∃ x : Tile, exec (.tilChsCfgWrite t e v) s = .next (s.withTile t x []) ∧ x.rd F.TIL_CHS_STATE.state e = 0) ∧
    ((Access.full v).val F.TIL_CHQ_CFG.enable = 0 →
      ∃ x : Tile, exec (.tilChqCfgWrite t e v) s = .next (s.withTile t x []) ∧
        ((∀ m ∈ (s.seen t).queue e, m.at_ ≠ s.cycle) →
          x.outbox = (s.seen t).outbox ++ ((s.seen t).queue e).map (fun m =>
            ⟨s.cycle + 1, e, false, .chanReply m.remote m.srcEid m.src 3 m.sendIndex 1⟩)) ∧
        x.queue e = [] ∧ x.rd F.TIL_CHQ_STATE.state e = 0 ∧ ∀ q, q ≠ e → x.queue q = (s.seen t).queue q))

/-- R143, R144, R146, R149, R150: the result of a load, lines + 3 cycles after it issued: its status and offset (Table 4-8) are recorded; a
refusal sets load_refused and sends an error record. In the cycle after, a refused load has ended and the phase is as it was; an accepted one
goes on, a CUT load to its commit, a DRAIN load to draining. R145, R144: a drain ends when the lattice is empty, or is forced by cycle
7,995; the new phase is in force 5 cycles after the commit began, which ends a DRAIN load; a CUT load ends 64 cycles later.

R122, R123, R148 and R154, TOKEN_ARRIVAL and TAG_DEADLOCK: the head token of an input enters the match table under its tag, one token of an
input in a cycle, into the slot of the entry that holds its tag or else into a free entry; the entry is complete when every slot that its
firing needs is filled; a token of another phase is discarded and counted; a unit that has been in tag exhaustion for 4,096 cycles is
reported.

Model's choices it rests on: log entries 16, 26. -/
def Obligations.LoadProgressAndTokens : Prop :=
  ((  ∀ (s : State) (t : Nat) (ld : LatLoad), t < 2304 → s.gatedNow = false → (s.seen t).deaf = false → (s.seen t).lat.load = some ld →
    (ld.st = .loading → ld.told = false → 64 * ld.lines ≤ ld.got.length → ld.issued + ld.lines + 3 ≤ s.cycle →
      ∀ (b : Bundle) (status off : Nat), validateBundle (s.seen t).lat.cfg.phase ld.got ld.lines = (b, status, off) →
        ∃ (x : Tile) (w : Word),
          exec (.latticeLoadResult t) s = .next (s.withTile t x (if status = 0 then [] else [.record 0x04 2 0 0 w 0 0 0])) ∧
          x = { s.seen t with regs := x.regs, lat := { (s.seen t).lat with
                  load := some { ld with told := true, status := status, errOff := off, bundle := b } } } ∧
          x.rd F.TIL_LAT_LOAD.status 0 = status % 2 ^ F.TIL_LAT_LOAD.status.width ∧ x.rd F.TIL_LAT_LOAD.err_offset 0 = off % 2 ^ 16 ∧
          (status ≠ 0 → x.rd F.TIL_LAT_STATUS.load_refused 0 = 1) ∧
          (status = 0 → x.rd F.TIL_LAT_STATUS.load_refused 0 = (s.seen t).rd F.TIL_LAT_STATUS.load_refused 0) ∧
          x.rd F.TIL_LAT_PHASE.phase 0 = (s.seen t).rd F.TIL_LAT_PHASE.phase 0) ∧
    (ld.st = .draining →
      (ld.issued + ld.lines + 4 ≤ s.cycle → s.cycle ≤ ld.issued + 7995 → (s.seen t).latticeEmpty = true →
        ∃ x : Tile, exec (.drainEnd t) s = .next (s.withTile t x []) ∧ x.lat.cfg = ld.bundle ∧
          x.lat.load = some { ld with st := .committing, inForce := s.cycle + 5 } ∧ x.rd F.TIL_LAT_PHASE.phase 0 = ld.bundle.phase.toNat ∧
          x.spad = (s.seen t).spad) ∧
      (ld.issued + 7995 ≤ s.cycle →
        ∃ x : Tile, exec (.drainForced t) s = .next (s.withTile t x []) ∧ x.lat.cfg = ld.bundle ∧
          x.lat.load = some { ld with cut := false, st := .committing, inForce := ld.issued + 8000 } ∧
          x.rd F.TIL_LAT_LOAD.drain_forced 0 = 1 ∧ x.rd F.TIL_LAT_STATUS.drain_forced 0 = 1 ∧
          x.rd F.TIL_LAT_PHASE.phase 0 = ld.bundle.phase.toNat ∧ x.spad = (s.seen t).spad)) ∧
    (ld.st = .flushing → ld.inForce + 64 ≤ s.cycle →
      exec (.flushEnd t) s = .next (s.withTile t { s.seen t with lat := { (s.seen t).lat with load := none } } []))) ∧
(  ∀ (c : Ctx) (b : Tile) (ld : LatLoad), b.lat.load = some ld →
    (ld.st = .loading → ld.told = true → 64 * ld.lines ≤ ld.got.length →
      b.lat.loadNext = some (ld.issued + ld.lines + 4) ∧
      (ld.status ≠ 0 → b.loadRun c = ({ b with lat := { b.lat with load := none } }, [])) ∧
      (ld.status = 0 → ld.cut = true →
        (b.loadRun c).2 = [] ∧ (b.loadRun c).1.lat.cfg = ld.bundle ∧
        (b.loadRun c).1.lat.load = some { ld with st := .committing, inForce := ld.issued + ld.lines + 8 } ∧
        (b.loadRun c).1.rd F.TIL_LAT_PHASE.phase 0 = ld.bundle.phase.toNat ∧ (b.loadRun c).1.spad = b.spad) ∧
      (ld.status = 0 → ld.cut = false →
        (b.loadRun c).2 = [] ∧ (b.loadRun c).1.lat.cfg = b.lat.cfg ∧ (b.loadRun c).1.lat.stopped = true ∧
        (b.loadRun c).1.lat.load = some { ld with st := .draining } ∧ (∀ u, ((b.loadRun c).1.unit u).sqLoop = none) ∧
        (((∃ u, u < 16 ∧ uKind u = .sq ∧ ((b.unit u).sqLoop).isSome = true) →
          (b.loadRun c).1.rd F.TIL_LAT_STATUS.sources_cut 0 = 1)) ∧ (b.loadRun c).1.spad = b.spad)) ∧
    (ld.st = .committing → b.lat.loadNext = some ld.inForce ∧
      b.loadRun c = ({ b with lat := { b.lat with load := if ld.cut then some { ld with st := .flushing } else none } }, [])))) ∧
(∀ (s : State) (t u i : Nat), t < 2304 → s.gatedNow = false → (s.lat_ t).latLive (s.ctx t) = true →
    (∀ q, ((s.lat_ t).unit u).head (s.ctx t) i = some q →
      (q.2.2.phase ≠ (s.lat_ t).lat.cfg.phase →
        ∃ x : Tile, exec (.tokenArrival t u i) s = .next (s.withTile t x []) ∧
          x.unit u = { (s.lat_ t).unit u with inq := ((s.lat_ t).unit u).inq.erase q } ∧ (∀ v, v ≠ u → x.unit v = (s.lat_ t).unit v) ∧
          x.rd F.TIL_LAT_STATUS.discard 0 = 1 ∧
          x.rd F.TIL_PHASE_DISCARD.count 0 = min ((s.lat_ t).rd F.TIL_PHASE_DISCARD.count 0 + 1) (2 ^ F.TIL_PHASE_DISCARD.count.width - 1) ∧
          x.spad = (s.lat_ t).spad) ∧
      (∀ o, q.2.2.phase = (s.lat_ t).lat.cfg.phase → (s.lat_ t).lat.cfg.op? u = some o → uKind u ≠ .ld → ¬(uKind u = .st ∧ o.op = 5) →
        ((s.lat_ t).unit u).moved.get i 0 ≠ s.cycle + 1 →
        (((s.lat_ t).unit u).table.length < 16 → (∀ e ∈ ((s.lat_ t).unit u).table, e.tag ≠ q.2.2.tag) →
          ∃ x : Tile, exec (.tokenArrival t u i) s = .next (s.withTile t x []) ∧
            (x.unit u).inq = ((s.lat_ t).unit u).inq.erase q ∧
            (x.unit u).table = ((s.lat_ t).unit u).table ++ [⟨q.2.2.tag, [(i, q.2.2)], s.cycle,
              if entryFull (s.lat_ t).lat.cfg o (firstOfStep ((s.lat_ t).unit u) o q.2.2.tag) [(i, q.2.2)] then some (s.cycle, i) else none⟩] ∧
            (x.unit u).pipe = ((s.lat_ t).unit u).pipe ∧ (x.unit u).moved.get i 0 = s.cycle + 1 ∧
            (∀ v, v ≠ u → x.unit v = (s.lat_ t).unit v) ∧ (s.lat_ t).LatRegs x [.TIL_LAT_OCC] ∧ x.spad = (s.lat_ t).spad) ∧
        (∀ l e r, ((s.lat_ t).unit u).table = l ++ e :: r → e.tag = q.2.2.tag → (∀ f ∈ l ++ r, f.tag ≠ q.2.2.tag) →
          (∀ p ∈ e.ops, p.1 ≠ i) → e.complete = none →
          ∃ x : Tile, exec (.tokenArrival t u i) s = .next (s.withTile t x []) ∧
            (x.unit u).inq = ((s.lat_ t).unit u).inq.erase q ∧
            (x.unit u).table = l ++ { e with
              ops := e.ops ++ [(i, q.2.2)]
              complete := if entryFull (s.lat_ t).lat.cfg o (firstOfStep ((s.lat_ t).unit u) o q.2.2.tag) (e.ops ++ [(i, q.2.2)])
                then some (s.cycle, i) else none } :: r ∧
            (x.unit u).pipe = ((s.lat_ t).unit u).pipe ∧ (∀ v, v ≠ u → x.unit v = (s.lat_ t).unit v) ∧
            (s.lat_ t).LatRegs x [.TIL_LAT_OCC] ∧ x.spad = (s.lat_ t).spad))) ∧
    (∀ since q, ((s.lat_ t).unit u).exhaustSince = some since → ((s.lat_ t).unit u).exhausted (s.ctx t) = some q →
      since.1 + 4096 ≤ s.cycle → ((s.lat_ t).unit u).exhaustTold = false → u < 16 → q.1 < 4 →
      ∃ (x : Tile) (w : Word), exec (.tagDeadlock t u) s = .next (s.withTile t x [.record 0x05 2 u 0 w 0 0 0]) ∧ x.lat.hang = true ∧
        x.rd F.TIL_LAT_DEADLOCK.unit 0 = u ∧ x.rd F.TIL_LAT_DEADLOCK.input 0 = q.1 ∧
        x.rd F.TIL_LAT_DEADLOCK.head_tag 0 = q.2.2.tag.toNat ∧
        x.rd F.TIL_LAT_DEADLOCK.since_lo 0 = since.2 % 2 ^ F.TIL_LAT_DEADLOCK.since_lo.width ∧ x.rd F.TIL_LAT_STATUS.tag_deadlock 0 = 1 ∧
        x.unit u = { (s.lat_ t).unit u with exhaustTold := true } ∧ (∀ v, v ≠ u → x.unit v = (s.lat_ t).unit v)))

/-- R123, R126, R128 and Table 4-3, VX: a unit that can fire its op fires its entry; with cond = 1 it places the op's result on out0 after its
latency, with cond = 0 nothing; CMPLT and CMPEQ place a control token on ctlout whose bit 0 is the comparison of lane 0.

R129, VX on INT32: ADD, SUB, MUL and FMA wrap modulo 2³², MIN and MAX are signed, lane by lane; a scalar operand is broadcast.

R128 to R130, XF: a unit that can fire places 16 lanes on out0 12 cycles later, with cond = 0 nothing; a lane with a special input is as
R130 states, and a lane with a finite input is one of the encodings within 1 unit in the last place of the exact value. Which of those it
is, is the implementation's (log entry 10): nothing is claimed of it.

Table 4-3, ST: SEL and MRG pass in0 or in1 by cond, BR passes in0 to out0 or out1 by cond, FLT passes in0 or drops it, each after 1 cycle;
DLY passes its oldest token after count cycles.

R131, SQ: a control token with cond = 1 starts a loop, one with cond = 0 is consumed, and one of a phase that drains is discarded; iteration i
emits (param + i) mod 2³² on out0 and a control token (cond, first, last) on ctlout, both with the SQ's tag, and the next iteration comes
rate + 1 cycles later; where an input that they feed has no room, the unit holds them.

Model's choices it rests on: log entries 10, 11, 26. -/
def Obligations.LatticeFirings : Prop :=
  ((  ∀ (s : State) (t u : Nat) (o : OpBlk) (e : MEntry), t < 2304 → s.gatedNow = false → uKind u = .vx →
    (∀ r ∈ vxRows, (s.lat_ t).ready (s.ctx t) u r.2.1 false = some (o, e) →
      ∃ (x : Tile) (v : VxRes), exec (r.1 t u) s = .next (s.withTile t x []) ∧
        v = r.2.2.2 o ((s.lat_ t).draw (s.ctx t) o (vxDraws o r.2.1)).1 (lanes (operand (s.lat_ t).lat.cfg o e 0))
          (lanes (operand (s.lat_ t).lat.cfg o e 1)) (lanes (operand (s.lat_ t).lat.cfg o e 2))
          (packElems 32 (lanes (operand (s.lat_ t).lat.cfg o e 0))) ∧
        (s.lat_ t).Fires x (s.ctx t) u e (if condOf (s.lat_ t).lat.cfg o e then
          [outTok (s.lat_ t) e 0 (s.cycle + r.2.2.1) v.net v.val] else []) ∧
        (condOf (s.lat_ t).lat.cfg o e = true →
          (v.ovf = true → x.rd F.TIL_NUM_STATUS.cvt_overflow 0 = 1) ∧ (v.nan = true → x.rd F.TIL_NUM_STATUS.cvt_nan 0 = 1) ∧
          (v.mis = true → x.rd F.TIL_NUM_STATUS.x96_mismatch 0 = 1))) ∧
    (∀ (i : Instr) (op : Nat) (less : Bool), (i = .vxCmplt t u ∧ op = 12 ∧ less = true ∨ i = .vxCmpeq t u ∧ op = 13 ∧ less = false) →
      (s.lat_ t).ready (s.ctx t) u op false = some (o, e) →
      (condOf (s.lat_ t).lat.cfg o e = false →
        ∃ x : Tile, exec i s = .next (s.withTile t x []) ∧ (s.lat_ t).Fires x (s.ctx t) u e []) ∧
      (condOf (s.lat_ t).lat.cfg o e = true → ∀ (a b : Nat), a = (lanes (operand (s.lat_ t).lat.cfg o e 0)).headD 0 →
        b = (lanes (operand (s.lat_ t).lat.cfg o e 1)).headD 0 →
        ∃ x : Tile, exec i s = .next (s.withTile t x []) ∧
          (s.lat_ t).Fires x (s.ctx t) u e [outTok (s.lat_ t) e 2 (s.cycle + 2) 2
            (if (if o.fmtIn = 9 then (if less then decide (int32 a < int32 b) else decide (int32 a = int32 b))
                 else (if less then flt (floatVal 0 a) (floatVal 0 b) else feq (floatVal 0 a) (floatVal 0 b))) then 1 else 0)]))) ∧
(  ∀ r ∈ vxIntRows, ∀ (s : State) (t u : Nat) (o : OpBlk) (e : MEntry) (a b c : Tok), t < 2304 → s.gatedNow = false → uKind u = .vx →
    (s.lat_ t).ready (s.ctx t) u r.2.1 false = some (o, e) → condOf (s.lat_ t).lat.cfg o e = true → o.fmtIn = 9 →
    operand (s.lat_ t).lat.cfg o e 0 = some a → operand (s.lat_ t).lat.cfg o e 1 = some b →
    (r.2.1 = 4 → operand (s.lat_ t).lat.cfg o e 2 = some c) →
    ∃ (x : Tile) (k : Nat) (v : Tok), exec (r.1 t u) s = .next (s.withTile t x []) ∧
      (x.unit u).pipe = ((s.lat_ t).unit u).pipe ++ [(0, s.cycle + k, v)] ∧ v.net = 1 ∧ v.tag = e.tag ∧
      ∀ j, j < 16 → lane v.val j = r.2.2 (tokLane a j) (tokLane b j) (tokLane c j))) ∧
(∀ r ∈ xfRows, ∀ (s : State) (t : Nat) (o : OpBlk) (e : MEntry), t < 2304 → s.gatedNow = false →
    (s.lat_ t).ready (s.ctx t) 9 r.2 false = some (o, e) →
    (condOf (s.lat_ t).lat.cfg o e = false →
      ∃ x : Tile, exec (r.1 t) s = .next (s.withTile t x []) ∧ (s.lat_ t).Fires x (s.ctx t) 9 e []) ∧
    (∀ a, condOf (s.lat_ t).lat.cfg o e = true → operand (s.lat_ t).lat.cfg o e 0 = some a →
      ∃ (x : Tile) (v : Nat), exec (r.1 t) s = .next (s.withTile t x []) ∧
        (s.lat_ t).Fires x (s.ctx t) 9 e [outTok (s.lat_ t) e 0 (s.cycle + 12) 1 v] ∧
        (∀ q ∈ xfSpecial, q.1 = r.2 → ∀ j, j < 16 → tokLane a j = q.2.1 → v / 2 ^ (32 * j) % 2 ^ 32 = q.2.2) ∧
        ∀ j n m k, j < 16 → floatVal 0 (tokLane a j) = .fin n m k → v / 2 ^ (32 * j) % 2 ^ 32 ∈ xfFinite r.2 n m k)) ∧
((  ∀ (s : State) (t u : Nat) (o : OpBlk) (e : MEntry), t < 2304 → s.gatedNow = false → uKind u = .st →
    (∀ (i : Instr) (op out inp : Nat), (i = .stSel t u ∧ op = 1 ∧ out = 0 ∧ inp = (if condOf (s.lat_ t).lat.cfg o e then 0 else 1) ∨
        i = .stBr t u ∧ op = 2 ∧ out = (if condOf (s.lat_ t).lat.cfg o e then 0 else 1) ∧ inp = 0 ∨
        i = .stMrg t u ∧ op = 3 ∧ out = 0 ∧ inp = (if condOf (s.lat_ t).lat.cfg o e then 0 else 1) ∨
        i = .stFlt t u ∧ op = 4 ∧ out = 0 ∧ inp = 0 ∧ condOf (s.lat_ t).lat.cfg o e = true) →
      (s.lat_ t).ready (s.ctx t) u op false = some (o, e) → ∀ v, operand (s.lat_ t).lat.cfg o e inp = some v →
      ∃ x : Tile, exec i s = .next (s.withTile t x []) ∧
        (s.lat_ t).Fires x (s.ctx t) u e [outTok (s.lat_ t) e out (s.cycle + 1) v.net v.val.toNat]) ∧
    ((s.lat_ t).ready (s.ctx t) u 4 false = some (o, e) → condOf (s.lat_ t).lat.cfg o e = false →
      ∃ x : Tile, exec (.stFlt t u) s = .next (s.withTile t x []) ∧ (s.lat_ t).Fires x (s.ctx t) u e []) ∧
    (∀ q, (s.lat_ t).lat.cfg.op? u = some o → o.op = 5 → ((s.lat_ t).unit u).head (s.ctx t) 0 = some q →
      q.2.2.phase = (s.lat_ t).lat.cfg.phase → ((s.lat_ t).unit u).pipe.length < o.count → (s.lat_ t).holding (s.ctx t) u = false →
      ((s.lat_ t).unit u).lastFire ≠ some s.cycle → (s.lat_ t).latLive (s.ctx t) = true →
      ∃ x : Tile, exec (.stDly t u) s = .next (s.withTile t x []) ∧
        x.unit u = { (s.lat_ t).unit u with
          inq := ((s.lat_ t).unit u).inq.erase q, lastFire := some s.cycle
          pipe := ((s.lat_ t).unit u).pipe ++ [(0, s.cycle + o.count, q.2.2)] } ∧
        (s.lat_ t).CountsFiring x (s.ctx t) u ∧ (∀ v, v ≠ u → x.unit v = (s.lat_ t).unit v) ∧ x.spad = (s.lat_ t).spad)) ∧
(  ∀ (s : State) (t u : Nat) (o : OpBlk), t < 2304 → s.gatedNow = false → uKind u = .sq →
    (∀ e, (s.lat_ t).ready (s.ctx t) u 1 true = some (o, e) → ((s.lat_ t).unit u).sqLoop = none →
      ∃ x : Tile, exec (.sqLoop t u) s = .next (s.withTile t x []) ∧
        x.unit u = { (s.lat_ t).unit u with
          table := ((s.lat_ t).unit u).table.erase e, expTag := ((s.lat_ t).unit u).expTag + 1, lastFire := some s.cycle
          sqLoop := if (s.lat_ t).lat.stopped = false ∧ condOf (s.lat_ t).lat.cfg o e = true then some ⟨0, s.cycle + 1⟩ else none } ∧
        ((s.lat_ t).lat.stopped = true → x.rd F.TIL_LAT_STATUS.discard 0 = 1) ∧
        (∀ v, v ≠ u → x.unit v = (s.lat_ t).unit v) ∧ x.spad = (s.lat_ t).spad) ∧
    (∀ l, (s.lat_ t).lat.cfg.op? u = some o → ((s.lat_ t).unit u).sqLoop = some l → l.next ≤ s.cycle →
      (s.lat_ t).latLive (s.ctx t) = true → (s.lat_ t).holding (s.ctx t) u = false → (s.lat_ t).PipeQuiet (s.ctx t) u →
      ∀ toks, toks =
          [(0, (⟨0, BitVec.ofNat 512 ((o.param + l.i) % 2 ^ 32), ((s.lat_ t).unit u).genTag, (s.lat_ t).lat.cfg.phase⟩ : Tok)),
           (2, ⟨2, BitVec.ofNat 512 (1 + (if l.i = 0 then 2 else 0) + (if o.count ≠ 0 ∧ l.i + 1 = o.count then 4 else 0)),
             ((s.lat_ t).unit u).genTag, (s.lat_ t).lat.cfg.phase⟩)] →
      ∃ x : Tile, exec (.sqIteration t u) s = .next (s.withTile t x []) ∧ (x.unit u).genTag = ((s.lat_ t).unit u).genTag + 1 ∧
        (s.lat_ t).CountsFiring x (s.ctx t) u ∧ x.spad = (s.lat_ t).spad ∧
        ((s.lat_ t).HasRoom u toks → (s.lat_ t).Passes x (s.ctx t) u toks ∧
          (x.unit u).sqLoop = (if o.count ≠ 0 ∧ l.i + 1 = o.count then none else some ⟨l.i + 1, s.cycle + o.rate + 1⟩)) ∧
        (¬ (s.lat_ t).HasRoom u toks → (s.lat_ t).Holds x (s.ctx t) u toks ∧
          (x.unit u).sqLoop = (if o.count ≠ 0 ∧ l.i + 1 = o.count then none else some ⟨l.i + 1, s.cycle + o.rate + 2⟩)))))

/-- R132 to R134, LD, SV and CP: an LD emits a token of its slot's bytes, 64 or 4, after 1 cycle, with its own tag or, where ctl is
connected, with that of the control token it takes, and beside it a control token with first and last; an SV WRITE with room sends the
token's converted elements to its slot two cycles later, an SV QMX its 32 elements and a scale byte, and with cond = 0 neither sends
anything; CP begins the oldest message of its queue, emits the message it has begun one token of 64 bytes at a time and frees its slot in
the cycle after the last, and collects outbound tokens until it has count of them.

Model's choices it rests on: log entries 11, 26. -/
def Obligations.StreamAndChannelUnits : Prop :=
  ∀ (s : State) (t u : Nat) (o : OpBlk), t < 2304 → s.gatedNow = false → (s.lat_ t).latLive (s.ctx t) = true →
    (∀ n sl, uKind u = .ld → (s.lat_ t).lat.cfg.op? u = some o → n = (if o.mode % 2 = 1 then 4 else 64) →
      (s.lat_ t).lat.stopped = false → (s.lat_ t).holding (s.ctx t) u = false → ((s.lat_ t).unit u).lastFire ≠ some s.cycle →
      sl = ((s.lat_ t).slot o.slot).absorb (s.ctx t) → n ≤ sl.buf.length →
      ∀ (tag : BitVec 8) (inq : List (Nat × Nat × Tok)) (gen : BitVec 8),
      ((s.lat_ t).lat.cfg.on u 3 = false ∧ tag = ((s.lat_ t).unit u).genTag ∧ inq = ((s.lat_ t).unit u).inq ∧
          gen = ((s.lat_ t).unit u).genTag + 1 ∨
        (s.lat_ t).lat.cfg.on u 3 = true ∧ gen = ((s.lat_ t).unit u).genTag ∧
          ∃ q, ((s.lat_ t).unit u).head (s.ctx t) 3 = some q ∧ q.2.2.phase = (s.lat_ t).lat.cfg.phase ∧ tag = q.2.2.tag ∧
            inq = ((s.lat_ t).unit u).inq.erase q) →
      ∃ x : Tile, exec (.ldRead t u) s = .next (s.withTile t x []) ∧ x.slot o.slot = { sl.takeBuf n with first := false } ∧
        (x.slot o.slot).buf = sl.buf.drop n ∧
        x.unit u = { (s.lat_ t).unit u with
          inq := inq, genTag := gen, lastFire := some s.cycle
          pipe := ((s.lat_ t).unit u).pipe ++
            [(0, s.cycle + 1, ⟨if n = 4 then 0 else 1, BitVec.ofNat 512 (leNat (sl.buf.take n)), tag, (s.lat_ t).lat.cfg.phase⟩),
             (2, s.cycle + 1, ⟨2, BitVec.ofNat 512 (1 + (if sl.first then 2 else 0) +
               (if sl.buf.length = n ∧ sl.moreComes = false then 4 else 0)), tag, (s.lat_ t).lat.cfg.phase⟩)] } ∧
        (s.lat_ t).CountsFiring x (s.ctx t) u ∧ (∀ v, v ≠ u → x.unit v = (s.lat_ t).unit v) ∧ x.spad = (s.lat_ t).spad) ∧
    (∀ e, uKind u = .sv → (s.lat_ t).ready (s.ctx t) u 1 true = some (o, e) →
      (condOf (s.lat_ t).lat.cfg o e = false → ∃ x : Tile, exec (.svWrite t u) s = .next (s.withTile t x []) ∧
        (s.lat_ t).Fires x (s.ctx t) u e [] ∧ x.slots = (s.lat_ t).slots) ∧
      (∀ a k l, condOf (s.lat_ t).lat.cfg o e = true → operand (s.lat_ t).lat.cfg o e 0 = some a →
        k = (if a.net = 0 then 1 else fmtPerToken o.fmtIn) →
        l = packBytes (fmtWidth o.fmtOut)
          (convAll o ((s.lat_ t).draw (s.ctx t) o (if o.fmtIn = 14 ∧ o.fmtOut = 14 then 0 else k)).1
            (unpackElems (fmtWidth o.fmtIn) k a.val.toNat)).1 →
        (((s.lat_ t).slot o.slot).absorb (s.ctx t)).fill + (fmtWidth o.fmtOut * k + 7) / 8 ≤ 1024 →
        ∃ x : Tile, exec (.svWrite t u) s = .next (s.withTile t x []) ∧ l.length = (fmtWidth o.fmtOut * k + 7) / 8 ∧
          (x.slot o.slot).incoming = (((s.lat_ t).slot o.slot).absorb (s.ctx t)).incoming ++ [(s.cycle + 2, false, l)] ∧
          (s.lat_ t).Fires x (s.ctx t) u e [])) ∧
    (∀ e, uKind u = .sv → (s.lat_ t).ready (s.ctx t) u 2 true = some (o, e) →
      (condOf (s.lat_ t).lat.cfg o e = false → ∃ x : Tile, exec (.svQmx t u) s = .next (s.withTile t x []) ∧
        (s.lat_ t).Fires x (s.ctx t) u e [] ∧ x.slots = (s.lat_ t).slots) ∧
      (∀ r, condOf (s.lat_ t).lat.cfg o e = true → o.slot % 8 ≠ o.slot / 8 % 8 →
        r = quantise o.fmtOut o.rmode ((s.lat_ t).draw (s.ctx t) o 32).1
          ((lanes (operand (s.lat_ t).lat.cfg o e 0) ++ lanes (operand (s.lat_ t).lat.cfg o e 1)).map (floatVal 0)) →
        (((s.lat_ t).slot (o.slot % 8)).absorb (s.ctx t)).fill + fmtWidth o.fmtOut * 4 ≤ 1024 →
        (((s.lat_ t).slot (o.slot / 8 % 8)).absorb (s.ctx t)).fill + 1 ≤ 1024 →
        ∃ x : Tile, exec (.svQmx t u) s = .next (s.withTile t x []) ∧
          (x.slot (o.slot % 8)).incoming = (((s.lat_ t).slot (o.slot % 8)).absorb (s.ctx t)).incoming ++
            [(s.cycle + 2, false, packBytes (fmtWidth o.fmtOut) r.1)] ∧
          (x.slot (o.slot / 8 % 8)).incoming =
            (((s.lat_ t).slot (o.slot / 8 % 8)).absorb (s.ctx t)).incoming ++ [(s.cycle + 2, false, [BitVec.ofNat 8 r.2.1])] ∧
          (s.lat_ t).Fires x (s.ctx t) u e [])) ∧
    (∀ q m l, (s.lat_ t).cpInbound = some q → (s.lat_ t).lat.stopped = false → ((s.lat_ t).unit 3).cpIn = none →
      (s.lat_ t).queue q = m :: l →
      exec (.cpXferInbound t) s =
        .next (s.withTile t ((s.lat_ t).setUnit 3 { (s.lat_ t).unit 3 with cpIn := some (m.bytes, q, s.cycle + 3) }) [])) ∧
    (∀ rest q next q' toks, (s.lat_ t).cpInbound = some q' → (s.lat_ t).lat.stopped = false →
      ((s.lat_ t).unit 3).cpIn = some (rest, q, next) → next ≤ s.cycle → (s.lat_ t).holding (s.ctx t) 3 = false →
      (s.lat_ t).PipeQuiet (s.ctx t) 3 → rest ≠ [] →
      toks = [(0, (⟨1, BitVec.ofNat 512 (leNat (rest.take 64)), ((s.lat_ t).unit 3).genTag, (s.lat_ t).lat.cfg.phase⟩ : Tok))] →
      ∃ x : Tile, exec (.cpXferInbound t) s = .next (s.withTile t x []) ∧ (x.unit 3).genTag = ((s.lat_ t).unit 3).genTag + 1 ∧
        ((s.lat_ t).HasRoom 3 toks → (s.lat_ t).Passes x (s.ctx t) 3 toks) ∧
        (¬ (s.lat_ t).HasRoom 3 toks → (s.lat_ t).Holds x (s.ctx t) 3 toks) ∧
        (64 < rest.length → (s.lat_ t).HasRoom 3 toks → (x.unit 3).cpIn = some (rest.drop 64, q, s.cycle + 1)) ∧
        (64 < rest.length → x.queues = (s.lat_ t).queues ∧ x.outbox = (s.lat_ t).outbox) ∧
        (∀ m l, rest.length ≤ 64 → (s.lat_ t).queue q = m :: l → (x.unit 3).cpIn = none ∧ x.queue q = l ∧
          x.outbox = (s.lat_ t).outbox ++ [⟨s.cycle + 1, q, true, m.credit⟩])) ∧
    (∀ e a, (s.lat_ t).ready (s.ctx t) 3 1 true = some (o, e) → ((s.lat_ t).unit 3).cpSending = false →
      operand (s.lat_ t).lat.cfg o e 0 = some a → ((s.lat_ t).unit 3).cpOut.length + 1 < o.count →
      ∃ x : Tile, exec (.cpXferOutbound t) s = .next (s.withTile t x []) ∧ (x.unit 3).cpOut = ((s.lat_ t).unit 3).cpOut ++ [a.val] ∧
        (x.unit 3).table = ((s.lat_ t).unit 3).table.erase e ∧ (x.unit 3).expTag = ((s.lat_ t).unit 3).expTag + 1 ∧
        (s.lat_ t).CountsFiring x (s.ctx t) 3 ∧ (∀ v, v ≠ 3 → x.unit v = (s.lat_ t).unit v) ∧ x.spad = (s.lat_ t).spad)

/-- R52 to R55 and R71, MX in EXACT mode without block scales: a firing adds to accumulator (r, c) the products of row r of A and column c of
B over the pair's K indices, and to the 33rd column and row the products with the sums of the other operand.

Model's choices it rests on: log entry 25. -/
def Obligations.MxAccumulatesPair : Prop :=
  ∀ (s : State) (t : Nat) (o : OpBlk) (e : MEntry) (a b : Tok) (m : MxBank), t < 2304 → s.gatedNow = false →
    (s.lat_ t).ready (s.ctx t) 5 1 true = some (o, e) → operand (s.lat_ t).lat.cfg o e 0 = some a →
    operand (s.lat_ t).lat.cfg o e 1 = some b → o.mode % 4 = 0 → (s.lat_ t).lat.cfg.on 5 2 = false → (s.lat_ t).lat.cfg.on 5 3 = false →
    (∀ f, ((s.lat_ t).unit 5).lastFire = some f → f + (mxShape o.fmtIn o.fmtB (bits o.mode 2 2)).2.2 ≤ s.cycle) →
    ((s.lat_ t).unit 5).mxHolds (s.ctx t) = false → ((s.lat_ t).unit 5).mxSince + 1 ≠ o.count →
    ((s.lat_ t).unit 5).mxBank = m → m.acc.length = 1024 → m.rowChk.length = 32 → m.colChk.length = 32 → m.special.length = 1024 →
    ∃ x : Tile, exec (.mxMma t) s = .next (s.withTile t x []) ∧ (x.unit 5).mxOut = ((s.lat_ t).unit 5).mxOut ∧
      (x.unit 5).table = ((s.lat_ t).unit 5).table.erase e ∧ (x.unit 5).expTag = ((s.lat_ t).unit 5).expTag + 1 ∧
      (x.unit 5).pipe = ((s.lat_ t).unit 5).pipe ∧ (s.lat_ t).CountsFiring x (s.ctx t) 5 ∧
      (∀ v, v ≠ 5 → x.unit v = (s.lat_ t).unit v) ∧ x.spad = (s.lat_ t).spad ∧
      (x.unit 5).mxBank.tokens = m.tokens + e.ops.length ∧
      (∀ r k, r < 32 → k < 32 → (x.unit 5).mxBank.acc.getD (32 * r + k) 0 = m.acc.getD (32 * r + k) 0 +
        ((List.range (mxShape o.fmtIn o.fmtB (bits o.mode 2 2)).1).map (fun j =>
          BitVec.ofInt 96 ((mxInt false o.fmtIn ((mxElems o.fmtIn j a.val.toNat).getD r 0)).1 *
            (mxInt false o.fmtB ((mxElems o.fmtB j b.val.toNat).getD k 0)).1))).sum) ∧
      (∀ r, r < 32 → (x.unit 5).mxBank.rowChk.getD r 0 = m.rowChk.getD r 0 +
        ((List.range (mxShape o.fmtIn o.fmtB (bits o.mode 2 2)).1).map (fun j =>
          BitVec.ofInt 96 ((mxInt false o.fmtIn ((mxElems o.fmtIn j a.val.toNat).getD r 0)).1 *
            ((mxElems o.fmtB j b.val.toNat).map (fun v => (mxInt false o.fmtB v).1)).sum))).sum)

/-- R71 to R73 and R137. When the checksums of a bank agree and none of its cells is special or out of exact range, a fault in any one
accumulator cell is found at the first token of its readout: checksum_fail is set and an error record is sent. Without a fault the readout
emits its first token, and the comparison finds nothing.

Model's choices it rests on: log entry 25. -/
def Obligations.MxReadoutFindsSingleFault : Prop :=
  ∀ (s : State) (t cell : Nat) (mask : BitVec 96) (o : OpBlk) (r : MxOut) (later : List MxOut), t < 2304 → cell < 1024 → s.gatedNow = false →
    (s.lat_ t).lat.cfg.op? 5 = some o → ((s.lat_ t).unit 5).mxOut = r :: later → (s.lat_ t).latLive (s.ctx t) = true → r.next ≤ s.cycle →
    (s.lat_ t).holding (s.ctx t) 5 = false → r.emitted = 0 → o.mode % 4 = 0 → r.bank.acc.length = 1024 → r.bank.check = (none, none) →
    (∀ z ∈ r.bank.special, z = false) → (∀ z ∈ r.bank.exactRange, z = false) →
    (mask ≠ 0 → ∃ (x : Tile) (w : Word), exec (.mxReadout t cell mask) s = .next (s.withTile t x [.record 0x03 2 5 0 w 0 0 0]) ∧
      x.rd F.TIL_NUM_STATUS.checksum_fail 0 = 1) ∧
    (mask = 0 → (s.lat_ t).PipeQuiet (s.ctx t) 5 →
      ∃ (x : Tile) (v : Line), exec (.mxReadout t cell mask) s = .next (s.withTile t x []) ∧
        x.rd F.TIL_NUM_STATUS.checksum_fail 0 = (s.lat_ t).rd F.TIL_NUM_STATUS.checksum_fail 0 ∧
        (∀ toks, toks = [(0, (⟨1, v, ((s.lat_ t).unit 5).genTag, (s.lat_ t).lat.cfg.phase⟩ : Tok))] →
          ((s.lat_ t).HasRoom 5 toks → (s.lat_ t).Passes x (s.ctx t) 5 toks) ∧
          (¬ (s.lat_ t).HasRoom 5 toks → (s.lat_ t).Holds x (s.ctx t) 5 toks)) ∧
        (x.unit 5).genTag = ((s.lat_ t).unit 5).genTag + 1)

/-- Table 5-6. The decoder of stream instructions and the encoder agree on every encoding that is not reserved, in both directions: no bit of
an instruction is dropped, and a word the decoder accepts is the encoding of what it gives. -/
def Obligations.StreamInstructionsRoundTrip : Prop :=
  (∀ i : SInstr, i.Ok → decodeSInstr (encodeSInstr i) = some i) ∧
  (∀ (v : Nat) (i : SInstr), decodeSInstr v = some i → i.Ok ∧ encodeSInstr i = v)

/-- R171, R172, R179, R187 and R188, STREAM_VALIDATE: an arming slot reads its program line by line, and after the line that holds END its
base table, one read a cycle where the bank's port is free; in the cycle after the last it validates what it has read, and it starts its
pass in the next with its program and base table and every loop level at count 1; a program that is refused aborts the slot with
BAD_PROGRAM.

R178, R183, R186: SRC, DST and LOOP set the slot's source, destination and loop level; AT begins a timed section and goes on at its target,
or at once when it is late and not in deadline form; WAITC ends the section and goes on when its counter has reached the target, and waits
before that; a LOCAL SIGNAL adds to a counter, one to another tile is handed to the injection stage in this cycle, or aborts the slot
with RANGE where its address names no tile; END ends the pass's instructions. Each other goes to the next instruction.

Model's choices it rests on: log entry 16. -/
def Obligations.StreamProgramsRun : Prop :=
  ((  ∀ (s : State) (t k : Nat) (sl : Slot), t < 2304 → k < 8 → s.gatedNow = false → (s.seen t).st = .running → sl = (s.seen t).slot k →
    sl.st = .arming → sl.base ≠ [] → sl.due ≤ s.cycle → sl.heldBy = none →
    (∀ p, validateProg sl.progWords 0 false none none = .ok p →
      ∃ (x : Tile) (y : Slot), exec (.streamValidate t k) s = .next (s.withTile t x []) ∧ (s.seen t).OnlySlot x k y ∧ y.st = .running ∧
        y.prog = p ∧ y.ip = 0 ∧ y.due = sl.due + 1 ∧ y.loops = List.replicate 6 ⟨1, 0, 0⟩ ∧ y.srcI = none ∧ y.dstI = none ∧
        y.base = sl.base) ∧
    (∀ n, validateProg sl.progWords 0 false none none = .error n →
      ∃ (x : Tile) (o : List Out), exec (.streamValidate t k) s = .next (s.withTile t x o) ∧ (s.seen t).Aborts x (s.ctx t) k 1 o)) ∧
(  ∀ (c : Ctx) (b : Tile) (k : Nat) (sl : Slot), k < 8 → sl = b.slot k →
    (sl.haveProg = false → sl.progAddr + sl.got.length + 64 ≤ b.size → b.PortFree c false (sl.progAddr + sl.got.length) 64 →
      (b.armRead c k).2 = [] ∧ (b.armRead c k).1.SameButBank { b with
        slots := b.slots.set k { sl with got := sl.got ++ Mem.bytes 0 b.spad (sl.progAddr + sl.got.length) 64, due := c.cycle + 1 }
        bank := (b.armRead c k).1.bank }) ∧
    (sl.haveProg = true → b.PortFree c false sl.baseAddr 64 →
      (b.armRead c k).2 = [] ∧ (b.armRead c k).1.SameButBank { b with
        slots := b.slots.set k { sl with
          base := (List.range 8).map (fun j => BitVec.ofNat 64 (Mem.num 0 b.spad (sl.baseAddr + 8 * j) 8)), due := c.cycle + 1 }
        bank := (b.armRead c k).1.bank }))) ∧
(∀ (s : State) (t k : Nat) (i : SInstr), t < 2304 → k < 8 → s.gatedNow = false → (s.seen t).SlotAt (s.ctx t) k i →
    (∀ b sp m w off p, i = .src b sp m w off p →
      ∃ (x : Tile) (y : Slot), exec (.streamSrc t k) s = .next (s.withTile t x []) ∧ (s.seen t).OnlySlot x k y ∧
        y = { (s.seen t).slot k with srcI := some i, ip := ((s.seen t).slot k).ip + 1, due := s.cycle + 1 }) ∧
    (∀ b sp a ce off ctr cast, i = .dst b sp a ce off ctr cast →
      ∃ (x : Tile) (y : Slot), exec (.streamDst t k) s = .next (s.withTile t x []) ∧ (s.seen t).OnlySlot x k y ∧
        y = { (s.seen t).slot k with dstI := some i, ip := ((s.seen t).slot k).ip + 1, due := s.cycle + 1 }) ∧
    (∀ l n ss ds, i = .loop l n ss ds →
      ∃ (x : Tile) (y : Slot), exec (.streamLoop t k) s = .next (s.withTile t x []) ∧ (s.seen t).OnlySlot x k y ∧
        y = { (s.seen t).slot k with
          loops := ((s.seen t).slot k).loops.set l ⟨n, ss, ds⟩, ip := ((s.seen t).slot k).ip + 1, due := s.cycle + 1 }) ∧
    (∀ b dl off, i = .at_ b dl off →
      (s.sidereal < (((s.seen t).slot k).base.getD b 0 + off).toNat ∨ dl = false) →
      ∃ (x : Tile) (y : Slot), exec (.streamAt t k) s = .next (s.withTile t x []) ∧ (s.seen t).OnlySlot x k y ∧ y.timed = true ∧
        y.ip = ((s.seen t).slot k).ip + 1 ∧
        y.due = s.cycle + max 1 ((((s.seen t).slot k).base.getD b 0 + off).toNat - s.sidereal)) ∧
    (∀ b ctr off, i = .waitc b ctr off →
      ((((s.seen t).rd F.TIL_ARRIVAL.count ctr : Int) - (((s.seen t).slot k).base.getD b 0 + off).toNat % 2 ^ 32) % 2 ^ 32 < 2 ^ 31 →
        ∃ (x : Tile) (y : Slot), exec (.streamWaitc t k) s = .next (s.withTile t x []) ∧ (s.seen t).OnlySlot x k y ∧
          y = { (s.seen t).slot k with timed := false, ip := ((s.seen t).slot k).ip + 1, due := s.cycle + 1 }) ∧
      (¬ (((s.seen t).rd F.TIL_ARRIVAL.count ctr : Int) - (((s.seen t).slot k).base.getD b 0 + off).toNat % 2 ^ 32) % 2 ^ 32 < 2 ^ 31 →
        ∃ (x : Tile) (y : Slot), exec (.streamWaitc t k) s = .next (s.withTile t x []) ∧ (s.seen t).OnlySlot x k y ∧
          y = { (s.seen t).slot k with timed := false })) ∧
    (∀ b ctr off n, i = .signal b 0 ctr off n →
      ∃ x : Tile, exec (.streamSignal t k) s = .next (s.withTile t x []) ∧
        x.rd F.TIL_ARRIVAL.count ctr = ((s.seen t).rd F.TIL_ARRIVAL.count ctr + n) % 2 ^ 32 ∧
        (∀ j, j ≠ ctr → x.rd F.TIL_ARRIVAL.count j = (s.seen t).rd F.TIL_ARRIVAL.count j) ∧
        (x.slot k).ip = ((s.seen t).slot k).ip + 1 ∧ x.spad = (s.seen t).spad) ∧
    (∀ b ctr off n, i = .signal b 1 ctr off n →
      (streamRange (s.ctx t) (s.seen t) 1 (((s.seen t).slot k).base.getD b 0 + off) false 0 = false →
        exec (.streamSignal t k) s = .next (s.withTile t { s.seen t with
          slots := (s.seen t).slots.set k { (s.seen t).slot k with ip := ((s.seen t).slot k).ip + 1, due := s.cycle + 1 }
          inj := (s.seen t).inj ++ [⟨s.cycle, k, ((s.seen t).slot k).timed,
            hdrSignal ((((s.seen t).slot k).base.getD b 0 + off).toNat / 2 ^ 32 % 2 ^ 12) ctr n t, 0, none⟩] } [])) ∧
      (streamRange (s.ctx t) (s.seen t) 1 (((s.seen t).slot k).base.getD b 0 + off) false 0 = true → ((s.seen t).slot k).heldBy = none →
        ∃ (x : Tile) (o : List Out), exec (.streamSignal t k) s = .next (s.withTile t x o) ∧ (s.seen t).Aborts x (s.ctx t) k 2 o)) ∧
    (∀ persist, i = .end_ persist →
      ∃ (x : Tile) (y : Slot), exec (.streamEnd t k) s = .next (s.withTile t x []) ∧ (s.seen t).OnlySlot x k y ∧
        y = { (s.seen t).slot k with ended := some persist, timed := false }))

/-- R95 and R96. A WAITS in deadline form issued in cycle s ≥ t is late by s − t + 1 cycles: it stops the tile in FENCED with stop_reason
SLIP, the missed target and the lateness in TIL_SLIP, slip set, the fault line driven and an error record sent; its registers keep
their values.

R183, R184 and R96. An AT in deadline form that comes late raises SLIP: the tile stops in FENCED with stop_reason SLIP and cause
0x10 + the slot, and the fault line is driven.

Model's choices it rests on: log entry 29. -/
def Obligations.LateDeadlinesSlip : Prop :=
  (  ∀ (s : State) (t : Nat) (rd ra : BitVec 5), s.Fetches t (encCmd 0x1C rd ra 0 1) → s.Quiet t →
    ((s.at_ t).gr ra).toNat ≤ s.sidereal →
    ∃ (x : Tile) (w : Word), exec (.waits t rd ra 0 1) s = .next (s.ran t x [.faultLine, .record 0x01 1 0 0 w 0 0 3]) ∧
      x.st = .fenced ∧ x.rd F.TIL_STOP.stop_reason 0 = 1 ∧ x.rd F.TIL_STOP.stop_cause 0 = 0 ∧
      x.rd F.TIL_STOP.stop_pc 0 = (s.at_ t).seq.pc.toNat % 2 ^ 21 ∧ x.rd F.TIL_SLIP.target_lo 0 = ((s.at_ t).gr ra).toNat % 2 ^ 32 ∧
      x.rd F.TIL_SLIP.lateness 0 = min (s.sidereal - ((s.at_ t).gr ra).toNat + 1) (2 ^ 32 - 1) ∧
      x.rd F.TIL_SEQ_STATUS.slip 0 = 1 ∧ x.seq.g = (s.at_ t).seq.g ∧ x.seq.pc = (s.at_ t).seq.pc ∧ x.waitWord = 0xD) ∧
(  ∀ (s : State) (t k b : Nat) (off : Word), t < 2304 → k < 8 → s.gatedNow = false → (s.seen t).SlotAt (s.ctx t) k (.at_ b true off) →
    (((s.seen t).slot k).base.getD b 0 + off).toNat ≤ s.sidereal →
    ∃ (x : Tile) (w : Word), exec (.streamAt t k) s = .next (s.withTile t x [.faultLine, .record 0x01 1 0 0 w 0 0 3]) ∧ x.st = .fenced ∧
      x.rd F.TIL_STOP.stop_reason 0 = 1 ∧ x.rd F.TIL_STOP.stop_cause 0 = 0x10 + k ∧
      x.rd F.TIL_SLIP.lateness 0 = min (s.sidereal - (((s.seen t).slot k).base.getD b 0 + off).toNat + 1) (2 ^ 32 - 1) ∧
      x.rd F.TIL_SEQ_STATUS.slip 0 = 1 ∧ x.spad = (s.seen t).spad)

/-- R180 to R182, R200, R273 and R280, STREAM_MOVE of a linear LOCAL source: where its bank's read port is free, a beat of up to 64 bytes is read
at source + offset; it is offered to its bank or to the slot's buffer two cycles later, or is handed to the injection stage with the
header that names its destination, or goes out as an open-class write; the beat is counted. Where the port serves another access the
beat waits, and outside a timed section it is offered again in the next cycle (R160; waiting: log entry 16).

R170 and R286, STREAM_PASS_END and STREAM_REQUEST_TIMEOUT: when END has been reached and nothing of the pass is outstanding the pass
counts and the slot parks if END named persist, else it is idle without program; a live open request unanswered for 400,000 cycles
aborts the slot with reason 5.

Model's choices it rests on: log entries 16, 27. -/
def Obligations.StreamBeatsAndPasses : Prop :=
  (∀ (s : State) (t k len gap sb db ctr cast am : Nat) (soff doff : Word) (cen : Bool) (dp : Nat) (mv : MoveSt) (sa da : Word) (n : Nat)
    (sl : Slot) (l : List Byte),
    t < 2304 → k < 8 → s.gatedNow = false → (s.seen t).SlotAt (s.ctx t) k (.move len gap) → sl = (s.seen t).slot k →
    sl.srcI = some (.src sb 0 0 0 soff 0) → sl.dstI = some (.dst db dp am cen doff ctr cast) →
    mv = sl.move.getD ⟨List.replicate 6 0, 0⟩ → mv.off < len → n = min 64 (len - mv.off) →
    sa = loopAddr (sl.base.getD sb 0 + soff) mv.idx (sl.loops.map (·.ss)) + BitVec.ofNat 64 mv.off →
    da = loopAddr (sl.base.getD db 0 + doff) mv.idx (sl.loops.map (·.ds)) + BitVec.ofNat 64 mv.off →
    sa.toNat + n ≤ (s.seen t).size → sa.toNat % (if farSpace dp then 64 else 4) = 0 →
    (dp = 5 ∨ (da.toNat % (if farSpace dp then 64 else if am = 0 then 4 else atomicWidth am) = 0 ∧
      streamRange (s.ctx t) (s.seen t) dp da cen ctr = false ∧ (dp = 0 → da.toNat + n ≤ (s.seen t).size))) →
    (dp = 5 → sl.timed = false → (sl.absorb (s.ctx t)).rows = none ∧ (sl.absorb (s.ctx t)).out = [] ∧
      (sl.absorb (s.ctx t)).fill + (sl.absorb (s.ctx t)).expected + n ≤ 1024) →
    l = Mem.bytes 0 (s.seen t).spad sa.toNat n →
    ((s.seen t).PortFree (s.ctx t) false sa.toNat n →
      ∃ (x : Tile) (o : List Out), exec (.streamMove t k) s = .next (s.withTile t x o) ∧ (x.slot k).Moved sl (s.ctx t) len gap mv ∧
        (∀ j, j ≠ k → x.slot j = (s.seen t).slot j) ∧ x.spad = (s.seen t).spad ∧ x.seq = (s.seen t).seq ∧ x.regs = (s.seen t).regs ∧
        (dp = 0 → x.inj = (s.seen t).inj ∧ o = [] ∧
          (x.slot k).writes = sl.writes ++ [⟨s.cycle + 2, da.toNat, l, am, if cen then some ctr else none, sl.timed⟩]) ∧
        (dp = 1 → o = [] ∧ x.inj = (s.seen t).inj ++ [⟨s.cycle + 2, k, sl.timed,
          hdrData (da.toNat / 2 ^ 32 % 2 ^ 12) (da.toNat / 2 ^ 6 % 2 ^ 15) ctr cast am t cen, lineOf l, none⟩]) ∧
        (dp = 2 → o = [] ∧ x.inj = (s.seen t).inj ++ [⟨s.cycle + 2, k, sl.timed,
          hdrMemWrite (lpddrMap (s.ctx t).chans da.toNat).1 (lpddrMap (s.ctx t).chans da.toNat).2 t k, lineOf l, none⟩]) ∧
        (dp = 3 → x.inj = (s.seen t).inj ∧ o = [.memReq true (lpddrMap (s.ctx t).chans da.toNat).1
            (lpddrMap (s.ctx t).chans da.toNat).2 k 255 l (s.seen t).nextTag] ∧
          (x.slot k).reqs = sl.reqs ++ [⟨(s.seen t).nextTag, s.cycle, true, true, none, 0, none⟩]) ∧
        (dp = 4 → o = [] ∧ x.inj = (s.seen t).inj ++ [⟨s.cycle + 2, k, sl.timed,
          hdrEdgeOut t (da.toNat / 2 ^ 33 % 2 ^ 14) (da.toNat / 2 ^ 21 % 2 ^ 12) (da.toNat / 2 ^ 6 % 2 ^ 15) am
            (if cen then ctr + 1 else 0), lineOf l, none⟩]) ∧
        (dp = 5 → x.inj = (s.seen t).inj ∧ o = [] ∧
          (x.slot k).incoming = (sl.absorb (s.ctx t)).incoming ++ [(s.cycle + 2, sl.timed, l)])) ∧
    ((∃ j ∈ (s.seen t).banksOf sa.toNat n, (s.seen t).grants s.cycle j false (.slot k) = false) → sl.timed = false →
      ∃ x : Tile, exec (.streamMove t k) s = .next (s.withTile t x []) ∧ (x.slot k).move = some mv ∧ (x.slot k).due = s.cycle + 1 ∧
        (x.slot k).ip = sl.ip ∧ (x.slot k).beats = sl.beats ∧ (∀ j, j ≠ k → x.slot j = (s.seen t).slot j) ∧ x.spad = (s.seen t).spad ∧
        x.seq = (s.seen t).seq)) ∧
(∀ (s : State) (t k : Nat), t < 2304 → k < 8 → (s.seen t).st = .running → ((s.seen t).slot k).heldBy = none →
    (∀ persist, s.gatedNow = false → ((s.seen t).slot k).st = .running → ((s.seen t).slot k).ended = some persist →
      (∀ r ∈ ((s.seen t).slot k).reqs, r.live = false) →
      ((s.seen t).slot k).calOut = 0 → ((s.seen t).slot k).writes = [] → ((s.seen t).slot k).rows = none → ((s.seen t).slot k).out = [] →
      (∀ z ∈ (s.seen t).bank.atoms, z.by_ ≠ .slot k) → (∀ j ∈ (s.seen t).inj, j.slot ≠ k) →
      (((s.seen t).slot k).toLat = false ∨ ((s.seen t).slot k).buf = [] ∧ ((s.seen t).slot k).incoming = []) →
      ∃ x : Tile, exec (.streamPassEnd t k) s = .next (s.withTile t x []) ∧
        (x.slot k).st = (if persist then .parked else .idle) ∧ (x.slot k).passes = (((s.seen t).slot k).passes + 1) % 2 ^ 32 ∧
        (x.slot k).prog = (if persist then ((s.seen t).slot k).prog else []) ∧ (∀ j, j ≠ k → x.slot j = (s.seen t).slot j) ∧
        x.spad = (s.seen t).spad ∧ x.regs = (s.seen t).regs) ∧
    ((∃ r ∈ ((s.seen t).slot k).reqs, r.live = true ∧ r.at_ + 400000 ≤ s.cycle) →
      ∃ (x : Tile) (o : List Out), exec (.streamRequestTimeout t k) s = .next (s.withTile t x o) ∧
        (s.seen t).Aborts x (s.ctx t) k 5 o))

/-- R190, R192, R193, R248 and R253, the steps of a fused command: FUSED_RECV writes the oldest message of its queue to its buffer, 64 bytes a
cycle where no bank port is taken, and frees its slot in the cycle after, in which the next step begins; FUSED_ARM arms or re-arms the
step's stream slot and holds it, or where that slot is not in the state it asks aborts with SLOT_BUSY (7); FUSED_WAIT ends when the slots
it holds are at rest; FUSED_SEND hands its message over for the cycle after next, with an entry that is BROKEN is refused in the next cycle, and with
one that is DISABLED or too short aborts with BAD_DESCRIPTOR (8); FUSED_CHAIN goes to the next descriptor, which it reads.

Model's choices it rests on: log entries 15, 28, 93. -/
def Obligations.FusedSteps : Prop :=
  ∀ (s : State) (t f : Nat) (d : FDesc), t < 2304 → f < 4 → s.gatedNow = false →
    (∀ m r, (s.seen t).FusedAt (s.ctx t) f 1 d → (∀ g, g ≠ f → ((s.seen t).fslot g).busy = false) → (s.seen t).seq.blk = none →
      (s.seen t).rd F.TIL_CHQ_STATE.state d.recvQueue = 1 → (s.seen t).cpInbound ≠ some d.recvQueue →
      (s.seen t).queue d.recvQueue = m :: r → m.bytes.length ≤ 4096 → (s.seen t).PortsIdle (s.ctx t) → (s.seen t).bank.atoms = [] →
      Mem.wf 0 (s.seen t).spad = true →
      ∃ x : Tile, exec (.fusedRecv t f) s = .next (s.withTile t x []) ∧
        x.outbox = (s.seen t).outbox ++ [⟨s.cycle + (m.bytes.length + 63) / 64 + 1, d.recvQueue, true,
          .chanReply m.remote m.srcEid m.src 3 m.sendIndex 1⟩] ∧
        x.queue d.recvQueue = r ∧ Mem.bytes 0 x.spad d.recvBuf m.bytes.length = m.bytes ∧
        (∀ a, a < d.recvBuf ∨ d.recvBuf + m.bytes.length ≤ a → Mem.get 0 x.spad a = Mem.get 0 (s.seen t).spad a) ∧
        (x.fslot f).step = d.after 1 ∧ (x.fslot f).due = s.cycle + (m.bytes.length + 63) / 64 + 1) ∧
    (∀ n k re, (n = 2 ∧ k = d.inSlot ∧ re = d.has 5 ∨ n = 3 ∧ k = d.outSlot ∧ re = d.has 6) → (s.seen t).FusedAt (s.ctx t) f n d →
      (re = false → ((s.seen t).slot k).st.armed = false → ((s.seen t).slot k).heldBy = none →
        ∃ x : Tile, exec (.fusedArm t f) s = .next (s.withTile t x []) ∧ (x.slot k).st = .arming ∧ (x.slot k).heldBy = some f ∧
          (x.slot k).progAddr = (if n = 2 then d.inProg else d.outProg) ∧ (x.slot k).baseAddr = (if n = 2 then d.inBase else d.outBase) ∧
          (x.slot k).due = s.cycle + 1 ∧ (x.fslot f).step = d.after n ∧ (x.fslot f).due = s.cycle + 1 ∧
          (∀ j, j ≠ k → x.slot j = (s.seen t).slot j) ∧ x.spad = (s.seen t).spad) ∧
      (re = true → ((s.seen t).slot k).st = .parked → ((s.seen t).slot k).heldBy = none →
        ∃ x : Tile, exec (.fusedArm t f) s = .next (s.withTile t x []) ∧ (x.slot k).st = .running ∧ (x.slot k).heldBy = some f ∧
          (x.slot k).prog = ((s.seen t).slot k).prog ∧ (x.slot k).baseAddr = (if n = 2 then d.inBase else d.outBase) ∧
          (x.slot k).baseAt = some (s.cycle + 1) ∧ (x.slot k).due = s.cycle + 2 ∧ (x.fslot f).step = d.after n ∧
          (∀ j, j ≠ k → x.slot j = (s.seen t).slot j) ∧ x.spad = (s.seen t).spad) ∧
      (((s.seen t).slot k).heldBy ≠ none ∨ (re = true ∧ ((s.seen t).slot k).st ≠ .parked) ∨
          (re = false ∧ ((s.seen t).slot k).st.armed = true) →
        ∃ (x : Tile) (w : Word), exec (.fusedArm t f) s = .next (s.withTile t x [.record 0x06 3 (8 + f) 0 w 0 0 0]) ∧
          (x.fslot f).busy = false ∧ x.rd F.TIL_STREAM_ABORT.reason 0 = 7 ∧ x.rd F.TIL_STREAM_ABORT.slot 0 = 8 + f ∧
          (x.slot k).st = ((s.seen t).slot k).st ∧ (x.slot k).prog = ((s.seen t).slot k).prog)) ∧
    ((s.seen t).FusedAt (s.ctx t) f 4 d →
      (∀ k, k < 8 → ((s.seen t).slot k).heldBy = some f → ((s.seen t).slot k).st = .idle ∨ ((s.seen t).slot k).st = .parked) →
      ∃ x : Tile, exec (.fusedWait t f) s = .next (s.withTile t x []) ∧ (x.fslot f).step = d.after 4 ∧ (x.fslot f).due = s.cycle + 1 ∧
        ∀ k, ((x.slot k).heldBy ≠ some f ∧ (x.slot k).st = ((s.seen t).slot k).st)) ∧
    ((s.seen t).FusedAt (s.ctx t) f 5 d → ((s.seen t).fslot f).sent = false →
      (d.sendLen ≤ (s.seen t).rd F.TIL_CHS_CFG.max_len d.sendIndex * 16 →
        ((s.seen t).rd F.TIL_CHS_STATE.state d.sendIndex = 1 → 1 ≤ (s.seen t).rd F.TIL_CHS_STATE.credit d.sendIndex →
          (s.seen t).rd F.TIL_CHS_STATE.credit d.sendIndex ≤ 16 → (s.seen t).sends = [] → (s.seen t).PortsIdle (s.ctx t) →
          ∃ x : Tile, exec (.fusedSend t f) s = .next (s.withTile t x []) ∧
            x.outbox = (s.seen t).outbox ++ [⟨s.cycle + 2, 0, false,
              .chanMsg ((s.seen t).rd F.TIL_CHS_CFG.remote d.sendIndex == 1) ((s.seen t).rd F.TIL_CHS_CFG.eid d.sendIndex)
                ((s.seen t).rd F.TIL_CHS_CFG.tile d.sendIndex) ((s.seen t).rd F.TIL_CHS_CFG.queue d.sendIndex) d.sendIndex
                (Mem.bytes 0 (s.seen t).spad d.sendMsg d.sendLen)⟩] ∧
            (x.fslot f).sent = true ∧ (x.fslot f).step = 5 ∧
            x.rd F.TIL_CHS_STATE.credit d.sendIndex = (s.seen t).rd F.TIL_CHS_STATE.credit d.sendIndex - 1 ∧ x.spad = (s.seen t).spad) ∧
        ((s.seen t).rd F.TIL_CHS_STATE.state d.sendIndex = 2 →
          ∃ x : Tile, exec (.fusedSend t f) s = .next (s.withTile t x []) ∧ (x.fslot f).step = 5 ∧ (x.fslot f).sent = true ∧
            x.refusing = (s.seen t).refusing ++ [(s.cycle + 1, .fused f, d.sendIndex)] ∧ x.sends = (s.seen t).sends ∧ x.spad = (s.seen t).spad)) ∧
      ((s.seen t).rd F.TIL_CHS_STATE.state d.sendIndex = 0 ∨ (s.seen t).rd F.TIL_CHS_CFG.max_len d.sendIndex * 16 < d.sendLen →
        ∃ (x : Tile) (w : Word), exec (.fusedSend t f) s = .next (s.withTile t x [.record 0x06 3 (8 + f) 0 w 0 0 0]) ∧
          (x.fslot f).busy = false ∧ x.rd F.TIL_STREAM_ABORT.reason 0 = 8)) ∧
    ((s.seen t).FusedAt (s.ctx t) f 7 d → (s.seen t).PortFree (s.ctx t) false d.next 64 →
      ∃ x : Tile, exec (.fusedChain t f) s = .next (s.withTile t x []) ∧
        x.fslot f = { (s.seen t).fslot f with addr := d.next, desc := none, line := some (Mem.bytes 0 (s.seen t).spad d.next 64)
                                              due := s.cycle + 1, done := (((s.seen t).fslot f).done + 1) % 2 ^ 32 } ∧
        (∀ g, g ≠ f → x.fslot g = (s.seen t).fslot g) ∧ x.slots = (s.seen t).slots ∧ x.spad = (s.seen t).spad)

/-- R205, R206 and R432, FLIT_INJECTION: of the flits handed over by now one of the lowest slot enters the source router; a DATA, MEM_WRITE or
EDGE_OUT flit enters the tile's digest (CRC-64 over header and data), no other flit does.

R201 to R212, FLIT_ROUTE: a lone flit in a router passes to the next router after the link's cost, first along x; at its destination it
lands in its cycle + 3, or by its kind leaves to the memory port or the port-die link; on its way along a row cast, or down the column of a
column cast, it does both; before an unreachable link it is dropped with a record and the fault line. Of two flits that need one output the
lower input passes; the other is dropped, counted in TIL_MER_COLL and recorded, with the fault line. A flit whose check is uncorrectable
is dropped likewise.

R164, R174, R206 to R208 and R274, LANDING: in its write cycle a plain landing's 64 bytes are written at its line and its counter, if
enabled, goes up by 1; an atomic one writes the result of what it read two cycles before; a SIGNAL adds its amount; a return for a slot's
buffer goes there, and one of an earlier arming is discarded. A tile in OFFLINE, FENCED or RETIRED discards the landing, and a line beyond
the scratchpad is discarded with a record. A sequencer that waits for the counter goes on (R94).

Model's choices it rests on: log entries 36, 85. -/
def Obligations.MeridianFlits : Prop :=
  (∀ (s : State) (t : Nat), t < 2304 → (s.seen t).deaf = false → (s.seen t).lastInj ≠ some s.cycle →
    (∃ i ∈ (s.seen t).inj, i.h ≤ s.cycle) → (∀ i ∈ (s.seen t).inj, i.timed = true → s.cycle ≤ i.h) →
    ∃ (x : Tile) (i : Inj), exec (.flitInjection t) s = .next (s.withTile t x [.flit i.hdr i.data i.back]) ∧ i ∈ (s.seen t).inj ∧ i.h ≤ s.cycle ∧
      (∀ j ∈ (s.seen t).inj, j.h ≤ s.cycle → i.slot ≤ j.slot) ∧ x.inj = (s.seen t).inj.erase i ∧ x.lastInj = some s.cycle ∧
      x.digest = (if hKind i.hdr = 0 ∨ hKind i.hdr = 3 ∨ hKind i.hdr = 5 then
        crc64 (s.seen t).digest (leBytes 8 i.hdr.toNat ++ lineBytes i.data) else (s.seen t).digest) ∧
      x.spad = (s.seen t).spad ∧ x.slots = (s.seen t).slots ∧ x.seq = (s.seen t).seq) ∧
((∀ (s : State) (t : Nat) (f : Flit), s.flits.filter (fun f => f.x + 48 * f.y == t && decide (f.at_ ≤ s.cycle)) = [f] →
    (∀ d nx ny cost, hCast f.hdr = 0 → dirTo f.x f.y (hDx f.hdr) (hDy f.hdr) = some d → s.neighbour f.x f.y d = some (nx, ny, cost) →
      (cost ≠ 3 → exec (.flitRoute t []) s = .next { s with flits := s.flits.filter (· != f) ++
        [{ f with x := nx, y := ny, inp := inputOf d, at_ := f.at_ + cost }] }) ∧
      (cost = 3 → ∃ (s' : State) (r : Rec), exec (.flitRoute t []) s = .next s' ∧ s'.flits = s.flits.filter (· != f) ∧
        s'.landings = s.landings ∧ s.Reports s' r ∧ r.kind = 0x12 ∧ r.s0 = f.hdr ∧ s'.faults = s.faults ++ [s.cycle])) ∧
    (hCast f.hdr = 0 → dirTo f.x f.y (hDx f.hdr) (hDy f.hdr) = none →
      (hKind f.hdr ≤ 1 ∨ hKind f.hdr = 4 ∨ hKind f.hdr = 6 →
        exec (.flitRoute t []) s = .next { s with flits := s.flits.filter (· != f),
                                                  landings := s.landings ++ [⟨t, f.at_ + 3, f.hdr, f.data, f.back⟩] }) ∧
      (∀ ch, hKind f.hdr = 2 ∨ hKind f.hdr = 3 → f.y = 0 ∨ f.y = 47 → ch < 96 → chanX ch = f.x → chanY ch = f.y →
        exec (.flitRoute t []) s = .next (({ s with flits := s.flits.filter (· != f) } : State).setChan ch
          { s.chan ch with arrived := (s.chan ch).arrived ++ [⟨f.at_, f.hdr, f.data, f.back⟩] })) ∧
      (hKind f.hdr = 5 → f.x = 0 ∨ f.x = 47 →
        exec (.flitRoute t []) s = .next (({ s with flits := s.flits.filter (· != f) } : State).setPort (homePort f.x f.y)
          { s.port (homePort f.x f.y) with taken := (s.port (homePort f.x f.y)).taken ++ [⟨f.at_ + 1, f.y, f.hdr, f.data, f.fwd⟩] })) ∧
      ((hKind f.hdr = 2 ∨ hKind f.hdr = 3) ∧ f.y ≠ 0 ∧ f.y ≠ 47 ∨ hKind f.hdr = 5 ∧ f.x ≠ 0 ∧ f.x ≠ 47 →
        ∃ (s' : State) (r : Rec), exec (.flitRoute t []) s = .next s' ∧ s'.flits = s.flits.filter (· != f) ∧ s'.landings = s.landings ∧
          s.Reports s' r ∧ r.kind = 0x12 ∧ r.s0 = f.hdr ∧ s'.faults = s.faults)) ∧
    (∀ (on : List Flit) (here : List Landing), hKind f.hdr ≤ 1 → hCast f.hdr = 1 ∧ hDy f.hdr = f.sy ∨ hCast f.hdr = 2 →
      (dirTo f.x f.y (hDx f.hdr) (hDy f.hdr) = none → on = []) →
      (∀ d, dirTo f.x f.y (hDx f.hdr) (hDy f.hdr) = some d → ∃ nx ny cost, s.neighbour f.x f.y d = some (nx, ny, cost) ∧ cost ≠ 3 ∧
        on = [{ f with x := nx, y := ny, inp := inputOf d, at_ := f.at_ + cost }]) →
      here = (if (f.x = f.sx ∧ f.y = f.sy) ∨ (hCast f.hdr = 2 ∧ f.x ≠ hDx f.hdr) then [] else [⟨t, f.at_ + 3, f.hdr, f.data, f.back⟩]) →
      exec (.flitRoute t []) s = .next { s with flits := s.flits.filter (· != f) ++ on, landings := s.landings ++ here }) ∧
    ((hCast f.hdr = 1 ∨ hCast f.hdr = 2) ∧ 1 < hKind f.hdr ∨ hCast f.hdr = 1 ∧ hDy f.hdr ≠ f.sy →
      ∃ (s' : State) (r : Rec), exec (.flitRoute t []) s = .next s' ∧ s'.flits = s.flits.filter (· != f) ∧ s'.landings = s.landings ∧
        s.Reports s' r ∧ r.kind = 0x12 ∧ r.s0 = f.hdr ∧ s'.faults = s.faults) ∧
    (f.inp ≠ 0 → (s.tile t).vacant = false → ∃ (s' : State) (r : Rec), exec (.flitRoute t [(f.inp, 2)]) s = .next s' ∧
      s'.flits = s.flits.filter (· != f) ∧ s'.landings = s.landings ∧ s.Reports s' r ∧ r.kind = 0x11 ∧ r.s0 = f.hdr ∧
      s'.faults = s.faults ++ [s.cycle] ∧ (s'.tile t).rd F.TIL_MER_STATUS.uncorrectable 0 = 1 ∧
      (s'.tile t).rd F.TIL_MER_LINK.uncorrectable 0 = min ((s.tile t).rd F.TIL_MER_LINK.uncorrectable 0 + 1) (2 ^ 32 - 1))) ∧
  (∀ (s : State) (t : Nat) (f g : Flit), s.flits.filter (fun f => f.x + 48 * f.y == t && decide (f.at_ ≤ s.cycle)) = [f, g] → f.at_ = g.at_ →
    f.inp < g.inp → (s.tile t).vacant = false → hCast f.hdr = 0 → hCast g.hdr = 0 → hKind f.hdr = 0 → hKind g.hdr = 0 →
    hDx f.hdr = f.x → hDy f.hdr = f.y → hDx g.hdr = g.x → hDy g.hdr = g.y →
    ∃ (s' : State) (r : Rec), exec (.flitRoute t []) s = .next s' ∧ s'.landings = s.landings ++ [⟨t, f.at_ + 3, f.hdr, f.data, f.back⟩] ∧
      s'.flits = s.flits.filter (fun h => h != f && h != g) ∧ s.Reports s' r ∧ r.kind = 0x10 ∧ r.s0 = f.hdr ∧ r.s1 = g.hdr ∧
      s'.faults = s.faults ++ [s.cycle] ∧ (s'.tile t).rd F.TIL_MER_STATUS.collision 0 = 1 ∧
      (s'.tile t).rd F.TIL_MER_COLL.count 0 = min ((s.tile t).rd F.TIL_MER_COLL.count 0 + 1) 65535)) ∧
(∀ (s : State) (t : Nat) (l : Landing) (a : Nat), t < 2304 → l ∈ s.landings → l.tile = t → l.w ≤ s.cycle →
    (∀ m ∈ s.landings, m.tile = t → m.w ≤ s.cycle → m = l ∨ l.w < m.w) → a = hLine l.hdr * 64 → (s.seen t).vacant = false →
    ((s.seen t).deaf = false → hKind l.hdr ≠ 1 → (s.seen t).calLive l.back = true → bufferReturn l.hdr = none → a < (s.seen t).size →
      (hAtomic l.hdr = 0 → Mem.wf 0 (s.seen t).spad = true → (s.seen t).PortFree (s.ctx t) true a 64 →
        (∀ g ∈ (s.seen t).bank.grants, g.write = true → s.cycle < g.at_ → g.bytes = []) →
        ∃ x y : Tile, exec (.landing t) s = .next (({ s with landings := s.landings.erase l } : State).withTile t x []) ∧
          x = y.settle (s.ctx t) ∧ y = { s.seen t with spad := y.spad, bank := y.bank, regs := y.regs, ctrAdds := y.ctrAdds, slots := y.slots } ∧
          y.slots = ((s.seen t).calBack l.back).slots ∧ Mem.bytes 0 y.spad a 64 = lineBytes l.data ∧
          (∀ b, b < a ∨ a + 64 ≤ b → Mem.get 0 y.spad b = Mem.get 0 (s.seen t).spad b) ∧
          (∀ j, y.rd F.TIL_ARRIVAL.count j = if hCtrEn l.hdr = true ∧ j = hCtr l.hdr then ((s.seen t).rd F.TIL_ARRIVAL.count j + 1) % 2 ^ 32
            else (s.seen t).rd F.TIL_ARRIVAL.count j)) ∧
      (∀ z, hAtomic l.hdr ≠ 0 → (s.seen t).landingAtom l.w a = some z → Mem.wf 0 (s.seen t).spad = true →
        ∃ x y : Tile, exec (.landing t) s = .next (({ s with landings := s.landings.erase l } : State).withTile t x []) ∧
          x = y.settle (s.ctx t) ∧ Mem.bytes 0 y.spad a z.bytes.length = z.bytes ∧
          (∀ b, b < a ∨ a + z.bytes.length ≤ b → Mem.get 0 y.spad b = Mem.get 0 (s.seen t).spad b))) ∧
    ((s.seen t).deaf = false → hKind l.hdr = 1 →
      ∃ x y : Tile, exec (.landing t) s = .next (({ s with landings := s.landings.erase l } : State).withTile t x []) ∧
        x = y.settle (s.ctx t) ∧ y = { s.seen t with regs := y.regs, ctrAdds := y.ctrAdds } ∧
        y.rd F.TIL_ARRIVAL.count (hCtr l.hdr) = ((s.seen t).rd F.TIL_ARRIVAL.count (hCtr l.hdr) + hAmount l.hdr) % 2 ^ 32) ∧
    ((s.seen t).deaf = false → hKind l.hdr ≠ 1 → (s.seen t).calLive l.back = false →
      exec (.landing t) s = .next (({ s with landings := s.landings.erase l } : State).withTile t (s.seen t) [])) ∧
    (∀ k, (s.seen t).deaf = false → bufferReturn l.hdr = some k → l.back = none → ((s.seen t).slot k).st = .running →
      ((s.seen t).slot k).incoming = [] → ((s.seen t).slot k).buf.length ≤ 960 →
      ∃ x : Tile, exec (.landing t) s = .next (({ s with landings := s.landings.erase l } : State).withTile t x []) ∧
        (x.slot k).buf = ((s.seen t).slot k).buf ++ lineBytes l.data ∧ (∀ j, j ≠ k → x.slot j = (s.seen t).slot j) ∧ x.spad = (s.seen t).spad) ∧
    ((s.seen t).deaf = true →
      ∃ x : Tile, exec (.landing t) s = .next (({ s with landings := s.landings.erase l } : State).withTile t x []) ∧
        x = { s.seen t with regs := x.regs } ∧ x.rd F.TIL_MER_STATUS.landing_discard 0 = 1 ∧
        x.rd F.TIL_MER_DISCARD.count 0 = min ((s.seen t).rd F.TIL_MER_DISCARD.count 0 + 1) (2 ^ 32 - 1)) ∧
    ((s.seen t).deaf = false → hKind l.hdr ≠ 1 → l.back = none → bufferReturn l.hdr = none → (s.seen t).size ≤ a →
      ∃ x : Tile, exec (.landing t) s = .next (({ s with landings := s.landings.erase l } : State).withTile t x [.record 0x12 6 0 0 l.hdr 0 0 0]) ∧
        x = { s.seen t with regs := x.regs } ∧ x.rd F.TIL_MER_STATUS.landing_range 0 = 1))

/-- R159 and R160, the ports of a bank, for an access of bytes of one bank: of two accesses the one earlier in R159's order for the
owner class goes first; a free port is granted; a port whose access goes first leaves the other waiting, which changes nothing but the
count of the wait; a port whose access goes later is granted to the earlier one, and that access has the port in the next cycle if it
is free then.

R165, plain writes: one of the SEQ, STR or LAT class that covers a byte with an atomic in progress is held. R160: a landing is not.

Model's choices it rests on: log entry 16. -/
def Obligations.BankPortOrder : Prop :=
  (∀ (b : Tile) (k n : Nat) (u v : BankUnit), u ∈ bankOrder (b.owner k n) → v ∈ bankOrder (b.owner k n) →
    (b.prio k n u < b.prio k n v ↔ (bankOrder (b.owner k n)).idxOf u < (bankOrder (b.owner k n)).idxOf v)) ∧
  (∀ (b : Tile) (c : Ctx) (u : BankUnit) (timed write : Bool) (a len n : Nat) (l : List Byte), b.banksOf a len = [n] →
    (b.grant? c.cycle n write = none → ∃ x : Tile, b.ask c c.cycle u timed write a len l = .ok (x, []) ∧ b.SameButBank x ∧
      x.grant? c.cycle n write = some ⟨n, write, c.cycle, u, timed, a, l⟩) ∧
    (∀ g, b.grant? c.cycle n write = some g →
      (¬ b.prio c.cycle n u < b.prio c.cycle n g.by_ →
        ∃ x : Tile, b.ask c c.cycle u timed write a len l = .error x ∧ b.Waits x) ∧
      (b.prio c.cycle n u < b.prio c.cycle n g.by_ → b.OneGrant → g.timed = false →
        b.grant? (c.cycle + 1) n write = none → ∃ (x : Tile) (o : List Out), b.ask c c.cycle u timed write a len l = .ok (x, o) ∧
          x.grant? c.cycle n write = some ⟨n, write, c.cycle, u, timed, a, l⟩ ∧
          x.grant? (c.cycle + 1) n write = some { g with at_ := c.cycle + 1 }))) ∧
  (∀ (b : Tile) (c : Ctx) (u : BankUnit) (timed : Bool) (a : Nat) (l : List Byte),
    (u.cls ≠ .lnd → b.inAtomic c.cycle a l.length = true →
      ∃ x : Tile, b.plainWrite c c.cycle u timed a l = .error x ∧ b.Waits x) ∧
    (u.cls = .lnd → ∃ p, b.plainWrite c c.cycle u timed a l = .ok p))

/-- R97, R224, VLD_RESPONSE and VLD_TIMEOUT: the response that carries the VLD's tag completes it with its 64-bit value, an ERROR with all ones
and vld_error; after 400,000 cycles without one it completes with all ones, vld_timeout and an error record.

R241, R246, R247, R249, R258 and Table 7-2, messages and replies at a tile: an accepted message is the queue's newest and is answered
ACCEPTED in the next cycle; a message for a queue that is not OPEN, or for a vacant position, is answered CLOSED, one that the queue
refuses REFUSED, with a record, and neither changes a queue; a CRECV that waits on the queue takes it at once. A reply ends the CSEND that waits for it: ACCEPTED as OK (0), CLOSED and
REFUSED as CLOSED (1) with the credit back; CREDIT returns credits; after 400,000 cycles without a reply the entry is BROKEN and the send
CLOSED.

Model's choices it rests on: log entries 20, 93. -/
def Obligations.VldAndMessages : Prop :=
  (∀ (s : State) (t : Nat) (rd : BitVec 5), t < 2304 → (s.seen t).st = .running → (s.seen t).seq.blk = some ⟨.vld, rd⟩ →
    (∀ p, s.inbox.find? (fun p => p.atTile t && p.isResponse && p.rep == 0) = some p → p.rtag = (s.seen t).seq.vldTag →
      (p.op ≠ 6 → ∃ x : Tile, exec (.vldResponse t) s = .next ((s.took p).withTile t x []) ∧
        (s.seen t).Ends x rd (BitVec.ofNat 64 (leNat (p.data.take 8)))) ∧
      (p.op = 6 → ∃ x : Tile, exec (.vldResponse t) s = .next ((s.took p).withTile t x []) ∧
        (s.seen t).Ends x rd 0xFFFFFFFFFFFFFFFF#64 ∧ x.rd F.TIL_VSP_STATUS.vld_error 0 = 1)) ∧
    ((s.seen t).seq.vldAt + 400000 ≤ s.cycle →
      ∃ (x : Tile) (w : Word), exec (.vldTimeout t) s = .next (s.withTile t x [.record 0x07 1 0 0 (s.seen t).seq.vldAddr w 0 0]) ∧
        (s.seen t).Ends x rd 0xFFFFFFFFFFFFFFFF#64 ∧ x.rd F.TIL_VSP_STATUS.vld_timeout 0 = 1)) ∧
(∀ (s : State) (t : Nat), t < 2304 →
    (∀ (p : VPkt) (q : Nat) (m : Msg) (answer : Nat → Nat → Later), s.inbox.find? (fun p => p.atTile t && p.op == 7) = some p →
      q = bits p.w.toNat 0 6 → m = p.msg s.cycle →
      (answer = fun code n => ⟨s.cycle + 1, q, false, .chanReply m.remote m.srcEid m.src code m.sendIndex n⟩) →
      ((s.seen t).Accepts q m → (∀ b rd, (s.seen t).seq.blk ≠ some ⟨.recv q b, rd⟩) →
        ∃ x : Tile, exec (.chanMessageArrival t) s = .next ((s.took p).withTile t x []) ∧
          x.outbox = (s.seen t).outbox ++ [answer 0 0] ∧
          x.queue q = (s.seen t).queue q ++ [m] ∧ (∀ r, r ≠ q → x.queue r = (s.seen t).queue r) ∧ x.spad = (s.seen t).spad ∧
          x.seq = (s.seen t).seq) ∧
      (∀ buf rd, (s.seen t).Accepts q m → (s.seen t).seq.blk = some ⟨.recv q buf, rd⟩ → (s.seen t).queue q = [] →
        (s.seen t).recvAhead q (s.seen t).seq.sinceCycle = false → (s.seen t).PortsIdle (s.ctx t) → (s.seen t).bank.atoms = [] →
        m.bytes.length ≤ 4096 → Mem.wf 0 (s.seen t).spad = true →
        ∃ x : Tile, exec (.chanMessageArrival t) s = .next ((s.took p).withTile t x []) ∧
          x.outbox = (s.seen t).outbox ++ [answer 0 0, ⟨s.cycle + (m.bytes.length + 63) / 64 + 1, q, true,
            .chanReply m.remote m.srcEid m.src 3 m.sendIndex 1⟩] ∧
          x.queue q = [] ∧ Mem.bytes 0 x.spad buf m.bytes.length = m.bytes ∧ x.seq.blk = none ∧ x.seq.pc = (s.seen t).seq.pc + 4 ∧
          x.gr rd = (if rd = 0 then 0 else BitVec.ofNat 64 (m.bytes.length * 2 ^ 16)) ∧ ∀ r, r ≠ rd → x.gr r = (s.seen t).gr r) ∧
      ((s.seen t).vacant = true → exec (.chanMessageArrival t) s =
        .next ((s.took p).withTile t { s.seen t with outbox := (s.seen t).outbox ++ [answer 1 1] } [])) ∧
      ((s.seen t).vacant = false → ((s.seen t).deaf = true ∨ (s.seen t).rd F.TIL_CHQ_STATE.state q ≠ 1) →
        ∃ x : Tile, exec (.chanMessageArrival t) s = .next ((s.took p).withTile t x []) ∧
          x = { s.seen t with regs := x.regs, outbox := (s.seen t).outbox ++ [answer 1 1] } ∧
          x.rd F.TIL_CHQ_STATE.discarded q = min ((s.seen t).rd F.TIL_CHQ_STATE.discarded q + 1) 65535) ∧
      (¬ (s.seen t).Accepts q m → (s.seen t).vacant = false → (s.seen t).deaf = false → (s.seen t).rd F.TIL_CHQ_STATE.state q = 1 →
        ∃ (x : Tile) (w : Word), exec (.chanMessageArrival t) s = .next ((s.took p).withTile t x [.record 0x08 5 0 0 w 0 0 0]) ∧
          x = { s.seen t with regs := x.regs, outbox := (s.seen t).outbox ++ [answer 2 1] } ∧
          x.rd F.TIL_CHQ_STATE.refused q = min ((s.seen t).rd F.TIL_CHQ_STATE.refused q + 1) 65535)) ∧
    (∀ (e : Nat) (rd : BitVec 5) (z : SendSt), (s.seen t).deaf = false → (s.seen t).rd F.TIL_CHS_STATE.state e = 1 →
      (s.seen t).sends = [z] → z.entry = e → z.who = .csend → z.handed ≠ none → (s.seen t).seq.blk = some ⟨.send e, rd⟩ →
      (∀ p, s.replyFor t 0 = some p → e = bits p.w.toNat 2 6 →
        ∃ x : Tile, exec (.chanReplyAccepted t) s = .next ((s.took p).withTile t x []) ∧ (s.seen t).Ends x rd 0 ∧ x.sends = [] ∧
          x.rd F.TIL_CHS_STATE.sent e = min ((s.seen t).rd F.TIL_CHS_STATE.sent e + 1) 65535 ∧
          x.rd F.TIL_CHS_STATE.credit e = (s.seen t).rd F.TIL_CHS_STATE.credit e) ∧
      (∀ c ∈ [(1, Instr.chanReplyClosed t), (2, Instr.chanReplyRefused t)], ∀ (p : VPkt) (n : Nat), s.replyFor t c.1 = some p → e = bits p.w.toNat 2 6 →
        n = (s.seen t).rd F.TIL_CHS_STATE.credit e + bits p.w.toNat 8 5 → n ≤ (s.seen t).rd F.TIL_CHS_CFG.credits e → n ≤ 16 →
        ∃ x : Tile, exec c.2 s = .next ((s.took p).withTile t x []) ∧ (s.seen t).Ends x rd 1 ∧ x.sends = [] ∧
          x.rd F.TIL_CHS_STATE.credit e = n ∧ x.rd F.TIL_SEQ_STATUS.closed_send 0 = 1 ∧
          x.rd F.TIL_CHS_STATE.closed e = min ((s.seen t).rd F.TIL_CHS_STATE.closed e + 1) 255) ∧
      (z.handed.any (fun h => decide (h + 400000 ≤ s.cycle)) = true →
        ∃ (x : Tile) (w : Word), exec (.chanReplyTimeout t e) s = .next (s.withTile t x [.record 0x08 5 0 0 w 0 0 0]) ∧ (s.seen t).Ends x rd 1 ∧
          x.rd F.TIL_CHS_STATE.state e = 2 ∧ x.rd F.TIL_CHS_STATE.credit e = (s.seen t).rd F.TIL_CHS_STATE.credit e)) ∧
    (∀ (p : VPkt) (e n : Nat), s.replyFor t 3 = some p → e = bits p.w.toNat 2 6 → (s.seen t).deaf = false →
      (s.seen t).rd F.TIL_CHS_STATE.state e = 1 → (s.seen t).sends = [] →
      n = (s.seen t).rd F.TIL_CHS_STATE.credit e + bits p.w.toNat 8 5 → n ≤ (s.seen t).rd F.TIL_CHS_CFG.credits e → n ≤ 16 →
      ∃ x : Tile, exec (.chanReplyCredit t) s = .next ((s.took p).withTile t x []) ∧ x = { s.seen t with regs := x.regs } ∧
        x.rd F.TIL_CHS_STATE.credit e = n))

/-- R6, R7, R9, R222, R371, R394, R395 and R539, register accesses that the Observatory serves: a write stores the RW fields within it and
nothing else; a read of a tile, firmware or the host returns the present value and clears the RC fields within it (the increments of
this very cycle stay: log entry 86); the rack controller's read returns the value and clears nothing, its write of a register is
DENIED (8), and a message of a type the endpoint does not support is answered so. A write of a TIL, MEM or FAB register by the host or a
management core goes out as a REG_WR packet to the register's place. A target reset of the rack controller frees its locks on mailboxes
with full = 0.

R334, R456, R503, R525 and Tables 11-17 and 14-9, writes of configuration registers: OBS_APR_SEG, RST_HANG_CFG and PWR_ENV_CFG store in every
state; ERR_TRANSIT_CFG and ERR_BG_CFG (and ERR_CTRL) store in READY and JOINED, and the first two only set cfg_ignored in any other;
FAB_PORT_CFG stores while the port is DARK or DOWN and else only sets cfg_ignored; the place declaration stores while no job runs or is
pending (a need that is reserved leaves its port's as it was), and is refused with WRONG_STATE else.

Model's choices it rests on: log entries 21, 79, 86. -/
def Obligations.RegisterAndConfigurationAccesses : Prop :=
  ((∀ (s : State) (src off size : Nat) (v : Word) (r : Reg) (i j b : Nat), s.OwnReg off size r i j b → validSrc src = true → src ≠ 2 →
    (r ∉ specialRegs → ∃ s', exec (.registerWrite src off size v) s = .next s' ∧ s.Stores s' r i j ⟨b, size, v⟩) ∧
    (src ≠ 1 → ∃ s', exec (.rcFieldRead src off size) s = .next s' ∧ s.OnlyReg s' r i j ∧
      ∀ f ∈ r.fields, s'.rd f i j = s.afterRead f i j b size) ∧
    (s.hostWriting = false → ∃ s', exec (.rcFieldRead 1 off size) s = .next s' ∧
      s'.sent = s.sent ++ [.completion s.hostNext (.data (leBytes size (cutWord (s.word r i j) b size)))] ∧
      s' = { s with regs := s'.regs, sent := s'.sent, hostNext := s.hostNext + 1 } ∧
      ∀ f ∈ r.fields, s'.rd f i j = s.afterRead f i j b size) ∧
    (s.bootReady = false →
      exec (.i3cVendorMessage (0x7E, false) false off size v) s = .next (s.put (.vendor 0 (BitVec.ofNat 64 (cutWord (s.word r i j) b size)))) ∧
      exec (.i3cVendorMessage (0x7E, false) true off size v) s = .next (s.put (.vendor 8 0)))) ∧
  (∀ (s : State) (typ off size : Nat) (mbx write : Bool) (v : Word), s.reachable = true → s.bootReady = false → typ ≠ 0x7E →
    (typ ≠ 1 ∨ write = false) → exec (.i3cVendorMessage (typ, mbx) write off size v) s =
      .next (if typ = 0 ∨ typ = 1 ∨ typ = 5 then s else s.put (.unsupported typ))) ∧
  (∀ (s : State) (off size x y ep : Nat) (v : Word), s.reachable = true → s.ctlDead = false → goodSize off size = true → off < 0x4000000 →
    vspTarget off = some (x, y, ep) →
    (∃ (s' : State) (p : VPkt) (r : HReq), exec (.registerWrite 1 off size v) s = .next s' ∧ s'.pkts = s.pkts ++ [p] ∧ s'.host = s.host ++ [r] ∧
      s' = { s with pkts := s'.pkts, host := s'.host, hostNext := s.hostNext + 2 } ∧ r.write = true ∧ p.op = 1 ∧ p.src = 1 ∧ p.dx = x ∧
      p.dy = y ∧ p.ep = ep ∧ p.x = 0 ∧ p.y = 46 ∧ p.w.toNat % 2 ^ 28 = off ∧ leNat (p.data.take 8) = v.toNat) ∧
    (∀ src, (src = 0x10 ∨ src = 0x11) → ∃ (s' : State) (p : VPkt), exec (.registerWrite src off size v) s = .next s' ∧
      s' = { s with pkts := s.pkts ++ [p] } ∧ p.op = 1 ∧ p.src = src ∧ p.dx = x ∧ p.dy = y ∧ p.ep = ep ∧ p.x = 0 ∧ p.y = 47 ∧
      p.w.toNat % 2 ^ 28 = off ∧ leNat (p.data.take 8) = v.toNat)) ∧
  (∀ s : State, ∃ s', exec .i3cTargetReset s = .next s' ∧ s' = { s with regs := s'.regs, vend := [] } ∧
    ∀ k, k < 32 → s'.owner k = if s.owner k = 2 ∧ s.rd F.MBX_FLAG.full k 0 = 0 then 0 else s.owner k)) ∧
(∀ (s : State) (v : Word),
    (∀ seg, seg < 4 → ∃ s', exec (.obsAprSegWrite seg v) s = .next s' ∧ s.Stores s' .OBS_APR_SEG 0 seg (.full v)) ∧
    (∃ s', exec (.rstHangCfgWrite v) s = .next s' ∧ s.Stores s' .RST_HANG_CFG 0 0 (.full v)) ∧
    (∃ s', exec (.pwrEnvCfgWrite v) s = .next s' ∧ s.Stores s' .PWR_ENV_CFG 0 0 (.full v)) ∧
    (∀ e ∈ [(0, Reg.ERR_CTRL), (1, .ERR_TRANSIT_CFG), (2, .ERR_BG_CFG)],
      ((s.st = .ready ∨ s.st = .joined) → ∃ s', exec (.errConfigWrite e.1 v) s = .next s' ∧ s.Stores s' e.2 0 0 (.full v)) ∧
      (s.st ≠ .ready → s.st ≠ .joined → e.1 = 0 → ∃ s', exec (.errConfigWrite 0 v) s = .next s' ∧ s' = { s with regs := s'.regs } ∧
        s'.rd F.ERR_CTRL.history_mode 0 0 = s.rd F.ERR_CTRL.history_mode 0 0 % 2 ^ F.ERR_CTRL.history_mode.width ∧
        (∀ f ∈ Reg.fields .ERR_CTRL, f.acc = .rw → f.id ≠ F.ERR_CTRL.history_mode.id → s'.rd f 0 0 = (Access.full v).new f (s.rd f 0 0)) ∧
        ((Access.full v).val F.ERR_CTRL.history_mode ≠ s.rd F.ERR_CTRL.history_mode 0 0 → s'.rd F.ERR_STATUS.cfg_ignored 0 0 = 1)) ∧
      (s.st ≠ .ready → s.st ≠ .joined → e.1 ≠ 0 → ∃ s', exec (.errConfigWrite e.1 v) s = .next s' ∧ s.OnlyReg s' .ERR_STATUS 0 0 ∧
        s'.rd F.ERR_STATUS.cfg_ignored 0 0 = 1)) ∧
    (∀ n, n < 16 → ((s.port n).st = .dark ∨ (s.port n).st = .down → ∃ s', exec (.fabPortCfgWrite n v) s = .next s' ∧
        s.Stores s' .FAB_PORT_CFG n 0 (.full v)) ∧
      ((s.port n).st ≠ .dark → (s.port n).st ≠ .down → ∃ s', exec (.fabPortCfgWrite n v) s = .next s' ∧ s.OnlyReg s' .FAB_PORT_STATUS n 0 ∧
        s'.rd F.FAB_PORT_STATUS.cfg_ignored n 0 = 1)) ∧
    (s.inJob = false → (∃ s', exec (.rtePlaceWrite false v) s = .next s' ∧ s.Stores s' .RTE_PLACE_GEN 0 0 (.full v)) ∧
      (∃ s', exec (.rtePlaceWrite true v) s = .next s' ∧ s.OnlyReg s' .RTE_PLACE_NEED 0 0 ∧
        s'.rd F.RTE_PLACE_NEED.check 0 0 = v.toNat / 2 ^ 63 ∧
        ∀ n, n < 16 → bits (s'.rd F.RTE_PLACE_NEED.need 0 0) (3 * n) 3 =
          if bits v.toNat (3 * n) 3 < 6 then bits v.toNat (3 * n) 3 else bits (s.rd F.RTE_PLACE_NEED.need 0 0) (3 * n) 3)) ∧
    (s.inJob = true → ∀ need, ∃ s', exec (.rtePlaceWrite need v) s = .next s' ∧ s' = { s with regs := s'.regs, recs := s'.recs } ∧
      s'.rd F.RTE_STATUS.last_status 0 0 = 1 ∧ s'.rd F.RTE_STATUS.cmd_refused 0 0 = 1 ∧ s'.recs.length = s.recs.length + 1 ∧
      (∀ f ∈ Reg.fields .RTE_PLACE_GEN ++ Reg.fields .RTE_PLACE_NEED, s'.rd f 0 0 = s.rd f 0 0)))

/-- R218, R219, R223 and R224, the routers of Vesper: the next flit of a packet passes over its next link, first along x, after 1 and the
link's cost, or leaves at its endpoint, and the head takes the packet's place there with it; of two packets whose heads need one output in one
cycle the one on VC 1 goes first, and of two on one virtual channel the one whose input follows in round-robin order; the other stays.
A packet that has come whole reaches its endpoint, one with a record the Observatory. Before an unreachable link a request is answered
with an ERROR of status SOURCE_LOST (5), anything else is discarded with a record; an uncorrectable flit on an input from a link drops
its whole packet with a record.

Model's choices it rests on: log entry 20. -/
def Obligations.VesperRouting : Prop :=
  (∀ (s : State) (p : VPkt) (x y inp a : Nat) (l : List Nat) (o : Nat), s.pkts = [p] → p.only x y inp a l → a ≤ s.cycle → inp < 8 → p.vc < 4 →
    o = p.outAt x y → s.OutputIdle x y o →
    (∀ nx ny cost, s.neighbour x y o = some (nx, ny, cost) → cost ≠ 3 → p.headAt x y = true →
      exec (.vesperPacketRoute (x + 48 * y) []) s = .next (({ s with pkts := [{ p with
        x := nx, y := ny, ready := s.cycle + 1 + cost
        worm := (if l = [] then [] else [⟨x, y, inp, l⟩]) ++ [⟨nx, ny, inputOf o, [s.cycle + 1 + cost]⟩] }] } : State).served
          (x + 48 * y) o p.vc inp)) ∧
    (dirTo x y p.dx p.dy = none → p.ep ≠ 1 ∨ s.portTakes p = true → ∃ (s' : State) (q : VPkt),
      exec (.vesperPacketRoute (x + 48 * y) []) s = .next s' ∧ s' = ({ s with pkts := [q] } : State).served (x + 48 * y) o p.vc inp ∧
      q = { p with gone := p.gone + 1, worm := q.worm, ready := q.ready } ∧ q.worm = (if l = [] then [] else [⟨x, y, inp, l⟩]) ∧
      (p.gone = p.len → q.ready = s.cycle + 4)) ∧
    (∀ nx ny, s.neighbour x y o = some (nx, ny, 3) → p.headAt x y = true →
      (p.isResponse = false → p.op ≠ 7 → p.op ≠ 10 → p.rec_ = none → ∃ (s' : State) (q : VPkt),
        exec (.vesperPacketRoute (x + 48 * y) []) s = .next s' ∧ s' = ({ s with pkts := [q] } : State).served (x + 48 * y) o p.vc inp ∧
        q.op = 6 ∧ q.vc = 1 ∧ q.dx = p.rx ∧ q.dy = p.ry ∧ q.rtag = p.rtag ∧ bits q.w.toNat 0 16 = 5) ∧
      (p.isResponse = true ∨ p.op = 7 ∨ p.op = 10 → p.rec_ = none → ∃ (s' : State) (r : Rec),
        exec (.vesperPacketRoute (x + 48 * y) []) s = .next s' ∧ ({ s with pkts := [] } : State).Reports s' r ∧ r.kind = 0x12 ∧ r.x = x ∧
        r.y = y ∧ s'.inbox = s.inbox ∧ ((s.tile (x + 48 * y)).vacant = false →
          (s'.tile (x + 48 * y)).rd F.TIL_VSP_STATUS.unreachable 0 = 1))) ∧
    (1 ≤ inp → inp ≤ 6 → p.ep ≠ 1 ∨ s.portTakes p = true →
      ∃ (s' : State) (r : Rec), exec (.vesperPacketRoute (x + 48 * y) [(inp, p.vc, 2)]) s = .next s' ∧
        ({ s with pkts := [] } : State).Reports s' r ∧ r.kind = 0x11 ∧ r.x = x ∧ r.y = y ∧ s'.inbox = s.inbox)) ∧
  (∀ (s : State) (p q : VPkt) (x y i j a b : Nat) (k l : List Nat) (o nx ny cost : Nat), s.pkts.Perm [p, q] → p.only x y i a k →
    q.only x y j b l → a ≤ s.cycle → b ≤ s.cycle → i < 8 → j < 8 → p.vc < 4 → q.vc < 4 → o = p.outAt x y → o = q.outAt x y →
    s.OutputIdle x y o → s.neighbour x y o = some (nx, ny, cost) → cost ≠ 3 → p.headAt x y = true → q.headAt x y = true →
    (p.vc = 1 ∧ q.vc ≠ 1) ∨ (p.vc = q.vc ∧ s.turnOf (x + 48 * y) o p.vc i < s.turnOf (x + 48 * y) o p.vc j) →
    ∃ (s' : State) (p' : VPkt), exec (.vesperPacketRoute (x + 48 * y) []) s = .next s' ∧ s'.pkts.Perm [p', q] ∧ p'.x = nx ∧ p'.y = ny ∧
      p'.ready = s.cycle + 1 + cost ∧ s'.inbox = s.inbox) ∧
  (∀ (s : State) (p : VPkt), s.pkts = [p] → p.worm = [] → p.dx < 48 → p.dy < 48 → p.ready ≤ s.cycle →
    (p.rec_ = none → p.ep = 0 → p.isResponse = false →
      exec (.vesperPacketRoute (p.dx + 48 * p.dy) []) s = .next { s with pkts := [], inbox := s.inbox ++ [p] }) ∧
    (∀ r, p.rec_ = some r → exec (.vesperPacketRoute (p.dx + 48 * p.dy) []) s = .next { s with pkts := [], recs := s.recs ++ [r] }))

/-- R203, R224, R286, R289, R376 and R539, Vesper's endpoints: a register access is served and answered with DATA or ACK; a scratchpad
access reads or writes the tile's bytes in address order, 64 in each cycle while its bank's port is free, and is answered in the cycle of the
last, with an ERROR with WRONG_STATE while the tile is OFFLINE, FENCED or RETIRED; a memory port's ERROR aborts the stream slot it names
with its reason, unless its request has ended already.

Model's choices it rests on: log entries 20, 21. -/
def Obligations.VesperPackets : Prop :=
  (∀ (s : State) (p : VPkt) (off : Nat) (r : Reg) (i j b : Nat), s.inbox.find? (fun p => p.op == 0 || p.op == 1) = some p →
    off = bits p.w.toNat 0 28 → bits p.w.toNat 28 1 = 0 → bits p.w.toNat 29 1 = 0 → regAt off = some (r, i, j, b) →
    (p.op = 0 → inFab off = true → ∃ (s' : State) (q : VPkt), exec .vesperRegAccess s = .next s' ∧ s'.inbox = s.inbox.erase p ∧
      s'.pkts = s.pkts ++ [q] ∧ q.op = 4 ∧ q.dx = p.rx ∧ q.dy = p.ry ∧ q.rtag = p.rtag ∧
      leNat (q.data.take 8) = cutWord ((s.took p).word r i j) b 8) ∧
    (p.op = 1 → inTil off = true → p.src = 1 → i < 2304 → ∃ (s' : State) (q : VPkt), exec .vesperRegAccess s = .next s' ∧
      s'.inbox = s.inbox.erase p ∧ s'.pkts.getLast? = some q ∧ q.op = 5 ∧ q.dx = p.rx ∧ q.dy = p.ry ∧ q.rtag = p.rtag ∧
      s'.tile i = ((s.seen i).regWrite (s.ctx i) r j ⟨b, 8, BitVec.ofNat 64 (leNat (p.data.take 8))⟩).1 ∧
      ∀ u, u ≠ i → s'.tile u = s.tile u)) ∧
  (∀ (s : State) (p : VPkt) (t off len : Nat), s.inbox.find? (fun p => p.ep == 0 && (p.op == 2 || p.op == 3)) = some p → t = p.dx + 48 * p.dy →
    t < 2304 → off = bits p.w.toNat 0 21 → len = bits p.w.toNat 21 13 →
    ((s.seen t).deaf = false → (s.seen t).vacant = false → 0 < len → (∀ g ∈ (s.seen t).bank.grants, g.at_ < s.cycle) →
      (p.op = 2 → ∃ (s' : State) (q : VPkt), exec .vesperScratchAccess s = .next s' ∧ (s.seen t).SameButBank (s'.tile t) ∧
        (∀ u, u ≠ t → s'.tile u = s.tile u) ∧ s'.pkts.getLast? = some q ∧ q.op = 4 ∧ q.dx = p.rx ∧ q.dy = p.ry ∧ q.rtag = p.rtag ∧
        q.data = Mem.bytes 0 (s.seen t).spad off len ∧ q.sent = s.cycle + (len + 63) / 64 - 1) ∧
      (p.op = 3 → p.data.length = len → (s.seen t).bank.atoms = [] → Mem.wf 0 (s.seen t).spad = true →
        ∃ (s' : State) (q : VPkt), exec .vesperScratchAccess s = .next s' ∧ (s.seen t).SameButSpad (s'.tile t) ∧
          (∀ u, u ≠ t → s'.tile u = s.tile u) ∧ Mem.bytes 0 (s'.tile t).spad off len = p.data ∧
          (∀ a, a < off ∨ off + len ≤ a → Mem.get 0 (s'.tile t).spad a = Mem.get 0 (s.seen t).spad a) ∧
          s'.pkts.getLast? = some q ∧ q.op = 5 ∧ q.dx = p.rx ∧ q.dy = p.ry ∧ q.rtag = p.rtag ∧ q.sent = s.cycle + (len + 63) / 64 - 1)) ∧
    ((s.seen t).deaf = true ∨ (s.seen t).vacant = true → ∃ (s' : State) (q : VPkt), exec .vesperScratchAccess s = .next s' ∧
      s'.tile t = s.seen t ∧ s'.pkts.getLast? = some q ∧ q.op = 6 ∧ q.dx = p.rx ∧ q.dy = p.ry ∧ q.rtag = p.rtag ∧
      bits q.w.toNat 0 16 = 1)) ∧
  (∀ (s : State) (t k : Nat) (p : VPkt), t < 2304 →
    s.inbox.find? (fun p => p.atTile t && p.op == 6 && (p.rep == 8 || p.rep == 9 || p.rep == 2)) = some p → k = bits p.w.toNat 24 3 →
    ((s.seen t).deaf = false → ((s.seen t).slot k).heldBy = none → p.rep = 2 ∨ (∃ r ∈ ((s.seen t).slot k).reqs, r.tag = p.rtag) →
      ∃ (x : Tile) (o : List Out), exec (.memErrorReceive t) s = .next ((s.took p).withTile t x o) ∧
        (s.seen t).Aborts x (s.ctx t) k (bits p.w.toNat 16 8) o) ∧
    (p.rep ≠ 2 → (∀ r ∈ ((s.seen t).slot k).reqs, r.tag ≠ p.rtag) →
      exec (.memErrorReceive t) s = .next ((s.took p).withTile t (s.seen t) [])))

/-- R267, R273 to R278, R287 and R288, the calendar: a request that is in time and free of conflicts writes its line at once or returns it 960
cycles after it reached the port, takes the CAL slots it needs, and leaves its bank's ECC entry with its block; an error in one byte of the
line is corrected and counted, one in two or three bytes, or an uncorrectable code line, is counted and answered with an ERROR of reason
UNCORRECTABLE, and writes nothing; with the calendar off (OFF), a line that does not exist (BAD), no slot in time (LATE), or a bank that is
occupied or refreshed (BANK), the port raises a calendar fault with a record and the fault line, the first of which MEM_CAL_FAULT keeps, and no
byte changes; the return enters the port's router on input 5.

R280 to R285, R287, R288 and R430, the open class: a request for a line that does not exist, or at a port that is not ACTIVE, is refused;
else a read joins its line's combining entry, whose data it is answered with if that is there, or it is queued as the leader of a new
entry, or alone if none is free or its line's is full; a write closes its line's entries; a request waits outside while the queue holds 64.
The oldest request whose access can start, and that no older one to its line precedes, is served: a write stores the groups its mask
names and is answered ACK, a read gives its line to everyone who waits for it, an uncorrectable error an ERROR of reason UNCORRECTABLE. An
entry 256 cycles old whose members are answered is freed; a reread that ends sends a CLASSIFY record.

Model's choices it rests on: log entries 15, 30, 31, 88, 94. -/
def Obligations.MemoryRequests : Prop :=
  (∀ (s : State) (ch : Nat) (h : Chan) (c : Ctx), ch < 96 → h = s.chanSeen ch → c = s.ctx ch →
    (∀ q rest m tile slot write ts (err : BitVec 544) (code : Nat) (miss : Bool), h.Request c q rest m tile slot write ts →
      miss = decide (h.calEcc.find (lpddrBank m) ≠ some (lpddrBlock m)) →
      (h.Admits c q.z m write ts →
        (write = false → errBytes err ≤ 1 → (miss = true → code < 2) → ∃ x : Chan,
          exec (.calendarRequest ch (err, code)) s = .next (s.withChan ch x []) ∧
          x = { h with arrived := rest, regs := x.regs, busy := x.busy, calEnd := ts.getLastD 0 + 6
                       calEcc := h.calEcc.set (lpddrBank m) (lpddrBlock m)
                       rets := h.rets ++ [⟨q.z + 960, returnHdr ch q.hdr, h.line m, q.back⟩] } ∧
          ⟨lpddrBank m, ts.headD 0, ts.headD 0 + 113 + 6 * h.slotsFor m write, true⟩ ∈ x.busy ∧
          x.rd F.MEM_CAL_COUNT.reads 0 = (h.rd F.MEM_CAL_COUNT.reads 0 + 1) % 2 ^ 32 ∧
          (errBytes err = 1 ∨ (miss = true ∧ code = 1) → x.rd F.MEM_CH_STATUS.corrected 0 = 1 ∧
            x.rd F.MEM_ECC_COUNT.corrected 0 = min (h.rd F.MEM_ECC_COUNT.corrected 0 + 1) (2 ^ 32 - 1))) ∧
        (write = true → (miss = true → code < 2) → Mem.wf 0 h.mem = true → ∃ x : Chan,
          exec (.calendarRequest ch (err, code)) s = .next (s.withChan ch x []) ∧
          x = { h with arrived := rest, regs := x.regs, busy := x.busy, calEnd := ts.getLastD 0 + 6, mem := x.mem
                       calEcc := h.calEcc.set (lpddrBank m) (lpddrBlock m), comb := (h.closeComb m).comb } ∧
          h.LineWritten x m 255 (lineBytes q.data) ∧
          x.rd F.MEM_CAL_COUNT.writes 0 = (h.rd F.MEM_CAL_COUNT.writes 0 + 1) % 2 ^ 32) ∧
        ((write = false ∧ (errBytes err = 2 ∨ errBytes err = 3)) ∨ (miss = true ∧ 2 ≤ code) → ∃ (x : Chan) (w : Word) (p : VPkt),
          exec (.calendarRequest ch (err, code)) s =
            .next (s.withChan ch x [.record 0x20 9 ch 0 w (BitVec.ofNat 64 (slot * 2 ^ 8)) 0 0, .vpkt p]) ∧ p.op = 6 ∧
          p.dx = tile % 48 ∧ p.dy = tile / 48 ∧ bits p.w.toNat 0 16 = 5 ∧ bits p.w.toNat 16 8 = 4 ∧ bits p.w.toNat 24 3 = slot % 8 ∧
          x.arrived = rest ∧ x.mem = h.mem ∧ x.rets = h.rets ∧ x.rd F.MEM_CH_STATUS.uncorrectable 0 = 1 ∧
          x.rd F.MEM_ECC_LAST.m 0 = m % 2 ^ 27 ∧
          x.rd F.MEM_ECC_COUNT.uncorrectable 0 = min (h.rd F.MEM_ECC_COUNT.uncorrectable 0 + 1) (2 ^ 32 - 1))) ∧
      ((h.st ≠ .active ∨ h.rd F.MEM_CAL_CTRL.enable 0 ≠ 1 ∨ h.closing = true) →
        ∃ (x : Chan) (w : Word), exec (.calendarRequest ch (err, code)) s = .next (s.withChan ch x [.record 0x21 9 ch 0 w 0 0 1, .faultLine]) ∧
          x = { h with arrived := rest, regs := x.regs } ∧ x.rd F.MEM_CH_STATUS.cal_off 0 = 1) ∧
      (h.st = .active → h.rd F.MEM_CAL_CTRL.enable 0 = 1 → h.closing = false →
        ∀ kind, (kind = 3 ∧ lineCount ≤ m ∨ kind = 1 ∧ m < lineCount ∧ (ts.length < h.slotsFor m write ∨ q.z + 564 < ts.getLastD 0) ∨
          kind = 2 ∧ m < lineCount ∧ ts.length = h.slotsFor m write ∧ ts.getLastD 0 ≤ q.z + 564 ∧
            (h.bankMeets true (lpddrBank m) (ts.headD 0) (ts.headD 0 + 113 + 6 * h.slotsFor m write) = true ∨
             refreshMeets c (lpddrBank m) (ts.headD 0) (ts.headD 0 + 113 + 6 * h.slotsFor m write) = true)) →
        ∃ (x : Chan) (w : Word), exec (.calendarRequest ch (err, code)) s = .next (s.withChan ch x [.record 0x21 9 ch 0 w 0 0 1, .faultLine]) ∧
          x = { h with arrived := rest, regs := x.regs } ∧ x.rd F.MEM_CH_STATUS.cal_fault 0 = 1 ∧
          (h.rd F.MEM_CH_STATUS.cal_fault 0 = 0 → x.rd F.MEM_CAL_FAULT.kind 0 = kind ∧ x.rd F.MEM_CAL_FAULT.src 0 = tile % 2 ^ 12 ∧
            x.rd F.MEM_CAL_FAULT.slot 0 = slot % 8 ∧ (ts ≠ [] → x.rd F.MEM_CAL_FAULT.frame_slot 0 = frameSlot c (ts.headD 0))) ∧
          (h.rd F.MEM_CH_STATUS.cal_fault 0 = 1 → ∀ f ∈ Reg.fields .MEM_CAL_FAULT, x.rd f 0 = h.rd f 0))) ∧
    (∀ r rest, h.rets = r :: rest → r.due ≤ s.cycle →
      exec (.calendarReturn ch) s = .next (s.withChan ch { h with rets := rest }
        [.flitIn (chanX ch) (chanY ch) 5 r.due r.hdr (lineOf r.data) r.back]))) ∧
(∀ (s : State) (ch : Nat) (h : Chan) (c : Ctx), ch < 96 → h = s.chanSeen ch → c = s.ctx ch →
    (∀ (p : VPkt) (m : Nat), s.inbox.find? (fun p => p.ep == 1 && (p.op == 8 || p.op == 9) && p.dx == chanX ch && p.dy == chanY ch) = some p →
      m = bits p.w.toNat 0 27 →
      (lineCount ≤ m → ∃ o, exec (.openRequestArrival ch) s = .next ((s.took p).withChan ch h [o]) ∧ refuses o p 2 2) ∧
      (m < lineCount → h.st ≠ .active → ∃ o, exec (.openRequestArrival ch) s = .next ((s.took p).withChan ch h [o]) ∧ refuses o p 1 0) ∧
      (m < lineCount → h.st = .active → p.op = 9 ∨ (∀ e ∈ h.comb, e.takes c m = false) →
        (h.queue.length < 64 → ∃ (x : Chan) (lead : Bool), exec (.openRequestArrival ch) s = .next ((s.took p).withChan ch x []) ∧
          lead = decide (p.op = 8 ∧ h.comb.length < 64 ∧ ∀ e ∈ h.comb, e.full c m = false) ∧
          x = { h with queue := h.queue ++ [⟨p, m, bits p.w.toNat 30 8, p.op == 9, lead⟩]
                       comb := (if p.op = 9 then (h.closeComb m).comb else h.comb) ++ (if lead then [⟨m, s.cycle, [p], 1, true, none⟩] else [])
                       regs := x.regs } ∧
          x.rd F.MEM_OPEN_QUEUE.current 0 = h.queue.length + 1) ∧
        (h.queue.length = 64 → exec (.openRequestArrival ch) s = .next s)) ∧
      (m < lineCount → h.st = .active → p.op = 8 → ∀ l e r, h.comb = l ++ e :: r → (∀ f ∈ l, f.takes c m = false) → e.takes c m = true →
        (e.data = none → ∃ x : Chan, exec (.openRequestArrival ch) s = .next ((s.took p).withChan ch x []) ∧
          x = { h with comb := l ++ { e with count := e.count + 1, members := e.members ++ [p] } :: r, regs := x.regs }) ∧
        (∀ d, e.data = some (some d) → ∃ (x : Chan) (o : Out), exec (.openRequestArrival ch) s = .next ((s.took p).withChan ch x [o]) ∧
          answers o p 4 d ∧ x = { h with comb := l ++ { e with count := e.count + 1 } :: r, regs := x.regs }))) ∧
    (∀ (q : OpenReq) (reads : Bool) (err : BitVec 544) (code : Nat), h.st = .active ∨ h.st = .fenced → h.openNext c [] h.queue = some q →
      reads = (!q.write || q.mask != 255) →
      ((reads = true → errBytes err ≤ 1) → (h.fetches q.m = true → code < 2) →
        (q.write = true → Mem.wf 0 h.mem = true → q.pkt.data.length = 64 → ∃ (x : Chan) (o : Out),
          exec (.openAccess ch (err, code)) s = .next (s.withChan ch x [o]) ∧ answers o q.pkt 5 [] ∧ h.LineWritten x q.m q.mask q.pkt.data ∧
          x = { h.openTake c q.m (h.openCost q) with queue := h.queue.erase q, regs := x.regs, mem := x.mem } ∧
          x.rd F.MEM_OPEN_COUNT.served 0 = (h.rd F.MEM_OPEN_COUNT.served 0 + 1) % 2 ^ 32) ∧
        (q.write = false → q.entry = false → ∃ (x : Chan) (o : Out), exec (.openAccess ch (err, code)) s = .next (s.withChan ch x [o]) ∧
          answers o q.pkt 4 (h.line q.m) ∧
          x = { h.openTake c q.m (h.openCost q) with queue := h.queue.erase q, regs := x.regs }) ∧
        (∀ l e r, q.write = false → q.entry = true → h.comb = l ++ e :: r → (∀ f ∈ l, f.m ≠ q.m ∨ f.data ≠ none) → e.m = q.m →
          e.data = none → ∃ (x : Chan) (os : List Out),
          exec (.openAccess ch (err, code)) s = .next (s.withChan ch x os) ∧ os.length = e.members.length ∧
          (∀ (k : Nat) (p : VPkt), e.members[k]? = some p → ∃ o, os[k]? = some o ∧ answers o p 4 (h.line q.m)) ∧
          x = { h.openTake c q.m (h.openCost q) with
            queue := h.queue.erase q, regs := x.regs, comb := l ++ { e with data := some (some (h.line q.m)), members := [] } :: r })) ∧
      ((reads = true ∧ (errBytes err = 2 ∨ errBytes err = 3)) ∨ (h.fetches q.m = true ∧ 2 ≤ code) → q.write = true ∨ q.entry = false →
        ∃ (x : Chan) (a o : Out), exec (.openAccess ch (err, code)) s = .next (s.withChan ch x [a, o]) ∧
        refuses o q.pkt 5 4 ∧ x.queue = h.queue.erase q ∧ x.mem = h.mem ∧ x.comb = h.comb ∧ x.rd F.MEM_CH_STATUS.uncorrectable 0 = 1)) ∧
    (exec (.combiningEntryFree ch) s = .next (s.withChan ch
      { h with comb := h.comb.filter (fun e => !(decide (e.taken + 256 ≤ s.cycle) && e.data.isSome)) } [])) ∧
    (∀ (r : Reread) (rest : List Reread) (err1 err2 : BitVec 544) (code : Nat), h.rereads = r :: rest →
      h.openFits c r.m (2 + (h.fetches r.m).toNat) = true → (∀ q ∈ s.recsOut, isEcc ch r.m q = false) →
      ∃ (s' : State) (q : Rec), exec (.lpddrReread ch (err1, err2, code)) s = .next s' ∧ (s'.chan ch).rereads = rest ∧
        (s'.chan ch).mem = h.mem ∧ (s'.chan ch).queue = h.queue ∧ s.Reports s' q ∧ q.kind = 0x52 ∧ q.unitType = 9 ∧ q.unitIndex = ch ∧
        (errBytes err1 ≤ 1 → errBytes err2 ≤ 1 → (h.fetches r.m = true → code < 2) → q.rept = 1) ∧
        (errBytes err1 = 2 ∨ errBytes err1 = 3 ∨ errBytes err2 = 2 ∨ errBytes err2 = 3 → q.rept = 2) ∧
        ∀ e, s.eccRec ch r.m = some e → q.s0 = BitVec.ofNat 64 e.seq))

/-- R271, R272, R290 to R294, R296 and R513, a port's own work and its registers: in slot 0 MR4 is read, and when it asks for more than twice
the base rate hot is set and a thermal emergency (0x5) begins, which ends when it no longer does; a bank is refreshed in its window; enabling
the calendar in READY or JOINED at an ACTIVE port, disabling it (which ends when no read is outstanding), writing its table while it is off
(on, the write only sets cal_off); the map of channels in READY or JOINED with calendars off, queues empty and every channel it names ACTIVE,
where a channel that leaves becomes DISABLED and the map's generation goes up, and else only cfg_ignored is set; a channel whose reset ends
is ACTIVE.

Model's choices it rests on: log entries 41, 53, 69. -/
def Obligations.ChannelUpkeep : Prop :=
  (∀ (s : State) (ch : Nat) (h : Chan), ch < 96 → h = s.chanSeen ch →
    (∀ mr4, h.st = .active ∨ h.st = .fenced → s.sidereal % 3840 < 6 →
      (∃ s', exec (.maintenanceSlot ch mr4 false) s = .next s' ∧ (s'.chan ch).rd F.MEM_CH_STATE.mr4 0 = mr4 % 32 ∧ (s'.chan ch).mem = h.mem ∧
        s'.tiles = s.tiles ∧ (5, ch) ∉ s'.pwr.emerg) ∧
      (∃ s', exec (.maintenanceSlot ch mr4 true) s = .next s' ∧ (s'.chan ch).rd F.MEM_CH_STATE.mr4 0 = mr4 % 32 ∧
        (s'.chan ch).rd F.MEM_CH_STATUS.hot 0 = 1 ∧ (s'.chan ch).mem = h.mem ∧ s'.tiles = s.tiles ∧ (5, ch) ∈ s'.pwr.emerg)) ∧
    (∀ b, h.st ≠ .selfRefresh → b < 32 → refreshMeets (s.ctx ch) b s.cycle s.cycle = true →
      exec (.perBankRefresh ch b) s = .next (s.withChan ch { h with refreshed := h.refreshed.set b (s.sidereal / 3840) } [])) ∧
    (∀ v : Word, v.toNat % 2 = 1 → (s.st = .ready ∨ s.st = .joined) → h.st = .active → h.rd F.MEM_CAL_CTRL.enable 0 = 0 →
      ∃ x : Chan, exec (.memCalCtrlWrite ch v) s = .next (s.withChan ch x []) ∧ x.rd F.MEM_CAL_CTRL.enable 0 = 1 ∧
        x = { h with regs := x.regs, calEcc := .empty, openEcc := [], closing := false }) ∧
    (∀ v : Word, v.toNat % 2 = 1 → (s.st ≠ .ready ∧ s.st ≠ .joined ∨ h.st ≠ .active) →
      ∃ x : Chan, exec (.memCalCtrlWrite ch v) s = .next (s.withChan ch x []) ∧ x = { h with regs := x.regs } ∧
        x.rd F.MEM_CH_STATUS.cal_off 0 = 1 ∧ x.rd F.MEM_CAL_CTRL.enable 0 = h.rd F.MEM_CAL_CTRL.enable 0) ∧
    (∀ v : Word, v.toNat % 2 = 0 → h.rd F.MEM_CAL_CTRL.enable 0 = 1 →
      exec (.memCalCtrlWrite ch v) s = .next (s.withChan ch { h with closing := true } [])) ∧
    (h.closing = true → h.rets = [] → ∃ x : Chan, exec (.calendarDisableDone ch) s = .next (s.withChan ch x []) ∧
      x.rd F.MEM_CAL_CTRL.enable 0 = 0 ∧ x = { h with regs := x.regs, closing := false }) ∧
    (h.rets ≠ [] → exec (.calendarDisableDone ch) s = .next (s.withChan ch h [])) ∧
    (∀ (j : Nat) (v : Word), h.rd F.MEM_CAL_CTRL.enable 0 = 0 → ∃ x : Chan, exec (.memCalTableWrite ch j v) s = .next (s.withChan ch x []) ∧
      x = { h with regs := x.regs } ∧ ∀ k, k < 32 → bits (x.rd F.MEM_CAL_TABLE.slots j) (2 * k) 2 =
        if bits v.toNat (2 * k) 2 < 2 then bits v.toNat (2 * k) 2 else bits (h.rd F.MEM_CAL_TABLE.slots j) (2 * k) 2) ∧
    (∀ (j : Nat) (v : Word), h.rd F.MEM_CAL_CTRL.enable 0 = 1 → ∃ x : Chan, exec (.memCalTableWrite ch j v) s = .next (s.withChan ch x []) ∧
      x = { h with regs := x.regs } ∧ x.rd F.MEM_CH_STATUS.cal_off 0 = 1 ∧ x.rd F.MEM_CAL_TABLE.slots j = h.rd F.MEM_CAL_TABLE.slots j) ∧
    (h.st = .selfRefresh → (∀ r ∈ s.resets, r.dom ≠ 6) →
      exec (.channelReactivate ch) s = .next (s.withChan ch { h with st := .active } []))) ∧
  (∀ (s : State) (v : Word) (hi : Bool) (f : Fld) (new : Nat),
    f = (if hi then F.MEM_GLB_ENABLE_HI.enable else F.MEM_GLB_ENABLE_LO.enable) → new = v.toNat % 2 ^ (if hi then 32 else 64) →
    ((s.st = .ready ∨ s.st = .joined) → (∀ ch, ch < 96 → (s.chan ch).rd F.MEM_CAL_CTRL.enable 0 = 0 ∧ (s.chan ch).queue = []) →
      (∀ k, new.testBit k = true → (s.chan (k + if hi then 64 else 0)).st = .active) → s.rd f 0 0 ≠ new →
      s.rd F.MEM_GLB_ENABLE_LO.enable 0 0 < 2 ^ 64 →
      ∃ s', exec (.memGlbEnableWrite hi v) s = .next s' ∧ s'.rd f 0 0 = new ∧
        s'.rd F.MEM_GLB_MAP.gen 0 0 = (s.rd F.MEM_GLB_MAP.gen 0 0 + 1) % 2 ^ 32 ∧ s'.tiles = s.tiles ∧
        ∀ ch, ch < 96 → s'.chan ch = if ch ∈ s.chansIn ∧ ch ∉ s'.chansIn then { s.chan ch with st := .disabled } else s.chan ch) ∧
    (s.st ≠ .ready ∧ s.st ≠ .joined ∨ (∃ ch, ch < 96 ∧ ((s.chan ch).rd F.MEM_CAL_CTRL.enable 0 ≠ 0 ∨ (s.chan ch).queue ≠ [])) ∨
        (∃ k, new.testBit k = true ∧ (k + if hi then 64 else 0) < 96 ∧ (s.chan (k + if hi then 64 else 0)).st ≠ .active) →
      ∃ s', exec (.memGlbEnableWrite hi v) s = .next s' ∧
        s'.rd F.MEM_GLB_MAP.cfg_ignored 0 0 = 1 ∧ s'.rd F.MEM_GLB_ENABLE_LO.enable 0 0 = s.rd F.MEM_GLB_ENABLE_LO.enable 0 0 ∧
        s'.rd F.MEM_GLB_ENABLE_HI.enable 0 0 = s.rd F.MEM_GLB_ENABLE_HI.enable 0 0 ∧ s'.chans = s.chans))

/-- R226 to R228, R231, R232 and R469, Pulsar: the root of a consistent tree whose participants have arrived sends its release in the next
cycle; H + 1 cycles after it every node of the tree clears its arrival, a waiting BAR or BARW completes and a BARA's release is kept; the
collector copies a tile's record; 96 cycles after the fault line was driven a RUNNING module is fenced with cause 1 (in another
state nothing happens); 96 cycles after the abort line every tile in IDLE or RUNNING and every ACTIVE channel is FENCED.

R39, R360 to R365, R433, R468, R470 and Table 14-4, global barriers and the nova: RTE_GBAR stores outside a job and is refused in one; an arrival of
the present episode is kept until every child is there, and the root's last arrival releases: the signal comes lead (at least 32) cycles
later and the episode is over; a release received does the same at its time; one of another episode is discarded; the signal reaches
the local root as a release. The host's nova and a partner's for this job fence the module, the latter as cause 7 and on to every
other linked port, three times each; one that arrives in the very cycle of the start takes the start
back (R39), and one in the same Observatory cycle as a nova of the module's own takes its place (R468); a foreign one and a repeat are only
counted.

Model's choices it rests on: log entries 18, 33, 39, 66. -/
def Obligations.PulsarAndGlobalBarriers : Prop :=
  (∀ s : State,
    (∀ root k a, s.node root k F.TIL_PUL_BAR.enable = 1 → s.node root k F.TIL_PUL_BAR.parent = 0 → s.node root k F.TIL_PUL_BAR.global ≠ 1 →
      s.treeOk k root = true → s.barRel.find (root, k) = none → (s.gb k).local_ = none → (s.gb k).signal = none →
      s.rootArrival k root = some a → a ≤ s.cycle →
      exec (.barrierRootArrival root k) s = .next { s with barRel := s.barRel.set (root, k) (a + 1) }) ∧
    (∀ root k r, root < 2304 → s.barRel.find (root, k) = some r → r + s.node root k F.TIL_PUL_BAR.height + 1 ≤ s.cycle →
      exec (.barrierRelease root k) s = .next ((s.treeOf k root).foldl (fun u t => u.withTile t ((u.seen t).released (u.ctx t) k) [])
        { s with barRel := s.barRel.filter (fun q _ => q != (root, k)) })) ∧
    (∀ (b : Tile) (c : Ctx) k rd, (b.released c k).arrived.find k = none ∧ (b.released c k).st = b.st ∧ (b.released c k).spad = b.spad ∧
      (b.st = .running → b.seq.blk = some ⟨.barrier k, rd⟩ → b.Ends (b.released c k) rd 0 ∧ (k < 32 → (b.released c k).barPending k = false)) ∧
      (b.seq.blk = none → b.barPending k = true → k < 32 → bitOf ((b.released c k).rd F.TIL_PUL_STATE.released 0) k = true ∧
        (b.released c k).seq = b.seq)) ∧
    (∀ t, t < 2304 → (s.seen t).vacant = false → ∃ s', exec (.publicationRecord t) s = .next s' ∧ s'.tile t = s.seen t ∧
      s'.pubs = s.pubs.set t ⟨(s.seen t).waitWord, (if (s.seen t).waitWord = 0 then 0 else (s.seen t).seq.since % 2 ^ 32), (s.seen t).st,
        (s.seen t).lat.hang⟩) ∧
    ((∃ f ∈ s.faults, f + 96 ≤ s.cycle) →
      (s.st = .running → s.Unfenced → ∃ s', exec .faultLineSeen s = .next s' ∧ s.FencedFor s' 1 ∧
        s'.faults = s.faults.filter (fun f => decide (s.cycle < f + 96))) ∧
      (s.st ≠ .running → exec .faultLineSeen s = .next { s with faults := s.faults.filter (fun f => decide (s.cycle < f + 96)) })) ∧
    (∀ a, s.abortAt = some a → a + 96 ≤ s.cycle → ∃ s', exec .abortLineSeen s = .next s' ∧ s'.abortAt = none ∧
      (∀ t, t < 2304 → (s'.tile t).st ≠ .running ∧ (s'.tile t).st ≠ .idle) ∧ ∀ ch, ch < 96 → (s'.chan ch).st ≠ .active)) ∧
(∀ s : State,
    (∀ (k : Nat) (v : Word), k < 32 → (s.inJob = false → ∃ s', exec (.rteGbarWrite k v) s = .next s' ∧ s' = { s with regs := s'.regs } ∧
        s'.rd F.RTE_STATUS.last_status 0 0 = 0 ∧
        ∀ f ∈ Reg.fields .RTE_GBAR, f.acc = .rw → s'.rd f 0 k = (Access.full v).new f (s.rd f 0 k)) ∧
      (s.inJob = true → ∃ s', exec (.rteGbarWrite k v) s = .next s' ∧ s.RteRefused s')) ∧
    (∀ k c root, (s.gb k).signal = some c → c ≤ s.cycle → s.globalRoot k = some root → ∃ s', exec (.gbarReleaseSignal k) s = .next s' ∧
      s'.barRel = s.barRel.set (root, k) c ∧ (s'.gb k).signal = none ∧ s'.tiles = s.tiles) ∧
    (∀ n q rest k, s.AtHead n q rest → q.op = 4 → k = bits q.hi.toNat 0 5 → s.conj = none →
      (bits q.hi.toNat 5 8 = (s.gb k).episode → (∃ m ∈ portsOf (s.rd F.RTE_GBAR.children 0 k), m ≠ n ∧ ∀ x ∈ (s.gb k).kids, x.1 ≠ m) →
        ∃ s', exec (.barArriveReceive n) s = .next s' ∧ (s'.port n).rxM = rest ∧ (s'.port n).freedM = ((s.port n).freedM + 1) % 256 ∧
          (s'.gb k).kids = (s.gb k).kids.filter (fun x => x.1 != n) ++
            [(n, s.cycle, BitVec.ofNat 64 (leNat (q.data.take 8)), bits (leNat (q.data.drop 8)) 0 14)]) ∧
      (bits q.hi.toNat 5 8 = (s.gb k).episode → s.rd F.RTE_GBAR.enable 0 k = 1 → s.rd F.RTE_GBAR.root 0 k = 1 → (s.gb k).arrivedUp = false →
        (∃ a, (s.gb k).local_ = some a) → (∀ m ∈ portsOf (s.rd F.RTE_GBAR.children 0 k), m = n ∨ ∃ x ∈ (s.gb k).kids, x.1 = m) →
        ∃ s', exec (.barArriveReceive n) s = .next s' ∧ (s'.gb k).signal = some (s.cycle + max 32 (s.rd F.RTE_GBAR.lead 0 k)) ∧
          (s'.gb k).episode = ((s.gb k).episode + 1) % 256 ∧ (s'.gb k).kids = [] ∧ (s'.gb k).local_ = none ∧
          s'.rd F.ERR_DIGEST_HEAD.next 0 0 = (s.rd F.ERR_DIGEST_HEAD.next 0 0 + 1) % 16) ∧
      (bits q.hi.toNat 5 8 ≠ (s.gb k).episode → ∃ s', exec (.barArriveReceive n) s = .next s' ∧ s'.gbar = s.gbar ∧
        (s'.port n).rxM = rest ∧ s'.rd F.RTE_DROP.no_route 0 0 = min (s.rd F.RTE_DROP.no_route 0 0 + 1) (2 ^ F.RTE_DROP.no_route.width - 1))) ∧
    (∀ n q rest k, s.AtHead n q rest → q.op = 5 → k = bits q.hi.toNat 0 5 → s.conj = none → bits q.hi.toNat 5 8 = (s.gb k).episode →
      ∃ s', exec (.barReleaseReceive n) s = .next s' ∧ (s'.gb k).signal = some (s.cycle + max 32 (leNat (q.data.take 8) - s.sidereal)) ∧
        (s'.gb k).episode = ((s.gb k).episode + 1) % 256 ∧ (s'.gb k).kids = []) ∧
    (s.st = .running → s.Unfenced → ∃ s', exec .rteNova s = .next s' ∧ s.FencedFor s' 5 ∧ s'.rd F.RTE_NOVA.valid 0 0 = 1 ∧
      s'.rd F.RTE_NOVA.reason 0 0 = 5 ∧ s'.rd F.RTE_STATUS.nova 0 0 = 1) ∧
    (s.inJob = false → ∃ s', exec .rteNova s = .next s' ∧ s.RteRefused s') ∧
    (∀ n job eid reason start, n < 16 → (s.port n).st.linked = true →
      (job = s.job → job ≠ 0 → s.st = .running → s.Unfenced → s.ownNova = false →
        ∃ s', exec (.novaReceive n job eid reason start) s = .next s' ∧ s.unstart.FencedFor s' 7 ∧ s'.rd F.RTE_NOVA.valid 0 0 = 1 ∧
          (∀ l, s.started = some (s.cycle, l) → (l.map (·.1)).Nodup → ∀ p ∈ l, s'.tile p.1 = p.2) ∧
          s'.rd F.RTE_NOVA.job 0 0 = job % 4096 ∧ s'.rd F.RTE_NOVA.origin 0 0 = eid % 2 ^ 14 ∧
          s'.rd F.RTE_NOVA.reason 0 0 = reason % 2 ^ F.RTE_NOVA.reason.width ∧ s'.rd F.RTE_NOVA_TIME.start 0 0 = start % 2 ^ 64 ∧
          ∀ m, m < 16 → m ≠ n → (s.port m).st.linked = true →
            s'.sent.count (.wire m (.nova job eid reason start)) = s.sent.count (.wire m (.nova job eid reason start)) + 3) ∧
      (job = s.job → job ≠ 0 → s.ownNova = true → ∃ s', exec (.novaReceive n job eid reason start) s = .next s' ∧
        s'.rd F.RST_FENCE.cause 0 0 = 7 ∧ s'.rd F.RTE_NOVA.origin 0 0 = eid % 2 ^ 14 ∧ s'.tiles = s.tiles ∧
        (eid ≠ s.eid → ∀ m, Sent.wire m (.nova s.job s.eid (s.rd F.RTE_NOVA.reason 0 0) (s.rd F.RTE_NOVA_TIME.start 0 0)) ∉ s'.sent)) ∧
      (job = 0 ∨ job ≠ s.job → ∃ s', exec (.novaReceive n job eid reason start) s = .next s' ∧ s' = { s with regs := s'.regs } ∧
        s'.rd F.RTE_NOVA.foreign 0 0 = min (s.rd F.RTE_NOVA.foreign 0 0 + 1) (2 ^ F.RTE_NOVA.foreign.width - 1)) ∧
      (job = s.job → job ≠ 0 → s.ownNova = false → s.inJob = false →
        s.rd F.RTE_NOVA.valid 0 0 = 1 → s.rd F.RTE_NOVA.job 0 0 = job →
        ∃ s', exec (.novaReceive n job eid reason start) s = .next s' ∧ s' = { s with regs := s'.regs } ∧
          s'.rd F.RTE_NOVA.repeats 0 0 = min (s.rd F.RTE_NOVA.repeats 0 0 + 1) (2 ^ F.RTE_NOVA.repeats.width - 1))))

/-- R301, R305, R306, R310 to R314 and Tables 9-3 and 9-4, the states of a port: TRAIN, DARK, DRAIN and RESUME where they are legal (else WRONG_STATE
and nothing else); training that finds lanes of lane_mask goes to PARALLAX with them and else DOWN, and records what passed of those lanes alone; after 256
exchanges half their mean is the measurement, which decides the logical latency, and UP or DOWN; no partner for a second, a lost signal
and the ninth uncorrectable codeword among 1,048,576 (one with more than 15 symbols in error; fewer are corrected, and counted on their
lanes) bring DOWN; a maintenance codeword carries the marker, a probe and the reply to the partner's last one, and a port told to go
DARK goes dark with the one that carries the notice.

R302, R303, R316, R317, R337, R338, R345, R346, R354 and R355, packets at a port: a packet whose CRC matches and whose codewords were all
correctable goes to the elastic buffer for its delivery cycle (class S, in time; else it is late), to the port die (C) or to the
management buffer (M); any other is discarded and counted, for class S with a record and the fault line; a DISCOVER
goes out when due and one received fills the neighbour's registers; without one the neighbour goes stale; a drain notice drains the
link, which is drained when both notices and all credits are there, or after 20,000 cycles with what remains (packets being built too) counted; a resume notice
brings UP; control packets leave against credits, credits are announced, and an announcement replaces the partner's last.

Model's choices it rests on: log entries 34, 37, 89, 91, 92. -/
def Obligations.PortsAndTheirPackets : Prop :=
  (∀ (s : State) (n : Nat), n < 16 →
    (s.MayPort n 1 → ∃ s', exec (.portTrain n) s = .next s' ∧ s.OnlyPort s' n ∧ (s'.port n).st = .training ∧ (s'.port n).trainAt = some s.cycle ∧
      s'.rd F.FAB_PORT_PARALLAX.latency n 0 = 0 ∧ s'.rd F.FAB_PORT_STATE.last_status n 0 = 0 ∧ s'.rd F.FAB_PORT_STATE.last_cmd n 0 = 1) ∧
    (s.MayPort n 2 → ∃ s', exec (.portDark n) s = .next s' ∧ s.OnlyPort s' n ∧ s'.port n = { s.port n with darkNotice := true } ∧
      s'.rd F.FAB_PORT_STATE.last_status n 0 = 0) ∧
    (s.MayPort n 3 → ∃ s', exec (.portDrain n) s = .next s' ∧ s.OnlyPort s' n ∧ s'.rd F.FAB_PORT_STATE.last_status n 0 = 0 ∧
      s'.rd F.FAB_PORT_STATE.last_cmd n 0 = 3 ∧
      ((s.port n).drainAt = none → s'.port n = { s.port n with drainAt := some s.cycle, noticeOut := true } ∧
        ∃ x, s'.sent = s.sent ++ [x] ∧ sentM x n 2 0 []) ∧
      ((s.port n).drainAt ≠ none → s'.port n = s.port n ∧ s'.sent = s.sent)) ∧
    (s.MayPort n 4 → ∃ s', exec (.portResume n) s = .next s' ∧ s.PortUp s' n ∧ ∃ x, s'.sent.getLast? = some x ∧ sentM x n 3 0 []) ∧
    (∀ e ∈ [(1, Instr.portTrain n), (2, .portDark n), (3, .portDrain n), (4, .portResume n)], ¬ s.MayPort n e.1 →
      ∃ s', exec e.2 s = .next s' ∧ s' = { s with regs := s'.regs, recs := s'.recs } ∧ s'.rd F.FAB_PORT_STATE.last_status n 0 = 1 ∧
        s'.rd F.FAB_PORT_STATE.last_cmd n 0 = e.1 ∧ s'.rd F.FAB_PORT_STATUS.cmd_refused n 0 = 1 ∧ s'.recs.length = s.recs.length + 1) ∧
    (∀ p212 p106 mask minW snr, (s.port n).st = .training →
      (∀ rate w l, s.chooseLanes n p212 p106 mask minW = .ok (rate, w, l) → ∃ s', exec (.trainingDone n p212 p106 mask minW snr true) s = .next s' ∧
        s.OnlyPort s' n ∧ (s'.port n).st = .parallax ∧ s'.rd F.FAB_PORT_STATE.lanes_active n 0 = w % 16 ∧ s'.rd F.FAB_PORT_STATE.rate n 0 = rate % 2 ∧
        s'.rd F.FAB_PORT_STATE.lane_set n 0 = l % 256 ∧
        (∀ k, k < 8 → bits (s.rd F.FAB_PORT_CFG.lane_mask n 0) k 1 = 0 → s'.rd F.FAB_LANE.pass_212 n k = 0 ∧ s'.rd F.FAB_LANE.pass_106 n k = 0) ∧
        ∀ k, k < 8 → bits (s.rd F.FAB_PORT_CFG.lane_mask n 0) k 1 = 1 → s'.rd F.FAB_LANE.snr n k = snr.getD k 0 % 2 ^ F.FAB_LANE.snr.width ∧
          s'.rd F.FAB_LANE.pass_212 n k = (if bits (s.rd F.FAB_PORT_CFG.speed_allow n 0) 0 1 = 1 then bits p212 k 1 else 0)) ∧
      (∀ rate w l, s.chooseLanes n p212 p106 mask minW = .ok (rate, w, l) → ∃ s', exec (.trainingDone n p212 p106 mask minW snr false) s = .next s' ∧
        s.PortDown s' n 2) ∧
      (∀ r, s.chooseLanes n p212 p106 mask minW = .error r → ∃ s', exec (.trainingDone n p212 p106 mask minW snr true) s = .next s' ∧
        s.PortDown s' n (r % 16))) ∧
    (∀ a, (s.port n).st = .training → (s.port n).trainAt = some a → a + 2000000000 ≤ s.cycle →
      ∃ s', exec (.trainingNoPartner n) s = .next s' ∧ s.PortDown s' n 1) ∧
    (∀ (up : Bool) (q m l : Nat), (s.port n).st = .parallax → 256 ≤ (s.port n).trips → q = ((s.port n).tripSum + (if up then 511 else 0)) / 512 % 2 ^ 19 →
      m = (q + 63) / 64 →
      l = (if s.rd F.FAB_PORT_CFG.latency n 0 = 0 then (max 64 (m + 8) + 7) / 8 * 8 else s.rd F.FAB_PORT_CFG.latency n 0) →
      (64 ≤ l → l ≤ 4096 → m + 8 ≤ l → ∃ s', exec (.parallaxDone n up) s = .next s' ∧ s.PortUp s' n ∧
        s'.rd F.FAB_PORT_PARALLAX.latency n 0 = l ∧ s'.rd F.FAB_PORT_PARALLAX.measured n 0 = q) ∧
      (l < 64 ∨ 4096 < l ∨ l < m + 8 → ∃ s', exec (.parallaxDone n up) s = .next s' ∧ s.PortDown s' n 4)) ∧
    (∀ up, (s.port n).trips < 256 → exec (.parallaxDone n up) s = .next s) ∧
    ((s.port n).st.linked = true ∨ (s.port n).st = .parallax → ∃ s', exec (.signalLost n) s = .next s' ∧ s.PortDown s' n 5) ∧
    (∀ errs begun, (s.port n).st.linked = true ∨ (s.port n).st = .parallax → errs.Nodup → (∀ e ∈ errs, e < 544) →
      (15 < errs.length → (s.port n).bad.length = 8 → (∀ k ∈ (s.port n).bad, (s.port n).cw + 1 < k + 1048576) →
        ∃ s', exec (.codewordReceive n errs [] begun) s = .next s' ∧ s.PortDown s' n 6 ∧ s'.rd F.FAB_PORT_FEC.uncorrectable n 0 =
          min (s.rd F.FAB_PORT_FEC.uncorrectable n 0 + 1) (2 ^ 32 - 1)) ∧
      (15 < errs.length → (s.port n).bad.length < 8 → ∃ s', exec (.codewordReceive n errs [] begun) s = .next s' ∧ s.OnlyPort s' n ∧
        (s'.port n).st = (s.port n).st ∧ (s'.port n).cw = (s.port n).cw + 1 ∧ (s'.port n).cw ∈ (s'.port n).bad ∧
        s'.rd F.FAB_PORT_FEC.uncorrectable n 0 = min (s.rd F.FAB_PORT_FEC.uncorrectable n 0 + 1) (2 ^ 32 - 1) ∧
        s'.rd F.FAB_PORT_STATUS.fec_uncorrectable n 0 = 1) ∧
      (∀ lanes, lanes = lanesOf (s.rd F.FAB_PORT_STATE.lane_set n 0) → lanes ≠ [] → errs ≠ [] → errs.length ≤ 15 → (s.port n).bad.length ≤ 8 →
        ∃ s', exec (.codewordReceive n errs [] begun) s = .next s' ∧ s.OnlyPort s' n ∧ (s'.port n).st = (s.port n).st ∧
          s'.rd F.FAB_PORT_FEC.corrected n 0 = min (s.rd F.FAB_PORT_FEC.corrected n 0 + 1) (2 ^ 32 - 1) ∧
          ∀ l k, l < 8 → k = errs.countP (fun e => lanes.getD (e % lanes.length) 0 == l) → s'.rd F.FAB_LANE.symbols n l =
            if k = 0 then s.rd F.FAB_LANE.symbols n l else min (s.rd F.FAB_LANE.symbols n l + k) (2 ^ 32 - 1))) ∧
    ((s.port n).maintAt ≠ some (s.sidereal / 20480) →
      ((s.port n).darkNotice = false → (s.port n).st.linked = true ∨ (s.port n).st = .parallax → ∃ s', exec (.maintenanceCodewordSend n) s = .next s' ∧
        s' = { s with ports := s'.ports, sent := s.sent ++ [.wire n (.maint ⟨s.sidereal / 20480 * 20480, s.role, s.timeSt, s.depth, false,
          (s.port n).probeIn.map (fun x => (x.1, 64 * (s.cycle - s.sidereal % 20480) - x.2))⟩)] } ∧
        s'.port n = { s.port n with
          maintAt := some (s.sidereal / 20480), probeIn := none,
          probes := (s.sidereal / 20480 * 20480, 64 * (s.cycle - s.sidereal % 20480)) :: (s.port n).probes.take 1 }) ∧
      ((s.port n).darkNotice = true → (s.port n).st ≠ .dark → ∃ s', exec (.maintenanceCodewordSend n) s = .next s' ∧ s.OnlyPort s' n ∧
        (s'.port n).st = .dark ∧ (s'.port n).elastic = [] ∧ s'.rd F.FAB_PORT_STATE.state n 0 = 0 ∧
        ((s.port n).st.linked = true ∨ (s.port n).st = .parallax → s.sent ++ [.wire n (.maint ⟨s.sidereal / 20480 * 20480, s.role,
          s.timeSt, s.depth, true, (s.port n).probeIn.map (fun x => (x.1, 64 * (s.cycle - s.sidereal % 20480) - x.2))⟩)] <+: s'.sent)))) ∧
(∀ (s : State) (n : Nat), n < 16 →
    (∀ errs lo hi data crc begun (p : FPkt) (h w : Nat), p = ⟨lo, hi, data⟩ → (s.port n).st.linked = true → (s.port n).bad.length < 8 →
      errs.Nodup → (∀ e ∈ errs, e < 544) → h = ((s.port n).part.bind (·.2)).getD s.sidereal →
      w = (p.stamp + s.rd F.FAB_PORT_PARALLAX.latency n 0 + 2 ^ 16 - h % 2 ^ 16) % 2 ^ 16 →
      (errs.length ≤ 15 → (s.port n).part.any (·.1) = false → crc = p.crc → p.reserved = false → data.length = 16 * p.len →
        (p.cls = 1 → ∃ s', exec (.codewordReceive n errs [(lo, hi, data, crc)] begun) s = .next s' ∧ s.OnlyPort s' n ∧
          s'.routeQ = s.routeQ ++ [⟨n / 8, 6 * (n % 8), some n, p⟩]) ∧
        (p.cls = 2 → ∃ s', exec (.codewordReceive n errs [(lo, hi, data, crc)] begun) s = .next s' ∧ s.OnlyPort s' n ∧
          (s'.port n).rxM = (s.port n).rxM ++ [p]) ∧
        (p.cls = 0 → (s.timeSt = 2 ∨ s.timeSt = 3) → (s.port n).markerOk = true → 0 < w →
          w ≤ s.rd F.FAB_PORT_PARALLAX.latency n 0 + 4 → ∃ s', exec (.codewordReceive n errs [(lo, hi, data, crc)] begun) s = .next s' ∧
            s.OnlyPort s' n ∧ (s'.port n).elastic = (s.port n).elastic ++ [⟨h + w, p⟩]) ∧
        (p.cls = 0 → (s.timeSt ≠ 2 ∧ s.timeSt ≠ 3 ∨ (s.port n).markerOk = false ∨ w = 0 ∨ s.rd F.FAB_PORT_PARALLAX.latency n 0 + 4 < w) →
          ∃ s', exec (.codewordReceive n errs [(lo, hi, data, crc)] begun) s = .next s' ∧ s.OnlyPort s' n ∧
            (s'.port n).elastic = (s.port n).elastic ∧ s'.rd F.FAB_PORT_PKT.late n 0 = min (s.rd F.FAB_PORT_PKT.late n 0 + 1) (2 ^ 32 - 1) ∧
            s'.rd F.FAB_PORT_STATUS.late n 0 = 1 ∧ s'.recs.length = s.recs.length + 1 ∧ s'.faults = s.faults ++ [s.cycle])) ∧
      (15 < errs.length ∨ (s.port n).part.any (·.1) = true ∨ crc ≠ p.crc ∨ p.reserved = true ∨ data.length ≠ 16 * p.len →
        ∃ s', exec (.codewordReceive n errs [(lo, hi, data, crc)] begun) s = .next s' ∧ s.OnlyPort s' n ∧ s'.routeQ = s.routeQ ∧
          (s'.port n).rxM = (s.port n).rxM ∧ (s'.port n).elastic = (s.port n).elastic ∧ s'.rd F.FAB_PORT_STATUS.crc_discard n 0 = 1 ∧
          s'.rd F.FAB_PORT_PKT.crc_discard n 0 = min (s.rd F.FAB_PORT_PKT.crc_discard n 0 + 1) (2 ^ 32 - 1) ∧
          (p.cls ≠ 0 → s'.recs = s.recs ∧ s'.faults = s.faults) ∧
          (p.cls = 0 → s'.recs.length = s.recs.length + 1 ∧ s'.faults = s.faults ++ [s.cycle]))) ∧
    ((s.port n).st.linked = true → ((s.port n).discDue = true ∨ (s.port n).discAt + 1048576 ≤ s.cycle) → ∃ (s' : State) (x : Sent),
      exec (.discoverSend n) s = .next s' ∧ s.OnlyPort s' n ∧ s'.sent = s.sent ++ [x] ∧ sentM x n 1 0 (s.discoverData n) ∧
      s'.port n = { s.port n with discDue := false, discAt := s.cycle }) ∧
    (∀ q rest w, s.AtHead n q rest → q.op = 1 → w = leNat (q.data.drop 8) → ∃ s', exec (.discoverReceive n) s = .next s' ∧ s.OnlyPort s' n ∧
      (s'.port n).rxM = rest ∧ (s'.port n).nbrAt = some s.cycle ∧ s'.rd F.FAB_PORT_NBR.serial n 0 = leNat (q.data.take 8) ∧
      s'.rd F.FAB_PORT_NBR_ID.fresh n 0 = 1 ∧ s'.rd F.FAB_PORT_NBR_ID.eid n 0 = bits w 0 14 ∧ s'.rd F.FAB_PORT_NBR_ID.eid_valid n 0 = bits w 15 1 ∧
      s'.rd F.FAB_PORT_NBR_ID.port n 0 = bits w 16 4 ∧ s'.rd F.FAB_PORT_NBR_ID.job n 0 = bits w 32 12) ∧
    (∀ a, (s.port n).nbrAt = some a → a + 2097152 ≤ s.cycle → ∃ s', exec (.neighbourStale n) s = .next s' ∧ s.OnlyPort s' n ∧
      s'.rd F.FAB_PORT_NBR_ID.fresh n 0 = 0) ∧
    (∀ q rest, s.AtHead n q rest → q.op = 2 → ∃ s', exec (.drainNoticeReceive n) s = .next s' ∧ s.OnlyPort s' n ∧ (s'.port n).rxM = rest ∧
      (s'.port n).noticeIn = true ∧ ((s.port n).st = .up → (s.port n).drainAt = none → (s'.port n).drainAt = some s.cycle ∧
        (s'.port n).noticeOut = true ∧ ∃ x, s'.sent = s.sent ++ [x] ∧ sentM x n 2 0 [])) ∧
    (∀ a, (s.port n).st = .up → (s.port n).drainAt = some a →
      ((s.port n).noticeOut = true → (s.port n).noticeIn = true → (s.port n).txC = [] → (s.port n).txM = [] → (s.port n).elastic = [] →
        (s.port n).rxM = [] → (s.port n).building = 0 → (∀ r ∈ s.routeQ, r.from_ ≠ some n) → ∃ s', exec (.portDrained n) s = .next s' ∧ s.OnlyPort s' n ∧
          (s'.port n).st = .drained ∧ (s'.port n).drainAt = none) ∧
      (a + 20000 ≤ s.cycle → ∃ s', exec (.portDrainTimeout n) s = .next s' ∧ s.OnlyPort s' n ∧ (s'.port n).st = .drained ∧
        (s'.port n).txC = [] ∧ (s'.port n).txM = [] ∧ (s'.port n).elastic = [] ∧
        ∀ k, k = (s.port n).txC.length + (s.port n).txM.length + (s.port n).elastic.length + (s.port n).building → 0 < k →
          s'.rd F.RTE_DROP.no_route 0 0 = min (s.rd F.RTE_DROP.no_route 0 0 + k) (2 ^ F.RTE_DROP.no_route.width - 1))) ∧
    (∀ q rest, s.AtHead n q rest → q.op = 3 → (s.port n).st = .drained → ∃ s', exec (.resumeNoticeReceive n) s = .next s' ∧ s.PortUp s' n) ∧
    (∀ q rest, (s.port n).st = .up → (s.port n).drainAt = none →
      ((s.port n).txC = q :: rest → (s.port n).creditsC ≠ 0 → exec (.controlPacketSend n false) s =
        .next ((s.setPort n { s.port n with txC := rest, sentC := ((s.port n).sentC + 1) % 256 }).put (.wire n (.pkt q q.crc)))) ∧
      ((s.port n).txM = q :: rest → (s.port n).creditsM ≠ 0 → exec (.controlPacketSend n true) s =
        .next ((s.setPort n { s.port n with txM := rest, sentM := ((s.port n).sentM + 1) % 256 }).put (.wire n (.pkt q q.crc)))) ∧
      ((s.port n).txC = q :: rest → (s.port n).creditsC = 0 → exec (.controlPacketSend n false) s = .next s)) ∧
    ((s.port n).st.linked = true → ((s.port n).creditDue = true ∨ (s.port n).creditPeriod ≠ s.sidereal / 20480) → ∃ (s' : State) (x : Sent),
      exec (.creditPacketSend n) s = .next s' ∧ s.OnlyPort s' n ∧ s'.sent = s.sent ++ [x] ∧
      sentM x n 0 (BitVec.ofNat 64 ((s.port n).freedC + (s.port n).freedM * 2 ^ 8)) [] ∧ (s'.port n).creditDue = false) ∧
    (∀ q rest, s.AtHead n q rest → q.op = 0 → ∃ s', exec (.creditPacketReceive n) s = .next s' ∧
      s' = s.setPort n { s.port n with rxM := rest, retC := bits q.hi.toNat 0 8, retM := bits q.hi.toNat 8 8 }))

/-- R313, R319, R320 and R323 to R331, the time tree: GLB_TIME_CFG stores in READY and JOINED with no start pending, and restarts time as a root
(LOCKED), a child (ACQUIRING) or free (else it only sets cfg_ignored); an ACQUIRING child locks its frequency, and its parent's next
marker steps its sidereal count and clock phase to the marker plus the link's measured latency, so that the offset is 0, and locks it one
deeper; a marker of depth 64 only sets depth_exceeded; a LOCKED child keeps the offset, loses time beyond one cycle, and enters HOLDOVER
for a bad marker or 61,440 cycles without one; a child in HOLDOVER locks its frequency to its primary parent, or to the alternate one, and
returns by that port's marker, its offset removed without a step, or loses time; HOLDOVER of 20,000,000 cycles is LOST, and a RUNNING
module is fenced with cause 2. The parallax reply in a maintenance codeword counts in PARALLAX and measures anew in UP and DRAINED, and a
PARTNER_DARK notice brings the port DOWN.

Model's choices it rests on: log entries 91, 92. -/
def Obligations.TimeTree : Prop :=
  ∀ s : State,
    (∀ v : Word, ((s.st = .ready ∨ s.st = .joined) → s.startPending = false → ∃ s', exec (.glbTimeCfgWrite v) s = .next s' ∧
        (∀ f ∈ Reg.fields .GLB_TIME_CFG, s'.rd f 0 0 = (Access.full v).new f (s.rd f 0 0)) ∧ s'.rd F.GLB_TIME_STATUS.offset 0 0 = 0 ∧
        s'.rd F.GLB_TIME_STATUS.depth 0 0 = 0 ∧ s'.freqPort = none ∧ s'.holdAt = none ∧ s'.sidereal = s.sidereal ∧
        s'.timeSt = (if s'.role = 1 then 2 else if s'.role = 2 then 1 else 0)) ∧
      (s.st ≠ .ready ∧ s.st ≠ .joined ∨ s.startPending = true → ∃ s', exec (.glbTimeCfgWrite v) s = .next s' ∧ s' = { s with regs := s'.regs } ∧
        s'.rd F.GLB_TIME_STATUS.cfg_ignored 0 0 = 1 ∧ ∀ f ∈ Reg.fields .GLB_TIME_CFG, s'.rd f 0 0 = s.rd f 0 0)) ∧
    (∀ p q, p = s.rd F.GLB_TIME_CFG.parent 0 0 → q = s.rd F.GLB_TIME_CFG.alt_parent 0 0 →
      (s.timeSt = 1 ∨ s.timeSt = 3 → s.markerGood p = true → exec .frequencyLock s = .next { s with freqPort := some p }) ∧
      (s.timeSt = 1 → s.markerGood p = false → exec .frequencyLock s = .next s) ∧
      (s.timeSt = 3 → s.markerGood p = false → s.rd F.GLB_TIME_CFG.alt_en 0 0 = 1 → s.markerGood q = true →
        exec .frequencyLock s = .next { s with freqPort := some q })) ∧
    (∀ (n count role state depth : Nat) (reply : Option (Nat × Nat)) (sub meas : Nat), n < 16 → sub < 64 → (s.port n).st.linked = true → s.role = 2 →
      meas = ((s.port n).trip (64 * s.cycle + sub) reply).elim (s.rd F.FAB_PORT_PARALLAX.measured n 0) (fun d => d / 2 % 2 ^ 19) →
      (s.timeSt = 1 → n = s.rd F.GLB_TIME_CFG.parent 0 0 → (state = 2 ∨ state = 3) →
        (s.freqPort = some n → s.inJob = false → depth ≤ 63 → ∃ (s' : State) (t : Int), t = ((64 * count + meas : Nat) : Int) - sub ∧
          exec (.maintenanceCodewordReceive n count role state depth false (reply, sub)) s = .next s' ∧
          s'.sidereal = (t / 64).toNat % 2 ^ 64 ∧ s'.phase = t % 64 ∧ s'.timeSt = 2 ∧ s'.depth = depth + 1 ∧
          s'.rd F.GLB_TIME_STATUS.active_parent 0 0 = n ∧ s'.rd F.GLB_TIME_STATUS.stepped 0 0 = 1 ∧ s'.rd F.GLB_TIME_STATUS.offset 0 0 = 0 ∧
          (s'.port n).markerAt = some s.cycle ∧ (0 ≤ t → t < 2 ^ 70 → s'.offsetOf n count sub = 0)) ∧
        (depth = 64 → ∃ s', exec (.maintenanceCodewordReceive n count role state depth false (reply, sub)) s = .next s' ∧ s'.timeSt = 1 ∧
          s'.sidereal = s.sidereal ∧ s'.phase = s.phase ∧ s'.rd F.GLB_TIME_STATUS.depth_exceeded 0 0 = 1)) ∧
      (∀ o : Int, (state = 2 ∨ state = 3) → depth ≤ 63 → o = 64 * (s.sidereal : Int) + s.phase + sub - ((64 * count + meas : Nat) : Int) →
        (s.timeSt = 2 → n = s.rd F.GLB_TIME_STATUS.active_parent 0 0 →
          (-64 ≤ o → o ≤ 64 → ∃ s', exec (.maintenanceCodewordReceive n count role state depth false (reply, sub)) s = .next s' ∧
            s'.sidereal = s.sidereal ∧ s'.phase = s.phase ∧ s'.timeSt = 2 ∧ s'.rd F.GLB_TIME_STATUS.offset 0 0 = (o % 65536).toNat ∧
            s'.tiles = s.tiles) ∧
          (64 < o ∨ o < -64 → ∃ s', exec (.maintenanceCodewordReceive n count role state depth false (reply, sub)) s = .next s' ∧ s'.timeSt = 4 ∧
            s'.rd F.GLB_TIME_STATUS.align_fault 0 0 = 1 ∧ (s.st = .running → s.Unfenced → s.FencedFor s' 2))) ∧
        (s.timeSt = 3 → s.freqPort = some n → (n = s.rd F.GLB_TIME_CFG.parent 0 0 ∨ n ≠ s.rd F.GLB_TIME_CFG.parent 0 0 ∧
            s.markerGood (s.rd F.GLB_TIME_CFG.parent 0 0) = false ∧ s.rd F.GLB_TIME_CFG.alt_en 0 0 = 1 ∧ n = s.rd F.GLB_TIME_CFG.alt_parent 0 0) →
          (-64 ≤ o → o ≤ 64 → ∃ s', exec (.maintenanceCodewordReceive n count role state depth false (reply, sub)) s = .next s' ∧
            s'.sidereal = s.sidereal ∧ s'.phase = s.phase - o ∧ s'.timeSt = 2 ∧ s'.depth = depth + 1 ∧ s'.holdAt = none ∧
            s'.rd F.GLB_TIME_STATUS.active_parent 0 0 = n ∧
            (n ≠ s.rd F.GLB_TIME_CFG.parent 0 0 → s'.rd F.GLB_TIME_STATUS.switched 0 0 = 1)) ∧
          (64 < o ∨ o < -64 → ∃ s', exec (.maintenanceCodewordReceive n count role state depth false (reply, sub)) s = .next s' ∧ s'.timeSt = 4 ∧
            s'.sidereal = s.sidereal ∧ s'.phase = s.phase ∧ (s.st = .running → s.Unfenced → s.FencedFor s' 2)))) ∧
      (s.timeSt = 2 → n = s.rd F.GLB_TIME_STATUS.active_parent 0 0 → (state ≠ 2 ∧ state ≠ 3 ∨ 63 < depth) →
        ∃ s', exec (.maintenanceCodewordReceive n count role state depth false (reply, sub)) s = .next s' ∧ s'.timeSt = 3 ∧
          s'.rd F.GLB_TIME_STATUS.parent_lost 0 0 = 1 ∧ s'.holdAt = some s.cycle)) ∧
    (∀ n count role state depth dark reply sub, n < 16 → sub < 64 → (s.port n).st.linked = true ∨ (s.port n).st = .parallax →
      ∃ s', exec (.maintenanceCodewordReceive n count role state depth dark (reply, sub)) s = .next s' ∧
        s'.rd F.FAB_PORT_PARTNER.state n 0 = state % 8 ∧ s'.rd F.FAB_PORT_PARTNER.depth n 0 = depth % 128 ∧
        s'.rd F.FAB_PORT_PARTNER.role n 0 = role % 4 ∧ (s'.port n).markerAt = some s.cycle ∧
        (s'.port n).markerOk = (state == 2 || state == 3) ∧
        (dark = true → (s'.port n).st = .down ∧ s'.rd F.FAB_PORT_STATE.state n 0 = 5 ∧ s'.rd F.FAB_PORT_STATE.down_reason n 0 = 7 ∧
          s'.rd F.FAB_PORT_STATUS.went_down n 0 = 1) ∧
        (dark = false → (s'.port n).probeIn = some (count, 64 * s.cycle + sub) ∧ ∀ d, (s.port n).trip (64 * s.cycle + sub) reply = some d →
          ((s.port n).st = .parallax → (s.port n).trips < 256 → (s'.port n).trips = (s.port n).trips + 1 ∧
            (s'.port n).tripSum = (s.port n).tripSum + d) ∧
          ((s.port n).st.linked = true → s'.rd F.FAB_PORT_PARALLAX.measured n 0 = d / 2 % 2 ^ 19 ∧
            (s.rd F.FAB_PORT_PARALLAX.latency n 0 < (d / 2 % 2 ^ 19 + 63) / 64 + 4 → s'.rd F.FAB_PORT_STATUS.margin_low n 0 = 1)))) ∧
    (s.timeSt = 2 → s.role = 2 → (∀ a, (s.port (s.rd F.GLB_TIME_STATUS.active_parent 0 0)).markerAt = some a → a + 61440 ≤ s.cycle) →
      ∃ s', exec .markerTimeout s = .next s' ∧ s'.timeSt = 3 ∧ s'.rd F.GLB_TIME_STATUS.parent_lost 0 0 = 1 ∧ s'.holdAt = some s.cycle ∧
        s'.tiles = s.tiles) ∧
    (∀ a, s.timeSt = 3 → s.holdAt = some a → a + 20000000 ≤ s.cycle → ∃ s', exec .holdoverExpiry s = .next s' ∧ s'.timeSt = 4 ∧
      (s.inJob = false → s'.st = s.st ∧ s'.tiles = s.tiles) ∧ (s.st = .running → s.Unfenced → s.FencedFor s' 2))

/-- R339, R340, R344 and R503's refusals, identity and tables of the fabric: RTE_SELF stores in READY, sets eid_valid and makes a DISCOVER due on
every linked port; join needs READY and a valid EID and gives JOINED, leave needs JOINED and gives READY; a table register stores unless a
port it names, before or after in what changes, is UP. Each is refused with WRONG_STATE otherwise (join without an EID with BAD_ARGUMENT), and
a refused table write sets table_refused. -/
def Obligations.FabricIdentityAndTables : Prop :=
  ∀ s : State,
    (∀ v : Word, (s.st = .ready → ∃ s', exec (.rteSelfWrite v) s = .next s' ∧ s' = { s with regs := s'.regs, ports := s'.ports } ∧
        (∀ f ∈ Reg.fields .RTE_SELF, f.acc = .rw → s'.rd f 0 0 = (Access.full v).new f (s.rd f 0 0)) ∧ s'.rd F.RTE_SELF.eid_valid 0 0 = 1 ∧
        s'.rd F.RTE_STATUS.last_status 0 0 = 0 ∧ ∀ n, n < 16 → (s.port n).st.linked = true → s'.port n = { s.port n with discDue := true }) ∧
      (s.st ≠ .ready → ∃ s', exec (.rteSelfWrite v) s = .next s' ∧ s.RteRefused s')) ∧
    (s.st = .ready → s.rd F.RTE_SELF.eid_valid 0 0 = 1 → ∃ s', exec .rteJoin s = .next s' ∧ s'.st = .joined ∧
      s'.rd F.GLB_MODULE_STATE.state 0 0 = 3 ∧ s'.rd F.RTE_STATUS.last_status 0 0 = 0 ∧ s'.tiles = s.tiles ∧ s'.chans = s.chans) ∧
    (s.st = .ready → s.rd F.RTE_SELF.eid_valid 0 0 = 0 → ∃ s', exec .rteJoin s = .next s' ∧ s' = { s with regs := s'.regs } ∧
      s'.rd F.RTE_STATUS.last_status 0 0 = 2 ∧ s'.rd F.RTE_STATUS.cmd_refused 0 0 = 1) ∧
    (s.st ≠ .ready → ∃ s', exec .rteJoin s = .next s' ∧ s.RteRefused s') ∧
    (s.st = .joined → ∃ s', exec .rteLeave s = .next s' ∧ s'.st = .ready ∧ s'.rd F.RTE_STATUS.last_status 0 0 = 0) ∧
    (s.st ≠ .joined → ∃ s', exec .rteLeave s = .next s' ∧ s.RteRefused s') ∧
    (∀ tab k (v : Word) (r : Reg), (tab, r) ∈ [(0, Reg.RTE_ROUTE), (1, .RTE_ROW), (2, .RTE_COL)] → k < r.place.count →
      let new := ({ s with regs := s.regs.store r 0 k s.cycle (.full v) } : State)
      let named := changedPorts tab (s.regWord r 0 k).toNat (new.regWord r 0 k).toNat
      ((∀ n ∈ named, (s.port n).st ≠ .up) → ∃ s', exec (.rteTableWrite tab k v) s = .next s' ∧ s' = { s with regs := s'.regs } ∧
        s'.rd F.RTE_STATUS.last_status 0 0 = 0 ∧ ∀ f ∈ r.fields, f.acc = .rw → s'.rd f 0 k = (Access.full v).new f (s.rd f 0 k)) ∧
      ((∃ n ∈ named, (s.port n).st = .up) → ∃ s', exec (.rteTableWrite tab k v) s = .next s' ∧
        s.RteRefused s' F.RTE_STATUS.table_refused ∧ s'.rd F.RTE_STATUS.cmd_refused 0 0 = s.rd F.RTE_STATUS.cmd_refused 0 0))

/-- R342, R343, R345, R349 to R353 and R470, scheduled packets: at its send point a flit begins a packet for the port its route names (or the one
whose header it carries on from another port), the next flits of its row, one per cycle and to rising lines, join it up to 256 bytes, and
a packet that can grow no more is sent with its length and counted, unless the port has begun to drain; without a route, with the port not
UP or in a maintenance window, or at a send point in use, it is discarded, counted as such and recorded, with the fault line. A packet at its
delivery cycle for this module lands on home row t mod 6 as EDGE_IN flits, one line each; one for another module goes on with one hop less,
by the route's port of the same die eight cycles later or over the mirror's row; without a route, a hop or a tile it is counted; a
group's packet lands by its entry, but not where it came from, and goes on by the entry's ports; one of another job, or in a FENCED
module, is counted as foreign.

R356 to R359 and R470, control packets at a port die: a reply for this module goes to its tile over Vesper, a fragment waits to be put
together, another module's packet goes on, with one hop less if it came by a port, by the port its route names (over Vesper to the other
port die), the fragments of one message entering that port's queue together; without a route, with that port not UP, or out of hops,
it is counted and recorded; a FENCED module answers a first fragment CLOSED. A message goes to its tile whole when the last of its
fragments is there; one incomplete after 100,000 cycles is counted and recorded. A packet that leaves its receive buffer frees its
credit.

Model's choices it rests on: log entries 38, 40, 68, 90. -/
def Obligations.FabricPackets : Prop :=
  ((∀ (s : State) (n : Nat) (k : Taken) (e t : Nat), n < 16 → (s.port n).taken = [k] → k.z ≤ s.cycle → t = s.sidereal + k.z - s.cycle →
    e = s.route (eoEid k.hdr) → (s.port n).build.find k.row = none →
    (s.st ≠ .fenced → k.fwd = none → entryValid e = true → entryKind e ≠ 3 → (entryKind e = 0 → entryTarget e % 16 = n) → s.sendPoint n t = 0 →
      ∃ (s' : State) (b : Build), exec (.edgeFlitTake n) s = .next s' ∧ s.OnlyPort s' n ∧ (s'.port n).build.find k.row = some b ∧
        b.last = k.z ∧ b.dead = false ∧ b.pkt.data = lineBytes k.data ∧ b.pkt.stamp = t % 65536 ∧ b.pkt.tile = eoTile k.hdr ∧
        b.pkt.line = eoLine k.hdr ∧ b.pkt.atomic = eoAtomic k.hdr ∧ b.pkt.ctrc = eoCtrc k.hdr ∧ b.pkt.cls = 0 ∧
        b.pkt.cast = entryKind e ∧ b.pkt.dst = (if entryKind e = 0 then eoEid k.hdr else entryTarget e) ∧ b.pkt.src = s.eid % 2 ^ 14 ∧
        b.pkt.job = s.job % 2 ^ 12 ∧ b.pkt.hops = s.rd F.RTE_SELF.hop_limit 0 0 % 2 ^ 6 ∧ s'.sent = s.sent ∧ t ∈ (s'.port n).pts) ∧
    (∀ lo hi, s.st ≠ .fenced → k.fwd = some (lo, hi) → (FPkt.cast ⟨lo, hi, []⟩ = 0 → s.portTo (FPkt.dst ⟨lo, hi, []⟩) = some n) →
      s.sendPoint n t = 0 → ∃ (s' : State) (b : Build), exec (.edgeFlitTake n) s = .next s' ∧ s.OnlyPort s' n ∧
        (s'.port n).build.find k.row = some b ∧ b.last = k.z ∧ b.dead = false ∧ b.fwd = true ∧
        b.pkt = ⟨lo, setBits hi 0 16 t, lineBytes k.data⟩ ∧ s'.sent = s.sent) ∧
    (s.st ≠ .fenced → k.fwd = none → (entryValid e = false ∨ entryKind e = 3 ∨ entryKind e = 0 ∧ entryTarget e % 16 ≠ n) →
      ∃ (s' : State) (r : Rec), exec (.edgeFlitTake n) s = .next s' ∧ s'.sent = s.sent ∧ s'.recs = s.recs ++ [r] ∧ r.kind = 0x31 ∧
      s'.faults = s.faults ++ [s.cycle] ∧
      s'.rd F.RTE_DROP.no_route 0 0 = min (s.rd F.RTE_DROP.no_route 0 0 + 1) (2 ^ F.RTE_DROP.no_route.width - 1)) ∧
    (s.st ≠ .fenced → k.fwd = none → entryValid e = true → entryKind e ≠ 3 → (entryKind e = 0 → entryTarget e % 16 = n) →
      ((s.port n).open_ = false ∨ t % 20480 < s.maintWindow n ∨ 20477 < t % 20480 → ∃ (s' : State) (r : Rec),
        exec (.edgeFlitTake n) s = .next s' ∧ s'.sent = s.sent ∧ s'.recs = s.recs ++ [r] ∧ r.kind = 0x31 ∧ s'.faults = s.faults ++ [s.cycle] ∧
        s'.rd F.FAB_PORT_SCHED.origin_discard n 0 =
          min (s.rd F.FAB_PORT_SCHED.origin_discard n 0 + 1) (2 ^ F.FAB_PORT_SCHED.origin_discard.width - 1)) ∧
      ((s.port n).open_ = true → s.maintWindow n ≤ t % 20480 → t % 20480 ≤ 20477 → t ∈ (s.port n).pts → ∃ (s' : State) (r : Rec),
        exec (.edgeFlitTake n) s = .next s' ∧ s'.sent = s.sent ∧ s'.recs = s.recs ++ [r] ∧ r.kind = 0x31 ∧ s'.faults = s.faults ++ [s.cycle] ∧
        s'.rd F.FAB_PORT_SCHED.collide n 0 = min (s.rd F.FAB_PORT_SCHED.collide n 0 + 1) (2 ^ F.FAB_PORT_SCHED.collide.width - 1))) ∧
    (s.st = .fenced → ∃ s', exec (.edgeFlitTake n) s = .next s' ∧ s'.sent = s.sent ∧ s'.recs = s.recs ∧ s'.faults = s.faults ∧
      s'.rd F.RTE_DROP.foreign 0 0 = min (s.rd F.RTE_DROP.foreign 0 0 + 1) (2 ^ F.RTE_DROP.foreign.width - 1))) ∧
  (∀ (s : State) (n : Nat) (k : Taken) (b : Build), n < 16 → (s.port n).taken = [k] → k.z ≤ s.cycle → (s.port n).build.find k.row = some b →
    b.joins k = true → ∃ (s' : State) (b' : Build), exec (.edgeFlitTake n) s = .next s' ∧
      (s'.port n).build.find k.row = some b' ∧
      b' = { b with last := k.z, hdr := k.hdr, pkt := { b.pkt with data := b.pkt.data ++ lineBytes k.data } } ∧ s'.sent = s.sent) ∧
  (∀ (s : State) (n row : Nat) (b : Build), n < 16 → (∀ k ∈ (s.port n).taken, s.cycle < k.z) → (s.port n).build = Tab.empty.set row b →
    b.s + 4 ≤ s.cycle → b.dead = false →
    ((s.port n).open_ = true → ∃ (s' : State) (q : FPkt), exec (.edgeFlitTake n) s = .next s' ∧
      q = { b.pkt with lo := setBits b.pkt.lo 50 5 (b.pkt.data.length / 16) } ∧ s'.sent = s.sent ++ [.wire n (.pkt q q.crc)] ∧
      (s'.port n).build.find row = none ∧
      s'.rd F.FAB_PORT_SCHED.sent n 0 = (s.rd F.FAB_PORT_SCHED.sent n 0 + 1) % 2 ^ F.FAB_PORT_SCHED.sent.width) ∧
    ((s.port n).open_ = false → ∃ s', exec (.edgeFlitTake n) s = .next s' ∧ s'.sent = s.sent ∧ (s'.port n).build.find row = none ∧
      s'.faults = s.faults ++ [s.cycle] ∧ s'.rd F.FAB_PORT_SCHED.origin_discard n 0 =
        min (s.rd F.FAB_PORT_SCHED.origin_discard n 0 + 1) (2 ^ F.FAB_PORT_SCHED.origin_discard.width - 1))) ∧
  (∀ (s : State) (n t : Nat) (p : FPkt), n < 16 → (s.port n).elastic = [⟨t, p⟩] → t ≤ s.sidereal →
    (∀ lands : State → Prop, lands = (fun s' => s'.recs = s.recs ∧
        s'.flits.length = s.flits.length + p.len / 4 ∧ ∀ k, k < p.len / 4 → ∃ f : Flit, s'.flits[s.flits.length + k]? = some f ∧
          f.x = portX n ∧ f.y = 6 * (n % 8) + t % 6 ∧ f.inp = 6 ∧ f.at_ = s.cycleOf t + 1 + k ∧ hDx f.hdr = p.tile % 48 ∧
          hDy f.hdr = p.tile / 48 ∧ hLine f.hdr = (p.line + k) % 2 ^ 15 ∧ hAtomic f.hdr = p.atomic ∧
          lineBytes f.data = (p.data.drop (64 * k)).take 64) →
      s.st ≠ .fenced → p.job = s.job → p.tile < 2304 → p.data.length = 16 * p.len →
      (p.cast = 0 → p.dst = s.eid → ∃ s', exec (.scheduledDelivery n) s = .next s' ∧ (s'.port n).elastic = [] ∧ s'.lastS = s.cycle ∧ lands s') ∧
      (p.cast = 1 → s.rd F.RTE_ROW.valid 0 (p.dst % 256) = 1 → s.rd F.RTE_ROW.out_mask 0 (p.dst % 256) = 0 → ∃ s',
        exec (.scheduledDelivery n) s = .next s' ∧ (s'.port n).elastic = [] ∧
        (s.rd F.RTE_ROW.local 0 (p.dst % 256) = 1 → p.src ≠ s.eid → lands s') ∧
        (s.rd F.RTE_ROW.local 0 (p.dst % 256) = 0 ∨ p.src = s.eid → s'.flits = s.flits)) ∧
      (p.cast = 2 → s.rd F.RTE_COL.valid 0 (p.dst % 256) = 1 → s.rd F.RTE_COL.out_mask 0 (p.dst % 256) = 0 → ∃ s',
        exec (.scheduledDelivery n) s = .next s' ∧ (s'.port n).elastic = [] ∧
        (s.rd F.RTE_COL.local 0 (p.dst % 256) = 1 → p.src ≠ s.eid → lands s') ∧
        (s.rd F.RTE_COL.local 0 (p.dst % 256) = 0 ∨ p.src = s.eid → s'.flits = s.flits))) ∧
    (∀ b, s.st ≠ .fenced → p.job = s.job → (p.cast = 0 ∧ p.dst ≠ s.eid ∧ s.portTo p.dst = some b ∨
        p.cast = 1 ∧ s.rd F.RTE_ROW.valid 0 (p.dst % 256) = 1 ∧ s.rd F.RTE_ROW.local 0 (p.dst % 256) = 0 ∧ b < 16 ∧
          s.rd F.RTE_ROW.out_mask 0 (p.dst % 256) = 2 ^ b) → b ≠ n →
      (sameDie n b = true → p.hops ≠ 0 → s.sendPoint b (t + 8) = 0 → ∃ (s' : State) (q : FPkt), exec (.scheduledDelivery n) s = .next s' ∧
        s'.sent = s.sent ++ [.wire b (.pkt q q.crc)] ∧ q.hops = p.hops - 1 ∧ q.stamp = (t + 8) % 65536 ∧ q.data = p.data ∧ q.dst = p.dst ∧
        q.cast = p.cast ∧ q.tile = p.tile ∧ q.line = p.line ∧ s'.flits = s.flits) ∧
      (b = mirrorOf n → p.hops ≠ 0 → ∃ s', exec (.scheduledDelivery n) s = .next s' ∧ s'.sent = s.sent ∧
        s'.flits.length = s.flits.length + p.len / 4 ∧ ∀ k, k < p.len / 4 → ∃ f : Flit, s'.flits[s.flits.length + k]? = some f ∧
          f.x = portX n ∧ f.y = 6 * (n % 8) + t % 6 ∧ f.inp = 6 ∧ hDx f.hdr = portX b ∧ hDy f.hdr = f.y ∧
          ∃ lo, f.fwd = some (lo, p.hi) ∧ FPkt.hops ⟨lo, p.hi, []⟩ = p.hops - 1 ∧ FPkt.dst ⟨lo, p.hi, []⟩ = p.dst) ∧
      (sameDie n b = true ∨ b = mirrorOf n → p.hops = 0 → ∃ (s' : State) (r : Rec), exec (.scheduledDelivery n) s = .next s' ∧ s'.sent = s.sent ∧
        s'.flits = s.flits ∧ s'.recs = s.recs ++ [r] ∧ r.kind = 0x31 ∧ s'.faults = s.faults ++ [s.cycle] ∧
        s'.rd F.RTE_DROP.hop_expired 0 0 = min (s.rd F.RTE_DROP.hop_expired 0 0 + 1) (2 ^ F.RTE_DROP.hop_expired.width - 1))) ∧
    (s.st ≠ .fenced → p.job = s.job → p.cast = 0 → (p.dst ≠ s.eid ∧ s.portTo p.dst = none ∨ p.dst = s.eid ∧ 2303 < p.tile) →
      ∃ (s' : State) (r : Rec), exec (.scheduledDelivery n) s = .next s' ∧ s'.flits = s.flits ∧ s'.sent = s.sent ∧
      s'.recs = s.recs ++ [r] ∧ r.kind = 0x31 ∧ s'.faults = s.faults ++ [s.cycle] ∧
      s'.rd F.RTE_DROP.no_route 0 0 = min (s.rd F.RTE_DROP.no_route 0 0 + 1) (2 ^ F.RTE_DROP.no_route.width - 1)) ∧
    (s.st = .fenced → ∃ s', exec (.scheduledDelivery n) s = .next s' ∧ s'.flits = s.flits ∧ s'.sent = s.sent ∧ (s'.port n).elastic = [] ∧
      s'.rd F.RTE_DROP.foreign 0 0 = min (s.rd F.RTE_DROP.foreign 0 0 + 1) (2 ^ F.RTE_DROP.foreign.width - 1)) ∧
    (s.st ≠ .fenced → p.job ≠ s.job → ∃ (s' : State) (r : Rec), exec (.scheduledDelivery n) s = .next s' ∧ s'.flits = s.flits ∧ s'.sent = s.sent ∧
      s'.recs = s.recs ++ [r] ∧ r.kind = 0x31 ∧ s'.faults = s.faults ++ [s.cycle] ∧
      s'.rd F.RTE_DROP.foreign 0 0 = min (s.rd F.RTE_DROP.foreign 0 0 + 1) (2 ^ F.RTE_DROP.foreign.width - 1)))) ∧
((∀ (s : State) (r : RouteItem) (rest : List RouteItem), s.routeQ = r :: rest →
    (∀ n, r.from_ = some n → n < 16 → ∃ s', exec .fabPktRoute s = .next s' ∧ (s'.port n).freedC = ((s.port n).freedC + 1) % 256 ∧
      (s'.port n).creditDue = true) ∧
    (s.st ≠ .fenced → r.pkt.dst = s.eid → r.pkt.cTile < 2304 → r.pkt.op = 2 → ∃ (s' : State) (q : VPkt), exec .fabPktRoute s = .next s' ∧
      s'.routeQ = rest ∧ s'.pkts = s.pkts ++ [q] ∧ q.op = 5 ∧ q.vc = 1 ∧ q.rep = 7 ∧ q.dx + 48 * q.dy = r.pkt.cTile ∧
      bits q.w.toNat 0 2 = bits r.pkt.hi.toNat 18 2) ∧
    (s.st ≠ .fenced → r.pkt.dst = s.eid → r.pkt.cTile < 2304 → r.pkt.op ≠ 2 → ∃ s', exec .fabPktRoute s = .next s' ∧
      s'.routeQ = rest ∧ s'.frags = s.frags ++ [r]) ∧
    (∀ b (q : FPkt), r.pkt.dst ≠ s.eid → (r.from_ = none ∨ r.pkt.hops ≠ 0) → s.portTo r.pkt.dst = some b →
      q = (if r.from_.isSome then { r.pkt with lo := setBits r.pkt.lo 44 6 (r.pkt.hops - 1) } else r.pkt) →
      (b / 8 = r.x → (s.port b).st = .up → (s.port b).drainAt = none →
        (r.pkt.fragments ≤ 1 → ∃ s', exec .fabPktRoute s = .next s' ∧ s'.routeQ = rest ∧ (s'.port b).txC = (s.port b).txC ++ [q] ∧
          s'.gather = s.gather) ∧
        (1 < r.pkt.fragments → r.pkt.frag + 1 < r.pkt.fragments → (r.pkt.frag = 0 → ∀ g ∈ s.gather, g.sameMessage { r with pkt := q } = false) →
          ∃ s', exec .fabPktRoute s = .next s' ∧ s'.routeQ = rest ∧ (s'.port b).txC = (s.port b).txC ∧
            s'.gather = s.gather ++ [{ r with pkt := q }]) ∧
        (1 < r.pkt.fragments → r.pkt.frag + 1 = r.pkt.fragments → (∀ g ∈ s.gather, g.sameMessage { r with pkt := q } = true) →
          ∃ s', exec .fabPktRoute s = .next s' ∧ s'.routeQ = rest ∧ s'.gather = [] ∧
            (s'.port b).txC = (s.port b).txC ++ s.gather.map (·.pkt) ++ [q])) ∧
      (b / 8 = r.x → ((s.port b).st ≠ .up ∨ (s.port b).drainAt ≠ none) → r.pkt.fragments ≤ 1 → ∃ (s' : State) (e : Rec),
        exec .fabPktRoute s = .next s' ∧ s'.routeQ = rest ∧ s'.pkts = s.pkts ∧ (s'.port b).txC = (s.port b).txC ∧ s'.recs = s.recs ++ [e] ∧
        e.kind = 0x34 ∧ s'.rd F.RTE_DROP.no_route 0 0 = min (s.rd F.RTE_DROP.no_route 0 0 + 1) (2 ^ F.RTE_DROP.no_route.width - 1)) ∧
      (b / 8 ≠ r.x → ∃ (s' : State) (v : VPkt), exec .fabPktRoute s = .next s' ∧ s'.routeQ = rest ∧ s'.pkts = s.pkts ++ [v] ∧ v.op = 10 ∧
        v.vc = 3 ∧ v.dy = r.y ∧ v.dx = (if r.x = 0 then 47 else 0) ∧ v.data = q.bytes)) ∧
    (r.pkt.dst ≠ s.eid → (r.from_.isSome = true ∧ r.pkt.hops = 0 ∨ s.portTo r.pkt.dst = none) → ∃ (s' : State) (e : Rec),
      exec .fabPktRoute s = .next s' ∧ s'.routeQ = rest ∧ s'.pkts = s.pkts ∧ s'.frags = s.frags ∧ s'.recs = s.recs ++ [e] ∧ e.kind = 0x34 ∧
      s'.rd F.RTE_DROP.no_route 0 0 = min (s.rd F.RTE_DROP.no_route 0 0 + 1) (2 ^ F.RTE_DROP.no_route.width - 1)) ∧
    (s.st = .fenced → r.pkt.dst = s.eid →
      (r.pkt.op = 1 → r.pkt.frag = 0 → ∃ (s' : State) (q : RouteItem), exec .fabPktRoute s = .next s' ∧
        s'.routeQ = rest ++ [q] ∧ q.pkt.op = 2 ∧ q.pkt.dst = r.pkt.src ∧ bits q.pkt.hi.toNat 18 2 = 1 ∧ s'.frags = s.frags ∧ s'.pkts = s.pkts) ∧
      (r.pkt.op ≠ 1 ∨ r.pkt.frag ≠ 0 → ∃ s', exec .fabPktRoute s = .next s' ∧ s'.routeQ = rest ∧ s'.frags = s.frags ∧ s'.pkts = s.pkts ∧
        s'.rd F.RTE_DROP.no_route 0 0 = min (s.rd F.RTE_DROP.no_route 0 0 + 1) (2 ^ F.RTE_DROP.no_route.width - 1)))) ∧
  (∀ (s : State) (r : RouteItem) (rest : List RouteItem) (total n : Nat), s.frags = r :: rest → total = bits r.pkt.hi.toNat 36 13 →
    n = (total + 255) / 256 →
    ((∀ m ∈ s.reasm, ofMessage m r → ∃ p ∈ m.parts, p.1 = r.pkt.frag) →
      (r.pkt.frag = 0 → n ≤ 1 → ∃ (s' : State) (q : VPkt), exec .fragmentReassembly s = .next s' ∧ s'.frags = rest ∧
        s'.reasm = s.reasm ∧ s'.pkts = s.pkts ++ [q] ∧ q.op = 7 ∧ q.data = r.pkt.data.take total ∧
        q.dx + 48 * q.dy = bits r.pkt.hi.toNat 0 12) ∧
      (1 < n → ∃ (s' : State) (m : Reasm), exec .fragmentReassembly s = .next s' ∧ s'.frags = rest ∧
        s'.pkts = s.pkts ∧ s'.reasm = s.reasm ++ [m] ∧ ofMessage m r ∧ m.first = s.cycle ∧ m.parts = [(r.pkt.frag, r.pkt.data)])) ∧
    (∀ m, s.reasm = [m] → ofMessage m r → (∀ p ∈ m.parts, p.1 ≠ r.pkt.frag) →
      (∀ ps : List (List Byte), ps.length = n → (m.parts.map (·.1)).Nodup → (∀ k, k < n → (k, ps.getD k []) ∈ m.parts ++ [(r.pkt.frag, r.pkt.data)]) →
        ∃ (s' : State) (q : VPkt), exec .fragmentReassembly s = .next s' ∧ s'.frags = rest ∧ s'.reasm = [] ∧ s'.pkts = s.pkts ++ [q] ∧ q.op = 7 ∧
          q.data = ps.flatten.take total ∧ q.dx + 48 * q.dy = bits r.pkt.hi.toNat 0 12) ∧
      ((∃ k, k < n ∧ k ≠ r.pkt.frag ∧ ∀ p ∈ m.parts, p.1 ≠ k) → ∃ s', exec .fragmentReassembly s = .next s' ∧ s'.frags = rest ∧
        s'.pkts = s.pkts ∧ s'.reasm = [{ m with parts := m.parts ++ [(r.pkt.frag, r.pkt.data)] }]))) ∧
  (∀ (s : State) (k : Nat) (m : Reasm), s.reasm[k]? = some m → m.first + 100000 ≤ s.cycle → ∃ (s' : State) (e : Rec),
    exec (.reassemblyTimeout k) s = .next s' ∧ s'.reasm = s.reasm.eraseIdx k ∧ s'.recs = s.recs ++ [e] ∧ e.kind = 0x34 ∧
    s'.rd F.RTE_DROP.no_route 0 0 = min (s.rd F.RTE_DROP.no_route 0 0 + 1) (2 ^ F.RTE_DROP.no_route.width - 1)))

/-- R368 and R372 to R377, the host's bulk accesses: an access through APR that leads to LPDDR goes out as one open request for each line it
touches (a write of whole groups with its bytes and mask, a write of part of a group as a read first), one that leads to a scratchpad as
one packet; an unmapped read is completed Unsupported Request and an unmapped write dropped, with the error's bit. A request without an
answer for 400,000 cycles ends, a read with Completer Abort; when the link goes down the requests are discarded and the host's locks on
mailboxes with full = 0 freed.

Model's choices it rests on: log entries 42, 43. -/
def Obligations.HostBulkAccesses : Prop :=
  (∀ (s : State) (off len a : Nat) (data : List Byte), aprOk off len = true → s.reachable = true → s.ctlDead = false → s.aprMap off len = .lpddr a →
    (∃ (s' : State) (ps : List VPkt) (r : HReq), exec (.aprLpddrRead off len) s = .next s' ∧ s'.pkts = s.pkts ++ ps ∧
      ps.length = (a % 64 + len + 63) / 64 ∧ (∀ p ∈ ps, p.op = 8 ∧ p.src = 1) ∧ s'.host = s.host ++ [r] ∧ r.id = s.hostNext ∧
      r.write = false ∧ r.offset = off ∧ r.at_ = s.cycle) ∧
    (data.length = len → len ≤ 512 → ∃ (s' : State) (ps : List VPkt) (r : HReq), exec (.aprLpddrWrite off data) s = .next s' ∧ s'.pkts = s.pkts ++ ps ∧
      ps.length = (a % 64 + len + 63) / 64 ∧ s'.host = s.host ++ [r] ∧ r.id = s.hostNext ∧ r.write = true ∧ r.offset = off ∧
      (a % 64 + len ≤ 64 → a % 8 = 0 → len % 8 = 0 → ∃ p, ps = [p] ∧ p.op = 9 ∧ p.src = 1 ∧ p.dx = chanX (lpddrMap s.chansIn a).1 ∧
        p.dy = chanY (lpddrMap s.chansIn a).1 ∧ bits p.w.toNat 0 27 = (lpddrMap s.chansIn a).2 ∧
        bits p.w.toNat 30 8 = groupMask (a % 64) len ∧ (p.data.drop (a % 64)).take len = data) ∧
      (a % 64 + len ≤ 64 → ¬ (a % 8 = 0 ∧ len % 8 = 0) → ∃ p, ps = [p] ∧ p.op = 8 ∧ p.src = 1 ∧ bits p.w.toNat 0 27 = (lpddrMap s.chansIn a).2))) ∧
  (∀ (s : State) (off len t o : Nat) (write : Bool) (data : List Byte), aprOk off len = true → s.reachable = true → s.ctlDead = false →
    s.aprMap off len = .scratch t o → (write = true → data.length = len ∧ len ≤ 512) →
    ∃ (s' : State) (p : VPkt) (r : HReq), exec (.aprScratchAccess write off len data) s = .next s' ∧ s'.pkts = s.pkts ++ [p] ∧
      p.op = (if write then 3 else 2) ∧ p.src = 1 ∧ p.dx = t % 48 ∧ p.dy = t / 48 ∧ (write = true → p.data = data) ∧
      s'.host = s.host ++ [r] ∧ r.write = write) ∧
  (∀ (s : State) (off len : Nat) (data : List Byte), aprOk off len = true → s.reachable = true → s.ctlDead = false → s.aprMap off len = .unmapped →
    s.aprSpace off ≠ 2 → (s.hostWriting = false → ∃ s', exec (.aprLpddrRead off len) s = .next s' ∧ s'.pkts = s.pkts ∧ s'.host = s.host ∧
      s'.sent.getLast? = some (.completion s.hostNext .unsupported) ∧ s'.rd F.OBS_HOST_ERR.unmapped 0 0 = 1) ∧
    (data.length = len → len ≤ 512 → ∃ s', exec (.aprLpddrWrite off data) s = .next s' ∧ s'.pkts = s.pkts ∧ s'.host = s.host ∧
      s'.rd F.OBS_HOST_ERR.unmapped 0 0 = 1)) ∧
  (∀ (s : State) (r : HReq), s.host = [r] → r.ended = false → r.at_ + 400000 ≤ s.cycle →
    (r.write = false → ∃ s', exec (.hostReadTimeout r.id) s = .next s' ∧ s'.host = [] ∧ s'.sent.getLast? = some (.completion r.id .abort) ∧
      s'.rd F.OBS_HOST_ERR.timeout 0 0 = 1) ∧
    (r.write = true → ∃ s', exec (.hostWriteTimeout r.id) s = .next s' ∧ s'.host = [] ∧ s'.rd F.OBS_HOST_ERR.timeout 0 0 = 1)) ∧
  (∀ s : State, ∃ s', exec .pcieLinkDown s = .next s' ∧ s' = { s with host := [], regs := s'.regs } ∧
    ∀ k, k < 32 → s'.owner k = if s.owner k = 1 ∧ s.rd F.MBX_FLAG.full k 0 = 0 then 0 else s.owner k)

/-- R380 to R386, mailboxes: a read of a free lock takes it and answers 0, of a held one answers the owner; the owner frees it while full
is 0; the owner alone writes content, and posts, while full is 0; another than the owner takes what is posted, which frees the lock;
anything else is only counted in refused. The host's break frees the mailbox whatever its state, with a record naming the former owner,
and leaves the payload. The upper half of a lock does nothing. A reply that waits for its mailbox is posted once the lock is free.

Model's choices it rests on: log entry 87. -/
def Obligations.MailboxRules : Prop :=
  (∀ (s : State) (src k : Nat), s.mbxOk src k = true →
    (∀ size, (size = 4 ∨ size = 8) → (src = 1 → s.hostWriting = false) →
      (s.owner k = 0 → ∃ s', exec (.mbxLockRead src k 0 size) s = .next s' ∧ s'.owner k = src ∧ (∀ j, j ≠ k → s'.owner j = s.owner j) ∧ s'.mbx = s.mbx ∧
        (src = 1 → s'.sent = s.sent ++ [.completion s.hostNext (.data (leBytes size 0))]) ∧
        (src = 2 → s'.sent = s.sent ++ [.vendor 0 0])) ∧
      (s.owner k ≠ 0 → ∃ s', exec (.mbxLockRead src k 0 size) s = .next s' ∧ s'.regs = s.regs ∧ s'.mbx = s.mbx ∧
        (src = 1 → s'.sent = s.sent ++ [.completion s.hostNext (.data (leBytes size (s.owner k)))]) ∧
        (src = 2 → s'.sent = s.sent ++ [.vendor 0 (BitVec.ofNat 64 (s.owner k))])) ∧
      (∃ s', exec (.mbxLockRead src k 4 4) s = .next s' ∧ s'.regs = s.regs ∧ (src = 1 → s'.sent = s.sent ++ [.completion s.hostNext (.data (leBytes 4 0))])) ∧
      (∃ s', exec (.mbxLockWrite src k 4 4) s = .next s' ∧ s'.regs = s.regs) ∧
      (s.owner k = src → s.full k = false → ∃ s', exec (.mbxLockWrite src k 0 size) s = .next s' ∧ s'.owner k = 0 ∧
        s.Served s' src ∧ s'.mbx = s.mbx ∧ ∀ j, j ≠ k → s'.owner j = s.owner j) ∧
      (s.owner k ≠ src ∨ s.full k = true → ∃ s', exec (.mbxLockWrite src k 0 size) s = .next s' ∧ s'.owner k = s.owner k ∧
        s.Served s' src ∧ s'.mbx = s.mbx ∧ s'.rd F.MBX_SENDER.refused k 0 = min (s.rd F.MBX_SENDER.refused k 0 + 1) 65535)) ∧
    (∀ (off : Nat) (data : List Byte), 0x40 ≤ off → off < 0x1000 → mbxSizeOk (k * 0x1000 + off) data.length = true → Mem.wf 0 s.mbx = true →
      (s.owner k = src → s.full k = false → ∃ s', exec (.mbxContentWrite src k off data) s = .next s' ∧ s.Served s' src ∧ s'.regs = s.regs ∧
        Mem.bytes 0 s'.mbx (k * 0x1000 + off) data.length = data ∧
        ∀ a, a < k * 0x1000 + off ∨ k * 0x1000 + off + data.length ≤ a → Mem.get 0 s'.mbx a = Mem.get 0 s.mbx a) ∧
      (s.owner k ≠ src ∨ s.full k = true → ∃ s', exec (.mbxContentWrite src k off data) s = .next s' ∧ s.Served s' src ∧ s'.mbx = s.mbx ∧
        s'.rd F.MBX_SENDER.refused k 0 = min (s.rd F.MBX_SENDER.refused k 0 + 1) 65535)) ∧
    (∀ (r : Reg) (off : Nat) (data : List Byte), (r = .MBX_CMD ∧ off / 8 = 3 ∨ r = .MBX_REF ∧ off / 8 = 4) → goodSize off data.length = true →
      (s.owner k = src → s.full k = false → ∃ s', exec (.mbxContentWrite src k off data) s = .next s' ∧ s.Served s' src ∧ s'.mbx = s.mbx ∧
        ∀ f ∈ r.fields, f.acc = .rw → s'.rd f k 0 = Access.new ⟨off % 8, data.length, BitVec.ofNat 64 (leNat data)⟩ f (s.rd f k 0)) ∧
      (s.owner k ≠ src ∨ s.full k = true → ∃ s', exec (.mbxContentWrite src k off data) s = .next s' ∧ s.Served s' src ∧ s'.mbx = s.mbx ∧
        (∀ f ∈ r.fields, s'.rd f k 0 = s.rd f k 0) ∧ s'.rd F.MBX_SENDER.refused k 0 = min (s.rd F.MBX_SENDER.refused k 0 + 1) 65535)) ∧
    (s.owner k = src → s.full k = false → ∃ s', exec (.mbxPost src k) s = .next s' ∧ s.Served s' src ∧ s'.mbx = s.mbx ∧ s'.full k = true ∧
      s'.rd F.MBX_SENDER.sender k 0 = src ∧ s'.owner k = src ∧ s'.rd F.MBX_SENDER.posts k 0 = (s.rd F.MBX_SENDER.posts k 0 + 1) % 65536) ∧
    (s.owner k ≠ src ∨ s.full k = true → ∃ s', exec (.mbxPost src k) s = .next s' ∧ s.Served s' src ∧ s'.mbx = s.mbx ∧ s'.full k = s.full k ∧
      s'.rd F.MBX_SENDER.refused k 0 = min (s.rd F.MBX_SENDER.refused k 0 + 1) 65535) ∧
    (s.full k = true → s.owner k ≠ src → ∃ s', exec (.mbxTake src k) s = .next s' ∧ s.Served s' src ∧ s'.mbx = s.mbx ∧ s'.full k = false ∧
      s'.owner k = 0) ∧
    (s.full k = false ∨ s.owner k = src → ∃ s', exec (.mbxTake src k) s = .next s' ∧ s.Served s' src ∧ s'.mbx = s.mbx ∧ s'.full k = s.full k ∧
      s'.owner k = s.owner k ∧ s'.rd F.MBX_SENDER.refused k 0 = min (s.rd F.MBX_SENDER.refused k 0 + 1) 65535)) ∧
  (∀ (s : State) (v : Word) (k : Nat), s.reachable = true → s.ctlDead = false → k = v.toNat % 32 →
    (∃ (s' : State) (r : Rec), exec (.mbxBreak 1 v) s = .next s' ∧ s'.full k = false ∧ s'.owner k = 0 ∧ s'.mbx = s.mbx ∧ s'.recs = s.recs ++ [r] ∧
      r.kind = 0x42 ∧ r.s0 = BitVec.ofNat 64 (k + s.owner k * 2 ^ 16)) ∧
    (∀ src, src ≠ 1 → exec (.mbxBreak src v) s = .next s)) ∧
  (∀ (s : State) (r : Reply), s.replies = [r] → s.fwRuns = true → r.body.length ≤ 4032 → Mem.wf 0 s.mbx = true →
    (s.owner (r.cmd.k + 4) = 0 → ∃ s', exec (.replyLockRetry r.cmd.k) s = .next s' ∧ s'.replies = [] ∧ s'.Replied r.cmd r.status r.body) ∧
    (s.owner (r.cmd.k + 4) ≠ 0 → exec (.replyLockRetry r.cmd.k) s = .next s))

/-- R386 to R389, R391, R428, R454 and Table 11-12, how firmware answers: it takes a posted command and posts the reply in mailbox k + 4. An unknown
code is NOT_SUPPORTED, a sender that may not send it DENIED, a payload where there is none BAD_ARGUMENT, a module state outside the
command's WRONG_STATE with a record. GET_INFO, LOG_READ and ALMANAC_READ answer DONE with what they read and change nothing else. A
FENCE that passes its bound is answered TIMEOUT.

Model's choices it rests on: log entries 44, 49. -/
def Obligations.FirmwareAnswers : Prop :=
  (∀ (s : State) (k : Nat) (c : Cmd), s.Offers k c →
    (∀ code i, FwRow k code i → cmdInfo c.code = none → ∃ s', exec i s = .next s' ∧ s'.Posts c 4 [] ∧ s'.tiles = s.tiles ∧ s'.st = s.st) ∧
    (∀ i info, FwRow k c.code i → cmdInfo c.code = some info → info.allows c.sender = false →
      ∃ s', exec i s = .next s' ∧ s'.Posts c 8 [] ∧ s'.tiles = s.tiles ∧ s'.st = s.st) ∧
    (∀ i info, FwRow k c.code i → c.code ∈ [0x01, 0x11, 0x12, 0x32] → cmdInfo c.code = some info → info.allows c.sender = true →
      s.romRecovery = false → (c.len ≠ 0 → ∃ s', exec i s = .next s' ∧ s'.Posts c 2 [] ∧ s'.st = s.st) ∧
      (c.len = 0 → s.st ∉ info.legal → ∃ s', exec i s = .next s' ∧ s'.Posts c 1 [] ∧ s'.st = s.st ∧ s'.recs.length = s.recs.length + 1)) ∧
    (s.Legal c → c.code = 0x01 → c.len = 0 → ∃ (s' : State) (body : List Byte), exec (.getInfo k) s = .next s' ∧ s'.Posts c 0 body ∧
      body.take 8 = leBytes 8 (s.word .GLB_ID 0 0).toNat ∧ (body.drop 8).take 8 = leBytes 8 (s.word .RTE_SERIAL 0 0).toNat ∧
      (body.drop 16).take 4 = leBytes 4 (s.rd F.SEC_BOOT_STATUS.fw_version 0 0) ∧
      (s.activeBank ≠ 3 → (body.drop 20).take 1 = leBytes 1 s.activeBank) ∧
      (body.drop 24).take 8 = leBytes 8 (s.word .GLB_MODULE_STATE 0 0).toNat ∧ s' = { s with regs := s'.regs, mbx := s'.mbx, fresh := s.fresh + 2 }) ∧
    (s.Legal c → c.code = 0x50 → c.len = 16 → 1 ≤ c.num 4 1 → c.num 4 1 ≤ 62 → c.zero 6 15 = true → ∀ rs first : List Rec,
      rs = (s.log.filter (fun r => decide (c.num 0 4 ≤ r.seq))).take (c.num 4 1) → first = rs.take 1 →
      (c.num 5 1 = 0 → ∃ s', exec (.logRead k) s = .next s' ∧ s'.log = s.log ∧
        s'.Posts c 0 (listHead ((first.map (·.seq)).headD (c.num 0 4)) (s.rd F.OBS_LOG_HEAD.next 0 0) rs.length ++ rs.flatMap Rec.bytes)) ∧
      (c.num 5 1 = 1 → ∃ (s' : State) (n : Nat) (items : List Byte), exec (.logRead k) s = .next s' ∧ s'.log = s.log ∧ n ≤ rs.length ∧
        s'.Posts c 0 (listHead ((first.map (·.seq)).headD (c.num 0 4)) (s.rd F.OBS_LOG_HEAD.next 0 0) n ++ items))) ∧
    (s.Legal c → c.code = 0x51 → c.len = 16 → 1 ≤ c.num 4 1 → c.num 4 1 ≤ 62 → c.zero 5 15 = true → ∀ es,
      es = (s.almanac.drop (c.num 0 4)).take (c.num 4 1) → ∃ s', exec (.almanacRead k) s = .next s' ∧ s'.almanac = s.almanac ∧
        s'.Posts c 0 (listHead (c.num 0 4) s.almanac.length es.length ++ es.flatMap Alm.bytes))) ∧
  (∀ (s : State) (p : Prog) (d i : Nat) (info : CmdInfo), s.prog = [p] → p.task = .fence d i → cmdInfo p.cmd.code = some info →
    p.cmd.taken + info.bound ≤ s.cycle → s.owner (p.cmd.k + 4) = 0 → Mem.wf 0 s.mbx = true →
    ∃ s', exec (.commandTimeout p.cmd.k) s = .next s' ∧ s'.prog = [] ∧ s'.Replied p.cmd 7 [] ∧ s'.tiles = s.tiles)

/-- R403 to R412, R441 and R442, the module's configuration, firmware and content: HOLD darkens every port and gives HELD without an EID, RELEASE
gives READY if the active bank is valid; CONFIG_SELECT makes a valid bank the active one; CONFIG_WRITE, FW_UPDATE and TEST_CONTENT write
their chunk (after an erase with the first), and the last one answers DONE only if bank or image is valid, which names the firmware slot
that boots next or marks the content slot; RAISE_FLOOR raises the fused floor to the running firmware's number, in READY alone.

Model's choices it rests on: log entries 47, 51. -/
def Obligations.ConfigurationAndImages : Prop :=
  ∀ (s : State) (k : Nat) (c : Cmd), s.Offers k c → s.Legal c → s.replies = [] → Mem.wf 0xFF s.flash = true →
    (c.code = 0x11 → c.len = 0 → s.startPending = false → ∃ s', exec (.hold k) s = .next s' ∧ s'.Posts c 0 [] ∧ s'.st = .held ∧
      s'.rd F.RTE_SELF.eid_valid 0 0 = 0 ∧ s'.tiles = s.tiles ∧ ∀ n, n < 16 → (s.port n).st ≠ .dark → (s'.port n).darkNotice = true) ∧
    (c.code = 0x12 → c.len = 0 → (s.bankReady = true → ∃ s', exec (.release k) s = .next s' ∧ s'.Posts c 0 [] ∧ s'.st = .ready) ∧
      (s.bankReady = false → ∃ s', exec (.release k) s = .next s' ∧ s'.Posts c 2 [] ∧ s'.st = s.st)) ∧
    (c.code = 0x20 → c.len = 16 → c.zero 1 15 = true → ∀ b, b < 2 → (c.num 0 1 = b ∨ (c.num 0 1 = 2 ∧ s.bankFail b = 0 ∧
        (s.bankFail (1 - b) = 0 → b = (if s.bankSeq 0 < s.bankSeq 1 then 1 else 0)))) →
      (s.bankFail b = 0 → ∃ s', exec (.configSelect k) s = .next s' ∧ s'.Posts c 0 [] ∧ s'.activeBank = b ∧ s'.bootSlot = s.bootSlot ∧
        s'.rd F.SEC_CFG_STATE.active 0 0 = b ∧ s'.flash = s.flash ∧ s'.st = s.st) ∧
      (s.bankFail b ≠ 0 → ∃ s', exec (.configSelect k) s = .next s' ∧ s'.Posts c 2 [] ∧ s'.boot = s.boot)) ∧
    (c.code = 0x20 → c.len = 16 → c.zero 1 15 = true → c.num 0 1 = 2 → s.bankFail 0 ≠ 0 → s.bankFail 1 ≠ 0 →
      ∃ s', exec (.configSelect k) s = .next s' ∧ s'.Posts c 2 [] ∧ s'.boot = s.boot) ∧
    (c.code = 0x21 → ∀ b, b < 2 → c.num 0 1 = b → b ≠ s.activeBank → chunkShape c 0x100000 = true → s.chunkHits b c = false →
      ∃ s', exec (.configWrite k) s = .next s' ∧ s.Written s' c (bankBase b) 0x100000 ∧
        s'.Posts c (if c.last = true ∧ s'.bankFail b ≠ 0 then 2 else 0) [] ∧ s'.boot = s.boot) ∧
    (c.code = 0x22 → c.num 0 1 = 0 → ∀ j, j = 1 - s.rd F.SEC_BOOT_STATUS.slot 0 0 → chunkShape c 0x1000000 = true → s.chunkHits (2 + j) c = false →
      ∃ s', exec (.fwUpdateWrite k) s = .next s' ∧ s.Written s' c (fwBase j) 0x1000000 ∧
        (c.last = false → s'.Posts c 0 [] ∧ s'.boot = s.boot) ∧
        (c.last = true → s'.fwFail j = 0 → s'.Posts c 0 [] ∧ s'.bootSlot = j ∧ s'.activeBank = s.activeBank) ∧
        (c.last = true → s'.fwFail j ≠ 0 → s'.Posts c 2 [] ∧ s'.boot = s.boot)) ∧
    (c.code = 0x22 → c.num 0 1 = 1 → 1 ≤ c.len →
      (s.st = .ready → ∃ s', exec (.fwUpdateRaiseFloor k) s = .next s' ∧ s'.Posts c 0 [] ∧ s'.rd F.SEC_FUSE.svn_floor 0 0 =
        if s.rd F.SEC_FUSE.svn_floor 0 0 < s.rd F.SEC_BOOT_STATUS.svn 0 0 then s.rd F.SEC_BOOT_STATUS.svn 0 0 % 2 ^ F.SEC_FUSE.svn_floor.width
        else s.rd F.SEC_FUSE.svn_floor 0 0) ∧
      (s.st ≠ .ready → ∃ s', exec (.fwUpdateRaiseFloor k) s = .next s' ∧ s'.Posts c 1 [] ∧
        s'.rd F.SEC_FUSE.svn_floor 0 0 = s.rd F.SEC_FUSE.svn_floor 0 0)) ∧
    (c.code = 0x41 → c.num 0 1 = 0 → ∀ j, j = 1 - s.rd F.ERR_CONTENT.slot 0 0 → chunkShape c 0x2000000 = true → s.chunkHits (4 + j) c = false →
      ∃ s', exec (.testContent k) s = .next s' ∧ s.Written s' c (contentBase j) 0x2000000 ∧
        (c.last = false → s'.Posts c 0 []) ∧ (c.last = true → s'.contentFail j = 0 → s'.Posts c 0 []) ∧
        (c.last = true → s'.contentFail j ≠ 0 → s'.Posts c 2 [] ∧ s'.rd F.ERR_STATUS.content_invalid 0 0 = 1))

/-- R16, R36 to R39, R108, R308, R332, R390, R473, R474, R502 and R518, the life of a job: START in JOINED with good payload, time, trees, channels and
place is accepted and pends (payload out of range, or a start too near, is BAD_ARGUMENT, and a pending start BUSY); the start cycle moves every released tile to RUNNING at its entry, and the module; a module that has left
JOINED drops the start. When no tile runs any more the module drains, or is fenced with cause 6 if a tile was; when the drain's
conditions hold it is JOINED without a job, and after 1 ms of drain it is fenced with cause 6.

Model's choices it rests on: log entries 45, 46. -/
def Obligations.JobLife : Prop :=
  (∀ (s : State) (k : Nat) (c : Cmd), s.Offers k c → s.Legal c → c.code = 0x10 → c.len = 16 → c.num 0 2 ≠ 0 → c.num 0 2 < 0xFFE → c.zero 2 7 = true →
    s.sidereal + 200000 ≤ c.num 8 8 →
    (s.timeSt ≠ 1 → s.timeSt ≠ 3 → s.timeSt ≠ 4 → s.holding = false → s.level = 0 → s.startPending = false →
      (s.treesOk = true → s.channelsOk = true → s.placeOk = true → ∃ s', exec (.start k) s = .next s' ∧ s'.Posts c 0 [] ∧
        s'.rd F.GLB_JOB.job 0 0 = c.num 0 2 ∧ s'.rd F.GLB_START.start 0 0 = c.num 8 8 ∧ s'.startPending = true ∧ s'.st = s.st ∧ s'.tiles = s.tiles) ∧
      (s.treesOk = false ∨ s.channelsOk = false → ∃ s', exec (.start k) s = .next s' ∧ s'.Posts c 2 [] ∧ s'.startPending = false ∧
        s'.tiles = s.tiles) ∧
      (s.treesOk = true → s.channelsOk = true → s.placeOk = false → ∃ s', exec (.start k) s = .next s' ∧ s'.Posts c 2 [] ∧
        s'.startPending = false ∧ s'.rd F.RTE_FLEET_STATUS.place_refused 0 0 = 1)) ∧
    (s.timeSt = 1 ∨ s.timeSt = 3 ∨ s.timeSt = 4 ∨ s.holding = true ∨ s.level ≠ 0 → ∃ s', exec (.start k) s = .next s' ∧ s'.Posts c 1 [] ∧
      s'.startPending = s.startPending ∧ s'.tiles = s.tiles) ∧
    (s.timeSt ≠ 1 → s.timeSt ≠ 3 → s.timeSt ≠ 4 → s.holding = false → s.level = 0 → s.startPending = true → ∃ s', exec (.start k) s = .next s' ∧
      s'.Posts c 3 [] ∧ s'.startPending = true ∧ s'.rd F.GLB_JOB.job 0 0 = s.rd F.GLB_JOB.job 0 0 ∧ s'.tiles = s.tiles)) ∧
  (∀ (s : State) (k : Nat) (c : Cmd), s.Offers k c → s.Legal c → c.code = 0x10 →
    (c.len ≠ 16 ∨ c.num 0 2 = 0 ∨ 0xFFE ≤ c.num 0 2 ∨ c.zero 2 7 = false ∨ c.num 8 8 < s.sidereal + 200000) →
    ∃ s', exec (.start k) s = .next s' ∧ s'.Posts c 2 [] ∧ s'.startPending = s.startPending ∧ s'.rd F.GLB_JOB.job 0 0 = s.rd F.GLB_JOB.job 0 0 ∧
      s'.tiles = s.tiles) ∧
  (∀ s : State, s.startPending = true → s.rd F.GLB_START.start 0 0 ≤ s.sidereal →
    (s.st = .joined → s.released.Nodup → (∀ t ∈ s.released, t < 2304) → ∃ s', exec .startCycle s = .next s' ∧ s'.st = .running ∧
      s'.startPending = false ∧ s'.rd F.GLB_MODULE_STATE.state 0 0 = 4 ∧ s'.rd F.GLB_JOB.job 0 0 = s.rd F.GLB_JOB.job 0 0 ∧
      (∀ t ∈ s.released, (s.seen t).st = .idle → (s'.tile t).st = .running ∧ (s'.tile t).seq.job = s.job) ∧
      (∀ t, t ∉ s.released → s'.tile t = s.tile t)) ∧
    (s.st ≠ .joined → ∃ s', exec .startCycle s = .next s' ∧ s'.startPending = false ∧ s'.rd F.GLB_JOB.job 0 0 = 0 ∧ s'.st = s.st ∧
      s'.tiles = s.tiles)) ∧
  (∀ s : State,
    (s.st = .running → s.allStopped = true → s.jobFenced = false → ∃ s', exec .jobDrainBegin s = .next s' ∧ s'.st = .draining ∧
      s'.drainBegan = s.cycle ∧ s'.tiles = s.tiles ∧ s'.rd F.GLB_JOB.job 0 0 = s.rd F.GLB_JOB.job 0 0) ∧
    (s.st = .running → s.allStopped = true → s.jobFenced = true → s.Unfenced → ∃ s', exec .jobDrainBegin s = .next s' ∧ s.FencedFor s' 6) ∧
    (s.st = .draining → s.quiet = true → ∃ s', exec .drainingEnd s = .next s' ∧ s'.st = .joined ∧ s'.rd F.GLB_JOB.job 0 0 = 0 ∧
      s'.rd F.GLB_START.start 0 0 = 0 ∧ s'.tiles = s.tiles) ∧
    (s.st = .draining → s.quiet = false → exec .drainingEnd s = .next s) ∧
    (s.st = .draining → s.drainBegan + 2000000 ≤ s.cycle → s.Unfenced → ∃ s', exec .drainingTimeout s = .next s' ∧ s.FencedFor s' 6))

/-- R457 to R465 and Tables 14-1 and 14-2, resets: RESET takes its domain's units out of service (a tile OFFLINE, a channel in self-refresh, a port
DARK, the module DARK) in the states that allow it and is answered when the reset is done, which releases the tile, reactivates the
channel; a reset not done in its bound escalates to the enclosing domain, with a count and a record, and a module's leaves it dark.
A tile found dead in its die's reset is retired, once; its column, if it is the first of it to fail, changes
when every tile of it is still: the tiles beyond it move one place on.

Model's choices it rests on: log entries 53, 55, 71. -/
def Obligations.ResetsAndRetirement : Prop :=
  (∀ (s : State) (k i : Nat) (c : Cmd), s.Offers k c → s.Legal c → c.code = 0x30 → (∀ r ∈ s.resets, overlaps (c.num 0 1) i r.dom r.idx = false) →
    (c.names 1 i → (s.tile i).st = .idle ∨ (s.tile i).st = .fenced → (s.tile i).goAt = none → s.rd F.ERR_CTRL.history_mode 0 0 = 0 →
      ∃ s', exec (.resetTile k) s = .next s' ∧ s'.Taken c ∧ (s'.tile i).st = .offline ∧ (s'.tile i).spad = [] ∧
        (∀ u, u ≠ i → s'.tile u = s.tile u) ∧ s'.resets = s.resets ++ [⟨1, i, s.cycle, some c, 0⟩]) ∧
    (c.names 1 i → (s.tile i).st ≠ .idle → (s.tile i).st ≠ .fenced → ∃ s', exec (.resetTile k) s = .next s' ∧ s'.Posts c 1 [] ∧
      s'.tiles = s.tiles ∧ s'.resets = s.resets) ∧
    (c.names 2 i → s.st = .held ∨ s.st = .ready ∨ s.st = .joined ∨ s.st = .fenced → s.startPending = false → s.rd F.ERR_CTRL.history_mode 0 0 = 0 →
      ∃ s', exec (.resetDie k) s = .next s' ∧ s'.Taken c ∧ s'.resets = s.resets ++ [⟨2, i, s.cycle, some c, 0⟩] ∧
        (∀ t ∈ s.tiles.keys, t < 2304 → tileDie t = i → (s.tile t).st ≠ .retired → (s'.tile t).st = .offline) ∧
        (∀ t, tileDie t ≠ i → s'.tile t = s.tile t) ∧
        (∀ ch ∈ s.chans.keys, ch < 96 → ch / 24 = i → (s.chan ch).rd F.MEM_CH_STATE.train_fail 0 = 0 → (s'.chan ch).st = .selfRefresh)) ∧
    (c.names 3 i → s.st = .held ∨ s.st = .ready ∨ s.st = .joined ∨ s.st = .fenced → (s.chan i).rd F.MEM_CAL_CTRL.enable 0 = 0 ∨ (s.chan i).st = .fenced →
      (s.chan i).rd F.MEM_CH_STATE.train_fail 0 = 0 → ∃ s', exec (.resetChannel k) s = .next s' ∧ s'.Taken c ∧ (s'.chan i).st = .selfRefresh ∧
        (s'.chan i).mem = (s.chan i).mem ∧ (∀ ch, ch ≠ i → s'.chan ch = s.chan ch) ∧ s'.resets = s.resets ++ [⟨3, i, s.cycle, some c, 0⟩]) ∧
    (c.names 4 i → (s.port i).st ≠ .up → ∃ s', exec (.resetPort k) s = .next s' ∧ s'.Taken c ∧ s'.port i = Port.reset ∧
      (∀ n, n ≠ i → s'.port n = s.port n) ∧ s'.tiles = s.tiles ∧ s'.resets = s.resets ++ [⟨4, i, s.cycle, some c, 0⟩]) ∧
    (c.names 4 i → (s.port i).st = .up → ∃ s', exec (.resetPort k) s = .next s' ∧ s'.Posts c 1 [] ∧ s'.ports = s.ports) ∧
    (c.names 5 i → s.conj = none → s.adopt = none → ∃ s', exec (.resetObservatory k) s = .next s' ∧ s'.Taken c ∧ s'.replies = [] ∧
      (∀ p ∈ s'.prog, p.task = .reset) ∧ s'.tiles = s.tiles ∧ ∃ r, s'.resets.getLast? = some r ∧ r = ⟨5, 0, s.cycle, some c, 0⟩) ∧
    (c.names 6 i → ∃ s', exec (.resetModuleWarm k) s = .next s' ∧ s'.Taken c ∧ s'.st = .dark ∧ s'.rd F.GLB_JOB.job 0 0 = 0 ∧ s'.flits = [] ∧
      s'.landings = [] ∧ s'.inbox = [] ∧ s'.vcred = [] ∧ (s.tiles.keys = [] → s'.pkts = []) ∧ s'.ecl = [] ∧ (∀ n, n < 16 → (s'.port n).st = .dark) ∧ s'.flash = s.flash ∧ s'.resets = [⟨6, 0, s.cycle, some c, 0⟩])) ∧
  (∀ (s : State) (d i b : Nat) (c : Cmd) (bad : List Nat), s.resets = [⟨d, i, b, some c, 0⟩] → s.owner (c.k + 4) = 0 → Mem.wf 0 s.mbx = true →
    (d = 1 → i < 2304 → (s.tile i).st = .offline → s.ecl = [] → ∃ s', exec (.resetDone 1 i bad) s = .next s' ∧ s'.Replied c 0 [] ∧ s'.resets = [] ∧
      (s'.tile i).st = .idle ∧ (∀ u, u ≠ i → s'.tile u = s.tile u)) ∧
    (d = 3 → i < 96 → (s.chan i).st = .selfRefresh → ∃ s', exec (.resetDone 3 i bad) s = .next s' ∧ s'.Replied c 0 [] ∧ s'.resets = [] ∧
      (s'.chan i).st = .active) ∧
    (d = 4 → ∃ s', exec (.resetDone 4 i bad) s = .next s' ∧ s'.Replied c 0 [] ∧ s'.resets = [] ∧ s'.ports = s.ports) ∧
    (d = 4 → i < 16 → b + 200000 ≤ s.cycle → s.st ≠ .running → s.st ≠ .draining → s.startPending = false →
      ∃ (s' : State) (r : Rec), exec (.resetEscalation 4 i) s = .next s' ∧ s'.resets = [⟨6, 0, s.cycle, some c, 7⟩] ∧ r ∈ s'.recs ∧ r.kind = 0x62 ∧
        s'.rd F.RST_STATUS.escalated 0 0 = 1 ∧ s'.rd F.RST_ESC.to_warm 0 0 = min (s.rd F.RST_ESC.to_warm 0 0 + 1) 65535 ∧ s'.st = .dark) ∧
    (d = 1 → i < 2304 → b + 100000 ≤ s.cycle → s.st ≠ .running → s.st ≠ .draining → s.startPending = false →
      ∃ s', exec (.resetEscalation 1 i) s = .next s' ∧ s'.resets = [⟨2, tileDie i, s.cycle, some c, 7⟩] ∧
        s'.rd F.RST_ESC.to_die 0 0 = min (s.rd F.RST_ESC.to_die 0 0 + 1) 65535) ∧
    (d = 6 → b + 400000000 ≤ s.cycle → ∃ s', exec (.resetEscalation 6 i) s = .next s' ∧ s'.pwr.dead = true ∧ s'.pwr.faultN = false ∧
      s'.resets = [] ∧ s'.rd F.RST_ESC.to_dark 0 0 = min (s.rd F.RST_ESC.to_dark 0 0 + 1) 65535)) ∧
  (∀ (s : State) (t : Nat) (failed : Bool), s.mayRetire t = true → ∃ s', exec (.tileRetire t failed) s = .next s' ∧ (s'.tile t).st = .retired ∧
    (s'.tile t).vacant = true ∧ (∀ u, u ≠ t → s'.tile u = s.tile u) ∧ s'.rd F.RST_STATUS.retired 0 0 = 1 ∧
    (s.firstFailure t = true → s'.pendingRemap = s.pendingRemap ++ [t] ∧ s'.rd F.GLB_DIST_GEN.gen 0 0 = s.rd F.GLB_DIST_GEN.gen 0 0) ∧
    (s.firstFailure t = false → s'.pendingRemap = s.pendingRemap ∧
      s'.rd F.GLB_DIST_GEN.gen 0 0 = (s.rd F.GLB_DIST_GEN.gen 0 0 + 1) % 2 ^ 32 ∧ s'.rd F.RTE_FLEET_STATUS.proven 0 0 = 0) ∧
    (failed = true → s.physTile t ∈ s'.routerFailed)) ∧
  (∀ (s : State) (die col t : Nat), die < 4 → col < 24 → s.pendingRemap = [t] → tileColumn t = (die, col, edgeRow (t / 48)) →
    (s.columnStill die col = true → ∃ s', exec (.columnRemap die col) s = .next s' ∧ s'.pendingRemap = [] ∧
      s'.skip.get (die, col) 24 = edgeRow (t / 48) ∧
      s'.rd F.GLB_DIST_GEN.gen 0 0 = (s.rd F.GLB_DIST_GEN.gen 0 0 + 1) % 2 ^ 32 ∧ s'.rd F.RTE_FLEET_STATUS.proven 0 0 = 0 ∧
      (∀ e, e < 23 → s'.tile (columnTile die col e) = s.tile (columnTile die col (if e < edgeRow (t / 48) then e else e + 1))) ∧ (∀ u, (tileColumn u).1 ≠ die ∨ (tileColumn u).2.1 ≠ col → s'.tile u = s.tile u)) ∧
    (s.columnStill die col = false → exec (.columnRemap die col) s = .next s))

/-- R440 and R466 to R472, eclipses: FENCE of a tile, die, channel or of the module fences the units of its scope that are IDLE, RUNNING or ACTIVE, is
recorded, and is answered when its drain ends (at once if the unit is eclipsed already); 100 µs after it began the requests still
queued are refused and the drain has ended. UNFENCE, after the module's drain, ends every eclipse and the job and gives JOINED, or READY
without an EID.

Model's choices it rests on: log entry 54. -/
def Obligations.Eclipses : Prop :=
  (∀ (s : State) (k i : Nat) (c : Cmd), s.Offers k c → s.Legal c → c.code = 0x31 →
    (∀ e ∈ [(1, Instr.fenceTile k), (2, .fenceDie k), (3, .fenceChannel k), (6, .fenceModule k)], c.names e.1 i → s.eclipsed e.1 i = true →
      ∃ s', exec e.2 s = .next s' ∧ s'.Posts c 0 [] ∧ s'.tiles = s.tiles ∧ s'.chans = s.chans ∧ s'.ecl = s.ecl) ∧
    (c.names 1 i → s.eclipsed 1 i = false → ∃ (s' : State) (r : Rec), exec (.fenceTile k) s = .next s' ∧ s'.Taken c ∧
      ((s.seen i).st = .idle ∨ (s.seen i).st = .running → (s'.tile i).st = .fenced ∧ (s'.tile i).rd F.TIL_STOP.stop_reason 0 = 4) ∧
      (∀ u, u ≠ i → s'.tile u = s.tile u) ∧ s'.ecl = s.ecl ++ [⟨1, i, s.cycle, false⟩] ∧ s'.prog = s.prog ++ [⟨c, .fence 1 i⟩] ∧
      s'.recs.getLast? = some r ∧ r.kind = 0x61) ∧
    (c.names 2 i → s.eclipsed 2 i = false → ∃ s', exec (.fenceDie k) s = .next s' ∧ s'.Taken c ∧
      (∀ t ∈ s.tiles.keys, t < 2304 → tileDie t = i → (s'.tile t).st ≠ .idle ∧ (s'.tile t).st ≠ .running) ∧
      (∀ ch ∈ s.chans.keys, ch < 96 → ch / 24 = i → (s'.chan ch).st ≠ .active) ∧ bits (s'.rd F.RST_FENCE.dies 0 0) i 1 = 1 ∧
      (∀ t, tileDie t ≠ i → s'.tile t = s.tile t) ∧ s'.ecl = s.ecl ++ [⟨2, i, s.cycle, false⟩] ∧ s'.prog = s.prog ++ [⟨c, .fence 2 i⟩]) ∧
    (c.names 3 i → s.eclipsed 3 i = false → ∃ s', exec (.fenceChannel k) s = .next s' ∧ s'.Taken c ∧
      ((s.chan i).st = .active → s'.chan i = { s.chanSeen i with st := .fenced, eclipsedAt := some s.cycle }) ∧
      (∀ ch, ch ≠ i → s'.chan ch = s.chan ch) ∧ s'.tiles = s.tiles ∧ s'.ecl = s.ecl ++ [⟨3, i, s.cycle, false⟩]) ∧
    (c.names 6 i → s.eclipsed 6 i = false → s.Unfenced → ∃ s', exec (.fenceModule k) s = .next s' ∧ s'.Taken c ∧ s'.st = .fenced ∧
      s'.rd F.RST_FENCE.module 0 0 = 1 ∧ s'.rd F.RST_FENCE.cause 0 0 = 5 ∧ s'.abortAt = some s.cycle ∧ s'.tiles = s.tiles ∧
      s'.prog = s.prog ++ [⟨c, .fence 6 i⟩])) ∧
  (∀ (s : State) (k : Nat) (c : Cmd), s.Offers k c → s.Legal c → c.code = 0x32 → c.len = 0 → s.rd F.ERR_CTRL.history_mode 0 0 = 0 →
    (∀ e ∈ s.ecl, e.dom = 6 → e.drained = true) → ∃ s', exec (.unfence k) s = .next s' ∧ s'.ecl = [] ∧ s'.Taken c ∧
      s'.rd F.RST_FENCE.module 0 0 = 0 ∧ s'.rd F.RST_FENCE.cause 0 0 = 0 ∧ s'.rd F.GLB_JOB.job 0 0 = 0 ∧
      (s'.st = if s.rd F.RTE_SELF.eid_valid 0 0 = 0 then .ready else .joined) ∧ ∀ t ∈ s.tiles.keys, t < 2304 → (s'.tile t).st ≠ .fenced) ∧
  (∀ (s : State) (d i b : Nat) (c : Cmd), s.ecl = [⟨d, i, b, false⟩] → b + 200000 ≤ s.cycle → s.prog = [⟨c, .fence d i⟩] → s.owner (c.k + 4) = 0 →
    Mem.wf 0 s.mbx = true → ∃ s', exec (.eclipseDrainEnd d i) s = .next s' ∧ s'.ecl = [⟨d, i, b, true⟩] ∧ s'.prog = [] ∧ s'.Replied c 0 [] ∧
      ∀ ch ∈ s.chans.keys, ch < 96 → hasChan d i ch = true → (s.chan ch).st = .fenced → (s'.chan ch).queue = []) ∧
  (∀ (s : State) (d i b : Nat), s.ecl = [⟨d, i, b, false⟩] → s.cycle < b + 200000 → exec (.eclipseDrainEnd d i) s = .next s)

/-- R424 to R427, R429, R451 and R452, records and the almanac: a record reaches the queue after the earlier ones of its unit, before
those of this Observatory cycle that come after it by die, tile and unit type, and is dropped and counted while the queue holds 512; the oldest is merged into a matching one of the last 64, or written with the next number, the oldest
of 8,192 giving way, and one with a repeat class also waits for the almanac; a checksum failure is answered with its status bit, an urgent
window and the fence that ERR_CTRL asks for; the almanac merges a transient fault of its unit within an hour, else appends.

Model's choices it rests on: log entries 59, 75. -/
def Obligations.RecordsAndAlmanac : Prop :=
  (∀ (s : State) (n : Nat) (r : Rec), s.recs[n]? = some r → (∀ e ∈ s.recs.take n, e.unit ≠ r.unit) →
    (s.logQ.length < 512 → ∃ (s' : State) (m : Nat) (a b : List Rec), exec (.errorRecordArrival n) s = .next s' ∧
      m = (if s.logNew.1 = s.cycle / 4 then min s.logNew.2 s.logQ.length else 0) ∧
      s.logQ.drop (s.logQ.length - m) = a ++ b ∧ (∀ e ∈ a, r.before e = false) ∧ (∀ e, b.head? = some e → r.before e = true) ∧
      s' = { s with recs := s.recs.eraseIdx n, logQ := s.logQ.take (s.logQ.length - m) ++ a ++ r :: b, logNew := (s.cycle / 4, m + 1) }) ∧
    (512 ≤ s.logQ.length → ∃ s', exec (.errorRecordArrival n) s = .next s' ∧ s' = { s with recs := s.recs.eraseIdx n, regs := s'.regs } ∧
      s'.rd F.OBS_LOG_HEAD.dropped 0 0 = min (s.rd F.OBS_LOG_HEAD.dropped 0 0 + 1) (2 ^ F.OBS_LOG_HEAD.dropped.width - 1) ∧
      s'.rd F.ERR_STATUS.log_dropped 0 0 = 1)) ∧
  (∀ (s : State) (r : Rec) (rest : List Rec), s.logQ = r :: rest →
    ((∀ e ∈ s.log.reverse.take 64, r.matches e = false) → ∃ (s' : State) (w : Rec), exec .logWrite s = .next s' ∧ s'.logQ = rest ∧
      s'.log = (if 8192 ≤ s.log.length then s.log.drop 1 else s.log) ++ [w] ∧ w = { r with seq := s.rd F.OBS_LOG_HEAD.next 0 0, flags := w.flags } ∧
      s'.rd F.OBS_LOG_HEAD.next 0 0 = (s.rd F.OBS_LOG_HEAD.next 0 0 + 1) % 2 ^ 32 ∧ (r.rept = 0 → s'.almQ = s.almQ ∧ w.flags = r.flags) ∧
      (r.rept ≠ 0 → s.almQ.length < 1024 → w.flags / 4 % 2 = 1 ∧ ∃ a, s'.almQ = s.almQ ++ [a] ∧ a.typ = 1 ∧ a.unit = r.unit ∧ a.kind = r.kind)) ∧
    (∀ e, (s.log.reverse.take 64).find? (Rec.matches r) = some e → exec .logWrite s = .next { s with
      logQ := rest, log := s.log.map (fun x => if x = e then { x with count := min (x.count + 1) 0xFFFF } else x) })) ∧
  (∀ (s : State) (t : Nat), t ∈ s.chk →
    (s.rd F.ERR_CTRL.checksum_action 0 0 = 0 → ∃ s', exec (.checksumResponse t) s = .next s' ∧ s'.chk = s.chk.filter (· != t) ∧ s'.st = s.st ∧
      s'.rd F.ERR_STATUS.checksum 0 0 = 1 ∧ (t ∈ s'.urgent ∨ t ∈ s'.saves)) ∧
    (s.rd F.ERR_CTRL.checksum_action 0 0 = 1 → s.Unfenced → ∃ s', exec (.checksumResponse t) s = .next s' ∧ s'.chk = s.chk.filter (· != t) ∧
      s'.st = .fenced ∧ s'.rd F.RST_FENCE.cause 0 0 = 6 ∧ s'.rd F.ERR_STATUS.checksum 0 0 = 1)) ∧
  (∀ (s : State) (a : Alm) (rest : List Alm), s.almQ = a :: rest →
    ((∀ e ∈ s.almanac, a.merges e = false) → s.almanac.length < almCap →
      exec .almanacAppend s = .next { s with almQ := rest, almanac := s.almanac ++ [a] }) ∧
    (∀ e, s.almanac.reverse.find? (Alm.merges a) = some e → exec .almanacAppend s = .next { s with
      almQ := rest, almanac := s.almanac.map (fun x => if x = e then { x with count := min (x.count + a.count) 0xFFFF } else x) }))

/-- R195, R430, R431, R435 to R440, transits: a tile that is due gets a window once a save slot is free, or, IDLE, starts its transit at
once; a RUNNING one enters TRANSIT from its TRNS with all slots at rest; a kernel that fails gives a record and the class of its repeats, permanent if
a repeat fails too, and an urgent transit also classifies its checksum failure; 200,000
cycles after it began the tile returns to IDLE or RUNNING, or is FENCED after a permanent failure, and the transit counts.

R443 to R449, tests of scratchpads and tiles: a region test of an IDLE or RUNNING tile starts once in an interval, is redirected when its 64
lines are copied and no atomic is pending on it, and ends: a clean region is restored, a transient failure is recorded and the region
restored, a permanent one is recorded with a spare column and the region held, or, without a spare, with the tile fenced; one that takes
longer than the interval is abandoned and counted. SELF_TEST answers with its counts, and fences a tile with a permanent fault.

Model's choices it rests on: log entries 56, 57, 58. -/
def Obligations.TransitsAndSelfTest : Prop :=
  ((∀ (s : State) (t d : Nat), t < 2304 → (s.tile t).vacant = false → (s.tile t).st = .running → s.rd F.ERR_CTRL.transit_en 0 0 = 1 → s.st ≠ .dark →
    s.lastDue t = some d → s.dueAt.find t = none → s.due = [] → s.urgent = [] → s.windows = [] → s.saves = [] → s.conj = none →
    1 ≤ s.rd F.ERR_TRANSIT_CFG.max_open 0 0 → exec (.transitDue t) s = .next { s with windows := [t], dueAt := s.dueAt.set t d }) ∧
  (∀ (s : State) (t d : Nat), t < 2304 → (s.tile t).vacant = false → (s.tile t).st = .idle → s.rd F.ERR_CTRL.transit_en 0 0 = 1 → s.st ≠ .dark →
    s.lastDue t = some d → s.dueAt.find t = none → s.due = [] → s.urgent = [] → s.windows = [] → s.saves = [] → s.startPending = false →
    s.conj = none → s.adopt = none → 1 ≤ s.rd F.ERR_TRANSIT_CFG.max_open 0 0 → ∃ s', exec (.transitDue t) s = .next s' ∧
      (s'.tile t).st = .transit ∧ s'.saves = [t] ∧ s'.windows = [] ∧ s'.due = [] ∧ s'.dueAt = s.dueAt.set t d ∧
      ∀ u, u ≠ t → s'.tile u = s.tile u) ∧
  (∀ (s : State) (t : Nat) (rd : BitVec 5), t < 2304 → (s.tile t).st = .running → (s.tile t).seq.blk = some ⟨.transit, rd⟩ →
    (s.tile t).seq.sinceCycle < s.cycle → t ∈ s.windows → (s.tile t).slotsAll (fun x => x.st.atRest) = true →
    (s.tile t).fusedAll (fun x => !x.busy) = true → ∃ (s' : State) (x : TransitSt), exec (.transitEnter t) s = .next s' ∧ (s'.tile t).st = .transit ∧
      (s'.tile t).transit = some x ∧ x.began = s.cycle ∧ x.cls = 0 ∧ x.urgent = s.urgent.contains t ∧ t ∈ s'.saves ∧ t ∉ s'.windows ∧
      ∀ u, u ≠ t → s'.tile u = s.tile u) ∧
  (∀ (s : State) (t k : Nat) (e g : Word) (x : TransitSt) (a b : Bool), t < 2304 → (s.tile t).st = .transit → (s.tile t).transit = some x → x.cls = 0 →
    x.began + 128193 ≤ s.cycle →
    (x.urgent = true → ∃ (s' : State) (r : Rec), exec (.transitClassify t k e g [false, a, b]) s = .next s' ∧
      (s'.tile t).transit = some { x with cls := 1 } ∧ s.Reports s' r ∧ r.kind = 0x52 ∧ r.rept = 1 ∧ s'.rd F.ERR_TILE_TEST.last 0 t = 1) ∧
    (x.urgent = true → ∃ (s' : State) (q : VPkt) (r : Rec), exec (.transitClassify t k e g [true, a, b]) s = .next s' ∧
      (s'.tile t).transit = some { x with cls := 3 } ∧ s'.pkts.getLast? = some q ∧ q.rec_ = some r ∧ r.kind = 0x52 ∧ r.rept = 2 ∧
      s'.rd F.ERR_TILE_TEST.last 0 t = 3 ∧ s'.rd F.ERR_STATUS.kat_fail 0 0 = 1) ∧
    (x.urgent = false → ∃ s', exec (.transitClassify t k e g [false, a, b]) s = .next s' ∧ (s'.tile t).transit = some { x with cls := 1 } ∧
      s'.recs = s.recs ∧ s'.pkts = s.pkts ∧ s'.rd F.ERR_TILE_TEST.last 0 t = 1) ∧
    (x.urgent = false → ∃ (s' : State) (r : Rec), exec (.transitClassify t k e g [true, a, b]) s = .next s' ∧ s.Reports s' r ∧ r.kind = 0x50 ∧ r.s1 = e ∧
      r.s0 = BitVec.ofNat 64 k ∧
      r.s2 = g ∧ r.rept = (if a || b then 2 else 1) ∧ s'.rd F.ERR_TILE_TEST.last 0 t = (if a || b then 3 else 2) ∧
      s'.rd F.ERR_STATUS.kat_fail 0 0 = 1 ∧ (s'.tile t).transit = some { x with cls := if a || b then 3 else 2 })) ∧
  (∀ (s : State) (t : Nat) (x : TransitSt), t < 2304 → (s.tile t).st = .transit → (s.tile t).transit = some x → x.cls ≠ 0 → x.began + 200000 ≤ s.cycle →
    t ∉ s.due → t ∉ s.urgent → ∃ s', exec (.transitEnd t) s = .next s' ∧ t ∉ s'.saves ∧
      (s'.tile t).st = (if x.cls = 3 then .fenced else if x.from_ = .running then .running else .idle) ∧ (s'.tile t).transit = none ∧
      s'.rd F.ERR_TRANSIT_STATE.completed 0 0 = (s.rd F.ERR_TRANSIT_STATE.completed 0 0 + 1) % 2 ^ F.ERR_TRANSIT_STATE.completed.width)) ∧
((∀ (s : State) (t : Nat), t < 2304 → (s.tile t).vacant = false → (s.tile t).st = .idle ∨ (s.tile t).st = .running → s.rd F.ERR_CTRL.bg_enable 0 0 = 1 →
    s.bg.find t = none →
    ((∀ a, s.bgAt.find t = some a → a + s.rd F.ERR_BG_CFG.interval 0 0 ≤ s.cycle) → exec (.bgRegionStart t) s =
      .next { s with bg := s.bg.set t ⟨s.bgNext.get t 0, s.cycle, 0, false, none, false⟩, bgAt := s.bgAt.set t s.cycle }) ∧
    (∀ a, s.bgAt.find t = some a → s.cycle < a + s.rd F.ERR_BG_CFG.interval 0 0 → exec (.bgRegionStart t) s = .next s)) ∧
  (∀ (s : State) (t : Nat) (b : BgTest), s.bg.find t = some b →
    (b.redirected = false → b.copied = 64 → s.atomicPending t b.region = false →
      exec (.bgRedirect t) s = .next { s with bg := s.bg.set t { b with redirected := true } }) ∧
    (b.redirected = true ∨ b.copied ≠ 64 ∨ s.atomicPending t b.region = true → exec (.bgRedirect t) s = .next s) ∧
    (b.redirected = true → b.restored = none → b.held = false →
      exec (.bgMarchEnd t none []) s = .next { s with bg := s.bg.set t { b with restored := some 0 } } ∧
      (∀ a bit e g sub, a / 4096 = b.region → a % 4 = 0 → bit < 32 → sub = bits (scratchWord a bit).toNat 8 6 →
        (∃ (s' : State) (r : Rec), exec (.bgMarchEnd t (some (a, bit, e, g)) [false, false]) s = .next s' ∧
          s'.bg.find t = some { b with restored := some 0 } ∧ s.Reports s' r ∧ r.kind = 0x51 ∧ r.rept = 1 ∧ r.s2 = e ∧ r.s3 = g ∧
          s'.rd F.ERR_STATUS.bg_fail 0 0 = 1 ∧ s'.tiles = s.tiles) ∧
        (((s.repairs ++ s.newRepairs).filter (fun r => r.1 == t && r.2.1 == sub)).length < 4 →
          ∃ (s' : State) (r : Rec), exec (.bgMarchEnd t (some (a, bit, e, g)) [true, false]) s = .next s' ∧ s'.bg.find t = some { b with held := true } ∧
            s'.newRepairs = s.newRepairs ++ [(t, sub, bits (scratchWord a bit).toNat 16 7)] ∧ s.Reports s' r ∧ r.kind = 0x51 ∧ r.rept = 2 ∧
            s'.rd F.ERR_STATUS.repair 0 0 = 1 ∧ s'.tiles = s.tiles) ∧
        (4 ≤ ((s.repairs ++ s.newRepairs).filter (fun r => r.1 == t && r.2.1 == sub)).length → t < 2304 →
          ((s.seen t).st = .idle ∨ (s.seen t).st = .running) → ∃ s', exec (.bgMarchEnd t (some (a, bit, e, g)) [true, false]) s = .next s' ∧
            s'.bg.find t = none ∧ s'.newRepairs = s.newRepairs ∧ (s'.tile t).st = .fenced ∧
            (s'.tile t).rd F.TIL_STOP.stop_reason 0 = 5 ∧ ∀ u, u ≠ t → s'.tile u = s.tile u))) ∧
    (b.held = false → b.began + s.rd F.ERR_BG_CFG.interval 0 0 ≤ s.cycle → ∃ s', exec (.bgRegionAbandon t) s = .next s' ∧ s'.bg.find t = none ∧
      s'.rd F.ERR_BG_STATE.abandoned 0 0 = min (s.rd F.ERR_BG_STATE.abandoned 0 0 + 1) (2 ^ F.ERR_BG_STATE.abandoned.width - 1))) ∧
  (∀ (s : State) (k : Nat) (c : Cmd) (ts : List Nat), s.Offers k c → s.Legal c → c.code = 0x40 → c.len = 16 → c.num 0 1 < 4 → c.zero 4 15 = true →
    c.num 2 2 < (match c.num 1 1 with | 0 => 1 | 1 => 4 | 2 => 2304 | _ => 0) → s.startPending = false →
    ts = (selfScope c).filter (fun t => (s.tile t).st == .idle && !(s.tile t).vacant) →
    (∃ s', exec (.selfTest k []) s = .next s' ∧ s'.tiles = s.tiles ∧ s'.Posts c 0 (leBytes 2 ts.length ++ leBytes 2 ts.length ++ leBytes 2 0 ++
      leBytes 2 0 ++ leBytes 2 ((selfScope c).length - ts.length) ++ leBytes 2 0 ++ leBytes 4 0)) ∧
    (∀ t x, t ∈ ts → (s.tile t).goAt = none → (({ s with fresh := s.fresh + 3 } : State).seen t).st = .idle → bits (c.num 0 1) 1 1 = 1 → s.newRepairs = [] → ∃ s', exec (.selfTest k [(t, 2, x)]) s = .next s' ∧
      s'.rd F.ERR_STATUS.kat_fail 0 0 = 1 ∧ (s'.tile t).st = .fenced ∧ s'.Posts c 0 (leBytes 2 ts.length ++ leBytes 2 (ts.length - 1) ++ leBytes 2 0 ++
        leBytes 2 1 ++ leBytes 2 ((selfScope c).length - ts.length) ++ leBytes 2 0 ++ leBytes 4 0))))

/-- R475 to R483, the wait-graph detector: in each of its evaluations the set of tiles whose waits nothing can end is found; found a second
time with the same waits it is reported, with its kind, members and first tile, a record and the status bit, and the module is fenced with
cause 3 if RST_HANG_CFG asks for it while RUNNING, or the set's tiles are. A lattice's hang flag is reported at once, and a RUNNING module all of
whose tiles have waited for longer than the threshold, in two evaluations the same, as kind ALL. Otherwise nothing is reported.

Model's choices it rests on: log entries 60, 61. -/
def Obligations.HangDetector : Prop :=
  ∀ s : State, s.rd F.RST_HANG_CFG.enable 0 0 = 1 → s.rd F.RST_HANG_CFG.interval 0 0 ≠ 0 → s.sidereal % (s.rd F.RST_HANG_CFG.interval 0 0 * 256) = 0 →
    s.sidereal ≠ s.det.last → s.st ≠ .dark →
    ((∀ t, t < 2304 → (s.pub t).hang = false) → s.rd F.RST_HANG_CFG.all_threshold 0 0 = 0 →
      (s.hungSet = [] → ∃ s', exec .hangEvaluation s = .next s' ∧ s' = { s with regs := s'.regs, det := s'.det } ∧ s'.det.last = s.sidereal ∧
        s'.rd F.RST_HANG_COUNT.evaluations 0 0 = (s.rd F.RST_HANG_COUNT.evaluations 0 0 + 1) % 2 ^ F.RST_HANG_COUNT.evaluations.width ∧
        s'.rd F.RST_HANG_REPORT.kind 0 0 = s.rd F.RST_HANG_REPORT.kind 0 0) ∧
      (∀ t r, s.hungSet = t :: r → (t :: r).map (fun u => (s.pub u).key u) = s.det.found → s.det.told = [] →
        (s.rd F.RST_HANG_CFG.action 0 0 = 0 → ∃ (s' : State) (q : Rec), exec .hangEvaluation s = .next s' ∧ s'.st = s.st ∧ s'.tiles = s.tiles ∧
          s'.recs = s.recs ++ [q] ∧ q.kind = 0x60 ∧ s'.rd F.RST_HANG_REPORT.kind 0 0 = s.hungKind (t :: r) ∧
          s'.rd F.RST_HANG_REPORT.members 0 0 = (r.length + 1) % 4096 ∧ s'.rd F.RST_HANG_REPORT.first 0 0 = t % 4096 ∧ s'.rd F.RST_STATUS.hang 0 0 = 1 ∧
          ∀ u, u < 2304 → (bits (s'.rd F.RST_HANG_SET.member 0 (u / 64)) (u % 64) 1 = 1 ↔ u ∈ t :: r)) ∧
        (s.rd F.RST_HANG_CFG.action 0 0 = 1 → s.st = .running → s.Unfenced → ∃ s', exec .hangEvaluation s = .next s' ∧ s.FencedFor s' 3 ∧
          s'.rd F.RST_STATUS.hang 0 0 = 1) ∧
        (s.rd F.RST_HANG_CFG.action 0 0 = 2 → s.ecl = [] → r = [] → ((s.seen t).st = .running ∨ (s.seen t).st = .idle) →
          ∃ s', exec .hangEvaluation s = .next s' ∧ s'.st = s.st ∧ (s'.tile t).st = .fenced ∧ s'.ecl = [⟨1, t, s.cycle, false⟩] ∧
          (∀ u, u ≠ t → s'.tile u = s.tile u) ∧ s'.rd F.RST_STATUS.hang 0 0 = 1)) ∧
      (s.hungSet ≠ [] → s.det.found = [] → ∃ s', exec .hangEvaluation s = .next s' ∧ s'.recs = s.recs ∧ s'.st = s.st ∧
        s'.det.found = s.hungSet.map (fun u => (s.pub u).key u))) ∧
    (∀ t, t < 2304 → s.hungSet = [] → s.rd F.RST_HANG_CFG.all_threshold 0 0 = 0 → s.rd F.RST_HANG_CFG.action 0 0 = 0 →
      (∀ u, u < 2304 → ((s.pub u).hang = true ↔ u = t)) → t ∉ s.det.lattice → ∃ (s' : State) (q : Rec), exec .hangEvaluation s = .next s' ∧
        s'.recs = s.recs ++ [q] ∧ q.kind = 0x60 ∧ s'.rd F.RST_HANG_REPORT.kind 0 0 = 4 ∧ s'.rd F.RST_HANG_REPORT.members 0 0 = 1 ∧
        s'.rd F.RST_HANG_REPORT.first 0 0 = t ∧ s'.rd F.RST_STATUS.hang 0 0 = 1 ∧ s'.tiles = s.tiles) ∧
    (∀ run, run = allTiles.filter (fun t => !(s.tile t).vacant && (s.pub t).st == .running) → run ≠ [] → s.st = .running → s.hungSet = [] →
      (∀ t, t < 2304 → (s.pub t).hang = false) → s.rd F.RST_HANG_CFG.action 0 0 = 0 → s.rd F.RST_HANG_CFG.all_threshold 0 0 ≠ 0 →
      (∀ t ∈ run, (s.pub t).kind ≠ 0 ∧ (s.pub t).kind ≠ 5 ∧ (s.pub t).kind ≠ 0xA ∧
        s.rd F.RST_HANG_CFG.all_threshold 0 0 * 256 < (s.sidereal + 2 ^ 32 - (s.pub t).since) % 2 ^ 32) →
      s.det.all = run.map (fun t => (s.pub t).key t) → s.det.toldAll = [] → ∃ (s' : State) (q : Rec), exec .hangEvaluation s = .next s' ∧
        s'.recs = s.recs ++ [q] ∧ q.kind = 0x60 ∧ s'.rd F.RST_HANG_REPORT.kind 0 0 = 3 ∧
        s'.rd F.RST_HANG_REPORT.members 0 0 = run.length % 4096 ∧ s'.rd F.RST_STATUS.hang 0 0 = 1 ∧ s'.tiles = s.tiles)

/-- R489 to R492, a conjunction: with its checks met (a scan-tainted module answers DENIED) the module takes job 0xFFF and barrier index 31
with the partner, as root or child; at the start cycle its IDLE tiles run the kernels; a partner that is lost, or a release that does not
come, ends it with SOURCE_LOST and conj_fail; the last episode's release ends it with DONE and the counts, and proven is set where no
episode mismatched, conj_fail where one did.

R493 to R500, an adoption: the spare drains its ports, the source trains toward it; when every port is dark the spare takes the place's EID
and trains; at the deadline both go on with their ports UP or the command ends; the copy runs under job 0xFFE from the start cycle; equal
digests end it DONE, unequal ones ask for another attempt 2,000,000 cycles later (the spare records the mismatch), of three at most, and a
link or a source that is lost, or 2,000,000 cycles without a copy packet, end it with SOURCE_LOST; a port still UP 1 ms after the take ends
it with TIMEOUT, and the source keeps its port in training.

Model's choices it rests on: log entries 48, 70, 72, 84. -/
def Obligations.FleetCommands : Prop :=
  ((∀ (s : State) (k : Nat) (c : Cmd), s.Offers k c → s.Legal c → c.code = 0x60 →
    (s.tainted = true → ∃ s', exec (.conjunction k) s = .next s' ∧ s'.Posts c 8 [] ∧ s'.tiles = s.tiles ∧ s'.conj = s.conj) ∧
    (∀ e, conjArgs c s = e → e ≠ 0 → ∃ s', exec (.conjunction k) s = .next s' ∧ s'.Posts c e [] ∧ s'.tiles = s.tiles ∧ s'.conj = s.conj) ∧
    (∀ e, conjArgs c s = 0 → conjState c s = e → e ≠ 0 → ∃ s', exec (.conjunction k) s = .next s' ∧ s'.Posts c e [] ∧ s'.tiles = s.tiles ∧
      s'.conj = s.conj) ∧
    (conjArgs c s = 0 → conjState c s = 0 → ∃ (s' : State) (x : Conj), exec (.conjunction k) s = .next s' ∧ s'.Taken c ∧ s'.conj = some x ∧
      x.cmd = c ∧ x.role = c.num 0 1 ∧ x.port = c.num 1 1 ∧ x.episodes = c.num 2 2 ∧ x.start = c.num 16 8 ∧ x.running = false ∧ x.done = 0 ∧
      s'.prog = s.prog ++ [⟨c, .conjunction⟩] ∧ s'.rd F.GLB_JOB.job 0 0 = 0xFFF ∧ s'.rd F.RTE_GBAR.enable 0 31 = 1 ∧
      s'.rd F.RTE_GBAR.root 0 31 = 1 - c.num 0 1 ∧ s'.rd F.RTE_CONJ.matched 0 0 = 0 ∧ s'.rd F.RTE_CONJ.mismatched 0 0 = 0 ∧
      ∀ t, t < 2304 → (s'.tile t).st = (s.tile t).st)) ∧
  (∀ (s : State) (x : Conj), s.conj = some x →
    (x.running = false → x.start ≤ s.sidereal → ∃ s', exec .conjunctionStart s = .next s' ∧ s'.conj = some { x with running := true } ∧
      ∀ t ∈ s.tiles.keys, t < 2304 → (s.tile t).st = .idle → (s'.tile t).st = .running) ∧
    ((s.port x.port).st ≠ .up ∨ (x.running = true ∧ x.start + 500000 * (x.done + 2) ≤ s.sidereal) → s.prog = [⟨x.cmd, .conjunction⟩] →
      s.owner (x.cmd.k + 4) = 0 → Mem.wf 0 s.mbx = true → ∃ s', exec .conjunctionReleaseTimeout s = .next s' ∧ s'.conj = none ∧
        s'.rd F.RTE_FLEET_STATUS.conj_fail 0 0 = 1 ∧ s'.Replied x.cmd 5 [] ∧ s'.rd F.GLB_JOB.job 0 0 = 0) ∧
    ((s.port x.port).st = .up → x.running = false → exec .conjunctionReleaseTimeout s = .next s)) ∧
  (∀ (s : State) (n : Nat) (x : Conj), (s.barReleaseIn n).conj = some x → x.running = true → x.episodes ≤ x.done →
    (s.barReleaseIn n).prog = [⟨x.cmd, .conjunction⟩] → (s.barReleaseIn n).owner (x.cmd.k + 4) = 0 → Mem.wf 0 (s.barReleaseIn n).mbx = true →
    ∃ s', exec (.barReleaseReceive n) s = .next s' ∧ s'.conj = none ∧ s'.rd F.GLB_JOB.job 0 0 = 0 ∧
      s'.Replied x.cmd 0 (leBytes 2 ((s.barReleaseIn n).rd F.RTE_CONJ.matched 0 0) ++ leBytes 2 ((s.barReleaseIn n).rd F.RTE_CONJ.mismatched 0 0) ++
        leBytes 2 x.done ++ leBytes 10 0) ∧
      (if (s.barReleaseIn n).rd F.RTE_CONJ.mismatched 0 0 = 0 then s'.rd F.RTE_FLEET_STATUS.proven 0 0 = 1
       else s'.rd F.RTE_FLEET_STATUS.conj_fail 0 0 = 1))) ∧
((∀ (s : State) (k : Nat) (c : Cmd), s.Offers k c → s.Legal c → c.code = 0x61 → s.adopt = none →
    (∀ e ∈ [(0, Instr.adoptTake k), (1, .adoptSource k)], c.num 0 1 = e.1 →
      (s.tainted = true → ∃ s', exec e.2 s = .next s' ∧ s'.Posts c 8 [] ∧ s'.adopt = none) ∧
      (∀ e', adoptArgs c s = e' → e' ≠ 0 → ∃ s', exec e.2 s = .next s' ∧ s'.Posts c e' [] ∧ s'.adopt = none ∧ s'.ports = s.ports) ∧
      (∀ e', adoptArgs c s = 0 → adoptState c s = e' → e' ≠ 0 → ∃ s', exec e.2 s = .next s' ∧ s'.Posts c e' [] ∧ s'.adopt = none ∧
        s'.ports = s.ports)) ∧
    (c.num 0 1 = 0 → adoptArgs c s = 0 → adoptState c s = 0 → ∃ (s' : State) (a : Adopt), exec (.adoptTake k) s = .next s' ∧ s'.Taken c ∧
      s'.adopt = some a ∧ a.role = 0 ∧ a.step = 2 ∧ a.eid = c.num 2 2 ∧ a.start = c.num 16 8 ∧ s'.rd F.RTE_FLEET_STATUS.adopt_step 0 0 = 2 ∧
      s'.prog = s.prog ++ [⟨c, .adopt⟩] ∧
      ∀ n, n < 16 → (s.port n).st = .up → (s.port n).drainAt = none → (s'.port n).drainAt = some s.cycle ∧ (s'.port n).noticeOut = true) ∧
    (c.num 0 1 = 1 → adoptArgs c s = 0 → adoptState c s = 0 → ∃ (s' : State) (a : Adopt), exec (.adoptSource k) s = .next s' ∧ s'.Taken c ∧
      s'.adopt = some a ∧ a.role = 1 ∧ a.step = 4 ∧ a.partner = c.num 8 8 ∧ s'.rd F.RTE_FLEET_STATUS.adopt_step 0 0 = 4 ∧
      ((s.port (c.num 1 1)).st = .training → (s'.port (c.num 1 1)).darkNotice = true))) ∧
  (∀ (s : State) (a : Adopt), s.adopt = some a →
    (a.role = 0 → a.step = 2 → (∀ n, n < 16 → (s.port n).st = .dark) → ∃ s', exec .adoptPortsDrained s = .next s' ∧
      s'.rd F.RTE_SELF.eid 0 0 = a.eid % 2 ^ 14 ∧ s'.rd F.RTE_SELF.eid_valid 0 0 = 1 ∧ s'.adopt = some { a with step := 4 } ∧
      ∀ n, n < 16 → if a.lat.getD n 0 = 0 then (s'.port n).st = .dark else (s'.port n).st = .training ∧
        s'.rd F.FAB_PORT_CFG.latency n 0 = a.lat.getD n 0 % 2 ^ F.FAB_PORT_CFG.latency.width) ∧
    (a.role = 0 → a.step = 2 → (∀ n, n < 16 → (s.port n).st ≠ .up) → ∀ n, n < 16 → (s.port n).st ≠ .dark → ∃ s', exec .adoptPortsDrained s = .next s' ∧
      s'.adopt = some a ∧ (s'.port n).darkNotice = true) ∧
    (a.role = 0 → a.step = 2 → (∃ n, n < 16 ∧ (s.port n).st = .up) →
      (s.cycle < a.cmd.taken + 2000000 → exec .adoptPortsDrained s = .next s) ∧
      (a.cmd.taken + 2000000 ≤ s.cycle → a.attempt = 0 → s.prog = [⟨a.cmd, .adopt⟩] → s.owner (a.cmd.k + 4) = 0 → Mem.wf 0 s.mbx = true →
        ∃ s', exec .adoptPortsDrained s = .next s' ∧ s'.adopt = none ∧ s'.Replied a.cmd 7 [] ∧ s'.tiles = s.tiles ∧
          s'.rd F.RTE_SELF.eid 0 0 = s.rd F.RTE_SELF.eid 0 0)) ∧
    (∀ k, a.role = 1 → a.cmd.k = k → a.ready = false → s.fwRuns = true → a.port < 16 →
      (∀ r, r = s.rd F.FAB_PORT_STATE.down_reason a.port 0 → (s.port a.port).st = .dark ∨ ((s.port a.port).st = .down ∧ r ≠ 4) →
        ∃ s', exec (.adoptSource k) s = .next s' ∧ (s'.port a.port).st = .training ∧ s'.adopt = some a ∧
          s'.rd F.FAB_PORT_CFG.latency a.port 0 = a.lat.getD a.port 0 % 2 ^ F.FAB_PORT_CFG.latency.width) ∧
      ((s.port a.port).st = .up → exec (.adoptSource k) s = .next s)) ∧
    (a.role = 0 → a.ready = false → a.start ≤ s.sidereal + 400000 → a.step = 4 →
      (∀ n, n < 16 → a.lat.getD n 0 ≠ 0 → (s.port n).st = .up ∧ s.rd F.FAB_PORT_PARALLAX.latency n 0 = a.lat.getD n 0) →
      (s.timeSt = 2 ∨ s.role = 1) → exec .adoptPortDeadline s = .next { s with adopt := some { a with ready := true } }) ∧
    (a.role = 0 → a.ready = false → a.attempt = 0 → a.start ≤ s.sidereal + 400000 → (∃ n, n < 16 ∧ a.lat.getD n 0 ≠ 0 ∧ (s.port n).st ≠ .up) →
      (∀ n, n < 16 → (s.port n).st ≠ .down) → s.prog = [⟨a.cmd, .adopt⟩] → s.owner (a.cmd.k + 4) = 0 → Mem.wf 0 s.mbx = true →
      ∃ s', exec .adoptPortDeadline s = .next s' ∧ s'.adopt = none ∧ s'.Replied a.cmd 7 []) ∧
    (a.ready = true → a.next ≤ s.sidereal →
      (a.attempt = 0 → ∃ (s' : State) (b : Adopt), exec .adoptCopyStart s = .next s' ∧ s'.adopt = some b ∧ b.copying = true ∧ b.attempt = 1 ∧
        b.lastAt = s.cycle ∧ s'.rd F.GLB_JOB.job 0 0 = 0xFFE ∧ s'.rd F.RTE_ADOPT.lines_k 0 0 = 0) ∧
      (0 < a.attempt → a.copying = false → ∃ (s' : State) (b : Adopt), exec .adoptCopyRetry s = .next s' ∧ s'.adopt = some b ∧ b.copying = true ∧
        b.attempt = a.attempt + 1 ∧ b.lastAt = s.cycle ∧ s'.rd F.GLB_JOB.job 0 0 = 0xFFE)) ∧
    (∀ w own, a.copying = true → own = s.copyDigest (if a.role = 0 then a.dst else a.src) a.len →
      (own = w → s.prog = [⟨a.cmd, .adopt⟩] → s.owner (a.cmd.k + 4) = 0 → Mem.wf 0 s.mbx = true →
        ∃ s', exec (.adoptDigestCompare w) s = .next s' ∧ s'.adopt = none ∧ s'.Replied a.cmd 0 [] ∧ s'.rd F.GLB_JOB.job 0 0 = 0) ∧
      (own ≠ w → a.attempt < 3 → ∃ s', exec (.adoptDigestCompare w) s = .next s' ∧
        s'.adopt = some { a with copying := false, step := 6, next := s.sidereal + 2000000 } ∧
        (a.role = 0 → ∃ r, s'.recs = s.recs ++ [r] ∧ r.kind = 0x55 ∧ r.s0 = own ∧ r.s1 = w) ∧ (a.role ≠ 0 → s'.recs = s.recs)) ∧
      (own ≠ w → 3 ≤ a.attempt → s.prog = [⟨a.cmd, .adopt⟩] → s.owner (a.cmd.k + 4) = 0 → Mem.wf 0 s.mbx = true →
        ∃ s', exec (.adoptDigestCompare w) s = .next s' ∧ s'.adopt = none ∧ s'.Replied a.cmd 5 [] ∧ s'.rd F.GLB_JOB.job 0 0 = 0)) ∧
    (a.role = 0 → 0 < a.attempt → (s.port a.port).st ≠ .up → s.prog = [⟨a.cmd, .adopt⟩] → s.owner (a.cmd.k + 4) = 0 → Mem.wf 0 s.mbx = true →
      ∃ s', exec .adoptPacketGap s = .next s' ∧ s'.adopt = none ∧ s'.Replied a.cmd 5 [] ∧ s'.rd F.GLB_JOB.job 0 0 = 0) ∧
    (a.role = 0 → 0 < a.attempt → s.rd F.FAB_PORT_NBR_ID.fresh a.port 0 = 0 ∨ (a.copying = true ∧ a.lastAt + 2000000 ≤ s.cycle) →
      s.prog = [⟨a.cmd, .adopt⟩] → s.owner (a.cmd.k + 4) = 0 → Mem.wf 0 s.mbx = true →
      ∃ s', exec .adoptPacketGap s = .next s' ∧ s'.adopt = none ∧ s'.Replied a.cmd 5 [] ∧ (4 ≤ a.step → s'.rd F.RTE_SELF.eid_valid 0 0 = 0)) ∧
    (a.role ≠ 0 → a.ready = true → a.start ≤ s.sidereal → (s.port a.port).st ≠ .up → s.prog = [⟨a.cmd, .adopt⟩] →
      s.owner (a.cmd.k + 4) = 0 → Mem.wf 0 s.mbx = true →
      ∃ s', exec .adoptPacketGap s = .next s' ∧ s'.adopt = none ∧ s'.Replied a.cmd 5 [] ∧ s'.rd F.GLB_JOB.job 0 0 = 0) ∧
    (a.role = 0 → a.attempt = 0 → exec .adoptPacketGap s = .next s)))

/-- R398 to R402, R405 to R407, R413 to R421, boot, identity and scan: the boot sequence verifies a firmware slot, takes every good tile and channel into service
and gives READY, HELD with a hold bit or without a valid bank, or, without valid firmware, ROM recovery; SPDM answers version 1.2,
capabilities, algorithms, the chain's digest and the chain; an attestation uses the next index, once, and with a tainted module it is
denied, with an exhausted key it gets the statement of exhaustion; unsigned measurements are always given. A scan instruction taints the module, takes the identity seed away, and 20 µs later
the module is fenced with cause 6.

Model's choices it rests on: log entries 4, 14, 41, 49. -/
def Obligations.BootIdentityAndScan : Prop :=
  (∀ s : State, s.mayBoot = true →
    (∃ s', exec (.bootSequence 1 [] []) s = .next s' ∧ s'.st = .dark ∧ s'.pwr.faultN = false ∧ s'.bootReady = false ∧
      s'.rd F.SEC_BOOT_STATUS.stage 0 0 = 1) ∧
    (∀ k, (s.fwFail s.bootSlot = 0 ∧ k = s.bootSlot) ∨ (s.fwFail s.bootSlot ≠ 0 ∧ s.fwFail (1 - s.bootSlot) = 0 ∧ k = 1 - s.bootSlot) →
      s.bootSlot < 2 → s.tiles = .empty →
      ∃ s', exec (.bootSequence 0 [] []) s = .next s' ∧
        (∀ t, t < 2304 → (s'.tile t).st = if (s'.tile t).vacant then .retired else .idle) ∧
        (s.fusedDefects = [] → (∀ a ∈ s.almanac, a.typ ≠ 3) → ∀ t, t < 2304 → (s'.tile t).vacant = false) ∧
        (∀ ch, ch < 96 → (s'.chan ch).st = .active) ∧ s'.rd F.SEC_BOOT_STATUS.stage 0 0 = 6 ∧ s'.rd F.SEC_BOOT_STATUS.slot 0 0 = k ∧
        s'.rd F.PWR_CLK.refclk_ok 0 0 = 1 ∧ s'.rd F.MEM_GLB_ENABLE_LO.enable 0 0 = 2 ^ 64 - 1 ∧ s'.rd F.MEM_GLB_ENABLE_HI.enable 0 0 = 2 ^ 32 - 1 ∧
        (s'.st = if s.bankReady = true ∧ s.bankHold s.activeBank = false then .ready else .held)) ∧
    (s.fwFail 0 ≠ 0 → s.fwFail 1 ≠ 0 → s.bootSlot < 2 → ∃ s', exec (.bootSequence 0 [] []) s = .next s' ∧ s'.st = .held ∧
      s'.rd F.SEC_BOOT_STATUS.stage 0 0 = 7 ∧ s'.rd F.SEC_BOOT_STATUS.fw_version 0 0 = 0 ∧ s'.tiles = s.tiles)) ∧
  (∀ s : State, s.mayBoot = false → ∀ f l m, exec (.bootSequence f l m) s = .next s) ∧
  (∀ s : State, s.spdmUp = true →
    exec .spdmGetVersion s = .next (s.put (.spdm (.version 1 2))) ∧
    exec .spdmGetCapabilities s = .next (s.put (.spdm (.capabilities true true true))) ∧
    exec .spdmNegotiateAlgorithms s = .next (s.put (.spdm (.algorithms 0x12 0x8))) ∧
    exec .spdmGetDigests s = .next (s.put (.spdm (.digests (sha3 Config.certChain)))) ∧
    (∀ off len, exec (.spdmGetCertificate off len) s = .next (s.put (.spdm (.certificate off ((Config.certChain.drop off).take len))))) ∧
    (∀ k nonce, exec (.spdmGetMeasurements k false nonce) s = .next (s.put (.spdm (.measurements (s.measured k) none [])))) ∧
    (∀ k nonce n, Mem.wf 0xFF s.flash = true → s.tainted = false → s.rd F.SEC_KEY_STATUS.exhausted 0 0 = 0 → n = s.rd F.SEC_KEY_INDEX.next 0 0 → n + 1 < 1047552 →
      (∃ (s' : State) (sig : List Byte), exec (.spdmChallenge nonce) s = .next s' ∧ s'.sent.getLast? = some (.spdm (.challenge n nonce sig)) ∧
        s'.rd F.SEC_KEY_INDEX.next 0 0 = n + 1 ∧ s'.sec.issued = s.sec.issued + 1 ∧
        (n % 64 = 0 → Mem.get 0xFF s'.flash (0x10000 + n / 64) = 0 ∧ Mem.get 0xFF s'.flash (0x14000 + n / 64) = 0) ∧
        (n % 64 ≠ 0 → s'.flash = s.flash)) ∧
      (∃ (s' : State) (sig : List Byte), exec (.spdmGetMeasurements k true nonce) s = .next s' ∧
        s'.sent.getLast? = some (.spdm (.measurements (s.measured k) (some n) sig)) ∧ s'.rd F.SEC_KEY_INDEX.next 0 0 = n + 1)) ∧
    (∀ nonce n body, s.tainted = false → s.rd F.SEC_KEY_STATUS.exhausted 0 0 = 1 → s.rd F.SEC_KEY_STATUS.lost 0 0 = 0 →
      n = s.rd F.SEC_KEY_INDEX.next 0 0 → n < 1048576 → body = leBytes 8 (s.rd F.RTE_SERIAL.serial 0 0) ++ nonce ++ leBytes 4 s.sec.issued →
      ∃ s', exec (.spdmChallenge nonce) s = .next s' ∧ s'.sec.statement = body ++ Config.signature n body ∧
        s'.sent.getLast? = some (.spdm (.error 6 (body ++ Config.signature n body)))) ∧
    (∀ nonce, s.tainted = false → s.rd F.SEC_KEY_STATUS.exhausted 0 0 ≠ 0 →
      s.rd F.SEC_KEY_STATUS.lost 0 0 ≠ 0 ∨ 1048576 ≤ s.rd F.SEC_KEY_INDEX.next 0 0 →
      exec (.spdmChallenge nonce) s = .next (s.put (.spdm (.error 6 s.sec.statement)))) ∧
    (s.tainted = true → ∀ nonce, exec (.spdmChallenge nonce) s = .next (s.put (.spdm (.error 8 []))))) ∧
  (∀ (s : State) (ir : Nat), ir % 256 ≠ 255 → s.pwr.railsOn = true → s.sec.scanAt = none →
    (s.tainted = false → ∃ s', exec (.scanInstruction ir) s = .next s' ∧ s' = { s with regs := s'.regs, sec := s'.sec } ∧ s'.tainted = true ∧
      s'.rd F.SEC_TAINT.instruction 0 0 = ir % 256 ∧ s'.sec.seed = false ∧ s'.sec.scanAt = some s.cycle) ∧
    (s.tainted = true → exec (.scanInstruction ir) s = .next { s with sec := { s.sec with seed := false, scanAt := some s.cycle } })) ∧
  (∀ s : State, exec (.scanInstruction 255) s = .next s) ∧
  (∀ (s : State) (a : Nat), s.sec.scanAt = some a → a + 40000 ≤ s.cycle → s.Unfenced →
    ∃ s', exec .scanEclipse s = .next s' ∧ s.FencedFor s' 6 ∧ s'.sec.scanAt = none) ∧
  (∀ s : State, (∀ a, s.sec.scanAt = some a → s.cycle < a + 40000) → exec .scanEclipse s = .next s)

/-- R459, R504 to R525 and R396, power, clock and sensors: PERST_N low resets the module cold and leaves its flash, PERST_N high starts the sidereal
count at 0; the rails come up with PWR_EN once the sense contact has mated for 50 ms, and power off ends everything; a rail fault and a
junction at its trip point turn the rails off and latch them; a lost REFCLK is an emergency that costs the root its time; a sample fills
the sensor registers, and an emergency it finds fences a RUNNING module with cause 4; throttling goes up by 4 each millisecond of an
emergency outside scheduled operation and down by 1 each 10 ms without; PLDM's readings are refreshed, and its
thresholds are as last set.

Model's choices it rests on: log entries 62, 63, 64, 65. -/
def Obligations.PowerClockAndSensors : Prop :=
  ∀ s : State,
    (s.pwr.perstN = true → s.pwr.railsOn = true → ∃ s', exec .perstLow s = .next s' ∧ s'.st = .dark ∧ s'.pwr.perstN = false ∧ s'.bootReady = false ∧
      s'.flash = s.flash ∧ s'.almanac = s.almanac ∧ s'.tiles = .empty ∧ s'.chans = .empty ∧ s'.ports = .empty ∧ s'.log = [] ∧
      s'.rd F.RTE_SERIAL.serial 0 0 = s.rd F.RTE_SERIAL.serial 0 0 ∧ s'.rd F.SEC_TAINT.scan_tainted 0 0 = s.rd F.SEC_TAINT.scan_tainted 0 0) ∧
    (s.pwr.perstN = false → exec .perstHigh s =
      .next { s with sidereal := 0, bootReady := s.pwr.railsOn, pwr := { s.pwr with perstN := true } }) ∧
    (s.pwr.railsOn = false → s.pwr.latched = false →
      (∀ a, s.pwr.senseAt = some a → a ≤ s.cycle → ∃ s', exec .pwrEnRise s = .next s' ∧ s'.pwr.railsOn = true ∧ s'.sidereal = 0 ∧
        s'.bootReady = s.pwr.perstN) ∧
      (s.pwr.senseAt = none → ∃ s', exec .pwrEnRise s = .next s' ∧ s'.pwr.railsOn = false ∧ s'.bootReady = s.bootReady) ∧
      exec .senseContactMate s = .next { s with pwr := { s.pwr with senseAt := some (s.cycle + 100000000) } }) ∧
    (s.pwr.railsOn = true → ∃ s', exec .powerOff s = .next s' ∧ s'.pwr.railsOn = false ∧ s'.pwr.latched = false ∧ s'.pwr.pwrEn = false ∧ s'.st = .dark ∧
      s'.flash = s.flash ∧ s'.rd F.SEC_TAINT.scan_tainted 0 0 = 0) ∧
    (s.pwr.railsOn = true → (∀ r, r < 7 → r ≠ 5 → ∃ s', exec (.railFault r) s = .next s' ∧ s'.st = .dark ∧ s'.pwr.railsOn = false ∧
        s'.pwr.latched = true ∧ s'.pwr.faultN = false ∧ s'.rd F.PWR_ENV_STATUS.rail_fault 0 0 = 1) ∧
      (∃ s', exec (.railFault 5) s = .next s' ∧ s'.st = .dark ∧ s'.pwr.railsOn = false ∧ s'.pwr.latched = false) ∧
      (∀ k, k < 38 → ∃ (s' : State) (r : Rec), exec (.thermalTrip k) s = .next s' ∧ s'.st = .dark ∧ s'.pwr.railsOn = false ∧ s'.pwr.latched = true ∧
        s'.pwr.thermtripN = false ∧ s'.recs.getLast? = some r ∧ r.kind = 0x63)) ∧
    (s.rd F.PWR_CLK.refclk_ok 0 0 = 1 → ∃ s', exec .refclkLoss s = .next s' ∧ s'.rd F.PWR_CLK.refclk_ok 0 0 = 0 ∧ (7, 0) ∈ s'.pwr.emerg ∧
      (s.role ≠ 1 → s'.timeSt = s.timeSt ∧ s'.st = s.st) ∧ (s.role = 1 → s'.timeSt = 4) ∧
      (s.role = 1 → s.timeSt ≠ 4 → s.st = .running → s.Unfenced → s'.st = .fenced ∧ s'.rd F.RST_FENCE.cause 0 0 = 2)) ∧
    (s.rd F.PWR_CLK.refclk_ok 0 0 = 0 → s.reachable = true → ∃ s', exec .refclkRestore s = .next s' ∧ s'.rd F.PWR_CLK.refclk_ok 0 0 = 1 ∧
      (7, 0) ∉ s'.pwr.emerg) ∧
    (∀ temps mv power avg1s avg10ms coreMv coreCur rails coreOver inputOver, s.reachable = true → s.pwr.dead = false → temps.length = 40 →
      rails.length = 6 → ∃ s', exec (.envSample temps mv power avg1s avg10ms coreMv coreCur rails coreOver inputOver) s = .next s' ∧
        (∀ k v, temps[k]? = some v → s'.rd F.PWR_TEMP.temp 0 k = v % 2 ^ 16) ∧ s'.rd F.PWR_INPUT.voltage 0 0 = mv % 2 ^ 16 ∧
        s'.rd F.PWR_INPUT.power 0 0 = power % 2 ^ 16 ∧
        (∀ k v, rails[k]? = some v → s'.rd F.PWR_RAIL.voltage 0 k = v.1 % 2 ^ F.PWR_RAIL.voltage.width) ∧ s'.tiles = s.tiles ∧
        (s.st = .running → s.Unfenced → s'.holding = true → s'.st = .fenced ∧ s'.rd F.RST_FENCE.cause 0 0 = 4) ∧
        (s'.holding = false → s'.st = s.st)) ∧
    (s.sidereal % 2000000 = 0 → s.sidereal / 2000000 ≠ s.pwr.lastMs → s.holding = true → s.scheduled = false →
      ∃ s', exec .throttleRaise s = .next s' ∧ s'.level = min 15 (s.level + 4) ∧ s' = { s with regs := s'.regs, pwr := s'.pwr }) ∧
    (s.sidereal % 20000000 = 0 → s.sidereal / 20000000 ≠ s.pwr.lastTenMs → s.holding = false → s.scheduled = false → s.level ≤ 15 →
      ∃ s', exec .throttleLower s = .next s' ∧ s'.level = s.level - 1 ∧ s' = { s with regs := s'.regs, pwr := s'.pwr }) ∧
    (s.reachable = true → s.pwr.dead = false → ∃ s', exec .pldmSensorRefresh s = .next s' ∧
      s' = { s with pwr := { s.pwr with pldm := s'.pwr.pldm } } ∧ ∀ k, 1 ≤ k → k ≤ 19 → s'.pwr.pldm.get k 0 = s.sensor k) ∧
    (∀ (upper : Bool) (k size : Nat) (v : Word), s.reachable = true → s.bootReady = false → 1 ≤ k → k ≤ 19 →
      ∃ s', exec (.i3cVendorMessage (1, upper) true k size v) s = .next s' ∧ s' = { s with pwr := s'.pwr } ∧ s'.pwr.pldm = s.pwr.pldm ∧
        (if upper then s'.pwr.pldmHigh.find k else s'.pwr.pldmLow.find k) = some v.toInt ∧
        (if upper then s'.pwr.pldmLow else s'.pwr.pldmHigh) = (if upper then s.pwr.pldmLow else s.pwr.pldmHigh))

/-- FRAME of every statement above that answers `withTile` or `withChan`: a command on one tile leaves every other tile, every channel, port,
mailbox payload, the flash, the log, the module's state, its cycle and its queue as they were, and a command on one memory channel
every other channel, every tile, port and mailbox payload likewise. -/
def Obligations.OneUnitFrames : Prop :=
  (∀ (s : State) (t : Nat) (x : Tile) (outs : List Out), (s.withTile t x outs).tile t = x ∧ s.OnlyTile (s.withTile t x outs) t) ∧
  (∀ (s : State) (ch : Nat) (x : Chan) (outs : List Out), (s.withChan ch x outs).chan ch = x ∧
    (∀ d, d ≠ ch → (s.withChan ch x outs).chan d = s.chan d) ∧ (s.withChan ch x outs).tiles = s.tiles ∧
    (s.withChan ch x outs).ports = s.ports ∧ (s.withChan ch x outs).mbx = s.mbx ∧ (s.withChan ch x outs).flash = s.flash ∧
    (s.withChan ch x outs).log = s.log ∧ (s.withChan ch x outs).st = s.st ∧ (s.withChan ch x outs).pending = s.pending)

/-- INVARIANT (Tables 11-6 and 12-1 give the two memories). Every step from any state whose mailbox payloads and NOR flash are in canonical form
leaves them so: addresses strictly rising, no byte listed that an unlisted address reads as.

Model's choices it rests on: log entry 6. -/
def Obligations.MemoriesKeepTheirForm : Prop :=
  ∀ s s' : State, s.MemoriesOk → step s = .next s' → s'.MemoriesOk

/-- R16 to R18, R36, R105, R194, R301, R322, R380, R399, R424, R459 and the Reset columns, the module after a cold reset: DARK, sidereal count 0, no job, every tile
OFFLINE with every scratchpad byte 0, every port DARK, every mailbox free, the log empty, no reset or eclipse in progress, and boot due; its
memories are in canonical form, and its queue is empty.

Model's choices it rests on: log entries 3, 4, 6, 7, 8, 76, 80. -/
def Obligations.ResetState : Prop :=
  State.reset.st = .dark ∧ State.reset.sidereal = 0 ∧ State.reset.job = 0 ∧ State.reset.startPending = false ∧
  (∀ t, (State.reset.tile t).st = .offline ∧ ∀ a, Mem.get 0 (State.reset.tile t).spad a = 0) ∧ (∀ n, (State.reset.port n).st = .dark) ∧
  (∀ k, State.reset.owner k = 0 ∧ State.reset.full k = false) ∧ State.reset.log = [] ∧ State.reset.resets = [] ∧ State.reset.ecl = [] ∧
  State.reset.pkts = [] ∧ State.reset.inbox = [] ∧ State.reset.flits = [] ∧ State.reset.landings = [] ∧
  State.reset.started = none ∧ (∀ ch, (State.reset.chan ch).st = .training) ∧ State.reset.bootReady = true ∧ State.reset.timeSt = 0 ∧ State.reset.level = 0 ∧ State.reset.MemoriesOk ∧ State.reset.pending = []
end

