-- ==== Sys2Proof/Laws/Mem.lean ====
section
/-! SUPPORT. The laws of a memory in canonical form: a read after a write, and that every write keeps the form. -/
namespace Sys2Proof.Machine

theorem Mem.get_of_lt (d : Byte) (m : Mem) (lo a : Nat) (h : Mem.wfFrom d lo m = true) (ha : a < lo) : Mem.get d m a = d := by
  induction m generalizing lo with
  | nil => rfl
  | cons e r ih =>
    obtain ⟨b, w⟩ := e
    simp only [Mem.wfFrom, Bool.and_eq_true, decide_eq_true_eq] at h
    have : a ≠ b := by omega
    simp only [Mem.get, if_neg this]
    exact ih (b + 1) h.2 (by omega)

/-- A written byte reads as the value written; every other byte reads as before. -/
theorem Mem.get_put (d : Byte) (m : Mem) (lo a x : Nat) (v : Byte) (h : Mem.wfFrom d lo m = true) :
    Mem.get d (Mem.put d m a v) x = if x = a then v else Mem.get d m x := by
  induction m generalizing lo with
  | nil =>
    by_cases hv : v = d
    · subst hv
      simp [Mem.put, Mem.get]
    · simp [Mem.put, Mem.get, hv]
  | cons e r ih =>
    obtain ⟨b, w⟩ := e
    have h' := h
    simp only [Mem.wfFrom, Bool.and_eq_true, decide_eq_true_eq] at h
    unfold Mem.put
    by_cases hab : a < b
    · simp only [if_pos hab]
      by_cases hv : v = d
      · subst hv
        simp only [if_true]
        split
        · next hx => subst hx; exact Mem.get_of_lt v _ (x + 1) x (by simp [Mem.wfFrom, h]; omega) (by omega)
        · rfl
      · simp only [if_neg hv, Mem.get]
    · simp only [if_neg hab]
      by_cases hb : a = b
      · subst hb
        simp only [if_true]
        by_cases hv : v = d
        · subst hv
          simp only [if_true, Mem.get]
          split
          · next hx => subst hx; exact Mem.get_of_lt v r (x + 1) x h.2 (by omega)
          · rfl
        · simp only [if_neg hv, Mem.get]
          split <;> simp_all
      · simp only [if_neg hb, Mem.get, ih (b + 1) h.2]
        by_cases hx : x = b
        · subst hx
          simp [Ne.symm hb]
        · simp [hx]

theorem Mem.wfFrom_mono (d : Byte) (m : Mem) (lo lo' : Nat) (h : Mem.wfFrom d lo m = true) (hl : lo' ≤ lo) :
    Mem.wfFrom d lo' m = true := by
  cases m with
  | nil => rfl
  | cons e r =>
    simp only [Mem.wfFrom, Bool.and_eq_true, decide_eq_true_eq] at h ⊢
    exact ⟨⟨by omega, h.1.2⟩, h.2⟩

theorem Mem.put_wfFrom (d : Byte) (m : Mem) (lo a : Nat) (v : Byte) (h : Mem.wfFrom d lo m = true) (ha : lo ≤ a) :
    Mem.wfFrom d lo (Mem.put d m a v) = true := by
  induction m generalizing lo with
  | nil =>
    unfold Mem.put
    split
    · rfl
    · next hv => simp [Mem.wfFrom, ha, hv]
  | cons e r ih =>
    obtain ⟨b, w⟩ := e
    have h' := h
    simp only [Mem.wfFrom, Bool.and_eq_true, decide_eq_true_eq] at h
    unfold Mem.put
    split
    · next hab =>
      split
      · exact h'
      · next hv => simp only [Mem.wfFrom, Bool.and_eq_true, decide_eq_true_eq]; exact ⟨⟨ha, hv⟩, ⟨by omega, h.1.2⟩, h.2⟩
    · split
      · next hab =>
        split
        · exact Mem.wfFrom_mono d r (b + 1) lo h.2 (by omega)
        · next hv => subst hab; simp only [Mem.wfFrom, Bool.and_eq_true, decide_eq_true_eq]; exact ⟨⟨ha, hv⟩, h.2⟩
      · simp only [Mem.wfFrom, Bool.and_eq_true, decide_eq_true_eq]
        exact ⟨h.1, ih (b + 1) h.2 (by omega)⟩

/-- A write of one byte keeps the canonical form. -/
theorem Mem.put_wf (d : Byte) (m : Mem) (a : Nat) (v : Byte) (h : Mem.wf d m = true) : Mem.wf d (Mem.put d m a v) = true :=
  Mem.put_wfFrom d m 0 a v h (Nat.zero_le a)

/-- A write of bytes keeps the canonical form. -/
theorem Mem.putBytes_wf (d : Byte) (l : List Byte) (m : Mem) (a : Nat) (h : Mem.wf d m = true) :
    Mem.wf d (Mem.putBytes d m a l) = true := by
  induction l generalizing m a with
  | nil => exact h
  | cons v r ih => exact ih _ _ (Mem.put_wf d m a v h)

/-- A store of a number keeps the canonical form. -/
theorem Mem.putNum_wf (d : Byte) (m : Mem) (a n v : Nat) (h : Mem.wf d m = true) : Mem.wf d (Mem.putNum d m a n v) = true :=
  Mem.putBytes_wf d _ m a h

/-- A byte outside the bytes written reads as before. -/
theorem Mem.get_putBytes_outside (d : Byte) (l : List Byte) (m : Mem) (a x : Nat) (h : Mem.wf d m = true)
    (hx : x < a ∨ a + l.length ≤ x) : Mem.get d (Mem.putBytes d m a l) x = Mem.get d m x := by
  induction l generalizing m a with
  | nil => rfl
  | cons v r ih =>
    simp only [List.length_cons] at hx
    have hne : x ≠ a := by omega
    simp only [Mem.putBytes]
    rw [ih _ _ (Mem.put_wf d m a v h) (by omega), Mem.get_put d m 0 a x v h, if_neg hne]

/-- Bytes written read as the bytes written. -/
theorem Mem.get_putBytes_inside (d : Byte) (l : List Byte) (m : Mem) (a k : Nat) (h : Mem.wf d m = true)
    (hk : k < l.length) : Mem.get d (Mem.putBytes d m a l) (a + k) = l[k] := by
  induction l generalizing m a k with
  | nil => simp at hk
  | cons v r ih =>
    simp only [Mem.putBytes]
    cases k with
    | zero =>
      rw [Mem.get_putBytes_outside d r _ _ _ (Mem.put_wf d m a v h) (by omega), Mem.get_put d m 0 a _ v h]
      simp
    | succ k =>
      have := ih (Mem.put d m a v) (a + 1) k (Mem.put_wf d m a v h) (by simpa using hk)
      rw [show a + (k + 1) = a + 1 + k by omega, this]
      simp

theorem leBytes_length (n v : Nat) : (leBytes n v).length = n := by
  induction n generalizing v with
  | zero => rfl
  | succ n ih => simp [leBytes, ih]

/-- The number of a list of little-endian bytes is the number cut to their width. -/
theorem leNat_leBytes (n v : Nat) : leNat (leBytes n v) = v % 2 ^ (8 * n) := by
  induction n generalizing v with
  | zero => simp [leBytes, leNat, Nat.mod_one]
  | succ n ih =>
    have e : 2 ^ (8 * (n + 1)) = 256 * 2 ^ (8 * n) := by rw [show 8 * (n + 1) = 8 * n + 8 by omega, Nat.pow_add]; omega
    simp only [leBytes, leNat, ih, BitVec.toNat_ofNat, e]
    rw [Nat.mod_mul]

theorem leNat_lt (l : List Byte) : leNat l < 2 ^ (8 * l.length) := by
  induction l with
  | nil => simp [leNat]
  | cons b r ih =>
    have e : 2 ^ (8 * (r.length + 1)) = 256 * 2 ^ (8 * r.length) := by
      rw [show 8 * (r.length + 1) = 8 * r.length + 8 by omega, Nat.pow_add]; omega
    have hb := b.isLt
    simp only [leNat, List.length_cons, e]
    omega

/-- The bytes read back after a write of as many bytes are those bytes. -/
theorem Mem.bytes_putBytes (d : Byte) (l : List Byte) (m : Mem) (a : Nat) (h : Mem.wf d m = true) :
    Mem.bytes d (Mem.putBytes d m a l) a l.length = l := by
  have key : ∀ (n k : Nat), k + n = l.length →
      Mem.bytes d (Mem.putBytes d m a l) (a + k) n = l.drop k := by
    intro n
    induction n with
    | zero => intro k hk; simp [Mem.bytes, List.drop_eq_nil_of_le (by omega : l.length ≤ k)]
    | succ n ih =>
      intro k hk
      have hl : k < l.length := by omega
      rw [Mem.bytes, Mem.get_putBytes_inside d l m a k h hl, show a + k + 1 = a + (k + 1) by omega, ih (k + 1) (by omega),
        List.drop_eq_getElem_cons hl]
  have := key l.length 0 (by omega)
  simpa using this

/-- A stored number reads back cut to its width. -/
theorem Mem.num_putNum (d : Byte) (m : Mem) (a n v : Nat) (h : Mem.wf d m = true) :
    Mem.num d (Mem.putNum d m a n v) a n = v % 2 ^ (8 * n) := by
  unfold Mem.num Mem.putNum
  have := Mem.bytes_putBytes d (leBytes n v) m a h
  rw [leBytes_length] at this
  rw [this, leNat_leBytes]

end Sys2Proof.Machine
end

