-- ==== Sys2Proof/Laws/State.lean ====
section
/-! SUPPORT. What each named update of the module's state leaves unchanged: one equation per field, each true by rfl or by the
equations above it. Later proofs cite these and do not unfold a record update. -/
namespace Sys2Proof.Machine

@[simp] theorem State.wr_frame (s : State) (f : Fld) (i j v : Nat) :
    (s.wr f i j v).cycle = s.cycle ∧ (s.wr f i j v).sidereal = s.sidereal ∧ (s.wr f i j v).st = s.st ∧
    (s.wr f i j v).tiles = s.tiles ∧ (s.wr f i j v).tileWas = s.tileWas ∧ (s.wr f i j v).chans = s.chans ∧
    (s.wr f i j v).ports = s.ports ∧ (s.wr f i j v).flits = s.flits ∧ (s.wr f i j v).landings = s.landings ∧
    (s.wr f i j v).pkts = s.pkts ∧ (s.wr f i j v).inbox = s.inbox ∧ (s.wr f i j v).vout = s.vout ∧
    (s.wr f i j v).vcred = s.vcred ∧ (s.wr f i j v).vend = s.vend ∧ (s.wr f i j v).barRel = s.barRel ∧
    (s.wr f i j v).faults = s.faults ∧ (s.wr f i j v).abortAt = s.abortAt ∧ (s.wr f i j v).pubs = s.pubs ∧
    (s.wr f i j v).det = s.det ∧ (s.wr f i j v).skip = s.skip ∧ (s.wr f i j v).routerFailed = s.routerFailed ∧
    (s.wr f i j v).fusedDefects = s.fusedDefects ∧ (s.wr f i j v).fusedRepairs = s.fusedRepairs ∧
    (s.wr f i j v).pendingRemap = s.pendingRemap ∧ (s.wr f i j v).routeQ = s.routeQ ∧
    (s.wr f i j v).gather = s.gather ∧ (s.wr f i j v).frags = s.frags ∧ (s.wr f i j v).reasm = s.reasm ∧
    (s.wr f i j v).gbar = s.gbar ∧ (s.wr f i j v).rank = s.rank ∧ (s.wr f i j v).freqPort = s.freqPort ∧
    (s.wr f i j v).holdAt = s.holdAt ∧ (s.wr f i j v).phase = s.phase ∧ (s.wr f i j v).started = s.started ∧
    (s.wr f i j v).jobFenced = s.jobFenced ∧ (s.wr f i j v).lastS = s.lastS ∧
    (s.wr f i j v).drainBegan = s.drainBegan ∧ (s.wr f i j v).host = s.host ∧ (s.wr f i j v).hostNext = s.hostNext ∧
    (s.wr f i j v).msix = s.msix ∧ (s.wr f i j v).pba = s.pba ∧ (s.wr f i j v).sent = s.sent ∧
    (s.wr f i j v).mbx = s.mbx ∧ (s.wr f i j v).mbxTurn = s.mbxTurn ∧ (s.wr f i j v).replies = s.replies ∧
    (s.wr f i j v).prog = s.prog ∧ (s.wr f i j v).bootReady = s.bootReady ∧ (s.wr f i j v).boot = s.boot ∧
    (s.wr f i j v).flash = s.flash ∧ (s.wr f i j v).sec = s.sec ∧ (s.wr f i j v).recs = s.recs ∧
    (s.wr f i j v).logQ = s.logQ ∧ (s.wr f i j v).log = s.log ∧ (s.wr f i j v).logNew = s.logNew ∧
    (s.wr f i j v).almHalf = s.almHalf ∧ (s.wr f i j v).almanac = s.almanac ∧ (s.wr f i j v).almQ = s.almQ ∧
    (s.wr f i j v).hours = s.hours ∧ (s.wr f i j v).chunks = s.chunks ∧ (s.wr f i j v).windows = s.windows ∧
    (s.wr f i j v).due = s.due ∧ (s.wr f i j v).urgent = s.urgent ∧ (s.wr f i j v).saves = s.saves ∧
    (s.wr f i j v).dueAt = s.dueAt ∧ (s.wr f i j v).chk = s.chk ∧ (s.wr f i j v).bg = s.bg ∧
    (s.wr f i j v).bgNext = s.bgNext ∧ (s.wr f i j v).bgAt = s.bgAt ∧ (s.wr f i j v).bgSweeps = s.bgSweeps ∧
    (s.wr f i j v).repairs = s.repairs ∧ (s.wr f i j v).newRepairs = s.newRepairs ∧ (s.wr f i j v).resets = s.resets ∧
    (s.wr f i j v).ecl = s.ecl ∧ (s.wr f i j v).conj = s.conj ∧ (s.wr f i j v).adopt = s.adopt ∧
    (s.wr f i j v).pwr = s.pwr ∧ (s.wr f i j v).postAt = s.postAt ∧ (s.wr f i j v).gated = s.gated ∧
    (s.wr f i j v).fresh = s.fresh ∧ (s.wr f i j v).pending = s.pending :=
  ⟨rfl, rfl, rfl, rfl, rfl, rfl, rfl, rfl, rfl, rfl, rfl, rfl, rfl, rfl, rfl, rfl, rfl, rfl, rfl, rfl, rfl, rfl, rfl, rfl, rfl, rfl, rfl, rfl, rfl, rfl, rfl, rfl, rfl, rfl, rfl, rfl, rfl, rfl, rfl, rfl, rfl, rfl, rfl, rfl, rfl, rfl, rfl, rfl, rfl, rfl, rfl, rfl, rfl, rfl, rfl, rfl, rfl, rfl, rfl, rfl, rfl, rfl, rfl, rfl, rfl, rfl, rfl, rfl, rfl, rfl, rfl, rfl, rfl, rfl, rfl, rfl, rfl, rfl, rfl, rfl⟩

@[simp] theorem State.addSat_frame (s : State) (f : Fld) (i j n : Nat) :
    (s.addSat f i j n).cycle = s.cycle ∧ (s.addSat f i j n).sidereal = s.sidereal ∧ (s.addSat f i j n).st = s.st ∧
    (s.addSat f i j n).tiles = s.tiles ∧ (s.addSat f i j n).tileWas = s.tileWas ∧ (s.addSat f i j n).chans = s.chans ∧
    (s.addSat f i j n).ports = s.ports ∧ (s.addSat f i j n).flits = s.flits ∧
    (s.addSat f i j n).landings = s.landings ∧ (s.addSat f i j n).pkts = s.pkts ∧ (s.addSat f i j n).inbox = s.inbox ∧
    (s.addSat f i j n).vout = s.vout ∧ (s.addSat f i j n).vcred = s.vcred ∧ (s.addSat f i j n).vend = s.vend ∧
    (s.addSat f i j n).barRel = s.barRel ∧ (s.addSat f i j n).faults = s.faults ∧
    (s.addSat f i j n).abortAt = s.abortAt ∧ (s.addSat f i j n).pubs = s.pubs ∧ (s.addSat f i j n).det = s.det ∧
    (s.addSat f i j n).skip = s.skip ∧ (s.addSat f i j n).routerFailed = s.routerFailed ∧
    (s.addSat f i j n).fusedDefects = s.fusedDefects ∧ (s.addSat f i j n).fusedRepairs = s.fusedRepairs ∧
    (s.addSat f i j n).pendingRemap = s.pendingRemap ∧ (s.addSat f i j n).routeQ = s.routeQ ∧
    (s.addSat f i j n).gather = s.gather ∧ (s.addSat f i j n).frags = s.frags ∧ (s.addSat f i j n).reasm = s.reasm ∧
    (s.addSat f i j n).gbar = s.gbar ∧ (s.addSat f i j n).rank = s.rank ∧ (s.addSat f i j n).freqPort = s.freqPort ∧
    (s.addSat f i j n).holdAt = s.holdAt ∧ (s.addSat f i j n).phase = s.phase ∧
    (s.addSat f i j n).started = s.started ∧ (s.addSat f i j n).jobFenced = s.jobFenced ∧
    (s.addSat f i j n).lastS = s.lastS ∧ (s.addSat f i j n).drainBegan = s.drainBegan ∧
    (s.addSat f i j n).host = s.host ∧ (s.addSat f i j n).hostNext = s.hostNext ∧ (s.addSat f i j n).msix = s.msix ∧
    (s.addSat f i j n).pba = s.pba ∧ (s.addSat f i j n).sent = s.sent ∧ (s.addSat f i j n).mbx = s.mbx ∧
    (s.addSat f i j n).mbxTurn = s.mbxTurn ∧ (s.addSat f i j n).replies = s.replies ∧
    (s.addSat f i j n).prog = s.prog ∧ (s.addSat f i j n).bootReady = s.bootReady ∧ (s.addSat f i j n).boot = s.boot ∧
    (s.addSat f i j n).flash = s.flash ∧ (s.addSat f i j n).sec = s.sec ∧ (s.addSat f i j n).recs = s.recs ∧
    (s.addSat f i j n).logQ = s.logQ ∧ (s.addSat f i j n).log = s.log ∧ (s.addSat f i j n).logNew = s.logNew ∧
    (s.addSat f i j n).almHalf = s.almHalf ∧ (s.addSat f i j n).almanac = s.almanac ∧
    (s.addSat f i j n).almQ = s.almQ ∧ (s.addSat f i j n).hours = s.hours ∧ (s.addSat f i j n).chunks = s.chunks ∧
    (s.addSat f i j n).windows = s.windows ∧ (s.addSat f i j n).due = s.due ∧ (s.addSat f i j n).urgent = s.urgent ∧
    (s.addSat f i j n).saves = s.saves ∧ (s.addSat f i j n).dueAt = s.dueAt ∧ (s.addSat f i j n).chk = s.chk ∧
    (s.addSat f i j n).bg = s.bg ∧ (s.addSat f i j n).bgNext = s.bgNext ∧ (s.addSat f i j n).bgAt = s.bgAt ∧
    (s.addSat f i j n).bgSweeps = s.bgSweeps ∧ (s.addSat f i j n).repairs = s.repairs ∧
    (s.addSat f i j n).newRepairs = s.newRepairs ∧ (s.addSat f i j n).resets = s.resets ∧
    (s.addSat f i j n).ecl = s.ecl ∧ (s.addSat f i j n).conj = s.conj ∧ (s.addSat f i j n).adopt = s.adopt ∧
    (s.addSat f i j n).pwr = s.pwr ∧ (s.addSat f i j n).postAt = s.postAt ∧ (s.addSat f i j n).gated = s.gated ∧
    (s.addSat f i j n).fresh = s.fresh ∧ (s.addSat f i j n).pending = s.pending :=
  ⟨rfl, rfl, rfl, rfl, rfl, rfl, rfl, rfl, rfl, rfl, rfl, rfl, rfl, rfl, rfl, rfl, rfl, rfl, rfl, rfl, rfl, rfl, rfl, rfl, rfl, rfl, rfl, rfl, rfl, rfl, rfl, rfl, rfl, rfl, rfl, rfl, rfl, rfl, rfl, rfl, rfl, rfl, rfl, rfl, rfl, rfl, rfl, rfl, rfl, rfl, rfl, rfl, rfl, rfl, rfl, rfl, rfl, rfl, rfl, rfl, rfl, rfl, rfl, rfl, rfl, rfl, rfl, rfl, rfl, rfl, rfl, rfl, rfl, rfl, rfl, rfl, rfl, rfl, rfl, rfl⟩

@[simp] theorem State.addWrap_frame (s : State) (f : Fld) (i j n : Nat) :
    (s.addWrap f i j n).cycle = s.cycle ∧ (s.addWrap f i j n).sidereal = s.sidereal ∧ (s.addWrap f i j n).st = s.st ∧
    (s.addWrap f i j n).tiles = s.tiles ∧ (s.addWrap f i j n).tileWas = s.tileWas ∧
    (s.addWrap f i j n).chans = s.chans ∧ (s.addWrap f i j n).ports = s.ports ∧ (s.addWrap f i j n).flits = s.flits ∧
    (s.addWrap f i j n).landings = s.landings ∧ (s.addWrap f i j n).pkts = s.pkts ∧
    (s.addWrap f i j n).inbox = s.inbox ∧ (s.addWrap f i j n).vout = s.vout ∧ (s.addWrap f i j n).vcred = s.vcred ∧
    (s.addWrap f i j n).vend = s.vend ∧ (s.addWrap f i j n).barRel = s.barRel ∧
    (s.addWrap f i j n).faults = s.faults ∧ (s.addWrap f i j n).abortAt = s.abortAt ∧
    (s.addWrap f i j n).pubs = s.pubs ∧ (s.addWrap f i j n).det = s.det ∧ (s.addWrap f i j n).skip = s.skip ∧
    (s.addWrap f i j n).routerFailed = s.routerFailed ∧ (s.addWrap f i j n).fusedDefects = s.fusedDefects ∧
    (s.addWrap f i j n).fusedRepairs = s.fusedRepairs ∧ (s.addWrap f i j n).pendingRemap = s.pendingRemap ∧
    (s.addWrap f i j n).routeQ = s.routeQ ∧ (s.addWrap f i j n).gather = s.gather ∧
    (s.addWrap f i j n).frags = s.frags ∧ (s.addWrap f i j n).reasm = s.reasm ∧ (s.addWrap f i j n).gbar = s.gbar ∧
    (s.addWrap f i j n).rank = s.rank ∧ (s.addWrap f i j n).freqPort = s.freqPort ∧
    (s.addWrap f i j n).holdAt = s.holdAt ∧ (s.addWrap f i j n).phase = s.phase ∧
    (s.addWrap f i j n).started = s.started ∧ (s.addWrap f i j n).jobFenced = s.jobFenced ∧
    (s.addWrap f i j n).lastS = s.lastS ∧ (s.addWrap f i j n).drainBegan = s.drainBegan ∧
    (s.addWrap f i j n).host = s.host ∧ (s.addWrap f i j n).hostNext = s.hostNext ∧
    (s.addWrap f i j n).msix = s.msix ∧ (s.addWrap f i j n).pba = s.pba ∧ (s.addWrap f i j n).sent = s.sent ∧
    (s.addWrap f i j n).mbx = s.mbx ∧ (s.addWrap f i j n).mbxTurn = s.mbxTurn ∧
    (s.addWrap f i j n).replies = s.replies ∧ (s.addWrap f i j n).prog = s.prog ∧
    (s.addWrap f i j n).bootReady = s.bootReady ∧ (s.addWrap f i j n).boot = s.boot ∧
    (s.addWrap f i j n).flash = s.flash ∧ (s.addWrap f i j n).sec = s.sec ∧ (s.addWrap f i j n).recs = s.recs ∧
    (s.addWrap f i j n).logQ = s.logQ ∧ (s.addWrap f i j n).log = s.log ∧ (s.addWrap f i j n).logNew = s.logNew ∧
    (s.addWrap f i j n).almHalf = s.almHalf ∧ (s.addWrap f i j n).almanac = s.almanac ∧
    (s.addWrap f i j n).almQ = s.almQ ∧ (s.addWrap f i j n).hours = s.hours ∧ (s.addWrap f i j n).chunks = s.chunks ∧
    (s.addWrap f i j n).windows = s.windows ∧ (s.addWrap f i j n).due = s.due ∧
    (s.addWrap f i j n).urgent = s.urgent ∧ (s.addWrap f i j n).saves = s.saves ∧
    (s.addWrap f i j n).dueAt = s.dueAt ∧ (s.addWrap f i j n).chk = s.chk ∧ (s.addWrap f i j n).bg = s.bg ∧
    (s.addWrap f i j n).bgNext = s.bgNext ∧ (s.addWrap f i j n).bgAt = s.bgAt ∧
    (s.addWrap f i j n).bgSweeps = s.bgSweeps ∧ (s.addWrap f i j n).repairs = s.repairs ∧
    (s.addWrap f i j n).newRepairs = s.newRepairs ∧ (s.addWrap f i j n).resets = s.resets ∧
    (s.addWrap f i j n).ecl = s.ecl ∧ (s.addWrap f i j n).conj = s.conj ∧ (s.addWrap f i j n).adopt = s.adopt ∧
    (s.addWrap f i j n).pwr = s.pwr ∧ (s.addWrap f i j n).postAt = s.postAt ∧ (s.addWrap f i j n).gated = s.gated ∧
    (s.addWrap f i j n).fresh = s.fresh ∧ (s.addWrap f i j n).pending = s.pending :=
  ⟨rfl, rfl, rfl, rfl, rfl, rfl, rfl, rfl, rfl, rfl, rfl, rfl, rfl, rfl, rfl, rfl, rfl, rfl, rfl, rfl, rfl, rfl, rfl, rfl, rfl, rfl, rfl, rfl, rfl, rfl, rfl, rfl, rfl, rfl, rfl, rfl, rfl, rfl, rfl, rfl, rfl, rfl, rfl, rfl, rfl, rfl, rfl, rfl, rfl, rfl, rfl, rfl, rfl, rfl, rfl, rfl, rfl, rfl, rfl, rfl, rfl, rfl, rfl, rfl, rfl, rfl, rfl, rfl, rfl, rfl, rfl, rfl, rfl, rfl, rfl, rfl, rfl, rfl, rfl, rfl⟩

@[simp] theorem State.flag_frame (s : State) (a f : Fld) (i j m : Nat) :
    (s.flag a f i j m).cycle = s.cycle ∧ (s.flag a f i j m).sidereal = s.sidereal ∧ (s.flag a f i j m).st = s.st ∧
    (s.flag a f i j m).tiles = s.tiles ∧ (s.flag a f i j m).tileWas = s.tileWas ∧ (s.flag a f i j m).chans = s.chans ∧
    (s.flag a f i j m).ports = s.ports ∧ (s.flag a f i j m).flits = s.flits ∧
    (s.flag a f i j m).landings = s.landings ∧ (s.flag a f i j m).pkts = s.pkts ∧ (s.flag a f i j m).inbox = s.inbox ∧
    (s.flag a f i j m).vout = s.vout ∧ (s.flag a f i j m).vcred = s.vcred ∧ (s.flag a f i j m).vend = s.vend ∧
    (s.flag a f i j m).barRel = s.barRel ∧ (s.flag a f i j m).faults = s.faults ∧
    (s.flag a f i j m).abortAt = s.abortAt ∧ (s.flag a f i j m).pubs = s.pubs ∧ (s.flag a f i j m).det = s.det ∧
    (s.flag a f i j m).skip = s.skip ∧ (s.flag a f i j m).routerFailed = s.routerFailed ∧
    (s.flag a f i j m).fusedDefects = s.fusedDefects ∧ (s.flag a f i j m).fusedRepairs = s.fusedRepairs ∧
    (s.flag a f i j m).pendingRemap = s.pendingRemap ∧ (s.flag a f i j m).routeQ = s.routeQ ∧
    (s.flag a f i j m).gather = s.gather ∧ (s.flag a f i j m).frags = s.frags ∧ (s.flag a f i j m).reasm = s.reasm ∧
    (s.flag a f i j m).gbar = s.gbar ∧ (s.flag a f i j m).rank = s.rank ∧ (s.flag a f i j m).freqPort = s.freqPort ∧
    (s.flag a f i j m).holdAt = s.holdAt ∧ (s.flag a f i j m).phase = s.phase ∧
    (s.flag a f i j m).started = s.started ∧ (s.flag a f i j m).jobFenced = s.jobFenced ∧
    (s.flag a f i j m).lastS = s.lastS ∧ (s.flag a f i j m).drainBegan = s.drainBegan ∧
    (s.flag a f i j m).host = s.host ∧ (s.flag a f i j m).hostNext = s.hostNext ∧ (s.flag a f i j m).msix = s.msix ∧
    (s.flag a f i j m).pba = s.pba ∧ (s.flag a f i j m).sent = s.sent ∧ (s.flag a f i j m).mbx = s.mbx ∧
    (s.flag a f i j m).mbxTurn = s.mbxTurn ∧ (s.flag a f i j m).replies = s.replies ∧
    (s.flag a f i j m).prog = s.prog ∧ (s.flag a f i j m).bootReady = s.bootReady ∧ (s.flag a f i j m).boot = s.boot ∧
    (s.flag a f i j m).flash = s.flash ∧ (s.flag a f i j m).sec = s.sec ∧ (s.flag a f i j m).recs = s.recs ∧
    (s.flag a f i j m).logQ = s.logQ ∧ (s.flag a f i j m).log = s.log ∧ (s.flag a f i j m).logNew = s.logNew ∧
    (s.flag a f i j m).almHalf = s.almHalf ∧ (s.flag a f i j m).almanac = s.almanac ∧
    (s.flag a f i j m).almQ = s.almQ ∧ (s.flag a f i j m).hours = s.hours ∧ (s.flag a f i j m).chunks = s.chunks ∧
    (s.flag a f i j m).windows = s.windows ∧ (s.flag a f i j m).due = s.due ∧ (s.flag a f i j m).urgent = s.urgent ∧
    (s.flag a f i j m).saves = s.saves ∧ (s.flag a f i j m).dueAt = s.dueAt ∧ (s.flag a f i j m).chk = s.chk ∧
    (s.flag a f i j m).bg = s.bg ∧ (s.flag a f i j m).bgNext = s.bgNext ∧ (s.flag a f i j m).bgAt = s.bgAt ∧
    (s.flag a f i j m).bgSweeps = s.bgSweeps ∧ (s.flag a f i j m).repairs = s.repairs ∧
    (s.flag a f i j m).newRepairs = s.newRepairs ∧ (s.flag a f i j m).resets = s.resets ∧
    (s.flag a f i j m).ecl = s.ecl ∧ (s.flag a f i j m).conj = s.conj ∧ (s.flag a f i j m).adopt = s.adopt ∧
    (s.flag a f i j m).pwr = s.pwr ∧ (s.flag a f i j m).postAt = s.postAt ∧ (s.flag a f i j m).gated = s.gated ∧
    (s.flag a f i j m).fresh = s.fresh ∧ (s.flag a f i j m).pending = s.pending :=
  ⟨rfl, rfl, rfl, rfl, rfl, rfl, rfl, rfl, rfl, rfl, rfl, rfl, rfl, rfl, rfl, rfl, rfl, rfl, rfl, rfl, rfl, rfl, rfl, rfl, rfl, rfl, rfl, rfl, rfl, rfl, rfl, rfl, rfl, rfl, rfl, rfl, rfl, rfl, rfl, rfl, rfl, rfl, rfl, rfl, rfl, rfl, rfl, rfl, rfl, rfl, rfl, rfl, rfl, rfl, rfl, rfl, rfl, rfl, rfl, rfl, rfl, rfl, rfl, rfl, rfl, rfl, rfl, rfl, rfl, rfl, rfl, rfl, rfl, rfl, rfl, rfl, rfl, rfl, rfl, rfl⟩

@[simp] theorem State.put_frame (s : State) (x : Sent) :
    (s.put x).cycle = s.cycle ∧ (s.put x).sidereal = s.sidereal ∧ (s.put x).st = s.st ∧ (s.put x).regs = s.regs ∧
    (s.put x).tiles = s.tiles ∧ (s.put x).tileWas = s.tileWas ∧ (s.put x).chans = s.chans ∧
    (s.put x).ports = s.ports ∧ (s.put x).flits = s.flits ∧ (s.put x).landings = s.landings ∧
    (s.put x).pkts = s.pkts ∧ (s.put x).inbox = s.inbox ∧ (s.put x).vout = s.vout ∧ (s.put x).vcred = s.vcred ∧
    (s.put x).vend = s.vend ∧ (s.put x).barRel = s.barRel ∧ (s.put x).faults = s.faults ∧
    (s.put x).abortAt = s.abortAt ∧ (s.put x).pubs = s.pubs ∧ (s.put x).det = s.det ∧ (s.put x).skip = s.skip ∧
    (s.put x).routerFailed = s.routerFailed ∧ (s.put x).fusedDefects = s.fusedDefects ∧
    (s.put x).fusedRepairs = s.fusedRepairs ∧ (s.put x).pendingRemap = s.pendingRemap ∧ (s.put x).routeQ = s.routeQ ∧
    (s.put x).gather = s.gather ∧ (s.put x).frags = s.frags ∧ (s.put x).reasm = s.reasm ∧ (s.put x).gbar = s.gbar ∧
    (s.put x).rank = s.rank ∧ (s.put x).freqPort = s.freqPort ∧ (s.put x).holdAt = s.holdAt ∧
    (s.put x).phase = s.phase ∧ (s.put x).started = s.started ∧ (s.put x).jobFenced = s.jobFenced ∧
    (s.put x).lastS = s.lastS ∧ (s.put x).drainBegan = s.drainBegan ∧ (s.put x).host = s.host ∧
    (s.put x).hostNext = s.hostNext ∧ (s.put x).msix = s.msix ∧ (s.put x).pba = s.pba ∧ (s.put x).mbx = s.mbx ∧
    (s.put x).mbxTurn = s.mbxTurn ∧ (s.put x).replies = s.replies ∧ (s.put x).prog = s.prog ∧
    (s.put x).bootReady = s.bootReady ∧ (s.put x).boot = s.boot ∧ (s.put x).flash = s.flash ∧ (s.put x).sec = s.sec ∧
    (s.put x).recs = s.recs ∧ (s.put x).logQ = s.logQ ∧ (s.put x).log = s.log ∧ (s.put x).logNew = s.logNew ∧
    (s.put x).almHalf = s.almHalf ∧ (s.put x).almanac = s.almanac ∧ (s.put x).almQ = s.almQ ∧
    (s.put x).hours = s.hours ∧ (s.put x).chunks = s.chunks ∧ (s.put x).windows = s.windows ∧ (s.put x).due = s.due ∧
    (s.put x).urgent = s.urgent ∧ (s.put x).saves = s.saves ∧ (s.put x).dueAt = s.dueAt ∧ (s.put x).chk = s.chk ∧
    (s.put x).bg = s.bg ∧ (s.put x).bgNext = s.bgNext ∧ (s.put x).bgAt = s.bgAt ∧ (s.put x).bgSweeps = s.bgSweeps ∧
    (s.put x).repairs = s.repairs ∧ (s.put x).newRepairs = s.newRepairs ∧ (s.put x).resets = s.resets ∧
    (s.put x).ecl = s.ecl ∧ (s.put x).conj = s.conj ∧ (s.put x).adopt = s.adopt ∧ (s.put x).pwr = s.pwr ∧
    (s.put x).postAt = s.postAt ∧ (s.put x).gated = s.gated ∧ (s.put x).fresh = s.fresh ∧
    (s.put x).pending = s.pending :=
  ⟨rfl, rfl, rfl, rfl, rfl, rfl, rfl, rfl, rfl, rfl, rfl, rfl, rfl, rfl, rfl, rfl, rfl, rfl, rfl, rfl, rfl, rfl, rfl, rfl, rfl, rfl, rfl, rfl, rfl, rfl, rfl, rfl, rfl, rfl, rfl, rfl, rfl, rfl, rfl, rfl, rfl, rfl, rfl, rfl, rfl, rfl, rfl, rfl, rfl, rfl, rfl, rfl, rfl, rfl, rfl, rfl, rfl, rfl, rfl, rfl, rfl, rfl, rfl, rfl, rfl, rfl, rfl, rfl, rfl, rfl, rfl, rfl, rfl, rfl, rfl, rfl, rfl, rfl, rfl, rfl⟩

@[simp] theorem State.setTile_frame (s : State) (t : Nat) (x : Tile) :
    (s.setTile t x).cycle = s.cycle ∧ (s.setTile t x).sidereal = s.sidereal ∧ (s.setTile t x).st = s.st ∧
    (s.setTile t x).regs = s.regs ∧ (s.setTile t x).tileWas = s.tileWas ∧ (s.setTile t x).chans = s.chans ∧
    (s.setTile t x).ports = s.ports ∧ (s.setTile t x).flits = s.flits ∧ (s.setTile t x).landings = s.landings ∧
    (s.setTile t x).pkts = s.pkts ∧ (s.setTile t x).inbox = s.inbox ∧ (s.setTile t x).vout = s.vout ∧
    (s.setTile t x).vcred = s.vcred ∧ (s.setTile t x).vend = s.vend ∧ (s.setTile t x).barRel = s.barRel ∧
    (s.setTile t x).faults = s.faults ∧ (s.setTile t x).abortAt = s.abortAt ∧ (s.setTile t x).pubs = s.pubs ∧
    (s.setTile t x).det = s.det ∧ (s.setTile t x).skip = s.skip ∧ (s.setTile t x).routerFailed = s.routerFailed ∧
    (s.setTile t x).fusedDefects = s.fusedDefects ∧ (s.setTile t x).fusedRepairs = s.fusedRepairs ∧
    (s.setTile t x).pendingRemap = s.pendingRemap ∧ (s.setTile t x).routeQ = s.routeQ ∧
    (s.setTile t x).gather = s.gather ∧ (s.setTile t x).frags = s.frags ∧ (s.setTile t x).reasm = s.reasm ∧
    (s.setTile t x).gbar = s.gbar ∧ (s.setTile t x).rank = s.rank ∧ (s.setTile t x).freqPort = s.freqPort ∧
    (s.setTile t x).holdAt = s.holdAt ∧ (s.setTile t x).phase = s.phase ∧ (s.setTile t x).started = s.started ∧
    (s.setTile t x).jobFenced = s.jobFenced ∧ (s.setTile t x).lastS = s.lastS ∧
    (s.setTile t x).drainBegan = s.drainBegan ∧ (s.setTile t x).host = s.host ∧
    (s.setTile t x).hostNext = s.hostNext ∧ (s.setTile t x).msix = s.msix ∧ (s.setTile t x).pba = s.pba ∧
    (s.setTile t x).sent = s.sent ∧ (s.setTile t x).mbx = s.mbx ∧ (s.setTile t x).mbxTurn = s.mbxTurn ∧
    (s.setTile t x).replies = s.replies ∧ (s.setTile t x).prog = s.prog ∧ (s.setTile t x).bootReady = s.bootReady ∧
    (s.setTile t x).boot = s.boot ∧ (s.setTile t x).flash = s.flash ∧ (s.setTile t x).sec = s.sec ∧
    (s.setTile t x).recs = s.recs ∧ (s.setTile t x).logQ = s.logQ ∧ (s.setTile t x).log = s.log ∧
    (s.setTile t x).logNew = s.logNew ∧ (s.setTile t x).almHalf = s.almHalf ∧ (s.setTile t x).almanac = s.almanac ∧
    (s.setTile t x).almQ = s.almQ ∧ (s.setTile t x).hours = s.hours ∧ (s.setTile t x).chunks = s.chunks ∧
    (s.setTile t x).windows = s.windows ∧ (s.setTile t x).due = s.due ∧ (s.setTile t x).urgent = s.urgent ∧
    (s.setTile t x).saves = s.saves ∧ (s.setTile t x).dueAt = s.dueAt ∧ (s.setTile t x).chk = s.chk ∧
    (s.setTile t x).bg = s.bg ∧ (s.setTile t x).bgNext = s.bgNext ∧ (s.setTile t x).bgAt = s.bgAt ∧
    (s.setTile t x).bgSweeps = s.bgSweeps ∧ (s.setTile t x).repairs = s.repairs ∧
    (s.setTile t x).newRepairs = s.newRepairs ∧ (s.setTile t x).resets = s.resets ∧ (s.setTile t x).ecl = s.ecl ∧
    (s.setTile t x).conj = s.conj ∧ (s.setTile t x).adopt = s.adopt ∧ (s.setTile t x).pwr = s.pwr ∧
    (s.setTile t x).postAt = s.postAt ∧ (s.setTile t x).gated = s.gated ∧ (s.setTile t x).fresh = s.fresh ∧
    (s.setTile t x).pending = s.pending :=
  ⟨rfl, rfl, rfl, rfl, rfl, rfl, rfl, rfl, rfl, rfl, rfl, rfl, rfl, rfl, rfl, rfl, rfl, rfl, rfl, rfl, rfl, rfl, rfl, rfl, rfl, rfl, rfl, rfl, rfl, rfl, rfl, rfl, rfl, rfl, rfl, rfl, rfl, rfl, rfl, rfl, rfl, rfl, rfl, rfl, rfl, rfl, rfl, rfl, rfl, rfl, rfl, rfl, rfl, rfl, rfl, rfl, rfl, rfl, rfl, rfl, rfl, rfl, rfl, rfl, rfl, rfl, rfl, rfl, rfl, rfl, rfl, rfl, rfl, rfl, rfl, rfl, rfl, rfl, rfl, rfl⟩

@[simp] theorem State.setChan_frame (s : State) (ch : Nat) (x : Chan) :
    (s.setChan ch x).cycle = s.cycle ∧ (s.setChan ch x).sidereal = s.sidereal ∧ (s.setChan ch x).st = s.st ∧
    (s.setChan ch x).regs = s.regs ∧ (s.setChan ch x).tiles = s.tiles ∧ (s.setChan ch x).tileWas = s.tileWas ∧
    (s.setChan ch x).ports = s.ports ∧ (s.setChan ch x).flits = s.flits ∧ (s.setChan ch x).landings = s.landings ∧
    (s.setChan ch x).pkts = s.pkts ∧ (s.setChan ch x).inbox = s.inbox ∧ (s.setChan ch x).vout = s.vout ∧
    (s.setChan ch x).vcred = s.vcred ∧ (s.setChan ch x).vend = s.vend ∧ (s.setChan ch x).barRel = s.barRel ∧
    (s.setChan ch x).faults = s.faults ∧ (s.setChan ch x).abortAt = s.abortAt ∧ (s.setChan ch x).pubs = s.pubs ∧
    (s.setChan ch x).det = s.det ∧ (s.setChan ch x).skip = s.skip ∧ (s.setChan ch x).routerFailed = s.routerFailed ∧
    (s.setChan ch x).fusedDefects = s.fusedDefects ∧ (s.setChan ch x).fusedRepairs = s.fusedRepairs ∧
    (s.setChan ch x).pendingRemap = s.pendingRemap ∧ (s.setChan ch x).routeQ = s.routeQ ∧
    (s.setChan ch x).gather = s.gather ∧ (s.setChan ch x).frags = s.frags ∧ (s.setChan ch x).reasm = s.reasm ∧
    (s.setChan ch x).gbar = s.gbar ∧ (s.setChan ch x).rank = s.rank ∧ (s.setChan ch x).freqPort = s.freqPort ∧
    (s.setChan ch x).holdAt = s.holdAt ∧ (s.setChan ch x).phase = s.phase ∧ (s.setChan ch x).started = s.started ∧
    (s.setChan ch x).jobFenced = s.jobFenced ∧ (s.setChan ch x).lastS = s.lastS ∧
    (s.setChan ch x).drainBegan = s.drainBegan ∧ (s.setChan ch x).host = s.host ∧
    (s.setChan ch x).hostNext = s.hostNext ∧ (s.setChan ch x).msix = s.msix ∧ (s.setChan ch x).pba = s.pba ∧
    (s.setChan ch x).sent = s.sent ∧ (s.setChan ch x).mbx = s.mbx ∧ (s.setChan ch x).mbxTurn = s.mbxTurn ∧
    (s.setChan ch x).replies = s.replies ∧ (s.setChan ch x).prog = s.prog ∧ (s.setChan ch x).bootReady = s.bootReady ∧
    (s.setChan ch x).boot = s.boot ∧ (s.setChan ch x).flash = s.flash ∧ (s.setChan ch x).sec = s.sec ∧
    (s.setChan ch x).recs = s.recs ∧ (s.setChan ch x).logQ = s.logQ ∧ (s.setChan ch x).log = s.log ∧
    (s.setChan ch x).logNew = s.logNew ∧ (s.setChan ch x).almHalf = s.almHalf ∧ (s.setChan ch x).almanac = s.almanac ∧
    (s.setChan ch x).almQ = s.almQ ∧ (s.setChan ch x).hours = s.hours ∧ (s.setChan ch x).chunks = s.chunks ∧
    (s.setChan ch x).windows = s.windows ∧ (s.setChan ch x).due = s.due ∧ (s.setChan ch x).urgent = s.urgent ∧
    (s.setChan ch x).saves = s.saves ∧ (s.setChan ch x).dueAt = s.dueAt ∧ (s.setChan ch x).chk = s.chk ∧
    (s.setChan ch x).bg = s.bg ∧ (s.setChan ch x).bgNext = s.bgNext ∧ (s.setChan ch x).bgAt = s.bgAt ∧
    (s.setChan ch x).bgSweeps = s.bgSweeps ∧ (s.setChan ch x).repairs = s.repairs ∧
    (s.setChan ch x).newRepairs = s.newRepairs ∧ (s.setChan ch x).resets = s.resets ∧ (s.setChan ch x).ecl = s.ecl ∧
    (s.setChan ch x).conj = s.conj ∧ (s.setChan ch x).adopt = s.adopt ∧ (s.setChan ch x).pwr = s.pwr ∧
    (s.setChan ch x).postAt = s.postAt ∧ (s.setChan ch x).gated = s.gated ∧ (s.setChan ch x).fresh = s.fresh ∧
    (s.setChan ch x).pending = s.pending :=
  ⟨rfl, rfl, rfl, rfl, rfl, rfl, rfl, rfl, rfl, rfl, rfl, rfl, rfl, rfl, rfl, rfl, rfl, rfl, rfl, rfl, rfl, rfl, rfl, rfl, rfl, rfl, rfl, rfl, rfl, rfl, rfl, rfl, rfl, rfl, rfl, rfl, rfl, rfl, rfl, rfl, rfl, rfl, rfl, rfl, rfl, rfl, rfl, rfl, rfl, rfl, rfl, rfl, rfl, rfl, rfl, rfl, rfl, rfl, rfl, rfl, rfl, rfl, rfl, rfl, rfl, rfl, rfl, rfl, rfl, rfl, rfl, rfl, rfl, rfl, rfl, rfl, rfl, rfl, rfl, rfl⟩

@[simp] theorem State.setPort_frame (s : State) (n : Nat) (x : Port) :
    (s.setPort n x).cycle = s.cycle ∧ (s.setPort n x).sidereal = s.sidereal ∧ (s.setPort n x).st = s.st ∧
    (s.setPort n x).regs = s.regs ∧ (s.setPort n x).tiles = s.tiles ∧ (s.setPort n x).tileWas = s.tileWas ∧
    (s.setPort n x).chans = s.chans ∧ (s.setPort n x).flits = s.flits ∧ (s.setPort n x).landings = s.landings ∧
    (s.setPort n x).pkts = s.pkts ∧ (s.setPort n x).inbox = s.inbox ∧ (s.setPort n x).vout = s.vout ∧
    (s.setPort n x).vcred = s.vcred ∧ (s.setPort n x).vend = s.vend ∧ (s.setPort n x).barRel = s.barRel ∧
    (s.setPort n x).faults = s.faults ∧ (s.setPort n x).abortAt = s.abortAt ∧ (s.setPort n x).pubs = s.pubs ∧
    (s.setPort n x).det = s.det ∧ (s.setPort n x).skip = s.skip ∧ (s.setPort n x).routerFailed = s.routerFailed ∧
    (s.setPort n x).fusedDefects = s.fusedDefects ∧ (s.setPort n x).fusedRepairs = s.fusedRepairs ∧
    (s.setPort n x).pendingRemap = s.pendingRemap ∧ (s.setPort n x).routeQ = s.routeQ ∧
    (s.setPort n x).gather = s.gather ∧ (s.setPort n x).frags = s.frags ∧ (s.setPort n x).reasm = s.reasm ∧
    (s.setPort n x).gbar = s.gbar ∧ (s.setPort n x).rank = s.rank ∧ (s.setPort n x).freqPort = s.freqPort ∧
    (s.setPort n x).holdAt = s.holdAt ∧ (s.setPort n x).phase = s.phase ∧ (s.setPort n x).started = s.started ∧
    (s.setPort n x).jobFenced = s.jobFenced ∧ (s.setPort n x).lastS = s.lastS ∧
    (s.setPort n x).drainBegan = s.drainBegan ∧ (s.setPort n x).host = s.host ∧
    (s.setPort n x).hostNext = s.hostNext ∧ (s.setPort n x).msix = s.msix ∧ (s.setPort n x).pba = s.pba ∧
    (s.setPort n x).sent = s.sent ∧ (s.setPort n x).mbx = s.mbx ∧ (s.setPort n x).mbxTurn = s.mbxTurn ∧
    (s.setPort n x).replies = s.replies ∧ (s.setPort n x).prog = s.prog ∧ (s.setPort n x).bootReady = s.bootReady ∧
    (s.setPort n x).boot = s.boot ∧ (s.setPort n x).flash = s.flash ∧ (s.setPort n x).sec = s.sec ∧
    (s.setPort n x).recs = s.recs ∧ (s.setPort n x).logQ = s.logQ ∧ (s.setPort n x).log = s.log ∧
    (s.setPort n x).logNew = s.logNew ∧ (s.setPort n x).almHalf = s.almHalf ∧ (s.setPort n x).almanac = s.almanac ∧
    (s.setPort n x).almQ = s.almQ ∧ (s.setPort n x).hours = s.hours ∧ (s.setPort n x).chunks = s.chunks ∧
    (s.setPort n x).windows = s.windows ∧ (s.setPort n x).due = s.due ∧ (s.setPort n x).urgent = s.urgent ∧
    (s.setPort n x).saves = s.saves ∧ (s.setPort n x).dueAt = s.dueAt ∧ (s.setPort n x).chk = s.chk ∧
    (s.setPort n x).bg = s.bg ∧ (s.setPort n x).bgNext = s.bgNext ∧ (s.setPort n x).bgAt = s.bgAt ∧
    (s.setPort n x).bgSweeps = s.bgSweeps ∧ (s.setPort n x).repairs = s.repairs ∧
    (s.setPort n x).newRepairs = s.newRepairs ∧ (s.setPort n x).resets = s.resets ∧ (s.setPort n x).ecl = s.ecl ∧
    (s.setPort n x).conj = s.conj ∧ (s.setPort n x).adopt = s.adopt ∧ (s.setPort n x).pwr = s.pwr ∧
    (s.setPort n x).postAt = s.postAt ∧ (s.setPort n x).gated = s.gated ∧ (s.setPort n x).fresh = s.fresh ∧
    (s.setPort n x).pending = s.pending :=
  ⟨rfl, rfl, rfl, rfl, rfl, rfl, rfl, rfl, rfl, rfl, rfl, rfl, rfl, rfl, rfl, rfl, rfl, rfl, rfl, rfl, rfl, rfl, rfl, rfl, rfl, rfl, rfl, rfl, rfl, rfl, rfl, rfl, rfl, rfl, rfl, rfl, rfl, rfl, rfl, rfl, rfl, rfl, rfl, rfl, rfl, rfl, rfl, rfl, rfl, rfl, rfl, rfl, rfl, rfl, rfl, rfl, rfl, rfl, rfl, rfl, rfl, rfl, rfl, rfl, rfl, rfl, rfl, rfl, rfl, rfl, rfl, rfl, rfl, rfl, rfl, rfl, rfl, rfl, rfl, rfl⟩

@[simp] theorem State.setGb_frame (s : State) (i : Nat) (x : GBar) :
    (s.setGb i x).cycle = s.cycle ∧ (s.setGb i x).sidereal = s.sidereal ∧ (s.setGb i x).st = s.st ∧
    (s.setGb i x).regs = s.regs ∧ (s.setGb i x).tiles = s.tiles ∧ (s.setGb i x).tileWas = s.tileWas ∧
    (s.setGb i x).chans = s.chans ∧ (s.setGb i x).ports = s.ports ∧ (s.setGb i x).flits = s.flits ∧
    (s.setGb i x).landings = s.landings ∧ (s.setGb i x).pkts = s.pkts ∧ (s.setGb i x).inbox = s.inbox ∧
    (s.setGb i x).vout = s.vout ∧ (s.setGb i x).vcred = s.vcred ∧ (s.setGb i x).vend = s.vend ∧
    (s.setGb i x).barRel = s.barRel ∧ (s.setGb i x).faults = s.faults ∧ (s.setGb i x).abortAt = s.abortAt ∧
    (s.setGb i x).pubs = s.pubs ∧ (s.setGb i x).det = s.det ∧ (s.setGb i x).skip = s.skip ∧
    (s.setGb i x).routerFailed = s.routerFailed ∧ (s.setGb i x).fusedDefects = s.fusedDefects ∧
    (s.setGb i x).fusedRepairs = s.fusedRepairs ∧ (s.setGb i x).pendingRemap = s.pendingRemap ∧
    (s.setGb i x).routeQ = s.routeQ ∧ (s.setGb i x).gather = s.gather ∧ (s.setGb i x).frags = s.frags ∧
    (s.setGb i x).reasm = s.reasm ∧ (s.setGb i x).rank = s.rank ∧ (s.setGb i x).freqPort = s.freqPort ∧
    (s.setGb i x).holdAt = s.holdAt ∧ (s.setGb i x).phase = s.phase ∧ (s.setGb i x).started = s.started ∧
    (s.setGb i x).jobFenced = s.jobFenced ∧ (s.setGb i x).lastS = s.lastS ∧ (s.setGb i x).drainBegan = s.drainBegan ∧
    (s.setGb i x).host = s.host ∧ (s.setGb i x).hostNext = s.hostNext ∧ (s.setGb i x).msix = s.msix ∧
    (s.setGb i x).pba = s.pba ∧ (s.setGb i x).sent = s.sent ∧ (s.setGb i x).mbx = s.mbx ∧
    (s.setGb i x).mbxTurn = s.mbxTurn ∧ (s.setGb i x).replies = s.replies ∧ (s.setGb i x).prog = s.prog ∧
    (s.setGb i x).bootReady = s.bootReady ∧ (s.setGb i x).boot = s.boot ∧ (s.setGb i x).flash = s.flash ∧
    (s.setGb i x).sec = s.sec ∧ (s.setGb i x).recs = s.recs ∧ (s.setGb i x).logQ = s.logQ ∧
    (s.setGb i x).log = s.log ∧ (s.setGb i x).logNew = s.logNew ∧ (s.setGb i x).almHalf = s.almHalf ∧
    (s.setGb i x).almanac = s.almanac ∧ (s.setGb i x).almQ = s.almQ ∧ (s.setGb i x).hours = s.hours ∧
    (s.setGb i x).chunks = s.chunks ∧ (s.setGb i x).windows = s.windows ∧ (s.setGb i x).due = s.due ∧
    (s.setGb i x).urgent = s.urgent ∧ (s.setGb i x).saves = s.saves ∧ (s.setGb i x).dueAt = s.dueAt ∧
    (s.setGb i x).chk = s.chk ∧ (s.setGb i x).bg = s.bg ∧ (s.setGb i x).bgNext = s.bgNext ∧
    (s.setGb i x).bgAt = s.bgAt ∧ (s.setGb i x).bgSweeps = s.bgSweeps ∧ (s.setGb i x).repairs = s.repairs ∧
    (s.setGb i x).newRepairs = s.newRepairs ∧ (s.setGb i x).resets = s.resets ∧ (s.setGb i x).ecl = s.ecl ∧
    (s.setGb i x).conj = s.conj ∧ (s.setGb i x).adopt = s.adopt ∧ (s.setGb i x).pwr = s.pwr ∧
    (s.setGb i x).postAt = s.postAt ∧ (s.setGb i x).gated = s.gated ∧ (s.setGb i x).fresh = s.fresh ∧
    (s.setGb i x).pending = s.pending :=
  ⟨rfl, rfl, rfl, rfl, rfl, rfl, rfl, rfl, rfl, rfl, rfl, rfl, rfl, rfl, rfl, rfl, rfl, rfl, rfl, rfl, rfl, rfl, rfl, rfl, rfl, rfl, rfl, rfl, rfl, rfl, rfl, rfl, rfl, rfl, rfl, rfl, rfl, rfl, rfl, rfl, rfl, rfl, rfl, rfl, rfl, rfl, rfl, rfl, rfl, rfl, rfl, rfl, rfl, rfl, rfl, rfl, rfl, rfl, rfl, rfl, rfl, rfl, rfl, rfl, rfl, rfl, rfl, rfl, rfl, rfl, rfl, rfl, rfl, rfl, rfl, rfl, rfl, rfl, rfl, rfl⟩

@[simp] theorem State.addRec_frame (s : State) (kind unitType die unitIndex x y op sensor mv : Nat) (a b c d : Word) (rept flags status : Nat) :
    (s.addRec kind unitType die unitIndex x y op sensor mv a b c d rept flags status).cycle = s.cycle ∧
    (s.addRec kind unitType die unitIndex x y op sensor mv a b c d rept flags status).sidereal = s.sidereal ∧
    (s.addRec kind unitType die unitIndex x y op sensor mv a b c d rept flags status).st = s.st ∧
    (s.addRec kind unitType die unitIndex x y op sensor mv a b c d rept flags status).regs = s.regs ∧
    (s.addRec kind unitType die unitIndex x y op sensor mv a b c d rept flags status).tiles = s.tiles ∧
    (s.addRec kind unitType die unitIndex x y op sensor mv a b c d rept flags status).tileWas = s.tileWas ∧
    (s.addRec kind unitType die unitIndex x y op sensor mv a b c d rept flags status).chans = s.chans ∧
    (s.addRec kind unitType die unitIndex x y op sensor mv a b c d rept flags status).ports = s.ports ∧
    (s.addRec kind unitType die unitIndex x y op sensor mv a b c d rept flags status).flits = s.flits ∧
    (s.addRec kind unitType die unitIndex x y op sensor mv a b c d rept flags status).landings = s.landings ∧
    (s.addRec kind unitType die unitIndex x y op sensor mv a b c d rept flags status).pkts = s.pkts ∧
    (s.addRec kind unitType die unitIndex x y op sensor mv a b c d rept flags status).inbox = s.inbox ∧
    (s.addRec kind unitType die unitIndex x y op sensor mv a b c d rept flags status).vout = s.vout ∧
    (s.addRec kind unitType die unitIndex x y op sensor mv a b c d rept flags status).vcred = s.vcred ∧
    (s.addRec kind unitType die unitIndex x y op sensor mv a b c d rept flags status).vend = s.vend ∧
    (s.addRec kind unitType die unitIndex x y op sensor mv a b c d rept flags status).barRel = s.barRel ∧
    (s.addRec kind unitType die unitIndex x y op sensor mv a b c d rept flags status).faults = s.faults ∧
    (s.addRec kind unitType die unitIndex x y op sensor mv a b c d rept flags status).abortAt = s.abortAt ∧
    (s.addRec kind unitType die unitIndex x y op sensor mv a b c d rept flags status).pubs = s.pubs ∧
    (s.addRec kind unitType die unitIndex x y op sensor mv a b c d rept flags status).det = s.det ∧
    (s.addRec kind unitType die unitIndex x y op sensor mv a b c d rept flags status).skip = s.skip ∧
    (s.addRec kind unitType die unitIndex x y op sensor mv a b c d rept flags status).routerFailed = s.routerFailed ∧
    (s.addRec kind unitType die unitIndex x y op sensor mv a b c d rept flags status).fusedDefects = s.fusedDefects ∧
    (s.addRec kind unitType die unitIndex x y op sensor mv a b c d rept flags status).fusedRepairs = s.fusedRepairs ∧
    (s.addRec kind unitType die unitIndex x y op sensor mv a b c d rept flags status).pendingRemap = s.pendingRemap ∧
    (s.addRec kind unitType die unitIndex x y op sensor mv a b c d rept flags status).routeQ = s.routeQ ∧
    (s.addRec kind unitType die unitIndex x y op sensor mv a b c d rept flags status).gather = s.gather ∧
    (s.addRec kind unitType die unitIndex x y op sensor mv a b c d rept flags status).frags = s.frags ∧
    (s.addRec kind unitType die unitIndex x y op sensor mv a b c d rept flags status).reasm = s.reasm ∧
    (s.addRec kind unitType die unitIndex x y op sensor mv a b c d rept flags status).gbar = s.gbar ∧
    (s.addRec kind unitType die unitIndex x y op sensor mv a b c d rept flags status).rank = s.rank ∧
    (s.addRec kind unitType die unitIndex x y op sensor mv a b c d rept flags status).freqPort = s.freqPort ∧
    (s.addRec kind unitType die unitIndex x y op sensor mv a b c d rept flags status).holdAt = s.holdAt ∧
    (s.addRec kind unitType die unitIndex x y op sensor mv a b c d rept flags status).phase = s.phase ∧
    (s.addRec kind unitType die unitIndex x y op sensor mv a b c d rept flags status).started = s.started ∧
    (s.addRec kind unitType die unitIndex x y op sensor mv a b c d rept flags status).jobFenced = s.jobFenced ∧
    (s.addRec kind unitType die unitIndex x y op sensor mv a b c d rept flags status).lastS = s.lastS ∧
    (s.addRec kind unitType die unitIndex x y op sensor mv a b c d rept flags status).drainBegan = s.drainBegan ∧
    (s.addRec kind unitType die unitIndex x y op sensor mv a b c d rept flags status).host = s.host ∧
    (s.addRec kind unitType die unitIndex x y op sensor mv a b c d rept flags status).hostNext = s.hostNext ∧
    (s.addRec kind unitType die unitIndex x y op sensor mv a b c d rept flags status).msix = s.msix ∧
    (s.addRec kind unitType die unitIndex x y op sensor mv a b c d rept flags status).pba = s.pba ∧
    (s.addRec kind unitType die unitIndex x y op sensor mv a b c d rept flags status).sent = s.sent ∧
    (s.addRec kind unitType die unitIndex x y op sensor mv a b c d rept flags status).mbx = s.mbx ∧
    (s.addRec kind unitType die unitIndex x y op sensor mv a b c d rept flags status).mbxTurn = s.mbxTurn ∧
    (s.addRec kind unitType die unitIndex x y op sensor mv a b c d rept flags status).replies = s.replies ∧
    (s.addRec kind unitType die unitIndex x y op sensor mv a b c d rept flags status).prog = s.prog ∧
    (s.addRec kind unitType die unitIndex x y op sensor mv a b c d rept flags status).bootReady = s.bootReady ∧
    (s.addRec kind unitType die unitIndex x y op sensor mv a b c d rept flags status).boot = s.boot ∧
    (s.addRec kind unitType die unitIndex x y op sensor mv a b c d rept flags status).flash = s.flash ∧
    (s.addRec kind unitType die unitIndex x y op sensor mv a b c d rept flags status).sec = s.sec ∧
    (s.addRec kind unitType die unitIndex x y op sensor mv a b c d rept flags status).logQ = s.logQ ∧
    (s.addRec kind unitType die unitIndex x y op sensor mv a b c d rept flags status).log = s.log ∧
    (s.addRec kind unitType die unitIndex x y op sensor mv a b c d rept flags status).logNew = s.logNew ∧
    (s.addRec kind unitType die unitIndex x y op sensor mv a b c d rept flags status).almHalf = s.almHalf ∧
    (s.addRec kind unitType die unitIndex x y op sensor mv a b c d rept flags status).almanac = s.almanac ∧
    (s.addRec kind unitType die unitIndex x y op sensor mv a b c d rept flags status).almQ = s.almQ ∧
    (s.addRec kind unitType die unitIndex x y op sensor mv a b c d rept flags status).hours = s.hours ∧
    (s.addRec kind unitType die unitIndex x y op sensor mv a b c d rept flags status).chunks = s.chunks ∧
    (s.addRec kind unitType die unitIndex x y op sensor mv a b c d rept flags status).windows = s.windows ∧
    (s.addRec kind unitType die unitIndex x y op sensor mv a b c d rept flags status).due = s.due ∧
    (s.addRec kind unitType die unitIndex x y op sensor mv a b c d rept flags status).urgent = s.urgent ∧
    (s.addRec kind unitType die unitIndex x y op sensor mv a b c d rept flags status).saves = s.saves ∧
    (s.addRec kind unitType die unitIndex x y op sensor mv a b c d rept flags status).dueAt = s.dueAt ∧
    (s.addRec kind unitType die unitIndex x y op sensor mv a b c d rept flags status).chk = s.chk ∧
    (s.addRec kind unitType die unitIndex x y op sensor mv a b c d rept flags status).bg = s.bg ∧
    (s.addRec kind unitType die unitIndex x y op sensor mv a b c d rept flags status).bgNext = s.bgNext ∧
    (s.addRec kind unitType die unitIndex x y op sensor mv a b c d rept flags status).bgAt = s.bgAt ∧
    (s.addRec kind unitType die unitIndex x y op sensor mv a b c d rept flags status).bgSweeps = s.bgSweeps ∧
    (s.addRec kind unitType die unitIndex x y op sensor mv a b c d rept flags status).repairs = s.repairs ∧
    (s.addRec kind unitType die unitIndex x y op sensor mv a b c d rept flags status).newRepairs = s.newRepairs ∧
    (s.addRec kind unitType die unitIndex x y op sensor mv a b c d rept flags status).resets = s.resets ∧
    (s.addRec kind unitType die unitIndex x y op sensor mv a b c d rept flags status).ecl = s.ecl ∧
    (s.addRec kind unitType die unitIndex x y op sensor mv a b c d rept flags status).conj = s.conj ∧
    (s.addRec kind unitType die unitIndex x y op sensor mv a b c d rept flags status).adopt = s.adopt ∧
    (s.addRec kind unitType die unitIndex x y op sensor mv a b c d rept flags status).pwr = s.pwr ∧
    (s.addRec kind unitType die unitIndex x y op sensor mv a b c d rept flags status).postAt = s.postAt ∧
    (s.addRec kind unitType die unitIndex x y op sensor mv a b c d rept flags status).gated = s.gated ∧
    (s.addRec kind unitType die unitIndex x y op sensor mv a b c d rept flags status).fresh = s.fresh ∧
    (s.addRec kind unitType die unitIndex x y op sensor mv a b c d rept flags status).pending = s.pending :=
  ⟨rfl, rfl, rfl, rfl, rfl, rfl, rfl, rfl, rfl, rfl, rfl, rfl, rfl, rfl, rfl, rfl, rfl, rfl, rfl, rfl, rfl, rfl, rfl, rfl, rfl, rfl, rfl, rfl, rfl, rfl, rfl, rfl, rfl, rfl, rfl, rfl, rfl, rfl, rfl, rfl, rfl, rfl, rfl, rfl, rfl, rfl, rfl, rfl, rfl, rfl, rfl, rfl, rfl, rfl, rfl, rfl, rfl, rfl, rfl, rfl, rfl, rfl, rfl, rfl, rfl, rfl, rfl, rfl, rfl, rfl, rfl, rfl, rfl, rfl, rfl, rfl, rfl, rfl, rfl, rfl⟩

@[simp] theorem State.tileRec_frame (s : State) (t kind unitType unitIndex op : Nat) (a b c d : Word) (rept flags status : Nat) :
    (s.tileRec t kind unitType unitIndex op a b c d rept flags status).cycle = s.cycle ∧
    (s.tileRec t kind unitType unitIndex op a b c d rept flags status).sidereal = s.sidereal ∧
    (s.tileRec t kind unitType unitIndex op a b c d rept flags status).st = s.st ∧
    (s.tileRec t kind unitType unitIndex op a b c d rept flags status).regs = s.regs ∧
    (s.tileRec t kind unitType unitIndex op a b c d rept flags status).tiles = s.tiles ∧
    (s.tileRec t kind unitType unitIndex op a b c d rept flags status).tileWas = s.tileWas ∧
    (s.tileRec t kind unitType unitIndex op a b c d rept flags status).chans = s.chans ∧
    (s.tileRec t kind unitType unitIndex op a b c d rept flags status).ports = s.ports ∧
    (s.tileRec t kind unitType unitIndex op a b c d rept flags status).flits = s.flits ∧
    (s.tileRec t kind unitType unitIndex op a b c d rept flags status).landings = s.landings ∧
    (s.tileRec t kind unitType unitIndex op a b c d rept flags status).inbox = s.inbox ∧
    (s.tileRec t kind unitType unitIndex op a b c d rept flags status).vout = s.vout ∧
    (s.tileRec t kind unitType unitIndex op a b c d rept flags status).vcred = s.vcred ∧
    (s.tileRec t kind unitType unitIndex op a b c d rept flags status).vend = s.vend ∧
    (s.tileRec t kind unitType unitIndex op a b c d rept flags status).barRel = s.barRel ∧
    (s.tileRec t kind unitType unitIndex op a b c d rept flags status).faults = s.faults ∧
    (s.tileRec t kind unitType unitIndex op a b c d rept flags status).abortAt = s.abortAt ∧
    (s.tileRec t kind unitType unitIndex op a b c d rept flags status).pubs = s.pubs ∧
    (s.tileRec t kind unitType unitIndex op a b c d rept flags status).det = s.det ∧
    (s.tileRec t kind unitType unitIndex op a b c d rept flags status).skip = s.skip ∧
    (s.tileRec t kind unitType unitIndex op a b c d rept flags status).routerFailed = s.routerFailed ∧
    (s.tileRec t kind unitType unitIndex op a b c d rept flags status).fusedDefects = s.fusedDefects ∧
    (s.tileRec t kind unitType unitIndex op a b c d rept flags status).fusedRepairs = s.fusedRepairs ∧
    (s.tileRec t kind unitType unitIndex op a b c d rept flags status).pendingRemap = s.pendingRemap ∧
    (s.tileRec t kind unitType unitIndex op a b c d rept flags status).routeQ = s.routeQ ∧
    (s.tileRec t kind unitType unitIndex op a b c d rept flags status).gather = s.gather ∧
    (s.tileRec t kind unitType unitIndex op a b c d rept flags status).frags = s.frags ∧
    (s.tileRec t kind unitType unitIndex op a b c d rept flags status).reasm = s.reasm ∧
    (s.tileRec t kind unitType unitIndex op a b c d rept flags status).gbar = s.gbar ∧
    (s.tileRec t kind unitType unitIndex op a b c d rept flags status).rank = s.rank ∧
    (s.tileRec t kind unitType unitIndex op a b c d rept flags status).freqPort = s.freqPort ∧
    (s.tileRec t kind unitType unitIndex op a b c d rept flags status).holdAt = s.holdAt ∧
    (s.tileRec t kind unitType unitIndex op a b c d rept flags status).phase = s.phase ∧
    (s.tileRec t kind unitType unitIndex op a b c d rept flags status).started = s.started ∧
    (s.tileRec t kind unitType unitIndex op a b c d rept flags status).jobFenced = s.jobFenced ∧
    (s.tileRec t kind unitType unitIndex op a b c d rept flags status).lastS = s.lastS ∧
    (s.tileRec t kind unitType unitIndex op a b c d rept flags status).drainBegan = s.drainBegan ∧
    (s.tileRec t kind unitType unitIndex op a b c d rept flags status).host = s.host ∧
    (s.tileRec t kind unitType unitIndex op a b c d rept flags status).hostNext = s.hostNext ∧
    (s.tileRec t kind unitType unitIndex op a b c d rept flags status).msix = s.msix ∧
    (s.tileRec t kind unitType unitIndex op a b c d rept flags status).pba = s.pba ∧
    (s.tileRec t kind unitType unitIndex op a b c d rept flags status).sent = s.sent ∧
    (s.tileRec t kind unitType unitIndex op a b c d rept flags status).mbx = s.mbx ∧
    (s.tileRec t kind unitType unitIndex op a b c d rept flags status).mbxTurn = s.mbxTurn ∧
    (s.tileRec t kind unitType unitIndex op a b c d rept flags status).replies = s.replies ∧
    (s.tileRec t kind unitType unitIndex op a b c d rept flags status).prog = s.prog ∧
    (s.tileRec t kind unitType unitIndex op a b c d rept flags status).bootReady = s.bootReady ∧
    (s.tileRec t kind unitType unitIndex op a b c d rept flags status).boot = s.boot ∧
    (s.tileRec t kind unitType unitIndex op a b c d rept flags status).flash = s.flash ∧
    (s.tileRec t kind unitType unitIndex op a b c d rept flags status).sec = s.sec ∧
    (s.tileRec t kind unitType unitIndex op a b c d rept flags status).recs = s.recs ∧
    (s.tileRec t kind unitType unitIndex op a b c d rept flags status).logQ = s.logQ ∧
    (s.tileRec t kind unitType unitIndex op a b c d rept flags status).log = s.log ∧
    (s.tileRec t kind unitType unitIndex op a b c d rept flags status).logNew = s.logNew ∧
    (s.tileRec t kind unitType unitIndex op a b c d rept flags status).almHalf = s.almHalf ∧
    (s.tileRec t kind unitType unitIndex op a b c d rept flags status).almanac = s.almanac ∧
    (s.tileRec t kind unitType unitIndex op a b c d rept flags status).almQ = s.almQ ∧
    (s.tileRec t kind unitType unitIndex op a b c d rept flags status).hours = s.hours ∧
    (s.tileRec t kind unitType unitIndex op a b c d rept flags status).chunks = s.chunks ∧
    (s.tileRec t kind unitType unitIndex op a b c d rept flags status).windows = s.windows ∧
    (s.tileRec t kind unitType unitIndex op a b c d rept flags status).due = s.due ∧
    (s.tileRec t kind unitType unitIndex op a b c d rept flags status).urgent = s.urgent ∧
    (s.tileRec t kind unitType unitIndex op a b c d rept flags status).saves = s.saves ∧
    (s.tileRec t kind unitType unitIndex op a b c d rept flags status).dueAt = s.dueAt ∧
    (s.tileRec t kind unitType unitIndex op a b c d rept flags status).chk = s.chk ∧
    (s.tileRec t kind unitType unitIndex op a b c d rept flags status).bg = s.bg ∧
    (s.tileRec t kind unitType unitIndex op a b c d rept flags status).bgNext = s.bgNext ∧
    (s.tileRec t kind unitType unitIndex op a b c d rept flags status).bgAt = s.bgAt ∧
    (s.tileRec t kind unitType unitIndex op a b c d rept flags status).bgSweeps = s.bgSweeps ∧
    (s.tileRec t kind unitType unitIndex op a b c d rept flags status).repairs = s.repairs ∧
    (s.tileRec t kind unitType unitIndex op a b c d rept flags status).newRepairs = s.newRepairs ∧
    (s.tileRec t kind unitType unitIndex op a b c d rept flags status).resets = s.resets ∧
    (s.tileRec t kind unitType unitIndex op a b c d rept flags status).ecl = s.ecl ∧
    (s.tileRec t kind unitType unitIndex op a b c d rept flags status).conj = s.conj ∧
    (s.tileRec t kind unitType unitIndex op a b c d rept flags status).adopt = s.adopt ∧
    (s.tileRec t kind unitType unitIndex op a b c d rept flags status).pwr = s.pwr ∧
    (s.tileRec t kind unitType unitIndex op a b c d rept flags status).postAt = s.postAt ∧
    (s.tileRec t kind unitType unitIndex op a b c d rept flags status).gated = s.gated ∧
    (s.tileRec t kind unitType unitIndex op a b c d rept flags status).fresh = s.fresh ∧
    (s.tileRec t kind unitType unitIndex op a b c d rept flags status).pending = s.pending :=
  ⟨rfl, rfl, rfl, rfl, rfl, rfl, rfl, rfl, rfl, rfl, rfl, rfl, rfl, rfl, rfl, rfl, rfl, rfl, rfl, rfl, rfl, rfl, rfl, rfl, rfl, rfl, rfl, rfl, rfl, rfl, rfl, rfl, rfl, rfl, rfl, rfl, rfl, rfl, rfl, rfl, rfl, rfl, rfl, rfl, rfl, rfl, rfl, rfl, rfl, rfl, rfl, rfl, rfl, rfl, rfl, rfl, rfl, rfl, rfl, rfl, rfl, rfl, rfl, rfl, rfl, rfl, rfl, rfl, rfl, rfl, rfl, rfl, rfl, rfl, rfl, rfl, rfl, rfl, rfl, rfl⟩

@[simp] theorem State.chanRec_frame (s : State) (ch kind op : Nat) (a b c : Word) (flags : Nat) :
    (s.chanRec ch kind op a b c flags).cycle = s.cycle ∧ (s.chanRec ch kind op a b c flags).sidereal = s.sidereal ∧
    (s.chanRec ch kind op a b c flags).st = s.st ∧ (s.chanRec ch kind op a b c flags).regs = s.regs ∧
    (s.chanRec ch kind op a b c flags).tiles = s.tiles ∧ (s.chanRec ch kind op a b c flags).tileWas = s.tileWas ∧
    (s.chanRec ch kind op a b c flags).chans = s.chans ∧ (s.chanRec ch kind op a b c flags).ports = s.ports ∧
    (s.chanRec ch kind op a b c flags).flits = s.flits ∧ (s.chanRec ch kind op a b c flags).landings = s.landings ∧
    (s.chanRec ch kind op a b c flags).inbox = s.inbox ∧ (s.chanRec ch kind op a b c flags).vout = s.vout ∧
    (s.chanRec ch kind op a b c flags).vcred = s.vcred ∧ (s.chanRec ch kind op a b c flags).vend = s.vend ∧
    (s.chanRec ch kind op a b c flags).barRel = s.barRel ∧ (s.chanRec ch kind op a b c flags).faults = s.faults ∧
    (s.chanRec ch kind op a b c flags).abortAt = s.abortAt ∧ (s.chanRec ch kind op a b c flags).pubs = s.pubs ∧
    (s.chanRec ch kind op a b c flags).det = s.det ∧ (s.chanRec ch kind op a b c flags).skip = s.skip ∧
    (s.chanRec ch kind op a b c flags).routerFailed = s.routerFailed ∧
    (s.chanRec ch kind op a b c flags).fusedDefects = s.fusedDefects ∧
    (s.chanRec ch kind op a b c flags).fusedRepairs = s.fusedRepairs ∧
    (s.chanRec ch kind op a b c flags).pendingRemap = s.pendingRemap ∧
    (s.chanRec ch kind op a b c flags).routeQ = s.routeQ ∧ (s.chanRec ch kind op a b c flags).gather = s.gather ∧
    (s.chanRec ch kind op a b c flags).frags = s.frags ∧ (s.chanRec ch kind op a b c flags).reasm = s.reasm ∧
    (s.chanRec ch kind op a b c flags).gbar = s.gbar ∧ (s.chanRec ch kind op a b c flags).rank = s.rank ∧
    (s.chanRec ch kind op a b c flags).freqPort = s.freqPort ∧ (s.chanRec ch kind op a b c flags).holdAt = s.holdAt ∧
    (s.chanRec ch kind op a b c flags).phase = s.phase ∧ (s.chanRec ch kind op a b c flags).started = s.started ∧
    (s.chanRec ch kind op a b c flags).jobFenced = s.jobFenced ∧ (s.chanRec ch kind op a b c flags).lastS = s.lastS ∧
    (s.chanRec ch kind op a b c flags).drainBegan = s.drainBegan ∧ (s.chanRec ch kind op a b c flags).host = s.host ∧
    (s.chanRec ch kind op a b c flags).hostNext = s.hostNext ∧ (s.chanRec ch kind op a b c flags).msix = s.msix ∧
    (s.chanRec ch kind op a b c flags).pba = s.pba ∧ (s.chanRec ch kind op a b c flags).sent = s.sent ∧
    (s.chanRec ch kind op a b c flags).mbx = s.mbx ∧ (s.chanRec ch kind op a b c flags).mbxTurn = s.mbxTurn ∧
    (s.chanRec ch kind op a b c flags).replies = s.replies ∧ (s.chanRec ch kind op a b c flags).prog = s.prog ∧
    (s.chanRec ch kind op a b c flags).bootReady = s.bootReady ∧ (s.chanRec ch kind op a b c flags).boot = s.boot ∧
    (s.chanRec ch kind op a b c flags).flash = s.flash ∧ (s.chanRec ch kind op a b c flags).sec = s.sec ∧
    (s.chanRec ch kind op a b c flags).recs = s.recs ∧ (s.chanRec ch kind op a b c flags).logQ = s.logQ ∧
    (s.chanRec ch kind op a b c flags).log = s.log ∧ (s.chanRec ch kind op a b c flags).logNew = s.logNew ∧
    (s.chanRec ch kind op a b c flags).almHalf = s.almHalf ∧ (s.chanRec ch kind op a b c flags).almanac = s.almanac ∧
    (s.chanRec ch kind op a b c flags).almQ = s.almQ ∧ (s.chanRec ch kind op a b c flags).hours = s.hours ∧
    (s.chanRec ch kind op a b c flags).chunks = s.chunks ∧ (s.chanRec ch kind op a b c flags).windows = s.windows ∧
    (s.chanRec ch kind op a b c flags).due = s.due ∧ (s.chanRec ch kind op a b c flags).urgent = s.urgent ∧
    (s.chanRec ch kind op a b c flags).saves = s.saves ∧ (s.chanRec ch kind op a b c flags).dueAt = s.dueAt ∧
    (s.chanRec ch kind op a b c flags).chk = s.chk ∧ (s.chanRec ch kind op a b c flags).bg = s.bg ∧
    (s.chanRec ch kind op a b c flags).bgNext = s.bgNext ∧ (s.chanRec ch kind op a b c flags).bgAt = s.bgAt ∧
    (s.chanRec ch kind op a b c flags).bgSweeps = s.bgSweeps ∧
    (s.chanRec ch kind op a b c flags).repairs = s.repairs ∧
    (s.chanRec ch kind op a b c flags).newRepairs = s.newRepairs ∧
    (s.chanRec ch kind op a b c flags).resets = s.resets ∧ (s.chanRec ch kind op a b c flags).ecl = s.ecl ∧
    (s.chanRec ch kind op a b c flags).conj = s.conj ∧ (s.chanRec ch kind op a b c flags).adopt = s.adopt ∧
    (s.chanRec ch kind op a b c flags).pwr = s.pwr ∧ (s.chanRec ch kind op a b c flags).postAt = s.postAt ∧
    (s.chanRec ch kind op a b c flags).gated = s.gated ∧ (s.chanRec ch kind op a b c flags).fresh = s.fresh ∧
    (s.chanRec ch kind op a b c flags).pending = s.pending :=
  ⟨rfl, rfl, rfl, rfl, rfl, rfl, rfl, rfl, rfl, rfl, rfl, rfl, rfl, rfl, rfl, rfl, rfl, rfl, rfl, rfl, rfl, rfl, rfl, rfl, rfl, rfl, rfl, rfl, rfl, rfl, rfl, rfl, rfl, rfl, rfl, rfl, rfl, rfl, rfl, rfl, rfl, rfl, rfl, rfl, rfl, rfl, rfl, rfl, rfl, rfl, rfl, rfl, rfl, rfl, rfl, rfl, rfl, rfl, rfl, rfl, rfl, rfl, rfl, rfl, rfl, rfl, rfl, rfl, rfl, rfl, rfl, rfl, rfl, rfl, rfl, rfl, rfl, rfl, rfl, rfl⟩

@[simp] theorem State.portRec_frame (s : State) (n kind : Nat) (a b c : Word) (flags : Nat) :
    (s.portRec n kind a b c flags).cycle = s.cycle ∧ (s.portRec n kind a b c flags).sidereal = s.sidereal ∧
    (s.portRec n kind a b c flags).st = s.st ∧ (s.portRec n kind a b c flags).regs = s.regs ∧
    (s.portRec n kind a b c flags).tiles = s.tiles ∧ (s.portRec n kind a b c flags).tileWas = s.tileWas ∧
    (s.portRec n kind a b c flags).chans = s.chans ∧ (s.portRec n kind a b c flags).ports = s.ports ∧
    (s.portRec n kind a b c flags).flits = s.flits ∧ (s.portRec n kind a b c flags).landings = s.landings ∧
    (s.portRec n kind a b c flags).pkts = s.pkts ∧ (s.portRec n kind a b c flags).inbox = s.inbox ∧
    (s.portRec n kind a b c flags).vout = s.vout ∧ (s.portRec n kind a b c flags).vcred = s.vcred ∧
    (s.portRec n kind a b c flags).vend = s.vend ∧ (s.portRec n kind a b c flags).barRel = s.barRel ∧
    (s.portRec n kind a b c flags).faults = s.faults ∧ (s.portRec n kind a b c flags).abortAt = s.abortAt ∧
    (s.portRec n kind a b c flags).pubs = s.pubs ∧ (s.portRec n kind a b c flags).det = s.det ∧
    (s.portRec n kind a b c flags).skip = s.skip ∧ (s.portRec n kind a b c flags).routerFailed = s.routerFailed ∧
    (s.portRec n kind a b c flags).fusedDefects = s.fusedDefects ∧
    (s.portRec n kind a b c flags).fusedRepairs = s.fusedRepairs ∧
    (s.portRec n kind a b c flags).pendingRemap = s.pendingRemap ∧ (s.portRec n kind a b c flags).routeQ = s.routeQ ∧
    (s.portRec n kind a b c flags).gather = s.gather ∧ (s.portRec n kind a b c flags).frags = s.frags ∧
    (s.portRec n kind a b c flags).reasm = s.reasm ∧ (s.portRec n kind a b c flags).gbar = s.gbar ∧
    (s.portRec n kind a b c flags).rank = s.rank ∧ (s.portRec n kind a b c flags).freqPort = s.freqPort ∧
    (s.portRec n kind a b c flags).holdAt = s.holdAt ∧ (s.portRec n kind a b c flags).phase = s.phase ∧
    (s.portRec n kind a b c flags).started = s.started ∧ (s.portRec n kind a b c flags).jobFenced = s.jobFenced ∧
    (s.portRec n kind a b c flags).lastS = s.lastS ∧ (s.portRec n kind a b c flags).drainBegan = s.drainBegan ∧
    (s.portRec n kind a b c flags).host = s.host ∧ (s.portRec n kind a b c flags).hostNext = s.hostNext ∧
    (s.portRec n kind a b c flags).msix = s.msix ∧ (s.portRec n kind a b c flags).pba = s.pba ∧
    (s.portRec n kind a b c flags).sent = s.sent ∧ (s.portRec n kind a b c flags).mbx = s.mbx ∧
    (s.portRec n kind a b c flags).mbxTurn = s.mbxTurn ∧ (s.portRec n kind a b c flags).replies = s.replies ∧
    (s.portRec n kind a b c flags).prog = s.prog ∧ (s.portRec n kind a b c flags).bootReady = s.bootReady ∧
    (s.portRec n kind a b c flags).boot = s.boot ∧ (s.portRec n kind a b c flags).flash = s.flash ∧
    (s.portRec n kind a b c flags).sec = s.sec ∧ (s.portRec n kind a b c flags).logQ = s.logQ ∧
    (s.portRec n kind a b c flags).log = s.log ∧ (s.portRec n kind a b c flags).logNew = s.logNew ∧
    (s.portRec n kind a b c flags).almHalf = s.almHalf ∧ (s.portRec n kind a b c flags).almanac = s.almanac ∧
    (s.portRec n kind a b c flags).almQ = s.almQ ∧ (s.portRec n kind a b c flags).hours = s.hours ∧
    (s.portRec n kind a b c flags).chunks = s.chunks ∧ (s.portRec n kind a b c flags).windows = s.windows ∧
    (s.portRec n kind a b c flags).due = s.due ∧ (s.portRec n kind a b c flags).urgent = s.urgent ∧
    (s.portRec n kind a b c flags).saves = s.saves ∧ (s.portRec n kind a b c flags).dueAt = s.dueAt ∧
    (s.portRec n kind a b c flags).chk = s.chk ∧ (s.portRec n kind a b c flags).bg = s.bg ∧
    (s.portRec n kind a b c flags).bgNext = s.bgNext ∧ (s.portRec n kind a b c flags).bgAt = s.bgAt ∧
    (s.portRec n kind a b c flags).bgSweeps = s.bgSweeps ∧ (s.portRec n kind a b c flags).repairs = s.repairs ∧
    (s.portRec n kind a b c flags).newRepairs = s.newRepairs ∧ (s.portRec n kind a b c flags).resets = s.resets ∧
    (s.portRec n kind a b c flags).ecl = s.ecl ∧ (s.portRec n kind a b c flags).conj = s.conj ∧
    (s.portRec n kind a b c flags).adopt = s.adopt ∧ (s.portRec n kind a b c flags).pwr = s.pwr ∧
    (s.portRec n kind a b c flags).postAt = s.postAt ∧ (s.portRec n kind a b c flags).gated = s.gated ∧
    (s.portRec n kind a b c flags).fresh = s.fresh ∧ (s.portRec n kind a b c flags).pending = s.pending :=
  ⟨rfl, rfl, rfl, rfl, rfl, rfl, rfl, rfl, rfl, rfl, rfl, rfl, rfl, rfl, rfl, rfl, rfl, rfl, rfl, rfl, rfl, rfl, rfl, rfl, rfl, rfl, rfl, rfl, rfl, rfl, rfl, rfl, rfl, rfl, rfl, rfl, rfl, rfl, rfl, rfl, rfl, rfl, rfl, rfl, rfl, rfl, rfl, rfl, rfl, rfl, rfl, rfl, rfl, rfl, rfl, rfl, rfl, rfl, rfl, rfl, rfl, rfl, rfl, rfl, rfl, rfl, rfl, rfl, rfl, rfl, rfl, rfl, rfl, rfl, rfl, rfl, rfl, rfl, rfl, rfl⟩

@[simp] theorem State.obsRec_frame (s : State) (kind unitType unitIndex op : Nat) (a b c d : Word) (rept flags status : Nat) :
    (s.obsRec kind unitType unitIndex op a b c d rept flags status).cycle = s.cycle ∧
    (s.obsRec kind unitType unitIndex op a b c d rept flags status).sidereal = s.sidereal ∧
    (s.obsRec kind unitType unitIndex op a b c d rept flags status).st = s.st ∧
    (s.obsRec kind unitType unitIndex op a b c d rept flags status).regs = s.regs ∧
    (s.obsRec kind unitType unitIndex op a b c d rept flags status).tiles = s.tiles ∧
    (s.obsRec kind unitType unitIndex op a b c d rept flags status).tileWas = s.tileWas ∧
    (s.obsRec kind unitType unitIndex op a b c d rept flags status).chans = s.chans ∧
    (s.obsRec kind unitType unitIndex op a b c d rept flags status).ports = s.ports ∧
    (s.obsRec kind unitType unitIndex op a b c d rept flags status).flits = s.flits ∧
    (s.obsRec kind unitType unitIndex op a b c d rept flags status).landings = s.landings ∧
    (s.obsRec kind unitType unitIndex op a b c d rept flags status).pkts = s.pkts ∧
    (s.obsRec kind unitType unitIndex op a b c d rept flags status).inbox = s.inbox ∧
    (s.obsRec kind unitType unitIndex op a b c d rept flags status).vout = s.vout ∧
    (s.obsRec kind unitType unitIndex op a b c d rept flags status).vcred = s.vcred ∧
    (s.obsRec kind unitType unitIndex op a b c d rept flags status).vend = s.vend ∧
    (s.obsRec kind unitType unitIndex op a b c d rept flags status).barRel = s.barRel ∧
    (s.obsRec kind unitType unitIndex op a b c d rept flags status).faults = s.faults ∧
    (s.obsRec kind unitType unitIndex op a b c d rept flags status).abortAt = s.abortAt ∧
    (s.obsRec kind unitType unitIndex op a b c d rept flags status).pubs = s.pubs ∧
    (s.obsRec kind unitType unitIndex op a b c d rept flags status).det = s.det ∧
    (s.obsRec kind unitType unitIndex op a b c d rept flags status).skip = s.skip ∧
    (s.obsRec kind unitType unitIndex op a b c d rept flags status).routerFailed = s.routerFailed ∧
    (s.obsRec kind unitType unitIndex op a b c d rept flags status).fusedDefects = s.fusedDefects ∧
    (s.obsRec kind unitType unitIndex op a b c d rept flags status).fusedRepairs = s.fusedRepairs ∧
    (s.obsRec kind unitType unitIndex op a b c d rept flags status).pendingRemap = s.pendingRemap ∧
    (s.obsRec kind unitType unitIndex op a b c d rept flags status).routeQ = s.routeQ ∧
    (s.obsRec kind unitType unitIndex op a b c d rept flags status).gather = s.gather ∧
    (s.obsRec kind unitType unitIndex op a b c d rept flags status).frags = s.frags ∧
    (s.obsRec kind unitType unitIndex op a b c d rept flags status).reasm = s.reasm ∧
    (s.obsRec kind unitType unitIndex op a b c d rept flags status).gbar = s.gbar ∧
    (s.obsRec kind unitType unitIndex op a b c d rept flags status).rank = s.rank ∧
    (s.obsRec kind unitType unitIndex op a b c d rept flags status).freqPort = s.freqPort ∧
    (s.obsRec kind unitType unitIndex op a b c d rept flags status).holdAt = s.holdAt ∧
    (s.obsRec kind unitType unitIndex op a b c d rept flags status).phase = s.phase ∧
    (s.obsRec kind unitType unitIndex op a b c d rept flags status).started = s.started ∧
    (s.obsRec kind unitType unitIndex op a b c d rept flags status).jobFenced = s.jobFenced ∧
    (s.obsRec kind unitType unitIndex op a b c d rept flags status).lastS = s.lastS ∧
    (s.obsRec kind unitType unitIndex op a b c d rept flags status).drainBegan = s.drainBegan ∧
    (s.obsRec kind unitType unitIndex op a b c d rept flags status).host = s.host ∧
    (s.obsRec kind unitType unitIndex op a b c d rept flags status).hostNext = s.hostNext ∧
    (s.obsRec kind unitType unitIndex op a b c d rept flags status).msix = s.msix ∧
    (s.obsRec kind unitType unitIndex op a b c d rept flags status).pba = s.pba ∧
    (s.obsRec kind unitType unitIndex op a b c d rept flags status).sent = s.sent ∧
    (s.obsRec kind unitType unitIndex op a b c d rept flags status).mbx = s.mbx ∧
    (s.obsRec kind unitType unitIndex op a b c d rept flags status).mbxTurn = s.mbxTurn ∧
    (s.obsRec kind unitType unitIndex op a b c d rept flags status).replies = s.replies ∧
    (s.obsRec kind unitType unitIndex op a b c d rept flags status).prog = s.prog ∧
    (s.obsRec kind unitType unitIndex op a b c d rept flags status).bootReady = s.bootReady ∧
    (s.obsRec kind unitType unitIndex op a b c d rept flags status).boot = s.boot ∧
    (s.obsRec kind unitType unitIndex op a b c d rept flags status).flash = s.flash ∧
    (s.obsRec kind unitType unitIndex op a b c d rept flags status).sec = s.sec ∧
    (s.obsRec kind unitType unitIndex op a b c d rept flags status).logQ = s.logQ ∧
    (s.obsRec kind unitType unitIndex op a b c d rept flags status).log = s.log ∧
    (s.obsRec kind unitType unitIndex op a b c d rept flags status).logNew = s.logNew ∧
    (s.obsRec kind unitType unitIndex op a b c d rept flags status).almHalf = s.almHalf ∧
    (s.obsRec kind unitType unitIndex op a b c d rept flags status).almanac = s.almanac ∧
    (s.obsRec kind unitType unitIndex op a b c d rept flags status).almQ = s.almQ ∧
    (s.obsRec kind unitType unitIndex op a b c d rept flags status).hours = s.hours ∧
    (s.obsRec kind unitType unitIndex op a b c d rept flags status).chunks = s.chunks ∧
    (s.obsRec kind unitType unitIndex op a b c d rept flags status).windows = s.windows ∧
    (s.obsRec kind unitType unitIndex op a b c d rept flags status).due = s.due ∧
    (s.obsRec kind unitType unitIndex op a b c d rept flags status).urgent = s.urgent ∧
    (s.obsRec kind unitType unitIndex op a b c d rept flags status).saves = s.saves ∧
    (s.obsRec kind unitType unitIndex op a b c d rept flags status).dueAt = s.dueAt ∧
    (s.obsRec kind unitType unitIndex op a b c d rept flags status).chk = s.chk ∧
    (s.obsRec kind unitType unitIndex op a b c d rept flags status).bg = s.bg ∧
    (s.obsRec kind unitType unitIndex op a b c d rept flags status).bgNext = s.bgNext ∧
    (s.obsRec kind unitType unitIndex op a b c d rept flags status).bgAt = s.bgAt ∧
    (s.obsRec kind unitType unitIndex op a b c d rept flags status).bgSweeps = s.bgSweeps ∧
    (s.obsRec kind unitType unitIndex op a b c d rept flags status).repairs = s.repairs ∧
    (s.obsRec kind unitType unitIndex op a b c d rept flags status).newRepairs = s.newRepairs ∧
    (s.obsRec kind unitType unitIndex op a b c d rept flags status).resets = s.resets ∧
    (s.obsRec kind unitType unitIndex op a b c d rept flags status).ecl = s.ecl ∧
    (s.obsRec kind unitType unitIndex op a b c d rept flags status).conj = s.conj ∧
    (s.obsRec kind unitType unitIndex op a b c d rept flags status).adopt = s.adopt ∧
    (s.obsRec kind unitType unitIndex op a b c d rept flags status).pwr = s.pwr ∧
    (s.obsRec kind unitType unitIndex op a b c d rept flags status).postAt = s.postAt ∧
    (s.obsRec kind unitType unitIndex op a b c d rept flags status).gated = s.gated ∧
    (s.obsRec kind unitType unitIndex op a b c d rept flags status).fresh = s.fresh ∧
    (s.obsRec kind unitType unitIndex op a b c d rept flags status).pending = s.pending :=
  ⟨rfl, rfl, rfl, rfl, rfl, rfl, rfl, rfl, rfl, rfl, rfl, rfl, rfl, rfl, rfl, rfl, rfl, rfl, rfl, rfl, rfl, rfl, rfl, rfl, rfl, rfl, rfl, rfl, rfl, rfl, rfl, rfl, rfl, rfl, rfl, rfl, rfl, rfl, rfl, rfl, rfl, rfl, rfl, rfl, rfl, rfl, rfl, rfl, rfl, rfl, rfl, rfl, rfl, rfl, rfl, rfl, rfl, rfl, rfl, rfl, rfl, rfl, rfl, rfl, rfl, rfl, rfl, rfl, rfl, rfl, rfl, rfl, rfl, rfl, rfl, rfl, rfl, rfl, rfl, rfl⟩

@[simp] theorem State.refusedRec_frame (s : State) (op : Nat) :
    (s.refusedRec op).cycle = s.cycle ∧ (s.refusedRec op).sidereal = s.sidereal ∧ (s.refusedRec op).st = s.st ∧
    (s.refusedRec op).regs = s.regs ∧ (s.refusedRec op).tiles = s.tiles ∧ (s.refusedRec op).tileWas = s.tileWas ∧
    (s.refusedRec op).chans = s.chans ∧ (s.refusedRec op).ports = s.ports ∧ (s.refusedRec op).flits = s.flits ∧
    (s.refusedRec op).landings = s.landings ∧ (s.refusedRec op).pkts = s.pkts ∧ (s.refusedRec op).inbox = s.inbox ∧
    (s.refusedRec op).vout = s.vout ∧ (s.refusedRec op).vcred = s.vcred ∧ (s.refusedRec op).vend = s.vend ∧
    (s.refusedRec op).barRel = s.barRel ∧ (s.refusedRec op).faults = s.faults ∧
    (s.refusedRec op).abortAt = s.abortAt ∧ (s.refusedRec op).pubs = s.pubs ∧ (s.refusedRec op).det = s.det ∧
    (s.refusedRec op).skip = s.skip ∧ (s.refusedRec op).routerFailed = s.routerFailed ∧
    (s.refusedRec op).fusedDefects = s.fusedDefects ∧ (s.refusedRec op).fusedRepairs = s.fusedRepairs ∧
    (s.refusedRec op).pendingRemap = s.pendingRemap ∧ (s.refusedRec op).routeQ = s.routeQ ∧
    (s.refusedRec op).gather = s.gather ∧ (s.refusedRec op).frags = s.frags ∧ (s.refusedRec op).reasm = s.reasm ∧
    (s.refusedRec op).gbar = s.gbar ∧ (s.refusedRec op).rank = s.rank ∧ (s.refusedRec op).freqPort = s.freqPort ∧
    (s.refusedRec op).holdAt = s.holdAt ∧ (s.refusedRec op).phase = s.phase ∧ (s.refusedRec op).started = s.started ∧
    (s.refusedRec op).jobFenced = s.jobFenced ∧ (s.refusedRec op).lastS = s.lastS ∧
    (s.refusedRec op).drainBegan = s.drainBegan ∧ (s.refusedRec op).host = s.host ∧
    (s.refusedRec op).hostNext = s.hostNext ∧ (s.refusedRec op).msix = s.msix ∧ (s.refusedRec op).pba = s.pba ∧
    (s.refusedRec op).sent = s.sent ∧ (s.refusedRec op).mbx = s.mbx ∧ (s.refusedRec op).mbxTurn = s.mbxTurn ∧
    (s.refusedRec op).replies = s.replies ∧ (s.refusedRec op).prog = s.prog ∧
    (s.refusedRec op).bootReady = s.bootReady ∧ (s.refusedRec op).boot = s.boot ∧ (s.refusedRec op).flash = s.flash ∧
    (s.refusedRec op).sec = s.sec ∧ (s.refusedRec op).logQ = s.logQ ∧ (s.refusedRec op).log = s.log ∧
    (s.refusedRec op).logNew = s.logNew ∧ (s.refusedRec op).almHalf = s.almHalf ∧
    (s.refusedRec op).almanac = s.almanac ∧ (s.refusedRec op).almQ = s.almQ ∧ (s.refusedRec op).hours = s.hours ∧
    (s.refusedRec op).chunks = s.chunks ∧ (s.refusedRec op).windows = s.windows ∧ (s.refusedRec op).due = s.due ∧
    (s.refusedRec op).urgent = s.urgent ∧ (s.refusedRec op).saves = s.saves ∧ (s.refusedRec op).dueAt = s.dueAt ∧
    (s.refusedRec op).chk = s.chk ∧ (s.refusedRec op).bg = s.bg ∧ (s.refusedRec op).bgNext = s.bgNext ∧
    (s.refusedRec op).bgAt = s.bgAt ∧ (s.refusedRec op).bgSweeps = s.bgSweeps ∧
    (s.refusedRec op).repairs = s.repairs ∧ (s.refusedRec op).newRepairs = s.newRepairs ∧
    (s.refusedRec op).resets = s.resets ∧ (s.refusedRec op).ecl = s.ecl ∧ (s.refusedRec op).conj = s.conj ∧
    (s.refusedRec op).adopt = s.adopt ∧ (s.refusedRec op).pwr = s.pwr ∧ (s.refusedRec op).postAt = s.postAt ∧
    (s.refusedRec op).gated = s.gated ∧ (s.refusedRec op).fresh = s.fresh ∧ (s.refusedRec op).pending = s.pending :=
  ⟨rfl, rfl, rfl, rfl, rfl, rfl, rfl, rfl, rfl, rfl, rfl, rfl, rfl, rfl, rfl, rfl, rfl, rfl, rfl, rfl, rfl, rfl, rfl, rfl, rfl, rfl, rfl, rfl, rfl, rfl, rfl, rfl, rfl, rfl, rfl, rfl, rfl, rfl, rfl, rfl, rfl, rfl, rfl, rfl, rfl, rfl, rfl, rfl, rfl, rfl, rfl, rfl, rfl, rfl, rfl, rfl, rfl, rfl, rfl, rfl, rfl, rfl, rfl, rfl, rfl, rfl, rfl, rfl, rfl, rfl, rfl, rfl, rfl, rfl, rfl, rfl, rfl, rfl, rfl, rfl⟩

@[simp] theorem State.sendRec_frame (s : State) (from_ : Nat) (r : Rec) :
    (s.sendRec from_ r).cycle = s.cycle ∧ (s.sendRec from_ r).sidereal = s.sidereal ∧ (s.sendRec from_ r).st = s.st ∧
    (s.sendRec from_ r).regs = s.regs ∧ (s.sendRec from_ r).tiles = s.tiles ∧
    (s.sendRec from_ r).tileWas = s.tileWas ∧ (s.sendRec from_ r).chans = s.chans ∧
    (s.sendRec from_ r).ports = s.ports ∧ (s.sendRec from_ r).flits = s.flits ∧
    (s.sendRec from_ r).landings = s.landings ∧ (s.sendRec from_ r).inbox = s.inbox ∧
    (s.sendRec from_ r).vout = s.vout ∧ (s.sendRec from_ r).vcred = s.vcred ∧ (s.sendRec from_ r).vend = s.vend ∧
    (s.sendRec from_ r).barRel = s.barRel ∧ (s.sendRec from_ r).faults = s.faults ∧
    (s.sendRec from_ r).abortAt = s.abortAt ∧ (s.sendRec from_ r).pubs = s.pubs ∧ (s.sendRec from_ r).det = s.det ∧
    (s.sendRec from_ r).skip = s.skip ∧ (s.sendRec from_ r).routerFailed = s.routerFailed ∧
    (s.sendRec from_ r).fusedDefects = s.fusedDefects ∧ (s.sendRec from_ r).fusedRepairs = s.fusedRepairs ∧
    (s.sendRec from_ r).pendingRemap = s.pendingRemap ∧ (s.sendRec from_ r).routeQ = s.routeQ ∧
    (s.sendRec from_ r).gather = s.gather ∧ (s.sendRec from_ r).frags = s.frags ∧
    (s.sendRec from_ r).reasm = s.reasm ∧ (s.sendRec from_ r).gbar = s.gbar ∧ (s.sendRec from_ r).rank = s.rank ∧
    (s.sendRec from_ r).freqPort = s.freqPort ∧ (s.sendRec from_ r).holdAt = s.holdAt ∧
    (s.sendRec from_ r).phase = s.phase ∧ (s.sendRec from_ r).started = s.started ∧
    (s.sendRec from_ r).jobFenced = s.jobFenced ∧ (s.sendRec from_ r).lastS = s.lastS ∧
    (s.sendRec from_ r).drainBegan = s.drainBegan ∧ (s.sendRec from_ r).host = s.host ∧
    (s.sendRec from_ r).hostNext = s.hostNext ∧ (s.sendRec from_ r).msix = s.msix ∧ (s.sendRec from_ r).pba = s.pba ∧
    (s.sendRec from_ r).sent = s.sent ∧ (s.sendRec from_ r).mbx = s.mbx ∧ (s.sendRec from_ r).mbxTurn = s.mbxTurn ∧
    (s.sendRec from_ r).replies = s.replies ∧ (s.sendRec from_ r).prog = s.prog ∧
    (s.sendRec from_ r).bootReady = s.bootReady ∧ (s.sendRec from_ r).boot = s.boot ∧
    (s.sendRec from_ r).flash = s.flash ∧ (s.sendRec from_ r).sec = s.sec ∧ (s.sendRec from_ r).recs = s.recs ∧
    (s.sendRec from_ r).logQ = s.logQ ∧ (s.sendRec from_ r).log = s.log ∧ (s.sendRec from_ r).logNew = s.logNew ∧
    (s.sendRec from_ r).almHalf = s.almHalf ∧ (s.sendRec from_ r).almanac = s.almanac ∧
    (s.sendRec from_ r).almQ = s.almQ ∧ (s.sendRec from_ r).hours = s.hours ∧ (s.sendRec from_ r).chunks = s.chunks ∧
    (s.sendRec from_ r).windows = s.windows ∧ (s.sendRec from_ r).due = s.due ∧
    (s.sendRec from_ r).urgent = s.urgent ∧ (s.sendRec from_ r).saves = s.saves ∧
    (s.sendRec from_ r).dueAt = s.dueAt ∧ (s.sendRec from_ r).chk = s.chk ∧ (s.sendRec from_ r).bg = s.bg ∧
    (s.sendRec from_ r).bgNext = s.bgNext ∧ (s.sendRec from_ r).bgAt = s.bgAt ∧
    (s.sendRec from_ r).bgSweeps = s.bgSweeps ∧ (s.sendRec from_ r).repairs = s.repairs ∧
    (s.sendRec from_ r).newRepairs = s.newRepairs ∧ (s.sendRec from_ r).resets = s.resets ∧
    (s.sendRec from_ r).ecl = s.ecl ∧ (s.sendRec from_ r).conj = s.conj ∧ (s.sendRec from_ r).adopt = s.adopt ∧
    (s.sendRec from_ r).pwr = s.pwr ∧ (s.sendRec from_ r).postAt = s.postAt ∧ (s.sendRec from_ r).gated = s.gated ∧
    (s.sendRec from_ r).fresh = s.fresh ∧ (s.sendRec from_ r).pending = s.pending :=
  ⟨rfl, rfl, rfl, rfl, rfl, rfl, rfl, rfl, rfl, rfl, rfl, rfl, rfl, rfl, rfl, rfl, rfl, rfl, rfl, rfl, rfl, rfl, rfl, rfl, rfl, rfl, rfl, rfl, rfl, rfl, rfl, rfl, rfl, rfl, rfl, rfl, rfl, rfl, rfl, rfl, rfl, rfl, rfl, rfl, rfl, rfl, rfl, rfl, rfl, rfl, rfl, rfl, rfl, rfl, rfl, rfl, rfl, rfl, rfl, rfl, rfl, rfl, rfl, rfl, rfl, rfl, rfl, rfl, rfl, rfl, rfl, rfl, rfl, rfl, rfl, rfl, rfl, rfl, rfl, rfl⟩

@[simp] theorem State.drive_frame (s : State) :
    (s.drive).cycle = s.cycle ∧ (s.drive).sidereal = s.sidereal ∧ (s.drive).st = s.st ∧ (s.drive).regs = s.regs ∧
    (s.drive).tiles = s.tiles ∧ (s.drive).tileWas = s.tileWas ∧ (s.drive).chans = s.chans ∧
    (s.drive).ports = s.ports ∧ (s.drive).flits = s.flits ∧ (s.drive).landings = s.landings ∧
    (s.drive).pkts = s.pkts ∧ (s.drive).inbox = s.inbox ∧ (s.drive).vout = s.vout ∧ (s.drive).vcred = s.vcred ∧
    (s.drive).vend = s.vend ∧ (s.drive).barRel = s.barRel ∧ (s.drive).abortAt = s.abortAt ∧ (s.drive).pubs = s.pubs ∧
    (s.drive).det = s.det ∧ (s.drive).skip = s.skip ∧ (s.drive).routerFailed = s.routerFailed ∧
    (s.drive).fusedDefects = s.fusedDefects ∧ (s.drive).fusedRepairs = s.fusedRepairs ∧
    (s.drive).pendingRemap = s.pendingRemap ∧ (s.drive).routeQ = s.routeQ ∧ (s.drive).gather = s.gather ∧
    (s.drive).frags = s.frags ∧ (s.drive).reasm = s.reasm ∧ (s.drive).gbar = s.gbar ∧ (s.drive).rank = s.rank ∧
    (s.drive).freqPort = s.freqPort ∧ (s.drive).holdAt = s.holdAt ∧ (s.drive).phase = s.phase ∧
    (s.drive).started = s.started ∧ (s.drive).jobFenced = s.jobFenced ∧ (s.drive).lastS = s.lastS ∧
    (s.drive).drainBegan = s.drainBegan ∧ (s.drive).host = s.host ∧ (s.drive).hostNext = s.hostNext ∧
    (s.drive).msix = s.msix ∧ (s.drive).pba = s.pba ∧ (s.drive).sent = s.sent ∧ (s.drive).mbx = s.mbx ∧
    (s.drive).mbxTurn = s.mbxTurn ∧ (s.drive).replies = s.replies ∧ (s.drive).prog = s.prog ∧
    (s.drive).bootReady = s.bootReady ∧ (s.drive).boot = s.boot ∧ (s.drive).flash = s.flash ∧ (s.drive).sec = s.sec ∧
    (s.drive).recs = s.recs ∧ (s.drive).logQ = s.logQ ∧ (s.drive).log = s.log ∧ (s.drive).logNew = s.logNew ∧
    (s.drive).almHalf = s.almHalf ∧ (s.drive).almanac = s.almanac ∧ (s.drive).almQ = s.almQ ∧
    (s.drive).hours = s.hours ∧ (s.drive).chunks = s.chunks ∧ (s.drive).windows = s.windows ∧ (s.drive).due = s.due ∧
    (s.drive).urgent = s.urgent ∧ (s.drive).saves = s.saves ∧ (s.drive).dueAt = s.dueAt ∧ (s.drive).chk = s.chk ∧
    (s.drive).bg = s.bg ∧ (s.drive).bgNext = s.bgNext ∧ (s.drive).bgAt = s.bgAt ∧ (s.drive).bgSweeps = s.bgSweeps ∧
    (s.drive).repairs = s.repairs ∧ (s.drive).newRepairs = s.newRepairs ∧ (s.drive).resets = s.resets ∧
    (s.drive).ecl = s.ecl ∧ (s.drive).conj = s.conj ∧ (s.drive).adopt = s.adopt ∧ (s.drive).pwr = s.pwr ∧
    (s.drive).postAt = s.postAt ∧ (s.drive).gated = s.gated ∧ (s.drive).fresh = s.fresh ∧
    (s.drive).pending = s.pending :=
  ⟨rfl, rfl, rfl, rfl, rfl, rfl, rfl, rfl, rfl, rfl, rfl, rfl, rfl, rfl, rfl, rfl, rfl, rfl, rfl, rfl, rfl, rfl, rfl, rfl, rfl, rfl, rfl, rfl, rfl, rfl, rfl, rfl, rfl, rfl, rfl, rfl, rfl, rfl, rfl, rfl, rfl, rfl, rfl, rfl, rfl, rfl, rfl, rfl, rfl, rfl, rfl, rfl, rfl, rfl, rfl, rfl, rfl, rfl, rfl, rfl, rfl, rfl, rfl, rfl, rfl, rfl, rfl, rfl, rfl, rfl, rfl, rfl, rfl, rfl, rfl, rfl, rfl, rfl, rfl, rfl⟩

@[simp] theorem State.send_frame (s : State) (x y from_ dx dy ep vc op src rtag : Nat) (w : Word) (data : List Byte) (rx ry rep : Nat) :
    (s.send x y from_ dx dy ep vc op src rtag w data rx ry rep).cycle = s.cycle ∧
    (s.send x y from_ dx dy ep vc op src rtag w data rx ry rep).sidereal = s.sidereal ∧
    (s.send x y from_ dx dy ep vc op src rtag w data rx ry rep).st = s.st ∧
    (s.send x y from_ dx dy ep vc op src rtag w data rx ry rep).regs = s.regs ∧
    (s.send x y from_ dx dy ep vc op src rtag w data rx ry rep).tiles = s.tiles ∧
    (s.send x y from_ dx dy ep vc op src rtag w data rx ry rep).tileWas = s.tileWas ∧
    (s.send x y from_ dx dy ep vc op src rtag w data rx ry rep).chans = s.chans ∧
    (s.send x y from_ dx dy ep vc op src rtag w data rx ry rep).ports = s.ports ∧
    (s.send x y from_ dx dy ep vc op src rtag w data rx ry rep).flits = s.flits ∧
    (s.send x y from_ dx dy ep vc op src rtag w data rx ry rep).landings = s.landings ∧
    (s.send x y from_ dx dy ep vc op src rtag w data rx ry rep).inbox = s.inbox ∧
    (s.send x y from_ dx dy ep vc op src rtag w data rx ry rep).vout = s.vout ∧
    (s.send x y from_ dx dy ep vc op src rtag w data rx ry rep).vcred = s.vcred ∧
    (s.send x y from_ dx dy ep vc op src rtag w data rx ry rep).vend = s.vend ∧
    (s.send x y from_ dx dy ep vc op src rtag w data rx ry rep).barRel = s.barRel ∧
    (s.send x y from_ dx dy ep vc op src rtag w data rx ry rep).faults = s.faults ∧
    (s.send x y from_ dx dy ep vc op src rtag w data rx ry rep).abortAt = s.abortAt ∧
    (s.send x y from_ dx dy ep vc op src rtag w data rx ry rep).pubs = s.pubs ∧
    (s.send x y from_ dx dy ep vc op src rtag w data rx ry rep).det = s.det ∧
    (s.send x y from_ dx dy ep vc op src rtag w data rx ry rep).skip = s.skip ∧
    (s.send x y from_ dx dy ep vc op src rtag w data rx ry rep).routerFailed = s.routerFailed ∧
    (s.send x y from_ dx dy ep vc op src rtag w data rx ry rep).fusedDefects = s.fusedDefects ∧
    (s.send x y from_ dx dy ep vc op src rtag w data rx ry rep).fusedRepairs = s.fusedRepairs ∧
    (s.send x y from_ dx dy ep vc op src rtag w data rx ry rep).pendingRemap = s.pendingRemap ∧
    (s.send x y from_ dx dy ep vc op src rtag w data rx ry rep).routeQ = s.routeQ ∧
    (s.send x y from_ dx dy ep vc op src rtag w data rx ry rep).gather = s.gather ∧
    (s.send x y from_ dx dy ep vc op src rtag w data rx ry rep).frags = s.frags ∧
    (s.send x y from_ dx dy ep vc op src rtag w data rx ry rep).reasm = s.reasm ∧
    (s.send x y from_ dx dy ep vc op src rtag w data rx ry rep).gbar = s.gbar ∧
    (s.send x y from_ dx dy ep vc op src rtag w data rx ry rep).rank = s.rank ∧
    (s.send x y from_ dx dy ep vc op src rtag w data rx ry rep).freqPort = s.freqPort ∧
    (s.send x y from_ dx dy ep vc op src rtag w data rx ry rep).holdAt = s.holdAt ∧
    (s.send x y from_ dx dy ep vc op src rtag w data rx ry rep).phase = s.phase ∧
    (s.send x y from_ dx dy ep vc op src rtag w data rx ry rep).started = s.started ∧
    (s.send x y from_ dx dy ep vc op src rtag w data rx ry rep).jobFenced = s.jobFenced ∧
    (s.send x y from_ dx dy ep vc op src rtag w data rx ry rep).lastS = s.lastS ∧
    (s.send x y from_ dx dy ep vc op src rtag w data rx ry rep).drainBegan = s.drainBegan ∧
    (s.send x y from_ dx dy ep vc op src rtag w data rx ry rep).host = s.host ∧
    (s.send x y from_ dx dy ep vc op src rtag w data rx ry rep).hostNext = s.hostNext ∧
    (s.send x y from_ dx dy ep vc op src rtag w data rx ry rep).msix = s.msix ∧
    (s.send x y from_ dx dy ep vc op src rtag w data rx ry rep).pba = s.pba ∧
    (s.send x y from_ dx dy ep vc op src rtag w data rx ry rep).sent = s.sent ∧
    (s.send x y from_ dx dy ep vc op src rtag w data rx ry rep).mbx = s.mbx ∧
    (s.send x y from_ dx dy ep vc op src rtag w data rx ry rep).mbxTurn = s.mbxTurn ∧
    (s.send x y from_ dx dy ep vc op src rtag w data rx ry rep).replies = s.replies ∧
    (s.send x y from_ dx dy ep vc op src rtag w data rx ry rep).prog = s.prog ∧
    (s.send x y from_ dx dy ep vc op src rtag w data rx ry rep).bootReady = s.bootReady ∧
    (s.send x y from_ dx dy ep vc op src rtag w data rx ry rep).boot = s.boot ∧
    (s.send x y from_ dx dy ep vc op src rtag w data rx ry rep).flash = s.flash ∧
    (s.send x y from_ dx dy ep vc op src rtag w data rx ry rep).sec = s.sec ∧
    (s.send x y from_ dx dy ep vc op src rtag w data rx ry rep).recs = s.recs ∧
    (s.send x y from_ dx dy ep vc op src rtag w data rx ry rep).logQ = s.logQ ∧
    (s.send x y from_ dx dy ep vc op src rtag w data rx ry rep).log = s.log ∧
    (s.send x y from_ dx dy ep vc op src rtag w data rx ry rep).logNew = s.logNew ∧
    (s.send x y from_ dx dy ep vc op src rtag w data rx ry rep).almHalf = s.almHalf ∧
    (s.send x y from_ dx dy ep vc op src rtag w data rx ry rep).almanac = s.almanac ∧
    (s.send x y from_ dx dy ep vc op src rtag w data rx ry rep).almQ = s.almQ ∧
    (s.send x y from_ dx dy ep vc op src rtag w data rx ry rep).hours = s.hours ∧
    (s.send x y from_ dx dy ep vc op src rtag w data rx ry rep).chunks = s.chunks ∧
    (s.send x y from_ dx dy ep vc op src rtag w data rx ry rep).windows = s.windows ∧
    (s.send x y from_ dx dy ep vc op src rtag w data rx ry rep).due = s.due ∧
    (s.send x y from_ dx dy ep vc op src rtag w data rx ry rep).urgent = s.urgent ∧
    (s.send x y from_ dx dy ep vc op src rtag w data rx ry rep).saves = s.saves ∧
    (s.send x y from_ dx dy ep vc op src rtag w data rx ry rep).dueAt = s.dueAt ∧
    (s.send x y from_ dx dy ep vc op src rtag w data rx ry rep).chk = s.chk ∧
    (s.send x y from_ dx dy ep vc op src rtag w data rx ry rep).bg = s.bg ∧
    (s.send x y from_ dx dy ep vc op src rtag w data rx ry rep).bgNext = s.bgNext ∧
    (s.send x y from_ dx dy ep vc op src rtag w data rx ry rep).bgAt = s.bgAt ∧
    (s.send x y from_ dx dy ep vc op src rtag w data rx ry rep).bgSweeps = s.bgSweeps ∧
    (s.send x y from_ dx dy ep vc op src rtag w data rx ry rep).repairs = s.repairs ∧
    (s.send x y from_ dx dy ep vc op src rtag w data rx ry rep).newRepairs = s.newRepairs ∧
    (s.send x y from_ dx dy ep vc op src rtag w data rx ry rep).resets = s.resets ∧
    (s.send x y from_ dx dy ep vc op src rtag w data rx ry rep).ecl = s.ecl ∧
    (s.send x y from_ dx dy ep vc op src rtag w data rx ry rep).conj = s.conj ∧
    (s.send x y from_ dx dy ep vc op src rtag w data rx ry rep).adopt = s.adopt ∧
    (s.send x y from_ dx dy ep vc op src rtag w data rx ry rep).pwr = s.pwr ∧
    (s.send x y from_ dx dy ep vc op src rtag w data rx ry rep).postAt = s.postAt ∧
    (s.send x y from_ dx dy ep vc op src rtag w data rx ry rep).gated = s.gated ∧
    (s.send x y from_ dx dy ep vc op src rtag w data rx ry rep).fresh = s.fresh ∧
    (s.send x y from_ dx dy ep vc op src rtag w data rx ry rep).pending = s.pending :=
  ⟨rfl, rfl, rfl, rfl, rfl, rfl, rfl, rfl, rfl, rfl, rfl, rfl, rfl, rfl, rfl, rfl, rfl, rfl, rfl, rfl, rfl, rfl, rfl, rfl, rfl, rfl, rfl, rfl, rfl, rfl, rfl, rfl, rfl, rfl, rfl, rfl, rfl, rfl, rfl, rfl, rfl, rfl, rfl, rfl, rfl, rfl, rfl, rfl, rfl, rfl, rfl, rfl, rfl, rfl, rfl, rfl, rfl, rfl, rfl, rfl, rfl, rfl, rfl, rfl, rfl, rfl, rfl, rfl, rfl, rfl, rfl, rfl, rfl, rfl, rfl, rfl, rfl, rfl, rfl, rfl⟩

@[simp] theorem State.tileFab_frame (s : State) (t vc : Nat) (p : FPkt) :
    (s.tileFab t vc p).cycle = s.cycle ∧ (s.tileFab t vc p).sidereal = s.sidereal ∧ (s.tileFab t vc p).st = s.st ∧
    (s.tileFab t vc p).regs = s.regs ∧ (s.tileFab t vc p).tiles = s.tiles ∧ (s.tileFab t vc p).tileWas = s.tileWas ∧
    (s.tileFab t vc p).chans = s.chans ∧ (s.tileFab t vc p).ports = s.ports ∧ (s.tileFab t vc p).flits = s.flits ∧
    (s.tileFab t vc p).landings = s.landings ∧ (s.tileFab t vc p).inbox = s.inbox ∧ (s.tileFab t vc p).vout = s.vout ∧
    (s.tileFab t vc p).vcred = s.vcred ∧ (s.tileFab t vc p).vend = s.vend ∧ (s.tileFab t vc p).barRel = s.barRel ∧
    (s.tileFab t vc p).faults = s.faults ∧ (s.tileFab t vc p).abortAt = s.abortAt ∧ (s.tileFab t vc p).pubs = s.pubs ∧
    (s.tileFab t vc p).det = s.det ∧ (s.tileFab t vc p).skip = s.skip ∧
    (s.tileFab t vc p).routerFailed = s.routerFailed ∧ (s.tileFab t vc p).fusedDefects = s.fusedDefects ∧
    (s.tileFab t vc p).fusedRepairs = s.fusedRepairs ∧ (s.tileFab t vc p).pendingRemap = s.pendingRemap ∧
    (s.tileFab t vc p).routeQ = s.routeQ ∧ (s.tileFab t vc p).gather = s.gather ∧ (s.tileFab t vc p).frags = s.frags ∧
    (s.tileFab t vc p).reasm = s.reasm ∧ (s.tileFab t vc p).gbar = s.gbar ∧ (s.tileFab t vc p).rank = s.rank ∧
    (s.tileFab t vc p).freqPort = s.freqPort ∧ (s.tileFab t vc p).holdAt = s.holdAt ∧
    (s.tileFab t vc p).phase = s.phase ∧ (s.tileFab t vc p).started = s.started ∧
    (s.tileFab t vc p).jobFenced = s.jobFenced ∧ (s.tileFab t vc p).lastS = s.lastS ∧
    (s.tileFab t vc p).drainBegan = s.drainBegan ∧ (s.tileFab t vc p).host = s.host ∧
    (s.tileFab t vc p).hostNext = s.hostNext ∧ (s.tileFab t vc p).msix = s.msix ∧ (s.tileFab t vc p).pba = s.pba ∧
    (s.tileFab t vc p).sent = s.sent ∧ (s.tileFab t vc p).mbx = s.mbx ∧ (s.tileFab t vc p).mbxTurn = s.mbxTurn ∧
    (s.tileFab t vc p).replies = s.replies ∧ (s.tileFab t vc p).prog = s.prog ∧
    (s.tileFab t vc p).bootReady = s.bootReady ∧ (s.tileFab t vc p).boot = s.boot ∧
    (s.tileFab t vc p).flash = s.flash ∧ (s.tileFab t vc p).sec = s.sec ∧ (s.tileFab t vc p).recs = s.recs ∧
    (s.tileFab t vc p).logQ = s.logQ ∧ (s.tileFab t vc p).log = s.log ∧ (s.tileFab t vc p).logNew = s.logNew ∧
    (s.tileFab t vc p).almHalf = s.almHalf ∧ (s.tileFab t vc p).almanac = s.almanac ∧
    (s.tileFab t vc p).almQ = s.almQ ∧ (s.tileFab t vc p).hours = s.hours ∧ (s.tileFab t vc p).chunks = s.chunks ∧
    (s.tileFab t vc p).windows = s.windows ∧ (s.tileFab t vc p).due = s.due ∧ (s.tileFab t vc p).urgent = s.urgent ∧
    (s.tileFab t vc p).saves = s.saves ∧ (s.tileFab t vc p).dueAt = s.dueAt ∧ (s.tileFab t vc p).chk = s.chk ∧
    (s.tileFab t vc p).bg = s.bg ∧ (s.tileFab t vc p).bgNext = s.bgNext ∧ (s.tileFab t vc p).bgAt = s.bgAt ∧
    (s.tileFab t vc p).bgSweeps = s.bgSweeps ∧ (s.tileFab t vc p).repairs = s.repairs ∧
    (s.tileFab t vc p).newRepairs = s.newRepairs ∧ (s.tileFab t vc p).resets = s.resets ∧
    (s.tileFab t vc p).ecl = s.ecl ∧ (s.tileFab t vc p).conj = s.conj ∧ (s.tileFab t vc p).adopt = s.adopt ∧
    (s.tileFab t vc p).pwr = s.pwr ∧ (s.tileFab t vc p).postAt = s.postAt ∧ (s.tileFab t vc p).gated = s.gated ∧
    (s.tileFab t vc p).fresh = s.fresh ∧ (s.tileFab t vc p).pending = s.pending :=
  ⟨rfl, rfl, rfl, rfl, rfl, rfl, rfl, rfl, rfl, rfl, rfl, rfl, rfl, rfl, rfl, rfl, rfl, rfl, rfl, rfl, rfl, rfl, rfl, rfl, rfl, rfl, rfl, rfl, rfl, rfl, rfl, rfl, rfl, rfl, rfl, rfl, rfl, rfl, rfl, rfl, rfl, rfl, rfl, rfl, rfl, rfl, rfl, rfl, rfl, rfl, rfl, rfl, rfl, rfl, rfl, rfl, rfl, rfl, rfl, rfl, rfl, rfl, rfl, rfl, rfl, rfl, rfl, rfl, rfl, rfl, rfl, rfl, rfl, rfl, rfl, rfl, rfl, rfl, rfl, rfl⟩

@[simp] theorem State.discoverAll_frame (s : State) :
    (s.discoverAll).cycle = s.cycle ∧ (s.discoverAll).sidereal = s.sidereal ∧ (s.discoverAll).st = s.st ∧
    (s.discoverAll).regs = s.regs ∧ (s.discoverAll).tiles = s.tiles ∧ (s.discoverAll).tileWas = s.tileWas ∧
    (s.discoverAll).chans = s.chans ∧ (s.discoverAll).flits = s.flits ∧ (s.discoverAll).landings = s.landings ∧
    (s.discoverAll).pkts = s.pkts ∧ (s.discoverAll).inbox = s.inbox ∧ (s.discoverAll).vout = s.vout ∧
    (s.discoverAll).vcred = s.vcred ∧ (s.discoverAll).vend = s.vend ∧ (s.discoverAll).barRel = s.barRel ∧
    (s.discoverAll).faults = s.faults ∧ (s.discoverAll).abortAt = s.abortAt ∧ (s.discoverAll).pubs = s.pubs ∧
    (s.discoverAll).det = s.det ∧ (s.discoverAll).skip = s.skip ∧ (s.discoverAll).routerFailed = s.routerFailed ∧
    (s.discoverAll).fusedDefects = s.fusedDefects ∧ (s.discoverAll).fusedRepairs = s.fusedRepairs ∧
    (s.discoverAll).pendingRemap = s.pendingRemap ∧ (s.discoverAll).routeQ = s.routeQ ∧
    (s.discoverAll).gather = s.gather ∧ (s.discoverAll).frags = s.frags ∧ (s.discoverAll).reasm = s.reasm ∧
    (s.discoverAll).gbar = s.gbar ∧ (s.discoverAll).rank = s.rank ∧ (s.discoverAll).freqPort = s.freqPort ∧
    (s.discoverAll).holdAt = s.holdAt ∧ (s.discoverAll).phase = s.phase ∧ (s.discoverAll).started = s.started ∧
    (s.discoverAll).jobFenced = s.jobFenced ∧ (s.discoverAll).lastS = s.lastS ∧
    (s.discoverAll).drainBegan = s.drainBegan ∧ (s.discoverAll).host = s.host ∧
    (s.discoverAll).hostNext = s.hostNext ∧ (s.discoverAll).msix = s.msix ∧ (s.discoverAll).pba = s.pba ∧
    (s.discoverAll).sent = s.sent ∧ (s.discoverAll).mbx = s.mbx ∧ (s.discoverAll).mbxTurn = s.mbxTurn ∧
    (s.discoverAll).replies = s.replies ∧ (s.discoverAll).prog = s.prog ∧ (s.discoverAll).bootReady = s.bootReady ∧
    (s.discoverAll).boot = s.boot ∧ (s.discoverAll).flash = s.flash ∧ (s.discoverAll).sec = s.sec ∧
    (s.discoverAll).recs = s.recs ∧ (s.discoverAll).logQ = s.logQ ∧ (s.discoverAll).log = s.log ∧
    (s.discoverAll).logNew = s.logNew ∧ (s.discoverAll).almHalf = s.almHalf ∧ (s.discoverAll).almanac = s.almanac ∧
    (s.discoverAll).almQ = s.almQ ∧ (s.discoverAll).hours = s.hours ∧ (s.discoverAll).chunks = s.chunks ∧
    (s.discoverAll).windows = s.windows ∧ (s.discoverAll).due = s.due ∧ (s.discoverAll).urgent = s.urgent ∧
    (s.discoverAll).saves = s.saves ∧ (s.discoverAll).dueAt = s.dueAt ∧ (s.discoverAll).chk = s.chk ∧
    (s.discoverAll).bg = s.bg ∧ (s.discoverAll).bgNext = s.bgNext ∧ (s.discoverAll).bgAt = s.bgAt ∧
    (s.discoverAll).bgSweeps = s.bgSweeps ∧ (s.discoverAll).repairs = s.repairs ∧
    (s.discoverAll).newRepairs = s.newRepairs ∧ (s.discoverAll).resets = s.resets ∧ (s.discoverAll).ecl = s.ecl ∧
    (s.discoverAll).conj = s.conj ∧ (s.discoverAll).adopt = s.adopt ∧ (s.discoverAll).pwr = s.pwr ∧
    (s.discoverAll).postAt = s.postAt ∧ (s.discoverAll).gated = s.gated ∧ (s.discoverAll).fresh = s.fresh ∧
    (s.discoverAll).pending = s.pending :=
  ⟨rfl, rfl, rfl, rfl, rfl, rfl, rfl, rfl, rfl, rfl, rfl, rfl, rfl, rfl, rfl, rfl, rfl, rfl, rfl, rfl, rfl, rfl, rfl, rfl, rfl, rfl, rfl, rfl, rfl, rfl, rfl, rfl, rfl, rfl, rfl, rfl, rfl, rfl, rfl, rfl, rfl, rfl, rfl, rfl, rfl, rfl, rfl, rfl, rfl, rfl, rfl, rfl, rfl, rfl, rfl, rfl, rfl, rfl, rfl, rfl, rfl, rfl, rfl, rfl, rfl, rfl, rfl, rfl, rfl, rfl, rfl, rfl, rfl, rfl, rfl, rfl, rfl, rfl, rfl, rfl⟩

@[simp] theorem State.timeFlag_frame (s : State) (f : Fld) :
    (s.timeFlag f).cycle = s.cycle ∧ (s.timeFlag f).sidereal = s.sidereal ∧ (s.timeFlag f).st = s.st ∧
    (s.timeFlag f).tiles = s.tiles ∧ (s.timeFlag f).tileWas = s.tileWas ∧ (s.timeFlag f).chans = s.chans ∧
    (s.timeFlag f).ports = s.ports ∧ (s.timeFlag f).flits = s.flits ∧ (s.timeFlag f).landings = s.landings ∧
    (s.timeFlag f).pkts = s.pkts ∧ (s.timeFlag f).inbox = s.inbox ∧ (s.timeFlag f).vout = s.vout ∧
    (s.timeFlag f).vcred = s.vcred ∧ (s.timeFlag f).vend = s.vend ∧ (s.timeFlag f).barRel = s.barRel ∧
    (s.timeFlag f).faults = s.faults ∧ (s.timeFlag f).abortAt = s.abortAt ∧ (s.timeFlag f).pubs = s.pubs ∧
    (s.timeFlag f).det = s.det ∧ (s.timeFlag f).skip = s.skip ∧ (s.timeFlag f).routerFailed = s.routerFailed ∧
    (s.timeFlag f).fusedDefects = s.fusedDefects ∧ (s.timeFlag f).fusedRepairs = s.fusedRepairs ∧
    (s.timeFlag f).pendingRemap = s.pendingRemap ∧ (s.timeFlag f).routeQ = s.routeQ ∧
    (s.timeFlag f).gather = s.gather ∧ (s.timeFlag f).frags = s.frags ∧ (s.timeFlag f).reasm = s.reasm ∧
    (s.timeFlag f).gbar = s.gbar ∧ (s.timeFlag f).rank = s.rank ∧ (s.timeFlag f).freqPort = s.freqPort ∧
    (s.timeFlag f).holdAt = s.holdAt ∧ (s.timeFlag f).phase = s.phase ∧ (s.timeFlag f).started = s.started ∧
    (s.timeFlag f).jobFenced = s.jobFenced ∧ (s.timeFlag f).lastS = s.lastS ∧
    (s.timeFlag f).drainBegan = s.drainBegan ∧ (s.timeFlag f).host = s.host ∧ (s.timeFlag f).hostNext = s.hostNext ∧
    (s.timeFlag f).msix = s.msix ∧ (s.timeFlag f).pba = s.pba ∧ (s.timeFlag f).sent = s.sent ∧
    (s.timeFlag f).mbx = s.mbx ∧ (s.timeFlag f).mbxTurn = s.mbxTurn ∧ (s.timeFlag f).replies = s.replies ∧
    (s.timeFlag f).prog = s.prog ∧ (s.timeFlag f).bootReady = s.bootReady ∧ (s.timeFlag f).boot = s.boot ∧
    (s.timeFlag f).flash = s.flash ∧ (s.timeFlag f).sec = s.sec ∧ (s.timeFlag f).recs = s.recs ∧
    (s.timeFlag f).logQ = s.logQ ∧ (s.timeFlag f).log = s.log ∧ (s.timeFlag f).logNew = s.logNew ∧
    (s.timeFlag f).almHalf = s.almHalf ∧ (s.timeFlag f).almanac = s.almanac ∧ (s.timeFlag f).almQ = s.almQ ∧
    (s.timeFlag f).hours = s.hours ∧ (s.timeFlag f).chunks = s.chunks ∧ (s.timeFlag f).windows = s.windows ∧
    (s.timeFlag f).due = s.due ∧ (s.timeFlag f).urgent = s.urgent ∧ (s.timeFlag f).saves = s.saves ∧
    (s.timeFlag f).dueAt = s.dueAt ∧ (s.timeFlag f).chk = s.chk ∧ (s.timeFlag f).bg = s.bg ∧
    (s.timeFlag f).bgNext = s.bgNext ∧ (s.timeFlag f).bgAt = s.bgAt ∧ (s.timeFlag f).bgSweeps = s.bgSweeps ∧
    (s.timeFlag f).repairs = s.repairs ∧ (s.timeFlag f).newRepairs = s.newRepairs ∧ (s.timeFlag f).resets = s.resets ∧
    (s.timeFlag f).ecl = s.ecl ∧ (s.timeFlag f).conj = s.conj ∧ (s.timeFlag f).adopt = s.adopt ∧
    (s.timeFlag f).pwr = s.pwr ∧ (s.timeFlag f).postAt = s.postAt ∧ (s.timeFlag f).gated = s.gated ∧
    (s.timeFlag f).fresh = s.fresh ∧ (s.timeFlag f).pending = s.pending :=
  ⟨rfl, rfl, rfl, rfl, rfl, rfl, rfl, rfl, rfl, rfl, rfl, rfl, rfl, rfl, rfl, rfl, rfl, rfl, rfl, rfl, rfl, rfl, rfl, rfl, rfl, rfl, rfl, rfl, rfl, rfl, rfl, rfl, rfl, rfl, rfl, rfl, rfl, rfl, rfl, rfl, rfl, rfl, rfl, rfl, rfl, rfl, rfl, rfl, rfl, rfl, rfl, rfl, rfl, rfl, rfl, rfl, rfl, rfl, rfl, rfl, rfl, rfl, rfl, rfl, rfl, rfl, rfl, rfl, rfl, rfl, rfl, rfl, rfl, rfl, rfl, rfl, rfl, rfl, rfl, rfl⟩

@[simp] theorem State.portFlag_frame (s : State) (n : Nat) (f : Fld) :
    (s.portFlag n f).cycle = s.cycle ∧ (s.portFlag n f).sidereal = s.sidereal ∧ (s.portFlag n f).st = s.st ∧
    (s.portFlag n f).tiles = s.tiles ∧ (s.portFlag n f).tileWas = s.tileWas ∧ (s.portFlag n f).chans = s.chans ∧
    (s.portFlag n f).ports = s.ports ∧ (s.portFlag n f).flits = s.flits ∧ (s.portFlag n f).landings = s.landings ∧
    (s.portFlag n f).pkts = s.pkts ∧ (s.portFlag n f).inbox = s.inbox ∧ (s.portFlag n f).vout = s.vout ∧
    (s.portFlag n f).vcred = s.vcred ∧ (s.portFlag n f).vend = s.vend ∧ (s.portFlag n f).barRel = s.barRel ∧
    (s.portFlag n f).faults = s.faults ∧ (s.portFlag n f).abortAt = s.abortAt ∧ (s.portFlag n f).pubs = s.pubs ∧
    (s.portFlag n f).det = s.det ∧ (s.portFlag n f).skip = s.skip ∧ (s.portFlag n f).routerFailed = s.routerFailed ∧
    (s.portFlag n f).fusedDefects = s.fusedDefects ∧ (s.portFlag n f).fusedRepairs = s.fusedRepairs ∧
    (s.portFlag n f).pendingRemap = s.pendingRemap ∧ (s.portFlag n f).routeQ = s.routeQ ∧
    (s.portFlag n f).gather = s.gather ∧ (s.portFlag n f).frags = s.frags ∧ (s.portFlag n f).reasm = s.reasm ∧
    (s.portFlag n f).gbar = s.gbar ∧ (s.portFlag n f).rank = s.rank ∧ (s.portFlag n f).freqPort = s.freqPort ∧
    (s.portFlag n f).holdAt = s.holdAt ∧ (s.portFlag n f).phase = s.phase ∧ (s.portFlag n f).started = s.started ∧
    (s.portFlag n f).jobFenced = s.jobFenced ∧ (s.portFlag n f).lastS = s.lastS ∧
    (s.portFlag n f).drainBegan = s.drainBegan ∧ (s.portFlag n f).host = s.host ∧
    (s.portFlag n f).hostNext = s.hostNext ∧ (s.portFlag n f).msix = s.msix ∧ (s.portFlag n f).pba = s.pba ∧
    (s.portFlag n f).sent = s.sent ∧ (s.portFlag n f).mbx = s.mbx ∧ (s.portFlag n f).mbxTurn = s.mbxTurn ∧
    (s.portFlag n f).replies = s.replies ∧ (s.portFlag n f).prog = s.prog ∧ (s.portFlag n f).bootReady = s.bootReady ∧
    (s.portFlag n f).boot = s.boot ∧ (s.portFlag n f).flash = s.flash ∧ (s.portFlag n f).sec = s.sec ∧
    (s.portFlag n f).recs = s.recs ∧ (s.portFlag n f).logQ = s.logQ ∧ (s.portFlag n f).log = s.log ∧
    (s.portFlag n f).logNew = s.logNew ∧ (s.portFlag n f).almHalf = s.almHalf ∧ (s.portFlag n f).almanac = s.almanac ∧
    (s.portFlag n f).almQ = s.almQ ∧ (s.portFlag n f).hours = s.hours ∧ (s.portFlag n f).chunks = s.chunks ∧
    (s.portFlag n f).windows = s.windows ∧ (s.portFlag n f).due = s.due ∧ (s.portFlag n f).urgent = s.urgent ∧
    (s.portFlag n f).saves = s.saves ∧ (s.portFlag n f).dueAt = s.dueAt ∧ (s.portFlag n f).chk = s.chk ∧
    (s.portFlag n f).bg = s.bg ∧ (s.portFlag n f).bgNext = s.bgNext ∧ (s.portFlag n f).bgAt = s.bgAt ∧
    (s.portFlag n f).bgSweeps = s.bgSweeps ∧ (s.portFlag n f).repairs = s.repairs ∧
    (s.portFlag n f).newRepairs = s.newRepairs ∧ (s.portFlag n f).resets = s.resets ∧ (s.portFlag n f).ecl = s.ecl ∧
    (s.portFlag n f).conj = s.conj ∧ (s.portFlag n f).adopt = s.adopt ∧ (s.portFlag n f).pwr = s.pwr ∧
    (s.portFlag n f).postAt = s.postAt ∧ (s.portFlag n f).gated = s.gated ∧ (s.portFlag n f).fresh = s.fresh ∧
    (s.portFlag n f).pending = s.pending :=
  ⟨rfl, rfl, rfl, rfl, rfl, rfl, rfl, rfl, rfl, rfl, rfl, rfl, rfl, rfl, rfl, rfl, rfl, rfl, rfl, rfl, rfl, rfl, rfl, rfl, rfl, rfl, rfl, rfl, rfl, rfl, rfl, rfl, rfl, rfl, rfl, rfl, rfl, rfl, rfl, rfl, rfl, rfl, rfl, rfl, rfl, rfl, rfl, rfl, rfl, rfl, rfl, rfl, rfl, rfl, rfl, rfl, rfl, rfl, rfl, rfl, rfl, rfl, rfl, rfl, rfl, rfl, rfl, rfl, rfl, rfl, rfl, rfl, rfl, rfl, rfl, rfl, rfl, rfl, rfl, rfl⟩

@[simp] theorem State.signal_frame (s : State) (v : Nat) :
    (s.signal v).cycle = s.cycle ∧ (s.signal v).sidereal = s.sidereal ∧ (s.signal v).st = s.st ∧
    (s.signal v).regs = s.regs ∧ (s.signal v).tiles = s.tiles ∧ (s.signal v).tileWas = s.tileWas ∧
    (s.signal v).chans = s.chans ∧ (s.signal v).ports = s.ports ∧ (s.signal v).flits = s.flits ∧
    (s.signal v).landings = s.landings ∧ (s.signal v).pkts = s.pkts ∧ (s.signal v).inbox = s.inbox ∧
    (s.signal v).vout = s.vout ∧ (s.signal v).vcred = s.vcred ∧ (s.signal v).vend = s.vend ∧
    (s.signal v).barRel = s.barRel ∧ (s.signal v).faults = s.faults ∧ (s.signal v).abortAt = s.abortAt ∧
    (s.signal v).pubs = s.pubs ∧ (s.signal v).det = s.det ∧ (s.signal v).skip = s.skip ∧
    (s.signal v).routerFailed = s.routerFailed ∧ (s.signal v).fusedDefects = s.fusedDefects ∧
    (s.signal v).fusedRepairs = s.fusedRepairs ∧ (s.signal v).pendingRemap = s.pendingRemap ∧
    (s.signal v).routeQ = s.routeQ ∧ (s.signal v).gather = s.gather ∧ (s.signal v).frags = s.frags ∧
    (s.signal v).reasm = s.reasm ∧ (s.signal v).gbar = s.gbar ∧ (s.signal v).rank = s.rank ∧
    (s.signal v).freqPort = s.freqPort ∧ (s.signal v).holdAt = s.holdAt ∧ (s.signal v).phase = s.phase ∧
    (s.signal v).started = s.started ∧ (s.signal v).jobFenced = s.jobFenced ∧ (s.signal v).lastS = s.lastS ∧
    (s.signal v).drainBegan = s.drainBegan ∧ (s.signal v).host = s.host ∧ (s.signal v).hostNext = s.hostNext ∧
    (s.signal v).msix = s.msix ∧ (s.signal v).mbx = s.mbx ∧ (s.signal v).mbxTurn = s.mbxTurn ∧
    (s.signal v).replies = s.replies ∧ (s.signal v).prog = s.prog ∧ (s.signal v).bootReady = s.bootReady ∧
    (s.signal v).boot = s.boot ∧ (s.signal v).flash = s.flash ∧ (s.signal v).sec = s.sec ∧
    (s.signal v).recs = s.recs ∧ (s.signal v).logQ = s.logQ ∧ (s.signal v).log = s.log ∧
    (s.signal v).logNew = s.logNew ∧ (s.signal v).almHalf = s.almHalf ∧ (s.signal v).almanac = s.almanac ∧
    (s.signal v).almQ = s.almQ ∧ (s.signal v).hours = s.hours ∧ (s.signal v).chunks = s.chunks ∧
    (s.signal v).windows = s.windows ∧ (s.signal v).due = s.due ∧ (s.signal v).urgent = s.urgent ∧
    (s.signal v).saves = s.saves ∧ (s.signal v).dueAt = s.dueAt ∧ (s.signal v).chk = s.chk ∧ (s.signal v).bg = s.bg ∧
    (s.signal v).bgNext = s.bgNext ∧ (s.signal v).bgAt = s.bgAt ∧ (s.signal v).bgSweeps = s.bgSweeps ∧
    (s.signal v).repairs = s.repairs ∧ (s.signal v).newRepairs = s.newRepairs ∧ (s.signal v).resets = s.resets ∧
    (s.signal v).ecl = s.ecl ∧ (s.signal v).conj = s.conj ∧ (s.signal v).adopt = s.adopt ∧ (s.signal v).pwr = s.pwr ∧
    (s.signal v).postAt = s.postAt ∧ (s.signal v).gated = s.gated ∧ (s.signal v).fresh = s.fresh ∧
    (s.signal v).pending = s.pending := by
  unfold State.signal; split <;> simp

@[simp] theorem State.irq_frame (s : State) (b : Nat) :
    (s.irq b).cycle = s.cycle ∧ (s.irq b).sidereal = s.sidereal ∧ (s.irq b).st = s.st ∧ (s.irq b).tiles = s.tiles ∧
    (s.irq b).tileWas = s.tileWas ∧ (s.irq b).chans = s.chans ∧ (s.irq b).ports = s.ports ∧
    (s.irq b).flits = s.flits ∧ (s.irq b).landings = s.landings ∧ (s.irq b).pkts = s.pkts ∧
    (s.irq b).inbox = s.inbox ∧ (s.irq b).vout = s.vout ∧ (s.irq b).vcred = s.vcred ∧ (s.irq b).vend = s.vend ∧
    (s.irq b).barRel = s.barRel ∧ (s.irq b).faults = s.faults ∧ (s.irq b).abortAt = s.abortAt ∧
    (s.irq b).pubs = s.pubs ∧ (s.irq b).det = s.det ∧ (s.irq b).skip = s.skip ∧
    (s.irq b).routerFailed = s.routerFailed ∧ (s.irq b).fusedDefects = s.fusedDefects ∧
    (s.irq b).fusedRepairs = s.fusedRepairs ∧ (s.irq b).pendingRemap = s.pendingRemap ∧ (s.irq b).routeQ = s.routeQ ∧
    (s.irq b).gather = s.gather ∧ (s.irq b).frags = s.frags ∧ (s.irq b).reasm = s.reasm ∧ (s.irq b).gbar = s.gbar ∧
    (s.irq b).rank = s.rank ∧ (s.irq b).freqPort = s.freqPort ∧ (s.irq b).holdAt = s.holdAt ∧
    (s.irq b).phase = s.phase ∧ (s.irq b).started = s.started ∧ (s.irq b).jobFenced = s.jobFenced ∧
    (s.irq b).lastS = s.lastS ∧ (s.irq b).drainBegan = s.drainBegan ∧ (s.irq b).host = s.host ∧
    (s.irq b).hostNext = s.hostNext ∧ (s.irq b).msix = s.msix ∧ (s.irq b).mbx = s.mbx ∧
    (s.irq b).mbxTurn = s.mbxTurn ∧ (s.irq b).replies = s.replies ∧ (s.irq b).prog = s.prog ∧
    (s.irq b).bootReady = s.bootReady ∧ (s.irq b).boot = s.boot ∧ (s.irq b).flash = s.flash ∧ (s.irq b).sec = s.sec ∧
    (s.irq b).recs = s.recs ∧ (s.irq b).logQ = s.logQ ∧ (s.irq b).log = s.log ∧ (s.irq b).logNew = s.logNew ∧
    (s.irq b).almHalf = s.almHalf ∧ (s.irq b).almanac = s.almanac ∧ (s.irq b).almQ = s.almQ ∧
    (s.irq b).hours = s.hours ∧ (s.irq b).chunks = s.chunks ∧ (s.irq b).windows = s.windows ∧ (s.irq b).due = s.due ∧
    (s.irq b).urgent = s.urgent ∧ (s.irq b).saves = s.saves ∧ (s.irq b).dueAt = s.dueAt ∧ (s.irq b).chk = s.chk ∧
    (s.irq b).bg = s.bg ∧ (s.irq b).bgNext = s.bgNext ∧ (s.irq b).bgAt = s.bgAt ∧ (s.irq b).bgSweeps = s.bgSweeps ∧
    (s.irq b).repairs = s.repairs ∧ (s.irq b).newRepairs = s.newRepairs ∧ (s.irq b).resets = s.resets ∧
    (s.irq b).ecl = s.ecl ∧ (s.irq b).conj = s.conj ∧ (s.irq b).adopt = s.adopt ∧ (s.irq b).pwr = s.pwr ∧
    (s.irq b).postAt = s.postAt ∧ (s.irq b).gated = s.gated ∧ (s.irq b).fresh = s.fresh ∧
    (s.irq b).pending = s.pending := by
  unfold State.irq; dsimp only; split <;> simp

@[simp] theorem State.setTime_frame (s : State) (v : Nat) :
    (s.setTime v).cycle = s.cycle ∧ (s.setTime v).sidereal = s.sidereal ∧ (s.setTime v).st = s.st ∧
    (s.setTime v).tiles = s.tiles ∧ (s.setTime v).tileWas = s.tileWas ∧ (s.setTime v).chans = s.chans ∧
    (s.setTime v).ports = s.ports ∧ (s.setTime v).flits = s.flits ∧ (s.setTime v).landings = s.landings ∧
    (s.setTime v).pkts = s.pkts ∧ (s.setTime v).inbox = s.inbox ∧ (s.setTime v).vout = s.vout ∧
    (s.setTime v).vcred = s.vcred ∧ (s.setTime v).vend = s.vend ∧ (s.setTime v).barRel = s.barRel ∧
    (s.setTime v).faults = s.faults ∧ (s.setTime v).abortAt = s.abortAt ∧ (s.setTime v).pubs = s.pubs ∧
    (s.setTime v).det = s.det ∧ (s.setTime v).skip = s.skip ∧ (s.setTime v).routerFailed = s.routerFailed ∧
    (s.setTime v).fusedDefects = s.fusedDefects ∧ (s.setTime v).fusedRepairs = s.fusedRepairs ∧
    (s.setTime v).pendingRemap = s.pendingRemap ∧ (s.setTime v).routeQ = s.routeQ ∧ (s.setTime v).gather = s.gather ∧
    (s.setTime v).frags = s.frags ∧ (s.setTime v).reasm = s.reasm ∧ (s.setTime v).gbar = s.gbar ∧
    (s.setTime v).rank = s.rank ∧ (s.setTime v).freqPort = s.freqPort ∧ (s.setTime v).holdAt = s.holdAt ∧
    (s.setTime v).phase = s.phase ∧ (s.setTime v).started = s.started ∧ (s.setTime v).jobFenced = s.jobFenced ∧
    (s.setTime v).lastS = s.lastS ∧ (s.setTime v).drainBegan = s.drainBegan ∧ (s.setTime v).host = s.host ∧
    (s.setTime v).hostNext = s.hostNext ∧ (s.setTime v).msix = s.msix ∧ (s.setTime v).mbx = s.mbx ∧
    (s.setTime v).mbxTurn = s.mbxTurn ∧ (s.setTime v).replies = s.replies ∧ (s.setTime v).prog = s.prog ∧
    (s.setTime v).bootReady = s.bootReady ∧ (s.setTime v).boot = s.boot ∧ (s.setTime v).flash = s.flash ∧
    (s.setTime v).sec = s.sec ∧ (s.setTime v).recs = s.recs ∧ (s.setTime v).logQ = s.logQ ∧
    (s.setTime v).log = s.log ∧ (s.setTime v).logNew = s.logNew ∧ (s.setTime v).almHalf = s.almHalf ∧
    (s.setTime v).almanac = s.almanac ∧ (s.setTime v).almQ = s.almQ ∧ (s.setTime v).hours = s.hours ∧
    (s.setTime v).chunks = s.chunks ∧ (s.setTime v).windows = s.windows ∧ (s.setTime v).due = s.due ∧
    (s.setTime v).urgent = s.urgent ∧ (s.setTime v).saves = s.saves ∧ (s.setTime v).dueAt = s.dueAt ∧
    (s.setTime v).chk = s.chk ∧ (s.setTime v).bg = s.bg ∧ (s.setTime v).bgNext = s.bgNext ∧
    (s.setTime v).bgAt = s.bgAt ∧ (s.setTime v).bgSweeps = s.bgSweeps ∧ (s.setTime v).repairs = s.repairs ∧
    (s.setTime v).newRepairs = s.newRepairs ∧ (s.setTime v).resets = s.resets ∧ (s.setTime v).ecl = s.ecl ∧
    (s.setTime v).conj = s.conj ∧ (s.setTime v).adopt = s.adopt ∧ (s.setTime v).pwr = s.pwr ∧
    (s.setTime v).postAt = s.postAt ∧ (s.setTime v).gated = s.gated ∧ (s.setTime v).fresh = s.fresh ∧
    (s.setTime v).pending = s.pending := by
  unfold State.setTime; split <;> simp

end Sys2Proof.Machine
end

