-- ==== Sys2Proof/Laws/Tab.lean ====
section
/-! SUPPORT. Reading a sparse map after a write of it: the written key gives the value written, every other key what it gave. -/
namespace Sys2Proof.Tab
variable {κ α : Type} [DecidableEq κ]

theorem lookupIn_insertIn (l : List (κ × α)) (k x : κ) (v : α) :
    lookupIn (insertIn l k v) x = if k = x then some v else lookupIn l x := by
  induction l with
  | nil => simp [insertIn, lookupIn]
  | cons e r ih =>
    obtain ⟨b, w⟩ := e
    by_cases hb : b = k
    · subst hb
      simp only [insertIn, if_true, lookupIn]
      split <;> simp_all
    · simp only [insertIn, if_neg hb, lookupIn, ih]
      by_cases hx : b = x
      · subst hx
        simp [Ne.symm hb]
      · simp [hx]

@[simp] theorem find_empty (x : κ) : (empty : Tab κ α).find x = none := rfl
@[simp] theorem get_empty (x : κ) (d : α) : (empty : Tab κ α).get x d = d := rfl

theorem find_set (m : Tab κ α) (k x : κ) (v : α) : (m.set k v).find x = if k = x then some v else m.find x :=
  lookupIn_insertIn m.entries k x v

@[simp] theorem find_set_same (m : Tab κ α) (k : κ) (v : α) : (m.set k v).find k = some v := by simp [find_set]
theorem find_set_ne (m : Tab κ α) {k x : κ} (v : α) (h : k ≠ x) : (m.set k v).find x = m.find x := by simp [find_set, h]

theorem get_set (m : Tab κ α) (k x : κ) (v d : α) : (m.set k v).get x d = if k = x then v else m.get x d := by
  unfold get
  rw [find_set]
  split <;> rfl

@[simp] theorem get_set_same (m : Tab κ α) (k : κ) (v d : α) : (m.set k v).get k d = v := by simp [get_set]
theorem get_set_ne (m : Tab κ α) {k x : κ} (v d : α) (h : k ≠ x) : (m.set k v).get x d = m.get x d := by simp [get_set, h]

theorem lookupIn_map (l : List (κ × α)) (f : κ → α → α) (x : κ) :
    lookupIn (l.map (fun e => (e.1, f e.1 e.2))) x = (lookupIn l x).map (f x) := by
  induction l with
  | nil => rfl
  | cons e r ih =>
    by_cases h : e.1 = x
    · subst h
      simp [lookupIn]
    · simp [lookupIn, h, ih]

theorem find_mapVals (m : Tab κ α) (f : κ → α → α) (x : κ) : (m.mapVals f).find x = (m.find x).map (f x) :=
  lookupIn_map m.entries f x

/-- Changing every listed value reads as the change of the value read, where the change keeps the default. -/
theorem get_mapVals (m : Tab κ α) (f : κ → α → α) (x : κ) (d : α) (h : f x d = d) :
    (m.mapVals f).get x d = f x (m.get x d) := by
  unfold get
  rw [find_mapVals]
  cases m.find x <;> simp [h]

/-- A property of every listed value and of the default holds of whatever is read. -/
theorem get_of_all (m : Tab κ α) (p : α → Prop) (d : α) (h : ∀ e ∈ m.entries, p e.2) (hd : p d) (x : κ) : p (m.get x d) := by
  have key : ∀ l : List (κ × α), (∀ e ∈ l, p e.2) → p ((lookupIn l x).getD d) := by
    intro l
    induction l with
    | nil => intro _; exact hd
    | cons e r ih =>
      intro he
      obtain ⟨k, v⟩ := e
      by_cases hk : k = x
      · simpa [lookupIn, hk] using he (k, v) (by simp)
      · simpa [lookupIn, hk] using ih (fun q hq => he q (by simp [hq]))
  exact key m.entries h

end Sys2Proof.Tab
end

