-- ==== Sys2Proof/Laws/Regs.lean ====
section
/-! SUPPORT. Reading a register field after a write of one: of the module, of a tile. -/
namespace Sys2Proof.Machine

theorem RegFile.rd_wr (r : RegFile) (f g : Fld) (i j i' j' v : Nat) :
    (r.wr f i j v).rd g i' j' = if (f.id, i, j) = (g.id, i', j') then v % 2 ^ f.width else r.rd g i' j' := by
  simp only [RegFile.rd, RegFile.wr, Tab.get_set]

/-- A field reads as the value stored, cut to its width. -/
@[simp] theorem RegFile.rd_wr_same (r : RegFile) (f : Fld) (i j v : Nat) : (r.wr f i j v).rd f i j = v % 2 ^ f.width := by
  simp [RegFile.rd_wr]

/-- A store leaves every other field, unit and index. -/
theorem RegFile.rd_wr_ne (r : RegFile) {f g : Fld} {i j i' j' : Nat} (v : Nat) (h : (f.id, i, j) ≠ (g.id, i', j')) :
    (r.wr f i j v).rd g i' j' = r.rd g i' j' := by
  simp only [RegFile.rd_wr, if_neg h]

theorem State.rd_wr (s : State) (f g : Fld) (i j i' j' v : Nat) :
    (s.wr f i j v).rd g i' j' = if (f.id, i, j) = (g.id, i', j') then v % 2 ^ f.width else s.rd g i' j' :=
  RegFile.rd_wr s.regs f g i j i' j' v

@[simp] theorem State.rd_wr_same (s : State) (f : Fld) (i j v : Nat) : (s.wr f i j v).rd f i j = v % 2 ^ f.width :=
  RegFile.rd_wr_same s.regs f i j v

theorem State.rd_wr_ne (s : State) {f g : Fld} {i j i' j' : Nat} (v : Nat) (h : (f.id, i, j) ≠ (g.id, i', j')) :
    (s.wr f i j v).rd g i' j' = s.rd g i' j' :=
  RegFile.rd_wr_ne s.regs v h

theorem Tile.rd_wr (tl : Tile) (f g : Fld) (j j' v : Nat) :
    (tl.wr f j v).rd g j' = if f.id = g.id ∧ j = j' then v % 2 ^ f.width else tl.rd g j' := by
  simp [Tile.rd, Tile.wr, RegFile.rd_wr]

/-- Hardware setting bits of a status field leaves every other field but its again_count. -/
theorem RegFile.rd_hwSet_ne (r : RegFile) {a f g : Fld} {i j i' j' : Nat} (cycle m : Nat) (hf : (f.id, i, j) ≠ (g.id, i', j'))
    (ha : (a.id, i, j) ≠ (g.id, i', j')) : (r.hwSet a f i j cycle m).rd g i' j' = r.rd g i' j' := by
  simp only [RegFile.hwSet, RegFile.rd, RegFile.wr, RegFile.addSat]
  split
  · simp [Tab.get_set, hf]
  · split <;> simp [Tab.get_set, hf, ha]

/-- A bit that hardware sets reads 1 with the bits that were set before (R10). -/
theorem RegFile.rd_hwSet_same (r : RegFile) {a f : Fld} (i j cycle m : Nat) (ha : a.id ≠ f.id) :
    (r.hwSet a f i j cycle m).rd f i j = (r.rd f i j ||| m) % 2 ^ f.width := by
  simp only [RegFile.hwSet, RegFile.rd, RegFile.wr, RegFile.addSat]
  split
  · simp
  · split <;> simp [Tab.get_set, ha]

theorem State.rd_flag_ne (s : State) {a f g : Fld} {i j i' j' : Nat} (m : Nat) (hf : (f.id, i, j) ≠ (g.id, i', j'))
    (ha : (a.id, i, j) ≠ (g.id, i', j')) : (s.flag a f i j m).rd g i' j' = s.rd g i' j' :=
  RegFile.rd_hwSet_ne s.regs s.cycle m hf ha

theorem State.rd_flag_same (s : State) {a f : Fld} (i j m : Nat) (ha : a.id ≠ f.id) :
    (s.flag a f i j m).rd f i j = (s.rd f i j ||| m) % 2 ^ f.width :=
  RegFile.rd_hwSet_same s.regs i j s.cycle m ha

/-- An interrupt event changes no register field but those of OBS_IRQ_STATUS (R392). -/
theorem State.rd_irq (s : State) (b : Nat) {g : Fld} {i' j' : Nat} (h1 : F.OBS_IRQ_STATUS.cause.id ≠ g.id)
    (h2 : F.OBS_IRQ_STATUS.again_count.id ≠ g.id) : (s.irq b).rd g i' j' = s.rd g i' j' := by
  have key : (s.flag F.OBS_IRQ_STATUS.again_count F.OBS_IRQ_STATUS.cause 0 0 (2 ^ b)).rd g i' j' = s.rd g i' j' :=
    State.rd_flag_ne s _ (by simp [h1]) (by simp [h2])
  unfold State.irq
  dsimp only
  split
  · unfold State.signal
    split
    · exact key
    · exact key
  · exact key

@[simp] theorem State.rd_put (s : State) (x : Sent) (f : Fld) (i j : Nat) : (s.put x).rd f i j = s.rd f i j := rfl
@[simp] theorem State.rd_setTile (s : State) (t : Nat) (x : Tile) (f : Fld) (i j : Nat) : (s.setTile t x).rd f i j = s.rd f i j := rfl
@[simp] theorem State.rd_setPort (s : State) (n : Nat) (x : Port) (f : Fld) (i j : Nat) : (s.setPort n x).rd f i j = s.rd f i j := rfl

/-- A tile reads as the tile set; every other tile as before. -/
theorem State.tile_setTile (s : State) (t t' : Nat) (x : Tile) : (s.setTile t x).tile t' = if t = t' then x else s.tile t' :=
  Tab.get_set s.tiles t t' x .reset
theorem State.chan_setChan (s : State) (t t' : Nat) (x : Chan) : (s.setChan t x).chan t' = if t = t' then x else s.chan t' :=
  Tab.get_set s.chans t t' x .reset
theorem State.port_setPort (s : State) (t t' : Nat) (x : Port) : (s.setPort t x).port t' = if t = t' then x else s.port t' :=
  Tab.get_set s.ports t t' x .reset

end Sys2Proof.Machine
end

