-- ==== Sys2Proof/Laws/Ports.lean ====
section
/-! SUPPORT. What the operations on bank ports can do: a counted wait changes the bank's record and TIL_BANK_WAIT alone, and neither a wait
nor a delay changes a grant. -/
namespace Sys2Proof.Machine

@[simp] theorem Tile.setBank_bank (tl : Tile) (b : BankSt) : (tl.setBank b).bank = b := rfl
@[simp] theorem Tile.setBank_regs (tl : Tile) (b : BankSt) : (tl.setBank b).regs = tl.regs := rfl
@[simp] theorem Tile.setBank_spad (tl : Tile) (b : BankSt) : (tl.setBank b).spad = tl.spad := rfl

/-- A wait that is counted changes nothing but the record of waits and TIL_BANK_WAIT (R160). -/
theorem Tile.bankWait_waits (k b : Nat) (w : Bool) (u : BankUnit) (tl : Tile) : tl.Waits (tl.bankWait k b w u) := by
  unfold Tile.bankWait Tile.Waits
  split
  · exact ⟨rfl, fun _ _ _ => rfl⟩
  · cases u.cls <;> simp [Tile.setBank, Tile.addSat, RegFile.addSat, Tile.rd, RegFile.rd] <;> (try split) <;>
      (simp_all [Reg.fields, RegFile.wr, Tab.get_set]; intros; exfalso; simp_all)

@[simp] theorem Tile.bankWait_grants (k b : Nat) (w : Bool) (u : BankUnit) (tl : Tile) :
    (tl.bankWait k b w u).bank.grants = tl.bank.grants := by
  unfold Tile.bankWait
  split
  · rfl
  · cases u.cls <;> rfl

/-- What a unit does after a delayed access moves; the grants stay. -/
@[simp] theorem Tile.delayed_grants (c : Ctx) (k : Nat) (u : BankUnit) (w : Bool) (tl : Tile) :
    (tl.delayed c k u w false).1.bank.grants = tl.bank.grants := by
  unfold Tile.delayed
  cases u <;> simp <;> (try rfl); all_goals ((try split) <;> rfl)

/-- The class and the owner alone decide who goes first: the grants do not count (R159). -/
theorem Tile.prio_grants (tl : Tile) (gs : List Grant) (k b : Nat) (u : BankUnit) :
    (tl.setBank { tl.bank with grants := gs }).prio k b u = tl.prio k b u := rfl

/-- Forgetting the grants of cycles that are over leaves those of every other cycle. -/
theorem Tile.grant?_present (tl : Tile) (c k b : Nat) (w : Bool) (h : c ≤ k) :
    (tl.setBank { tl.bank with grants := tl.bank.grants.filter (fun g => decide (c ≤ g.at_)) }).grant? k b w = tl.grant? k b w := by
  unfold Tile.grant?
  simp only [Tile.setBank_bank]
  induction tl.bank.grants with
  | nil => rfl
  | cons g r ih =>
    by_cases hg : c ≤ g.at_
    · simp only [List.filter_cons, hg, decide_true, if_true, List.find?_cons, ih]
    · have : (g.at_ == k) = false := by simp; omega
      simp [hg, this, ih]

end Sys2Proof.Machine
end

