-- ==== Sys2Proof/Laws/Units.lean ====
section
/-! SUPPORT. What a command on one tile does to the rest of the module: the effects that the tile hands out touch packets,
flits, records, the fault line, digest accumulators and the list of checksum failures, and nothing else. -/
namespace Sys2Proof.Machine

/-- Everything that what a unit hands out leaves unchanged. -/
def State.SameBeside (s s' : State) : Prop :=
  s' = { s with pkts := s'.pkts, flits := s'.flits, recs := s'.recs, faults := s'.faults, gbar := s'.gbar, chk := s'.chk }

theorem State.SameBeside.rfl (s : State) : s.SameBeside s := Eq.refl s

theorem State.SameBeside.trans {a b c : State} (h1 : a.SameBeside b) (h2 : b.SameBeside c) : a.SameBeside c := by
  unfold State.SameBeside at *
  rw [h2, h1]

theorem State.fragments_sameBeside (u vc : Nat) (g : Nat × List Byte → FPkt) (l : List (Nat × List Byte)) (s : State) :
    s.SameBeside (l.foldl (fun s p => s.tileFab u vc (g p)) s) := by
  induction l generalizing s with
  | nil => exact .rfl s
  | cons p r ih => exact State.SameBeside.trans (b := s.tileFab u vc (g p)) (Eq.refl _) (ih _)

theorem State.fragments_sameBeside' (u vc : Nat) (g : State → Nat × List Byte → FPkt) (l : List (Nat × List Byte)) (s : State) :
    s.SameBeside (l.foldl (fun s p => s.tileFab u vc (g s p)) s) := by
  induction l generalizing s with
  | nil => exact .rfl s
  | cons p r ih => exact State.SameBeside.trans (b := s.tileFab u vc (g s p)) (Eq.refl _) (ih _)

/-- One thing handed out. -/
theorem State.emit_sameBeside (isChan : Bool) (u : Nat) (s : State) (o : Out) : s.SameBeside (s.emit isChan u o) := by
  cases o with
  | record kind ut ui op a b c fl =>
    show s.SameBeside (if isChan then s.chanRec u kind op a b c fl else _)
    split
    · exact Eq.refl _
    · show s.SameBeside (if _ then _ else _)
      split <;> exact Eq.refl _
  | chanMsg remote eid tile queue e bytes =>
    cases remote
    · exact Eq.refl _
    · exact State.fragments_sameBeside' u 3 _ _ s
  | chanReply remote eid tile code e returned => cases remote <;> exact Eq.refl _
  | regReq write mbx off val tag =>
    unfold State.emit
    dsimp only
    split <;> exact Eq.refl _
  | _ => exact Eq.refl _

/-- Everything a unit hands out. -/
theorem State.emits_sameBeside (isChan : Bool) (u : Nat) (os : List Out) (s : State) : s.SameBeside (s.emits isChan u os) := by
  induction os generalizing s with
  | nil => exact .rfl s
  | cons o r ih => exact (State.emit_sameBeside isChan u s o).trans (ih _)

/-- A tile command is the tile's own change, what it moves outside, and what it hands out. -/
theorem State.onTile_eq (s : State) (t : Nat) (f : Ctx → Tile → Tile × List Out) (h : t < 2304) :
    s.onTile t f = s.withTile t (f (s.ctx t) (s.seen t)).1 (f (s.ctx t) (s.seen t)).2 := by
  unfold State.onTile State.withTile
  rw [if_neg (by omega)]
  rfl

/-- A tile index outside the array: nothing happens. -/
theorem State.onTile_out (s : State) (t : Nat) (f : Ctx → Tile → Tile × List Out) (h : 2304 ≤ t) : s.onTile t f = s := by
  unfold State.onTile
  rw [if_pos h]

/-- A command on a tile in a cycle that throttling does not gate (R517). -/
theorem State.onClocked_eq (s : State) (t : Nat) (f : Ctx → Tile → Tile × List Out) (h : s.gatedNow = false) :
    s.onClocked t f = s.onTile t f := by
  unfold State.onClocked
  rw [h]
  rfl

/-- In a gated cycle no sequencer acts. -/
theorem State.onClocked_gated (s : State) (t : Nat) (f : Ctx → Tile → Tile × List Out) (h : s.gatedNow = true) :
    s.onClocked t f = s := by
  unfold State.onClocked
  rw [h]
  rfl

/-- An instruction that runs to its end, where no asynchronous trap is due. -/
theorem Tile.perform_done (c : Ctx) (tl x : Tile) (o : List Out) (h : tl.dueTrap c = none) : tl.perform c (.done x o) = (x, o) := by
  unfold Tile.perform
  simp only [h]

/-- Issuing the instruction at the boundary comes to performing it on the tile with its line fetched. -/
theorem Tile.issue_performs (c : Ctx) (w : BitVec 32) (act : Tile → Act) (tl y : Tile) (p : List Out)
    (h1 : (tl.settle c).atBoundary c = true) (h2 : (tl.settle c).seq.pc.toNat < (tl.settle c).size) (h3 : (tl.settle c).fetch = w)
    (h4 : (tl.settle c).fetchLine c = .ok (y, p)) (h5 : y.st = .running) :
    tl.issue c w act = ((y.perform c (act y)).1, p ++ (y.perform c (act y)).2) := by
  unfold Tile.issue
  dsimp only
  rw [if_neg (by simp [h1]), if_neg (by omega), if_neg (by simp [h3]), h4]
  simp only [h5, if_true]
  rfl

/-- A sequencer command at its instruction's boundary performs the instruction. -/
theorem State.onClocked_issue (s : State) (t : Nat) (w : BitVec 32) (act : Ctx → Tile → Act) (h : s.Fetches t w) :
    s.onClocked t (fun c tl => tl.issue c w (act c)) =
      s.ran t ((s.at_ t).perform (s.ctx t) (act (s.ctx t) (s.at_ t))).1 ((s.at_ t).perform (s.ctx t) (act (s.ctx t) (s.at_ t))).2 := by
  obtain ⟨⟨h0, hg, hb⟩, h2, h3, h4, h5⟩ := h
  rw [State.onClocked_eq s t _ hg, State.onTile_eq s t _ h0]
  cases hf : s.fetched t with
  | error y =>
    rw [hf] at h4
    cases h4
  | ok q =>
    have ha : s.at_ t = q.1 := by simp only [State.at_, hf]
    have ho : s.atOuts t = q.2 := by simp only [State.atOuts, hf]
    rw [Tile.issue_performs (s.ctx t) w (act (s.ctx t)) (s.seen t) q.1 q.2 hb h2 h3 hf (ha ▸ h5)]
    unfold State.ran
    rw [ha, ho]

/-- A sequencer command on a tile whose instruction runs to its end. -/
theorem State.onClocked_issue_done (s : State) (t : Nat) (w : BitVec 32) (act : Ctx → Tile → Act) (x : Tile) (o : List Out)
    (h : s.Fetches t w) (q : s.Quiet t) (ha : act (s.ctx t) (s.at_ t) = .done x o) :
    s.onClocked t (fun c tl => tl.issue c w (act c)) = s.ran t x o := by
  rw [State.onClocked_issue s t w act h, ha, Tile.perform_done (s.ctx t) (s.at_ t) x o q]

/-- A sequencer command on a tile whose instruction raises a synchronous trap. -/
theorem State.onClocked_issue_trap (s : State) (t : Nat) (w : BitVec 32) (act : Ctx → Tile → Act) (code : Nat) (resume arg : Word)
    (h : s.Fetches t w) (ha : act (s.ctx t) (s.at_ t) = .trap code resume arg) :
    s.onClocked t (fun c tl => tl.issue c w (act c)) =
      s.ran t ((s.at_ t).takeTrap (s.ctx t) code false resume arg).1 ((s.at_ t).takeTrap (s.ctx t) code false resume arg).2 := by
  rw [State.onClocked_issue s t w act h, ha]
  rfl

/-- Writing a general register and reading one (R76). -/
theorem Seq.get_put (q : Seq) (rd r : BitVec 5) (v : Word) :
    (q.put rd v).get r = if r = 0 then 0 else if r = rd then v else q.get r := by
  unfold Seq.put Seq.get
  by_cases hr : r = 0
  · rw [if_pos hr, if_pos hr]
  · rw [if_neg hr, if_neg hr, if_neg hr]
    by_cases hd : rd = 0
    · rw [if_pos hd, if_neg (fun h => hr (h.trans hd))]
    · rw [if_neg hd]
      by_cases he : r = rd
      · subst he
        simp
      · have hne : rd.toNat ≠ r.toNat := fun h => he (BitVec.eq_of_toNat_eq h.symm)
        rw [if_neg he]
        exact Vector.getElem_set_ne (by omega) (by omega) hne

theorem Seq.put_other (q : Seq) (rd : BitVec 5) (v : Word) : q.put rd v = { q with g := (q.put rd v).g } := by
  unfold Seq.put
  split <;> rfl

/-- Ending an instruction with a result is what `Tile.Writes` says. -/
theorem Tile.result_writes (b : Tile) (rd : BitVec 5) (v : Word) : Tile.Writes b (b.result rd v) rd v := by
  have hg : ∀ r, (b.result rd v).gr r = (b.seq.put rd v).get r := fun _ => rfl
  refine ⟨?_, ?_, ?_, ?_, ?_⟩
  · rw [hg, Seq.get_put]
    by_cases h : rd = 0 <;> simp [h]
  · intro r hr
    rw [hg, Seq.get_put]
    rw [if_neg hr]
    split
    · next h => rw [Tile.gr, Seq.get, if_pos h]
    · rfl
  · simp only [Tile.result, Tile.advance]
    rw [Seq.put_other]
  · simp only [Tile.result, Tile.advance]
    rw [Seq.put_other]
  · simp only [Tile.result, Tile.advance]
    rw [Seq.put_other]

theorem State.freeLocks_same (owner : Nat) (s : State) : s.freeLocks owner = { s with regs := (s.freeLocks owner).regs } := by
  unfold State.freeLocks
  generalize List.range 32 = l
  induction l generalizing s with
  | nil => rfl
  | cons k r ih =>
    simp only [List.foldl_cons]
    split
    · rw [ih]
      rfl
    · exact ih s

/-- A tile's change of state frees locks, is noted for TIL_STATE and may mark the job as fenced, and nothing else. -/
theorem State.tileMoved_same (t : Nat) (a b : TileState) (s : State) :
    s.tileMoved t a b = { s with regs := (s.tileMoved t a b).regs, tileWas := (s.tileMoved t a b).tileWas
                                 jobFenced := (s.tileMoved t a b).jobFenced } := by
  unfold State.tileMoved
  dsimp only
  obtain ⟨w, hw⟩ : ∃ w, (if a = b ∨ (s.tileWas.find t).any (fun w => w.1 == s.cycle / 4) = true then s
      else { s with tileWas := s.tileWas.set t (s.cycle / 4, a) }) = { s with tileWas := w } := by
    split <;> exact ⟨_, rfl⟩
  rw [hw]
  obtain ⟨r, hr⟩ : ∃ r, (if b = .offline ∧ a ≠ .offline then ({ s with tileWas := w } : State).freeLocks (tileSrc t)
      else { s with tileWas := w }) = { s with tileWas := w, regs := r } := by
    split
    · exact ⟨_, State.freeLocks_same (tileSrc t) _⟩
    · exact ⟨_, rfl⟩
  rw [hr]
  split <;> rfl

/-- A tile command changes no other tile and no memory outside its tile. -/
theorem State.withTile_onlyTile (s : State) (t : Nat) (x : Tile) (o : List Out) : s.OnlyTile (s.withTile t x o) t := by
  have h := State.emits_sameBeside false t (s.seenOuts t ++ o)
    ((({ s with fresh := s.fresh + 1 } : State).setTile t x).tileMoved t (s.tile t).st x.st)
  have hm := State.tileMoved_same t (s.tile t).st x.st (({ s with fresh := s.fresh + 1 } : State).setTile t x)
  rw [hm] at h
  unfold State.SameBeside at h
  unfold State.withTile
  rw [hm, h]
  refine ⟨?_, rfl, rfl, rfl, rfl, rfl, rfl, rfl, rfl, rfl⟩
  intro u hu
  exact (State.tile_setTile ({ s with fresh := s.fresh + 1 } : State) t u x).trans (if_neg (Ne.symm hu))

end Sys2Proof.Machine
end

