-- ==== Sys2Proof/WellFormed.lean ====
section
/-! DEFINITION. Which commands are well formed: every operand names a unit, a slot, an index or a value that the spec gives. A
command that is not well formed changes nothing when it names a unit that does not exist (log entry 2). -/
namespace Sys2Proof

/-- A tile index (R22). -/
def okTile (t : Nat) : Bool := decide (t < 2304)
/-- A memory channel (R30). -/
def okChan (ch : Nat) : Bool := decide (ch < 96)
/-- A fabric port (R31). -/
def okPort (n : Nat) : Bool := decide (n < 16)
/-- A stream slot (R169), and one of eight generators (R67). -/
def okSlot (i : Nat) : Bool := decide (i < 8)
/-- A fused slot (R189). -/
def okFused (f : Nat) : Bool := decide (f < 4)
/-- A lattice unit (Table 4-1). -/
def okUnit (u : Nat) : Bool := decide (u < 16)
/-- A lattice input (Table 4-6). -/
def okInput (i : Nat) : Bool := decide (i < 4)
/-- A cell of MX (R137). -/
def okCell (i : Nat) : Bool := decide (i < 1024)
/-- A send-table entry, a queue or an arrival counter (R92, R235). -/
def okEntry (e : Nat) : Bool := decide (e < 64)
/-- A mailbox (R379). -/
def okMbx (k : Nat) : Bool := decide (k < 32)
/-- A barrier index or a general register (R93, R76). -/
def okBar (i : Nat) : Bool := decide (i < 32)
/-- What the check of a fetched code line finds: 0 clean, 1 corrected, 2 uncorrectable (R267, R288). -/
def okEcc (e : Nat) : Bool := decide (e < 3)
/-- An LPDDR bank: 16 × rank + bank (R268, R272). -/
def okBank (b : Nat) : Bool := decide (b < 32)
/-- An APR segment (R374). -/
def okSeg (i : Nat) : Bool := decide (i < 4)
/-- A tile die. -/
def okDie (d : Nat) : Bool := decide (d < 4)
/-- A column of a die (R23). -/
def okColumn (c : Nat) : Bool := decide (c < 24)
/-- A rail (Table 16-2). -/
def okRail (r : Nat) : Bool := decide (r < 7)
/-- A junction sensor (R512). -/
def okJunction (k : Nat) : Bool := decide (k < 38)
/-- The registers of R456. -/
def okErrReg (w : Nat) : Bool := decide (w < 3)
/-- A reset domain of Table 14-1 that a command names. -/
def okDomain (d : Nat) : Bool := decide (1 ≤ d) && decide (d ≤ 6)
/-- Results of `n` runs. -/
def okRuns (n : Nat) (l : List Bool) : Bool := decide (l.length = n)
/-- A sample of 40 sensors and six rails (R512). -/
def okSample (temps : List Nat) (rails : List (Nat × Nat)) : Bool := decide (temps.length = 40) && decide (rails.length = 6)
/-- The length of a register access or of a payload access (R371). -/
def okSize (n : Nat) : Bool := decide (0 < n) && decide (n ≤ 512)
/-- A part of the APR window (Table 11-2). -/
def okApr (off len : Nat) : Bool := decide (off + len ≤ 2 ^ 36)
/-- A source number (Table 11-5). -/
def okSrc (src : Nat) : Bool :=
  src == 1 || src == 2 || src == 0x10 || src == 0x11 || (decide (0x1000 ≤ src) && decide (src < 0x1000 + 2304))

/-- The operands of a command are in range. -/
def WellFormed (i : Instr) : Bool :=
  match i with
  | .registerWrite src _ size _ => okSrc src && okSize size
  | .add t _ _ _ _ => okTile t
  | .sub t _ _ _ _ => okTile t
  | .and t _ _ _ _ => okTile t
  | .or t _ _ _ _ => okTile t
  | .xor t _ _ _ _ => okTile t
  | .shl t _ _ _ _ => okTile t
  | .shr t _ _ _ _ => okTile t
  | .sar t _ _ _ _ => okTile t
  | .lt t _ _ _ _ => okTile t
  | .ltu t _ _ _ _ => okTile t
  | .min t _ _ _ _ => okTile t
  | .max t _ _ _ _ => okTile t
  | .minu t _ _ _ _ => okTile t
  | .maxu t _ _ _ _ => okTile t
  | .mul t _ _ _ _ => okTile t
  | .mulx t _ _ _ _ => okTile t
  | .mulxu t _ _ _ _ => okTile t
  | .add32 t _ _ _ _ => okTile t
  | .sub32 t _ _ _ _ => okTile t
  | .clz t _ _ _ _ => okTile t
  | .ctz t _ _ _ _ => okTile t
  | .popc t _ _ _ _ => okTile t
  | .addi t _ _ _ => okTile t
  | .andi t _ _ _ => okTile t
  | .ori t _ _ _ => okTile t
  | .xori t _ _ _ => okTile t
  | .lti t _ _ _ => okTile t
  | .ltiu t _ _ _ => okTile t
  | .shiftiShl t _ _ _ _ => okTile t
  | .shiftiShr t _ _ _ _ => okTile t
  | .shiftiSar t _ _ _ _ => okTile t
  | .lih t _ _ _ => okTile t
  | .ld8 t _ _ _ => okTile t
  | .ld8u t _ _ _ => okTile t
  | .ld16 t _ _ _ => okTile t
  | .ld16u t _ _ _ => okTile t
  | .ld32 t _ _ _ => okTile t
  | .ld32u t _ _ _ => okTile t
  | .ld64 t _ _ _ => okTile t
  | .st8 t _ _ _ => okTile t
  | .st16 t _ _ _ => okTile t
  | .st32 t _ _ _ => okTile t
  | .st64 t _ _ _ => okTile t
  | .aaddw t _ _ _ => okTile t
  | .aaddd t _ _ _ => okTile t
  | .aswpw t _ _ _ => okTile t
  | .aswpd t _ _ _ => okTile t
  | .breq t _ _ _ => okTile t
  | .brne t _ _ _ => okTile t
  | .brlt t _ _ _ => okTile t
  | .brge t _ _ _ => okTile t
  | .brltu t _ _ _ => okTile t
  | .brgeu t _ _ _ => okTile t
  | .call t _ _ => okTile t
  | .callr t _ _ _ => okTile t
  | .getc t _ _ _ _ => okTile t
  | .xchc t _ _ _ _ => okTile t
  | .orc t _ _ _ _ => okTile t
  | .andnc t _ _ _ _ => okTile t
  | .hret t _ _ _ => okTile t
  | .trap t _ _ _ _ => okTile t
  | .halt t _ _ _ => okTile t
  | .haltComplete t => okTile t
  | .vsync t _ _ _ => okTile t
  | .trapEntry t => okTile t
  | .sarm t _ _ _ _ => okTile t
  | .srearm t _ _ _ _ => okTile t
  | .sstop t _ _ _ _ => okTile t
  | .sstopIdle t slot => okTile t && okSlot slot
  | .swait t _ _ _ _ => okTile t
  | .lloadDrain t _ _ _ _ => okTile t
  | .lloadCut t _ _ _ _ => okTile t
  | .lwait t _ _ _ _ => okTile t
  | .fuse t _ _ _ _ => okTile t
  | .fwait t _ _ _ _ => okTile t
  | .csend t _ _ _ _ => okTile t
  | .crecv t _ _ _ _ => okTile t
  | .cpoll t _ _ _ _ => okTile t
  | .cclose t _ _ _ _ => okTile t
  | .ctrwait t _ _ _ _ => okTile t
  | .ctrset t _ _ _ _ => okTile t
  | .bar t _ _ _ _ => okTile t
  | .bara t _ _ _ _ => okTile t
  | .barw t _ _ _ _ => okTile t
  | .waits t _ _ _ _ => okTile t
  | .trns t _ _ _ _ => okTile t
  | .vld t _ _ _ _ => okTile t
  | .vst t _ _ _ _ => okTile t
  | .tilCtrlGo t _ => okTile t
  | .tilEntryWrite t _ => okTile t
  | .tilGregWrite t j _ => okTile t && okBar j
  | .tilSrSeedWrite t _ => okTile t
  | .tilSrCountWrite t j _ => okTile t && okSlot j
  | .tilBankOwnerWrite t _ => okTile t
  | .tilArrivalWrite t j _ => okTile t && okEntry j
  | .tilLatCtrClrWrite t _ => okTile t
  | .tilPulBarWrite t j _ => okTile t && okBar j
  | .tilChqCfgWrite t j _ => okTile t && okEntry j
  | .tilChsCfgWrite t j _ => okTile t && okEntry j
  | .latticeLoadResult t => okTile t
  | .drainEnd t => okTile t
  | .drainForced t => okTile t
  | .flushEnd t => okTile t
  | .tokenArrival t u inp => okTile t && okUnit u && okInput inp
  | .tagDeadlock t u => okTile t && okUnit u
  | .vxAdd t u => okTile t && okUnit u
  | .vxSub t u => okTile t && okUnit u
  | .vxMul t u => okTile t && okUnit u
  | .vxFma t u => okTile t && okUnit u
  | .vxMin t u => okTile t && okUnit u
  | .vxMax t u => okTile t && okUnit u
  | .vxCvt t u => okTile t && okUnit u
  | .vxQmx t u => okTile t && okUnit u
  | .vxXadd t u => okTile t && okUnit u
  | .vxRsum t u => okTile t && okUnit u
  | .vxRmax t u => okTile t && okUnit u
  | .vxCmplt t u => okTile t && okUnit u
  | .vxCmpeq t u => okTile t && okUnit u
  | .vxPass t u => okTile t && okUnit u
  | .xfExp t => okTile t
  | .xfLog t => okTile t
  | .xfRcp t => okTile t
  | .xfRsq t => okTile t
  | .xfTanh t => okTile t
  | .stSel t u => okTile t && okUnit u
  | .stBr t u => okTile t && okUnit u
  | .stMrg t u => okTile t && okUnit u
  | .stFlt t u => okTile t && okUnit u
  | .stDly t u => okTile t && okUnit u
  | .sqLoop t u => okTile t && okUnit u
  | .sqIteration t u => okTile t && okUnit u
  | .ldRead t u => okTile t && okUnit u
  | .svWrite t u => okTile t && okUnit u
  | .svQmx t u => okTile t && okUnit u
  | .cpXferInbound t => okTile t
  | .cpXferOutbound t => okTile t
  | .mxMma t => okTile t
  | .mxReadout t cell _ => okTile t && okCell cell
  | .streamValidate t slot => okTile t && okSlot slot
  | .streamSrc t slot => okTile t && okSlot slot
  | .streamDst t slot => okTile t && okSlot slot
  | .streamLoop t slot => okTile t && okSlot slot
  | .streamMove t slot => okTile t && okSlot slot
  | .streamAt t slot => okTile t && okSlot slot
  | .streamWaitc t slot => okTile t && okSlot slot
  | .streamSignal t slot => okTile t && okSlot slot
  | .streamEnd t slot => okTile t && okSlot slot
  | .streamPassEnd t slot => okTile t && okSlot slot
  | .streamRequestTimeout t slot => okTile t && okSlot slot
  | .memErrorReceive t => okTile t
  | .fusedRecv t f => okTile t && okFused f
  | .fusedArm t f => okTile t && okFused f
  | .fusedWait t f => okTile t && okFused f
  | .fusedSend t f => okTile t && okFused f
  | .fusedChain t f => okTile t && okFused f
  | .flitInjection t => okTile t
  | .flitRoute t _ => okTile t
  | .landing t => okTile t
  | .vesperPacketRoute t _ => okTile t
  | .vesperRegAccess => true
  | .vesperScratchAccess => true
  | .vldResponse t => okTile t
  | .vldTimeout t => okTile t
  | .barrierRootArrival root i => okTile root && okBar i
  | .barrierRelease root i => okTile root && okBar i
  | .publicationRecord t => okTile t
  | .faultLineSeen => true
  | .abortLineSeen => true
  | .chanMessageArrival t => okTile t
  | .chanReplyAccepted t => okTile t
  | .chanReplyClosed t => okTile t
  | .chanReplyRefused t => okTile t
  | .chanReplyCredit t => okTile t
  | .chanReplyTimeout t e => okTile t && okEntry e
  | .calendarRequest ch ecc => okChan ch && okEcc ecc.2
  | .calendarReturn ch => okChan ch
  | .openRequestArrival ch => okChan ch
  | .openAccess ch ecc => okChan ch && okEcc ecc.2
  | .combiningEntryFree ch => okChan ch
  | .lpddrReread ch ecc => okChan ch && okEcc ecc.2.2
  | .maintenanceSlot ch _ _ => okChan ch
  | .perBankRefresh ch b => okChan ch && okBank b
  | .memCalCtrlWrite ch _ => okChan ch
  | .calendarDisableDone ch => okChan ch
  | .memCalTableWrite ch _ _ => okChan ch
  | .memGlbEnableWrite _ _ => true
  | .channelReactivate ch => okChan ch
  | .portTrain n => okPort n
  | .portDark n => okPort n
  | .portDrain n => okPort n
  | .portResume n => okPort n
  | .fabPortCfgWrite n _ => okPort n
  | .trainingDone n _ _ _ _ _ _ => okPort n
  | .trainingNoPartner n => okPort n
  | .parallaxDone n _ => okPort n
  | .maintenanceCodewordSend n => okPort n
  | .maintenanceCodewordReceive n _ _ _ _ _ _ => okPort n
  | .codewordReceive n _ _ _ => okPort n
  | .signalLost n => okPort n
  | .scheduledDelivery n => okPort n
  | .glbTimeCfgWrite _ => true
  | .frequencyLock => true
  | .markerTimeout => true
  | .holdoverExpiry => true
  | .discoverSend n => okPort n
  | .discoverReceive n => okPort n
  | .neighbourStale n => okPort n
  | .rteSelfWrite _ => true
  | .rteJoin => true
  | .rteLeave => true
  | .rteTableWrite _ _ _ => true
  | .drainNoticeReceive n => okPort n
  | .portDrained n => okPort n
  | .portDrainTimeout n => okPort n
  | .resumeNoticeReceive n => okPort n
  | .edgeFlitTake n => okPort n
  | .controlPacketSend n _ => okPort n
  | .creditPacketSend n => okPort n
  | .creditPacketReceive n => okPort n
  | .fabPktRoute => true
  | .fragmentReassembly => true
  | .reassemblyTimeout _ => true
  | .barArriveReceive n => okPort n
  | .barReleaseReceive n => okPort n
  | .gbarReleaseSignal i => okBar i
  | .rteGbarWrite i _ => okBar i
  | .rteNova => true
  | .novaReceive n _ _ _ _ => okPort n
  | .startCycle => true
  | .jobDrainBegin => true
  | .drainingEnd => true
  | .drainingTimeout => true
  | .aprLpddrRead off len => okApr off len
  | .aprLpddrWrite off data => okApr off data.length
  | .aprScratchAccess _ off len _ => okApr off len
  | .hostReadTimeout _ => true
  | .hostWriteTimeout _ => true
  | .pcieLinkDown => true
  | .obsAprSegWrite seg _ => okSeg seg
  | .mbxLockRead src k _ size => okSrc src && okMbx k && okSize size
  | .mbxLockWrite src k _ size => okSrc src && okMbx k && okSize size
  | .mbxContentWrite src k _ _ => okSrc src && okMbx k
  | .mbxPost src k => okSrc src && okMbx k
  | .mbxTake src k => okSrc src && okMbx k
  | .mbxBreak src _ => okSrc src
  | .replyLockRetry k => okMbx k
  | .commandTimeout k => okMbx k
  | .getInfo k => okMbx k
  | .start k => okMbx k
  | .hold k => okMbx k
  | .release k => okMbx k
  | .configSelect k => okMbx k
  | .configWrite k => okMbx k
  | .fwUpdateWrite k => okMbx k
  | .fwUpdateRaiseFloor k => okMbx k
  | .resetTile k => okMbx k
  | .resetDie k => okMbx k
  | .resetChannel k => okMbx k
  | .resetPort k => okMbx k
  | .resetObservatory k => okMbx k
  | .resetModuleWarm k => okMbx k
  | .resetDone dom _ _ => okDomain dom
  | .resetEscalation dom _ => okDomain dom
  | .tileRetire t _ => okTile t
  | .columnRemap die col => okDie die && okColumn col
  | .fenceTile k => okMbx k
  | .fenceDie k => okMbx k
  | .fenceChannel k => okMbx k
  | .fenceModule k => okMbx k
  | .unfence k => okMbx k
  | .eclipseDrainEnd dom _ => okDomain dom
  | .selfTest k _ => okMbx k
  | .testContent k => okMbx k
  | .logRead k => okMbx k
  | .almanacRead k => okMbx k
  | .conjunction k => okMbx k
  | .conjunctionStart => true
  | .conjunctionReleaseTimeout => true
  | .adoptTake k => okMbx k
  | .adoptSource k => okMbx k
  | .adoptPortsDrained => true
  | .adoptPortDeadline => true
  | .adoptCopyStart => true
  | .adoptDigestCompare _ => true
  | .adoptCopyRetry => true
  | .adoptPacketGap => true
  | .rtePlaceWrite _ _ => true
  | .i3cVendorMessage mt _ _ size _ => decide (mt.1 < 128) && okSize size
  | .pldmSensorRefresh => true
  | .i3cTargetReset => true
  | .spdmGetVersion => true
  | .spdmGetCapabilities => true
  | .spdmNegotiateAlgorithms => true
  | .spdmGetDigests => true
  | .spdmGetCertificate _ _ => true
  | .spdmChallenge _ => true
  | .spdmGetMeasurements _ _ _ => true
  | .bootSequence _ _ _ => true
  | .scanInstruction _ => true
  | .scanEclipse => true
  | .errorRecordArrival _ => true
  | .logWrite => true
  | .checksumResponse t => okTile t
  | .almanacAppend => true
  | .transitDue t => okTile t
  | .transitEnter t => okTile t
  | .transitClassify t _ _ _ runs => okTile t && okRuns 3 runs
  | .transitEnd t => okTile t
  | .bgRegionStart t => okTile t
  | .bgRedirect t => okTile t
  | .bgMarchEnd t _ _ => okTile t
  | .bgRegionAbandon t => okTile t
  | .errConfigWrite which _ => okErrReg which
  | .hangEvaluation => true
  | .rstHangCfgWrite _ => true
  | .perstLow => true
  | .perstHigh => true
  | .pwrEnRise => true
  | .senseContactMate => true
  | .railFault r => okRail r
  | .powerOff => true
  | .refclkLoss => true
  | .refclkRestore => true
  | .envSample temps _ _ _ _ _ _ rails _ _ => okSample temps rails
  | .throttleRaise => true
  | .throttleLower => true
  | .thermalTrip sensor => okJunction sensor
  | .pwrEnvCfgWrite _ => true
  | .waitsComplete t => okTile t
  | .rcFieldRead src _ size => okSrc src && okSize size

end Sys2Proof
end

