-- ==== Sys2Proof/Tests/Slice0.lean ====
section
/-! SUPPORT. Small tests of the model, each about one step or one check, and for every statement with hypotheses a witness:
concrete states and operands that meet them. -/
namespace Sys2Proof.Tests
open Sys2Proof Sys2Proof.Machine
set_option Elab.async false

/-- A RUNNING tile at pc 0, where the word `w` stands, with a handler base and some general registers. -/
def tileAt (w : BitVec 32) (g : List (Nat × Word)) : Tile :=
  { Tile.reset with
    st := .running
    spad := Mem.putBytes 0 [] 0 (leBytes 4 w.toNat)
    seq := g.foldl (fun q p => q.put (BitVec.ofNat 5 p.1) p.2) { Seq.reset with hbase := 0x200 } }

/-- A RUNNING module at model cycle 1,000,000 and sidereal count 5,000,000 whose tile 5 is `t`. -/
def oneTile (t : Tile) : State :=
  { State.reset with st := .running, cycle := 1000000, sidereal := 5000000, tiles := Tab.empty.set 5 t }

/-- Tile 5 about to run the word `w`. -/
def running (w : BitVec 32) (g : List (Nat × Word)) : State := oneTile (tileAt w g)

/-- The tile of `running` in a handler. -/
def handling (w : BitVec 32) : State :=
  oneTile { tileAt w [] with seq := { (tileAt w []).seq with inHandler := true, hresume := 0x1001 } }

/-! ### Words of the spec (Table 3-13) -/

theorem test_words_one :
    encWord 0x16 9 0 0x40 = 0x59200040#32 ∧ encWord 0x09 6 0 1 = 0x24C00001#32 ∧ encWord 0x04 8 6 0x40 = 0x11060040#32 ∧
    encCmd 0x1C 0 9 0 1 = 0xC0090381#32 ∧ encCmd 0x00 7 6 8 3 = 0xC0E64003#32 := by decide +kernel

theorem test_words_two :
    encWord 0x21 7 0 9 = 0x84E00009#32 ∧ encCmd 0x03 0 0 0 3 = 0xC0000063#32 ∧ encCmd 0x0C 7 11 10 0 = 0xC0EB5180#32 ∧
    encCmd 0x18 0 0 0 2 = 0xC0000302#32 := by decide +kernel

/-! ### Ill-formed commands are refused by `WellFormed`, one for each check -/

theorem test_wellformed_tiles :
    WellFormed (.add 2303 1 2 3 0) = true ∧ WellFormed (.add 2304 1 2 3 0) = false ∧
    WellFormed (.sstopIdle 5 7) = true ∧ WellFormed (.sstopIdle 5 8) = false ∧
    WellFormed (.fusedRecv 5 3) = true ∧ WellFormed (.fusedRecv 5 4) = false ∧
    WellFormed (.tokenArrival 5 15 3) = true ∧ WellFormed (.tokenArrival 5 16 3) = false ∧ WellFormed (.tokenArrival 5 15 4) = false ∧
    WellFormed (.mxReadout 5 1023 0) = true ∧ WellFormed (.mxReadout 5 1024 0) = false ∧
    WellFormed (.tilArrivalWrite 5 63 0) = true ∧ WellFormed (.tilArrivalWrite 5 64 0) = false ∧
    WellFormed (.tilGregWrite 5 31 0) = true ∧ WellFormed (.tilGregWrite 5 32 0) = false ∧
    WellFormed (.transitClassify 5 0 0 0 [true, false, true]) = true ∧ WellFormed (.transitClassify 5 0 0 0 [true]) = false := by
  decide +kernel

theorem test_wellformed_units :
    WellFormed (.calendarRequest 95 (0, 2)) = true ∧ WellFormed (.calendarRequest 96 (0, 2)) = false ∧
    WellFormed (.calendarRequest 95 (0, 3)) = false ∧ WellFormed (.lpddrReread 95 (0, 0, 2)) = true ∧ WellFormed (.lpddrReread 95 (0, 0, 3)) = false ∧
    WellFormed (.perBankRefresh 0 31) = true ∧ WellFormed (.perBankRefresh 0 32) = false ∧
    WellFormed (.portTrain 15) = true ∧ WellFormed (.portTrain 16) = false ∧
    WellFormed (.columnRemap 3 23) = true ∧ WellFormed (.columnRemap 4 23) = false ∧ WellFormed (.columnRemap 3 24) = false ∧
    WellFormed (.resetDone 6 0 []) = true ∧ WellFormed (.resetDone 7 0 []) = false ∧ WellFormed (.resetDone 0 0 []) = false := by
  decide +kernel

theorem test_wellformed_module :
    WellFormed (.mbxLockRead 1 31 0 8) = true ∧ WellFormed (.mbxLockRead 1 32 0 8) = false ∧ WellFormed (.mbxLockRead 3 31 0 8) = false ∧
    WellFormed (.mbxLockRead 1 31 0 0) = false ∧ WellFormed (.obsAprSegWrite 3 0) = true ∧ WellFormed (.obsAprSegWrite 4 0) = false ∧
    WellFormed (.aprLpddrRead 0xFFFFFFFF8 8) = true ∧ WellFormed (.aprLpddrRead 0xFFFFFFFF9 8) = false ∧
    WellFormed (.errConfigWrite 2 0) = true ∧ WellFormed (.errConfigWrite 3 0) = false ∧
    WellFormed (.i3cVendorMessage (127, true) true 0 8 0) = true ∧ WellFormed (.i3cVendorMessage (128, true) true 0 8 0) = false ∧
    WellFormed (.railFault 6) = true ∧ WellFormed (.railFault 7) = false ∧
    WellFormed (.thermalTrip 37) = true ∧ WellFormed (.thermalTrip 38) = false ∧
    WellFormed (.envSample (List.replicate 40 0) 0 0 0 0 0 0 (List.replicate 6 (0, 0)) false false) = true ∧
    WellFormed (.envSample (List.replicate 39 0) 0 0 0 0 0 0 (List.replicate 6 (0, 0)) false false) = false := by
  decide +kernel

/-! ### Witnesses: the sequencer (chapter 3) -/

theorem witness_idle_step : State.reset.pending = [] := rfl

theorem witness_alu :
    (running (encAlu 0x00 1 2 3 0) [(2, 7), (3, 0xFFFFFFFFFFFFFFFF)]).Fetches 5 (encAlu 0x00 1 2 3 0) ∧
    (running (encAlu 0x00 1 2 3 0) [(2, 7), (3, 0xFFFFFFFFFFFFFFFF)]).Quiet 5 ∧
    (running (encAlu 0x1C 1 2 0 0) []).Fetches 5 (encAlu 0x1C 1 2 0 0) ∧ (running (encAlu 0x1C 1 2 0 0) []).Quiet 5 := by
  unfold State.Fetches State.Boundary State.Quiet; decide +kernel

theorem witness_immediate :
    (running (encWord 0x02 1 2 0x8000) []).Fetches 5 (encWord 0x02 1 2 0x8000) ∧ (running (encWord 0x02 1 2 0x8000) []).Quiet 5 ∧
    (running (encShifti 2 1 2 0 63) []).Fetches 5 (encShifti 2 1 2 0 63) ∧ (running (encShifti 2 1 2 0 63) []).Quiet 5 ∧
    (running (encWord 0x09 1 0 0x8000) []).Fetches 5 (encWord 0x09 1 0 0x8000) ∧ (running (encWord 0x09 1 0 0x8000) []).Quiet 5 := by
  unfold State.Fetches State.Boundary State.Quiet; decide +kernel

/-- The last double word of the scratchpad, one byte past it, and a misaligned address. -/
theorem witness_loads :
    (running (encWord 0x16 1 2 0) [(2, 0x17FFF8)]).Fetches 5 (encWord 0x16 1 2 0) ∧
    (running (encWord 0x16 1 2 0) [(2, 0x17FFF8)]).Quiet 5 ∧
    ((running (encWord 0x16 1 2 0) [(2, 0x17FFF8)]).at_ 5).Allows 0x17FFF8 8 ∧
    ¬ ((running (encWord 0x16 1 2 0) [(2, 0x180000)]).at_ 5).Allows 0x180000 8 ∧
    ¬ ((running (encWord 0x16 1 2 0) [(2, 0x17FFF9)]).at_ 5).Allows 0x17FFF9 8 ∧
    ((running (encWord 0x16 1 2 0) [(2, 0x180000)]).at_ 5).CanTrap := by
  unfold State.Fetches State.Boundary State.Quiet Tile.Allows Tile.CanTrap; decide +kernel

/-- A read and a write of bank 3 in this cycle, by the stream engine. -/
def portsTaken : BankSt := { BankSt.empty with grants := [⟨3, false, 1000000, .slot 0, false, 0x17FF00, []⟩, ⟨3, true, 1000000, .slot 0, false, 0x17FF00, []⟩] }

/-- The read port of the load's bank is free, or another's; so with the write port of a store, and with the read port of an atomic. -/
theorem witness_ports :
    (let s := running (encWord 0x16 1 2 0) [(2, 0x17FFF8)]; (s.at_ 5).PortFree (s.ctx 5) false 0x17FFF8 8) ∧
    (let s := running (encWord 0x1B 1 2 0) [(2, 0x17FFF8)]; (s.at_ 5).WriteFree (s.ctx 5) 0x17FFF8 8) ∧
    (let s := running (encAtom 1 1 2 3) [(2, 0x60040)]; (s.at_ 5).PortFree (s.ctx 5) false 0x60040 8) ∧
    (let s := oneTile { tileAt (encWord 0x16 1 2 0) [(2, 0x17FF80)] with bank := portsTaken }
     s.Fetches 5 (encWord 0x16 1 2 0) ∧
     ((s.at_ 5).ask (s.ctx 5) s.cycle .data false false 0x17FF80 8 []).isOk = false) ∧
    (let s := oneTile { tileAt (encWord 0x1B 1 2 0) [(2, 0x17FF80)] with bank := portsTaken }
     s.Fetches 5 (encWord 0x1B 1 2 0) ∧
     ((s.at_ 5).plainWrite (s.ctx 5) s.cycle .data false 0x17FF80 (leBytes 8 0)).isOk = false) ∧
    (let s := oneTile { tileAt (encAtom 1 1 2 3) [(2, 0x17FF80)] with bank := portsTaken }
     s.Fetches 5 (encAtom 1 1 2 3) ∧
     ((s.at_ 5).ask (s.ctx 5) s.cycle .data false false 0x17FF80 8 []).isOk = false) := by
  unfold State.Fetches State.Boundary Tile.WriteFree Tile.PortFree; decide +kernel

theorem witness_stores :
    (running (encWord 0x1B 1 2 0) [(2, 0x17FFF8)]).Fetches 5 (encWord 0x1B 1 2 0) ∧
    (running (encWord 0x1B 1 2 0) [(2, 0x17FFF8)]).Quiet 5 ∧
    ((running (encWord 0x1B 1 2 0) [(2, 0x17FFF8)]).at_ 5).Allows 0x17FFF8 8 ∧
    Mem.wf 0 ((running (encWord 0x1B 1 2 0) [(2, 0x17FFF8)]).at_ 5).spad = true ∧
    (running (encAtom 1 1 2 3) [(2, 0x60040)]).Fetches 5 (encAtom 1 1 2 3) ∧ (running (encAtom 1 1 2 3) [(2, 0x60040)]).Quiet 5 ∧
    ((running (encAtom 1 1 2 3) [(2, 0x60040)]).at_ 5).Allows 0x60040 8 := by
  unfold State.Fetches State.Boundary State.Quiet Tile.Allows; decide +kernel

/-- A branch taken to a misaligned target cannot be encoded from an aligned pc, so its witness has pc 2 (which TIL_ENTRY does not give: a
state that no run reaches); CALLR reaches a misaligned target from any pc. -/
theorem witness_branches :
    (running (encWord 0x20 1 2 4) []).Fetches 5 (encWord 0x20 1 2 4) ∧ (running (encWord 0x20 1 2 4) []).Quiet 5 ∧
    (running (encWord 0x27 1 2 0) [(2, 0x102)]).Fetches 5 (encWord 0x27 1 2 0) ∧
    ((running (encWord 0x27 1 2 0) [(2, 0x102)]).at_ 5).CanTrap ∧
    (((running (encWord 0x27 1 2 0) [(2, 0x102)]).at_ 5).gr 2 + (0 : BitVec 16).signExtend 64).toNat % 4 ≠ 0 := by
  unfold State.Fetches State.Boundary State.Quiet Tile.CanTrap; decide +kernel

theorem witness_branch_misaligned :
    (oneTile { tileAt 0 [] with spad := Mem.putBytes 0 [] 2 (leBytes 4 (encWord 0x20 1 2 4).toNat),
                                seq := { (tileAt 0 []).seq with pc := 2 } }).Fetches 5 (encWord 0x20 1 2 4) ∧
    (2#64 + BitVec.ofInt 64 (4 * (4 : BitVec 16).toInt)).toNat % 4 ≠ 0 := by
  unfold State.Fetches State.Boundary; decide +kernel

theorem witness_illegal :
    IllegalForm (.hret 5 0 0 1) 5 (encSys 8 0 0 1) ∧ (running (encSys 8 0 0 1) []).Fetches 5 (encSys 8 0 0 1) ∧
    ((running (encSys 8 0 0 1) []).at_ 5).CanTrap := by
  refine ⟨.hret 5 0 0 1 (by decide), ?_⟩
  unfold State.Fetches State.Boundary Tile.CanTrap; decide +kernel

theorem witness_control_registers :
    (running (encSys 0 1 0 (0#4 ++ 0x18#8)) []).Fetches 5 (encSys 0 1 0 (0#4 ++ 0x18#8)) ∧
    (running (encSys 0 1 0 (0#4 ++ 0x18#8)) []).Quiet 5 ∧
    (0x18#8, 0#64) ∈ controlRows ((running (encSys 0 1 0 (0#4 ++ 0x18#8)) []).ctx 5) ((running (encSys 0 1 0 (0#4 ++ 0x18#8)) []).at_ 5) ∧
    (0x19#8) ∉ (controlRows ((running 1 []).ctx 5) ((running 1 []).at_ 5)).map (·.1) ∧
    (running (encSys 3 1 2 (0#4 ++ 0x11#8)) []).Fetches 5 (encSys 3 1 2 (0#4 ++ 0x11#8)) ∧ (0x18#8) ∉ controlRw.map (·.1) := by
  unfold State.Fetches State.Boundary State.Quiet; decide +kernel

theorem witness_trap_entry :
    (handling (encSys 8 0 0 0)).Fetches 5 (encSys 8 0 0 0) ∧ (handling (encSys 8 0 0 0)).Quiet 5 ∧
    (running (encSys 8 0 0 0) []).Fetches 5 (encSys 8 0 0 0) ∧ ((running (encSys 8 0 0 0) []).at_ 5).CanTrap ∧
    (running (encSys 9 0 0 (0#4 ++ 7#8)) []).Fetches 5 (encSys 9 0 0 (0#4 ++ 7#8)) := by
  unfold State.Fetches State.Boundary State.Quiet Tile.CanTrap; decide +kernel

/-- Two pending causes of different codes at a boundary. -/
def pendingTraps : State :=
  oneTile { tileAt (encAlu 0 1 2 3 0) [] with
    seq := { (tileAt (encAlu 0 1 2 3 0) []).seq with pend := [⟨0x12, 3, 999999⟩, ⟨0x10, 9, 999999⟩] } }

theorem witness_pending_trap :
    pendingTraps.Boundary 5 ∧ (pendingTraps.bound 5).CanTrap ∧ (pendingTraps.bound 5).seq.pc.toNat < (pendingTraps.bound 5).size ∧
    ∃ p ∈ (pendingTraps.bound 5).seq.pend, p.cycle < pendingTraps.cycle := by
  unfold State.Boundary Tile.CanTrap; decide +kernel

/-- The code of the synchronous trap that an effect is. -/
def trapCode : Act → Option Nat
  | .trap code _ _ => some code
  | _ => none

theorem witness_pending_no_sync (code : Nat) (resume arg : Word) :
    (pendingTraps.bound 5).actOf (pendingTraps.ctx 5) (pendingTraps.bound 5).fetch ≠ .trap code resume arg := by
  intro h
  have e : trapCode ((pendingTraps.bound 5).actOf (pendingTraps.ctx 5) (pendingTraps.bound 5).fetch) = none := by decide +kernel
  rw [h] at e
  cases e

/-- The pc at the first byte past the scratchpad, a word of a reserved opcode, and a misaligned load at the pc. -/
theorem witness_trap_entry_sync :
    (let s := oneTile { tileAt 0 [] with seq := { (tileAt 0 []).seq with pc := 0x180000 } }
     s.Boundary 5 ∧ (s.bound 5).CanTrap ∧ (s.bound 5).size ≤ (s.bound 5).seq.pc.toNat) ∧
    (let s := running 0xFFFFFFFF []
     s.Boundary 5 ∧ (s.bound 5).CanTrap ∧ (s.bound 5).seq.pc.toNat < (s.bound 5).size ∧ wordReserved (s.bound 5).fetch = true) ∧
    (let s := running (encWord 0x16 1 2 1) []
     s.Boundary 5 ∧ (s.bound 5).CanTrap ∧ trapCode ((s.bound 5).actOf (s.ctx 5) (s.bound 5).fetch) = some 4) := by
  unfold State.Boundary Tile.CanTrap; decide +kernel

theorem witness_stopped_by_trap :
    (handling (encSys 9 0 0 (0#4 ++ 7#8))).Fetches 5 (encSys 9 0 0 (0#4 ++ 7#8)) ∧
    ¬ ((handling (encSys 9 0 0 (0#4 ++ 7#8))).at_ 5).CanTrap ∧
    (let w := encSys 9 0 0 (0#4 ++ 7#8); let s := oneTile { tileAt w [] with seq := { (tileAt w []).seq with hbase := 0x1FF } }
     (s.at_ 5).fetch = w ∧ ¬ (s.at_ 5).CanTrap) := by
  unfold State.Fetches State.Boundary Tile.CanTrap; decide +kernel

/-- A tile that waits in HALT with every slot at rest, one of them parked. -/
def halting : State := oneTile { tileAt 0 [] with slots := Tab.empty.set 3 { Slot.reset with st := .parked }, seq := { (tileAt 0 []).seq with blk := some ⟨.haltDrain, 0⟩ } }

theorem witness_halt :
    (running (encSys 10 0 0 0) []).Fetches 5 (encSys 10 0 0 0) ∧ (running (encSys 10 0 0 0) []).Quiet 5 ∧
    (halting.seen 5).st = .running ∧ halting.gatedNow = false ∧ (halting.seen 5).seq.blk = some ⟨.haltDrain, 0⟩ := by
  unfold State.Fetches State.Boundary State.Quiet; decide +kernel

theorem slots_idle (b : Tile) (h : ∀ e ∈ b.slots.entries, e.2.st = .idle) (k : Nat) : (b.slot k).st = .idle :=
  Tab.get_of_all b.slots (fun (z : Slot) => z.st = .idle) .reset h rfl k

theorem fused_idle (b : Tile) (h : ∀ e ∈ b.fused.entries, e.2.busy = false) (k : Nat) : (b.fslot k).busy = false :=
  Tab.get_of_all b.fused (fun (z : Fused) => z.busy = false) .reset h rfl k

theorem slots_at_rest (b : Tile) (h : ∀ e ∈ b.slots.entries, e.2.st.atRest = true) (k : Nat) : (b.slot k).st.atRest = true :=
  Tab.get_of_all b.slots (fun (z : Slot) => z.st.atRest = true) .reset h rfl k

theorem witness_halt_slots : (∀ k, ((halting.seen 5).slot k).st.atRest = true) ∧ ∀ f, ((halting.seen 5).fslot f).busy = false :=
  ⟨slots_at_rest (halting.seen 5) (by decide +kernel), fused_idle (halting.seen 5) (by decide +kernel)⟩

theorem witness_failed_operand :
    BadOperand ((running (encCmd 0x18 1 0 0 31) []).at_ 5) (.bar 5 1 0 0 31) 5 (encCmd 0x18 1 0 0 31) 31 ∧
    (running (encCmd 0x18 1 0 0 31) []).Fetches 5 (encCmd 0x18 1 0 0 31) ∧ ((running (encCmd 0x18 1 0 0 31) []).at_ 5).CanTrap := by
  refine ⟨.bar 5 1 31 (by decide +kernel), ?_⟩
  unfold State.Fetches State.Boundary Tile.CanTrap; decide +kernel

/-! ### Witnesses: commands of the sequencer -/

/-- Tile 5 about to run `w`, with stream slot 3 in a state. -/
def slotIn (w : BitVec 32) (g : List (Nat × Word)) (x : Slot) : State := oneTile { tileAt w g with slots := Tab.empty.set 3 x }

theorem witness_sarm :
    (running (encCmd 0x00 1 2 3 3) [(2, 0x17FFC0), (3, 0x40)]).Fetches 5 (encCmd 0x00 1 2 3 3) ∧
    (running (encCmd 0x00 1 2 3 3) [(2, 0x17FFC0), (3, 0x40)]).Quiet 5 ∧
    ((running (encCmd 0x00 1 2 3 3) [(2, 0x17FFC0), (3, 0x40)]).at_ 5).InPad 0x17FFC0 64 64 ∧
    ((running (encCmd 0x00 1 2 3 3) [(2, 0x17FFC0), (3, 0x40)]).at_ 5).InPad 0x40 64 64 ∧
    (((running (encCmd 0x00 1 2 3 3) [(2, 0x17FFC0), (3, 0x40)]).at_ 5).slot 3).st = .idle ∧
    (((running (encCmd 0x00 1 2 3 3) [(2, 0x17FFC0), (3, 0x40)]).at_ 5).slot 3).heldBy = none ∧
    (((slotIn (encCmd 0x00 1 2 3 3) [] { Slot.reset with st := .parked }).at_ 5).slot 3).st.armed = true := by
  unfold State.Fetches State.Boundary State.Quiet Tile.InPad; decide +kernel

theorem witness_srearm_sstop_swait :
    (slotIn (encCmd 0x01 1 0 3 3) [(3, 0x40)] { Slot.reset with st := .parked }).Fetches 5 (encCmd 0x01 1 0 3 3) ∧
    (((slotIn (encCmd 0x01 1 0 3 3) [(3, 0x40)] { Slot.reset with st := .parked }).at_ 5).slot 3).st = .parked ∧
    (running (encCmd 0x01 1 0 3 3) [(3, 0x40)]).Fetches 5 (encCmd 0x01 1 0 3 3) ∧
    (slotIn (encCmd 0x02 1 0 0 3) [] { Slot.reset with st := .parked }).Fetches 5 (encCmd 0x02 1 0 0 3) ∧
    (((slotIn (encCmd 0x02 1 0 0 3) [] { Slot.reset with st := .parked }).at_ 5).slot 3).st ≠ .idle ∧
    (slotIn (encCmd 0x03 1 0 0 3) [] { Slot.reset with st := .arming, due := 2000000 }).Fetches 5 (encCmd 0x03 1 0 0 3) ∧
    (((slotIn (encCmd 0x03 1 0 0 3) [] { Slot.reset with st := .arming, due := 2000000 }).at_ 5).slot 3).st = .arming := by
  unfold State.Fetches State.Boundary; decide +kernel

/-- A slot that fused slot 2 has armed in this very cycle, and one that it holds parked. -/
theorem witness_held_slots :
    (let s := slotIn (encCmd 0x00 1 2 3 3) [(2, 0x1000), (3, 0x40)] { Slot.reset with st := .arming, heldBy := some 2, due := 1000001 }
     s.Fetches 5 (encCmd 0x00 1 2 3 3) ∧ ((s.at_ 5).slot 3).justArmed s.cycle ∧ ((s.at_ 5).slot 3).heldBy = some 2) ∧
    (let s := slotIn (encCmd 0x02 1 0 0 3) [] { Slot.reset with st := .parked, heldBy := some 2 }
     s.Fetches 5 (encCmd 0x02 1 0 0 3) ∧ ((s.at_ 5).slot 3).st ≠ .idle ∧ ((s.at_ 5).slot 3).heldBy = some 2) ∧
    (let s := slotIn (encCmd 0x01 1 0 3 3) [(3, 0x40)] { Slot.reset with st := .parked, heldBy := some 2 }
     s.Fetches 5 (encCmd 0x01 1 0 3 3) ∧ ((s.at_ 5).slot 3).heldBy ≠ none ∧ ¬ ((s.at_ 5).slot 3).justRearmed s.cycle) := by
  unfold State.Fetches State.Boundary Slot.justArmed Slot.justRearmed; decide +kernel

/-- Slot 3 is stopping with nothing in progress, and the sequencer waits for it. -/
def stopping : State :=
  oneTile { tileAt 0 [] with
    slots := Tab.empty.set 3 { Slot.reset with st := .stopping }
    seq := { (tileAt 0 []).seq with blk := some ⟨.streamStop 3, 1⟩ } }

theorem witness_sstop_idle :
    ((stopping.seen 5).slot 3).st = .stopping ∧ ((stopping.seen 5).slot 3).due ≤ stopping.cycle ∧ ((stopping.seen 5).slot 3).writes = [] ∧
    (∀ r ∈ ((stopping.seen 5).slot 3).reqs, r.write = false) ∧ stopping.gatedNow = false ∧
    (∀ a ∈ (stopping.seen 5).bank.atoms, a.by_ ≠ .slot 3) ∧ (stopping.seen 5).st = .running ∧
    (stopping.seen 5).seq.blk = some ⟨.streamStop 3, 1⟩ := by decide +kernel

/-- Tile 5 about to run `w`, with fused slot 2 in a state. -/
def fusedIn (w : BitVec 32) (g : List (Nat × Word)) (x : Fused) : State := oneTile { tileAt w g with fused := Tab.empty.set 2 x }

theorem witness_fuse :
    (running (encCmd 0x08 1 2 0 2) [(2, 0x17FFC0)]).Fetches 5 (encCmd 0x08 1 2 0 2) ∧
    (running (encCmd 0x08 1 2 0 2) [(2, 0x17FFC0)]).Quiet 5 ∧ ((running (encCmd 0x08 1 2 0 2) [(2, 0x17FFC0)]).at_ 5).InPad 0x17FFC0 64 64 ∧
    (((running (encCmd 0x08 1 2 0 2) [(2, 0x17FFC0)]).at_ 5).fslot 2).busy = false ∧
    (fusedIn (encCmd 0x08 1 2 0 2) [] { Fused.reset with busy := true, step := 1, due := 2000000 }).Fetches 5 (encCmd 0x08 1 2 0 2) ∧
    (((fusedIn (encCmd 0x08 1 2 0 2) [] { Fused.reset with busy := true, step := 1, due := 2000000 }).at_ 5).fslot 2).busy = true ∧
    (fusedIn (encCmd 0x09 1 0 0 2) [] { Fused.reset with busy := true, step := 1, due := 2000000 }).Fetches 5 (encCmd 0x09 1 0 0 2) ∧
    (running (encCmd 0x09 1 0 0 2) []).Fetches 5 (encCmd 0x09 1 0 0 2) := by
  unfold State.Fetches State.Boundary State.Quiet Tile.InPad; decide +kernel

/-- The 192 bytes of a bundle of phase 2 that configures no unit. -/
def goodBundle : List Byte :=
  let l : List Byte := [1, 0, 2, 0, 3, 0, 0, 0] ++ List.replicate 184 0
  l.take 8 ++ leBytes 4 (crc32c l) ++ l.drop 12

/-- A load in progress, with every line read. -/
def aLoad (st : LoadState) (cut : Bool) (status : Nat) : LatLoad :=
  { st := st, issued := 990000, addr := 0x61000, lines := 3, got := goodBundle, told := false, cut := cut, shadow := 2, status := status,
    errOff := 12, bundle := ⟨2, [], []⟩, inForce := 999936 }

/-- Tile 5 about to run `w`, with a bundle header of `lines` lines at 0x61000 and perhaps a load in progress. -/
def bundleAt (w : BitVec 32) (lines : Nat) (l : Option LatLoad) : State :=
  oneTile { tileAt w [(2, 0x61000)] with
    spad := Mem.putBytes 0 (tileAt w []).spad 0x61004 (leBytes 2 lines), lat := { Lattice.reset with load := l } }

theorem witness_lload :
    (bundleAt (encCmd 0x04 1 2 0 1) 256 none).Fetches 5 (encCmd 0x04 1 2 0 1) ∧ (bundleAt (encCmd 0x04 1 2 0 1) 256 none).Quiet 5 ∧
    ((bundleAt (encCmd 0x04 1 2 0 1) 256 none).at_ 5).InPad 0x61000 64 64 ∧
    ((bundleAt (encCmd 0x04 1 2 0 1) 256 none).at_ 5).PortFree ((bundleAt (encCmd 0x04 1 2 0 1) 256 none).ctx 5) false 0x61000 64 ∧
    Mem.num 0 ((bundleAt (encCmd 0x04 1 2 0 1) 256 none).at_ 5).spad 0x61004 2 = 256 ∧
    ((bundleAt (encCmd 0x04 1 2 0 1) 3 none).at_ 5).lat.load = none ∧
    ((bundleAt (encCmd 0x04 1 2 0 0) 3 (some (aLoad .loading false 0))).at_ 5).lat.load = some (aLoad .loading false 0) ∧
    (bundleAt (encCmd 0x05 1 0 0 0) 3 (some (aLoad .draining false 0))).Fetches 5 (encCmd 0x05 1 0 0 0) ∧
    ((bundleAt (encCmd 0x05 1 0 0 0) 3 (some (aLoad .draining false 0))).at_ 5).lat.load = some (aLoad .draining false 0) ∧
    ((bundleAt (encCmd 0x05 1 0 0 0) 3 (some (aLoad .flushing true 0))).at_ 5).lat.load = some (aLoad .flushing true 0) ∧
    (running (encCmd 0x05 1 0 0 0) []).Fetches 5 (encCmd 0x05 1 0 0 0) := by
  unfold State.Fetches State.Boundary State.Quiet Tile.InPad Tile.PortFree; decide +kernel

/-- A load whose result comes now, which is accepted; one that drains and can end, one at its bound; one that flushes for 64 cycles. -/
theorem witness_load_progress :
    ((bundleAt 0 3 (some (aLoad .loading false 0))).seen 5).lat.load = some (aLoad .loading false 0) ∧
    (validateBundle ((bundleAt 0 3 (some (aLoad .loading false 0))).seen 5).lat.cfg.phase goodBundle 3).2 = (0, 0xFFFF) ∧
    (validateBundle 2 goodBundle 3).2.1 ≠ 0 ∧ ((bundleAt 0 3 (some (aLoad .loading false 0))).seen 5).deaf = false ∧
    (let s := bundleAt 0 3 (some { aLoad .draining false 0 with issued := 992005 })
     (s.seen 5).lat.load = some { aLoad .draining false 0 with issued := 992005 } ∧ (s.seen 5).latticeEmpty = true ∧
     s.cycle = 992005 + 7995) ∧
    ((bundleAt 0 3 (some (aLoad .flushing true 0))).seen 5).lat.load = some (aLoad .flushing true 0) ∧
    999936 + 64 ≤ (bundleAt 0 3 none).cycle := by decide +kernel

/-- Tile 5 about to run `w`, with send-table entry 3 in a state. -/
def sendIn (w : BitVec 32) (state credit : Nat) : State :=
  oneTile (((((tileAt w [(2, 0x100), (3, 0x10000000 + 3)]).wr F.TIL_CHS_CFG.max_len 3 256).wr F.TIL_CHS_CFG.enable 3 1).wr
    F.TIL_CHS_STATE.state 3 state).wr F.TIL_CHS_STATE.credit 3 credit)

/-- A message of the greatest length, 4,096 bytes. -/
theorem witness_csend :
    (sendIn (encCmd 0x0C 1 2 3 0) 1 1).Fetches 5 (encCmd 0x0C 1 2 3 0) ∧ (sendIn (encCmd 0x0C 1 2 3 0) 1 1).Quiet 5 ∧
    sendOperand (((sendIn (encCmd 0x0C 1 2 3 0) 1 1).at_ 5).gr 3) ∧ ((sendIn (encCmd 0x0C 1 2 3 0) 1 1).at_ 5).rd F.TIL_CHS_CFG.max_len 3 = 256 ∧
    ((sendIn (encCmd 0x0C 1 2 3 0) 1 1).at_ 5).InPad 0x100 16 4096 ∧ (∀ y ∈ ((sendIn (encCmd 0x0C 1 2 3 0) 1 1).at_ 5).sends, y.entry ≠ 3) ∧
    ((sendIn (encCmd 0x0C 1 2 3 0) 1 1).at_ 5).rd F.TIL_CHS_STATE.credit 3 = 1 ∧
    ((sendIn (encCmd 0x0C 1 2 3 0) 1 0).at_ 5).rd F.TIL_CHS_STATE.credit 3 = 0 ∧
    ((sendIn (encCmd 0x0C 1 2 3 0) 1 1).at_ 5).PortsIdle ((sendIn (encCmd 0x0C 1 2 3 0) 1 1).ctx 5) ∧
    ((sendIn (encCmd 0x0C 1 2 3 0) 2 0).at_ 5).rd F.TIL_CHS_STATE.state 3 = 2 ∧
    (let b : Tile := { tileAt 0 [] with refusing := [(999999, .csend, 3)], seq := { (tileAt 0 []).seq with blk := some ⟨.send 3, 1⟩ } }
     b.refusing = [(999999, .csend, 3)] ∧ 999999 ≤ ((sendIn (encCmd 0x0C 1 2 3 0) 2 0).ctx 5).cycle ∧ b.seq.blk = some ⟨.send 3, 1⟩) := by
  unfold State.Fetches State.Boundary State.Quiet sendOperand Tile.InPad Tile.PortsIdle; decide +kernel

/-- A message from tile 7. -/
def aMsg : Msg := ⟨[1, 2, 3, 4, 5, 6, 7, 8, 9, 10, 11, 12, 13, 14, 15, 16], 7, 2, false, 0, 990000⟩

/-- Tile 5 about to run `w`, with queue 9 in a state and holding some messages. -/
def queueIn (w : BitVec 32) (state : Nat) (l : List Msg) : State :=
  oneTile ({ tileAt w [(2, 0x17F000), (3, 9)] with queues := Tab.empty.set 9 l }.wr F.TIL_CHQ_STATE.state 9 state)

theorem witness_crecv :
    (queueIn (encCmd 0x0D 1 2 3 0) 1 [aMsg]).Fetches 5 (encCmd 0x0D 1 2 3 0) ∧ (queueIn (encCmd 0x0D 1 2 3 0) 1 [aMsg]).Quiet 5 ∧
    ((queueIn (encCmd 0x0D 1 2 3 0) 1 [aMsg]).at_ 5).rd F.TIL_CHQ_STATE.state 9 = 1 ∧
    ((queueIn (encCmd 0x0D 1 2 3 0) 1 [aMsg]).at_ 5).cpInbound = none ∧
    ((queueIn (encCmd 0x0D 1 2 3 0) 1 [aMsg]).at_ 5).InPad 0x17F000 16 4096 ∧
    Mem.wf 0 ((queueIn (encCmd 0x0D 1 2 3 0) 1 [aMsg]).at_ 5).spad = true ∧
    ((queueIn (encCmd 0x0D 1 2 3 0) 1 [aMsg]).at_ 5).queue 9 = [aMsg] ∧ aMsg.bytes.length ≤ 4096 ∧
    ((queueIn (encCmd 0x0D 1 2 3 0) 1 [aMsg]).at_ 5).recvAhead 9 1000000 = false ∧
    ((queueIn (encCmd 0x0D 1 2 3 0) 1 [aMsg]).at_ 5).PortsIdle ((queueIn (encCmd 0x0D 1 2 3 0) 1 [aMsg]).ctx 5) ∧
    ((queueIn (encCmd 0x0D 1 2 3 0) 1 [aMsg]).at_ 5).bank.atoms = [] ∧
    (queueIn (encCmd 0x0E 1 2 3 0) 1 []).Fetches 5 (encCmd 0x0E 1 2 3 0) ∧ ((queueIn (encCmd 0x0E 1 2 3 0) 1 []).at_ 5).queue 9 = [] := by
  unfold State.Fetches State.Boundary State.Quiet Tile.InPad Tile.PortsIdle; decide +kernel

theorem witness_cclose :
    (queueIn (encCmd 0x0F 1 0 3 0) 1 [aMsg, aMsg]).Fetches 5 (encCmd 0x0F 1 0 3 0) ∧ (queueIn (encCmd 0x0F 1 0 3 0) 1 [aMsg, aMsg]).Quiet 5 ∧
    ((queueIn (encCmd 0x0F 1 0 3 0) 1 [aMsg, aMsg]).at_ 5).fusedWaits 9 = false ∧
    ((queueIn (encCmd 0x0F 1 0 3 0) 1 [aMsg, aMsg]).at_ 5).rd F.TIL_CHQ_STATE.state 9 = 1 ∧
    (let m : Msg := { aMsg with at_ := 1000000 }
     let l : Later := ⟨1000001, 9, false, .chanReply false 0 7 0 2 0⟩
     let b := tileAt (encCmd 0x0F 1 0 3 0) [(3, 9)]
     let s := oneTile ({ b with queues := Tab.empty.set 9 [m], outbox := [l] }.wr F.TIL_CHQ_STATE.state 9 1)
     s.Fetches 5 (encCmd 0x0F 1 0 3 0) ∧ (s.at_ 5).queue 9 = [m] ∧ m.at_ = s.cycle ∧ l ∈ (s.at_ 5).outbox) ∧
    (queueIn (encCmd 0x0F 1 0 3 0) 2 []).Fetches 5 (encCmd 0x0F 1 0 3 0) ∧
    ((queueIn (encCmd 0x0F 1 0 3 0) 2 []).at_ 5).rd F.TIL_CHQ_STATE.state 9 = 2 := by
  unfold State.Fetches State.Boundary State.Quiet; decide +kernel

/-- Both sides of the comparison of R92: counter 63 holds 0, the target is 2³¹ + 1 (reached) or 1 (not reached). -/
theorem witness_counters :
    (running (encCmd 0x14 1 2 3 0) [(2, 0x80000001), (3, 63)]).Fetches 5 (encCmd 0x14 1 2 3 0) ∧
    (running (encCmd 0x14 1 2 3 0) [(2, 0x80000001), (3, 63)]).Quiet 5 ∧
    (((0 : Int) - (0x80000001#64).toNat) % 2 ^ 32 < 2 ^ 31) ∧ ¬ (((0 : Int) - (1#64).toNat) % 2 ^ 32 < 2 ^ 31) ∧
    ((running (encCmd 0x14 1 2 3 0) [(2, 1), (3, 63)]).at_ 5).rd F.TIL_ARRIVAL.count 63 = 0 ∧
    (running (encCmd 0x15 1 2 3 0) [(2, 0xFFFFFFFF), (3, 63)]).Fetches 5 (encCmd 0x15 1 2 3 0) := by
  unfold State.Fetches State.Boundary State.Quiet; decide +kernel

/-- Tile 5 about to run `w`, with barrier index 31 in its configuration. -/
def barrierIn (w : BitVec 32) (pending released : Nat) : State :=
  oneTile ((((tileAt w []).wr F.TIL_PUL_BAR.enable 31 1).wr F.TIL_PUL_STATE.pending_bara 0 (pending * 2 ^ 31)).wr F.TIL_PUL_STATE.released 0
    (released * 2 ^ 31))

theorem witness_barriers :
    (barrierIn (encCmd 0x18 1 0 0 31) 0 0).Fetches 5 (encCmd 0x18 1 0 0 31) ∧ (barrierIn (encCmd 0x18 1 0 0 31) 0 0).Quiet 5 ∧
    ((barrierIn (encCmd 0x18 1 0 0 31) 0 0).at_ 5).rd F.TIL_PUL_BAR.enable 31 = 1 ∧
    ((barrierIn (encCmd 0x18 1 0 0 31) 0 0).at_ 5).barPending 31 = false ∧
    (barrierIn (encCmd 0x19 1 0 0 31) 0 0).Fetches 5 (encCmd 0x19 1 0 0 31) ∧
    (barrierIn (encCmd 0x1A 1 0 0 31) 1 1).Fetches 5 (encCmd 0x1A 1 0 0 31) ∧
    ((barrierIn (encCmd 0x1A 1 0 0 31) 1 1).at_ 5).barPending 31 = true ∧
    bitOf (((barrierIn (encCmd 0x1A 1 0 0 31) 1 1).at_ 5).rd F.TIL_PUL_STATE.released 0) 31 = true ∧
    bitOf (((barrierIn (encCmd 0x1A 1 0 0 31) 1 0).at_ 5).rd F.TIL_PUL_STATE.released 0) 31 = false := by
  unfold State.Fetches State.Boundary State.Quiet; decide +kernel

/-- The first target still to come, the one of this cycle, and the first late one: the sidereal count is 5,000,000. -/
theorem witness_waits :
    (running (encCmd 0x1C 1 2 0 1) [(2, 5000002)]).Fetches 5 (encCmd 0x1C 1 2 0 1) ∧ (running (encCmd 0x1C 1 2 0 1) [(2, 5000002)]).Quiet 5 ∧
    5000000 + 1 < ((running (encCmd 0x1C 1 2 0 1) [(2, 5000002)]).at_ 5 |>.gr 2).toNat ∧
    5000000 + 1 = ((running (encCmd 0x1C 1 2 0 1) [(2, 5000001)]).at_ 5 |>.gr 2).toNat ∧
    (running (encCmd 0x1C 1 2 0 0) [(2, 5000000)]).Fetches 5 (encCmd 0x1C 1 2 0 0) ∧
    ((running (encCmd 0x1C 1 2 0 1) [(2, 5000000)]).at_ 5 |>.gr 2).toNat ≤ 5000000 ∧
    (let s := oneTile { tileAt 0 [] with seq := { (tileAt 0 []).seq with blk := some ⟨.sidereal 5000001, 1⟩ } }
     (s.seen 5).st = .running ∧ (s.seen 5).seq.blk = some ⟨.sidereal 5000001, 1⟩) := by
  unfold State.Fetches State.Boundary State.Quiet; decide +kernel

theorem witness_vsync_trns_vld :
    (running (encSys 11 0 0 0) []).Fetches 5 (encSys 11 0 0 0) ∧ (running (encSys 11 0 0 0) []).Quiet 5 ∧
    ((running (encSys 11 0 0 0) []).at_ 5).seq.vstOut = 0 ∧
    (let s := oneTile { tileAt (encSys 11 0 0 0) [] with seq := { (tileAt (encSys 11 0 0 0) []).seq with vstOut := 1 } }
     (s.at_ 5).seq.vstOut ≠ 0 ∧ (s.at_ 5).fetch = encSys 11 0 0 0) ∧
    (running (encCmd 0x1D 1 0 0 0) []).Fetches 5 (encCmd 0x1D 1 0 0 0) ∧ 5 ∉ (running (encCmd 0x1D 1 0 0 0) []).windows ∧
    ({ running (encCmd 0x1D 1 0 0 0) [] with windows := [5] } : State).Fetches 5 (encCmd 0x1D 1 0 0 0) ∧
    vesperAddress 0x021FFFF8 ∧ vesperAddress 0x10000000 ∧ ¬ vesperAddress 0x02200000 ∧
    (running (encCmd 0x20 1 2 0 0) [(2, 0x021FFFF8)]).Fetches 5 (encCmd 0x20 1 2 0 0) ∧
    (running (encCmd 0x21 1 2 3 0) [(2, 0x10000000)]).Fetches 5 (encCmd 0x21 1 2 3 0) := by
  unfold State.Fetches State.Boundary State.Quiet vesperAddress; decide +kernel

/-- Tile 5 out of a job: IDLE, and its module READY. -/
def idleTile : State := { oneTile { tileAt 0 [] with st := .idle } with st := .ready }

theorem witness_tile_writes :
    (idleTile.seen 5).vacant = false ∧ (idleTile.seen 5).st = .idle ∧ (idleTile.seen 5).rd F.TIL_ENTRY.release 0 = 0 ∧
    (idleTile.seen 5).goAt = none ∧ idleTile.st = .ready ∧ ((running 0 []).seen 5).st = .running ∧ ((running 0 []).seen 5).vacant = false ∧
    (∀ a, (idleTile.seen 5).ctrAdds.find 63 = some a → a.1 ≠ idleTile.cycle) ∧
    (Access.full 0x8000000000100000#64).val F.TIL_CHS_CFG.tile ≤ 2303 := by
  refine ⟨by decide +kernel, by decide +kernel, by decide +kernel, by decide +kernel, by decide +kernel, by decide +kernel, by decide +kernel, ?_, by decide +kernel⟩
  have h : (idleTile.seen 5).ctrAdds.find 63 = none := by decide +kernel
  rw [h]; intro a ha; cases ha

/-! ### Witnesses: the lattice -/

/-- Tile 5 with one configured lattice unit: its op block and what the unit holds. -/
def latIn (o : OpBlk) (x : LUnit) : State :=
  oneTile { tileAt 0 [] with lat := { Lattice.reset with cfg := ⟨1, [], [o]⟩, units := Tab.empty.set o.unit x } }

/-- An op block of INT32 elements with count 4. -/
def blkOf (unit op : Nat) : OpBlk := ⟨unit, op, 9, 9, 0, 0, false, 0, 0, 0, 0, 0, 4, 0, []⟩

/-- A token of phase 1: lane 0 is 7, the other lanes 0. -/
def tok7 : Tok := ⟨1, 7, 0, 1⟩

/-- An entry with tag 0, complete since the cycle before this one, and a unit that holds it. -/
def entry (i : Nat) : MEntry := ⟨0, [(0, tok7), (1, tok7), (2, tok7)], 999990, some (999998, i)⟩
def loaded : LUnit := { LUnit.reset with table := [entry 1], pumped := 999999 }

theorem witness_token_enters :
    let s := latIn (blkOf 4 1) { LUnit.reset with inq := [(0, 999999, tok7)] }
    (s.lat_ 5).latLive (s.ctx 5) = true ∧ ((s.lat_ 5).unit 4).head (s.ctx 5) 0 = some (0, 999999, tok7) ∧
    tok7.phase = (s.lat_ 5).lat.cfg.phase ∧ uKind 4 = .vx ∧ (s.lat_ 5).lat.cfg.op? 4 = some (blkOf 4 1) ∧
    ((s.lat_ 5).unit 4).moved.get 0 0 ≠ s.cycle + 1 ∧ ((s.lat_ 5).unit 4).table = [] := by decide +kernel

/-- A full table of 16 entries, and a head token of a seventeenth tag for 4,096 cycles. -/
def exhausted : State :=
  latIn (blkOf 4 1) { LUnit.reset with
    inq := [(0, 990000, ⟨1, 7, 200, 1⟩)]
    table := (List.range 16).map (fun k => ⟨BitVec.ofNat 8 k, [(0, tok7)], 990000, none⟩)
    exhaustSince := some (1000000 - 4096, 0), pumped := 999999 }

theorem witness_tag_deadlock :
    (exhausted.lat_ 5).latLive (exhausted.ctx 5) = true ∧
    ((exhausted.lat_ 5).unit 4).exhaustSince = some (1000000 - 4096, 0) ∧
    ((exhausted.lat_ 5).unit 4).exhausted (exhausted.ctx 5) = some (0, 990000, ⟨1, 7, 200, 1⟩) ∧
    1000000 - 4096 + 4096 ≤ exhausted.cycle ∧ ((exhausted.lat_ 5).unit 4).exhaustTold = false := by decide +kernel

theorem witness_vx :
    let s := latIn (blkOf 4 4) loaded
    uKind 4 = .vx ∧ (s.lat_ 5).ready (s.ctx 5) 4 4 false = some (blkOf 4 4, entry 1) ∧
    condOf (s.lat_ 5).lat.cfg (blkOf 4 4) (entry 1) = true ∧ operand (s.lat_ 5).lat.cfg (blkOf 4 4) (entry 1) 0 = some tok7 ∧
    operand (s.lat_ 5).lat.cfg (blkOf 4 4) (entry 1) 1 = some tok7 ∧ operand (s.lat_ 5).lat.cfg (blkOf 4 4) (entry 1) 2 = some tok7 ∧
    (∀ r ∈ vxRows, (let t := latIn (blkOf 4 r.2.1) loaded; (t.lat_ 5).ready (t.ctx 5) 4 r.2.1 false = some (blkOf 4 r.2.1, entry 1))) ∧
    (let t := latIn (blkOf 4 12) loaded; (t.lat_ 5).ready (t.ctx 5) 4 12 false = some (blkOf 4 12, entry 1)) ∧
    (let t := latIn (blkOf 4 13) loaded; (t.lat_ 5).ready (t.ctx 5) 4 13 false = some (blkOf 4 13, entry 1)) := by decide +kernel

theorem witness_xf :
    ∀ r ∈ xfRows, let s := latIn (blkOf 9 r.2) loaded
      (s.lat_ 5).ready (s.ctx 5) 9 r.2 false = some (blkOf 9 r.2, entry 1) ∧ condOf (s.lat_ 5).lat.cfg (blkOf 9 r.2) (entry 1) = true ∧
      operand (s.lat_ 5).lat.cfg (blkOf 9 r.2) (entry 1) 0 = some tok7 := by decide +kernel

/-- SEL, BR, MRG and FLT with cond = 1; a FLT whose control token has cond 0; a DLY of four tokens with a fifth free place. -/
theorem witness_st :
    uKind 12 = .st ∧ (∀ op ∈ [1, 2, 3, 4], let s := latIn (blkOf 12 op) loaded
      (s.lat_ 5).ready (s.ctx 5) 12 op false = some (blkOf 12 op, entry 1) ∧ condOf (s.lat_ 5).lat.cfg (blkOf 12 op) (entry 1) = true ∧
      operand (s.lat_ 5).lat.cfg (blkOf 12 op) (entry 1) 0 = some tok7) ∧
    (let e : MEntry := ⟨0, [(0, tok7), (3, ⟨2, 0, 0, 1⟩)], 999990, some (999998, 1)⟩
     let s := latIn (blkOf 12 4) { LUnit.reset with table := [e], pumped := 999999 }
     (s.lat_ 5).ready (s.ctx 5) 12 4 false = some (blkOf 12 4, e) ∧ condOf (s.lat_ 5).lat.cfg (blkOf 12 4) e = false) ∧
    (let s := latIn (blkOf 12 5) { LUnit.reset with
       inq := [(0, 999999, tok7)], pipe := List.replicate 3 (0, 1000001, tok7), pumped := 999999 }
     (s.lat_ 5).lat.cfg.op? 12 = some (blkOf 12 5) ∧ ((s.lat_ 5).unit 12).head (s.ctx 5) 0 = some (0, 999999, tok7) ∧
     tok7.phase = (s.lat_ 5).lat.cfg.phase ∧ ((s.lat_ 5).unit 12).pipe.length < (blkOf 12 5).count ∧
     (s.lat_ 5).holding (s.ctx 5) 12 = false ∧ ((s.lat_ 5).unit 12).lastFire ≠ some s.cycle ∧ (s.lat_ 5).latLive (s.ctx 5) = true) := by
  decide +kernel

/-- The last iteration of a loop of 4. -/
theorem witness_sq :
    uKind 7 = .sq ∧
    (let s := latIn (blkOf 7 1) loaded
     (s.lat_ 5).ready (s.ctx 5) 7 1 true = some (blkOf 7 1, entry 1) ∧ ((s.lat_ 5).unit 7).sqLoop = none ∧ (s.lat_ 5).lat.stopped = false) ∧
    (let s := latIn (blkOf 7 1) { LUnit.reset with sqLoop := some ⟨3, 1000000⟩, pumped := 999999 }
     (s.lat_ 5).lat.cfg.op? 7 = some (blkOf 7 1) ∧ ((s.lat_ 5).unit 7).sqLoop = some ⟨3, 1000000⟩ ∧
     (s.lat_ 5).latLive (s.ctx 5) = true ∧ (s.lat_ 5).holding (s.ctx 5) 7 = false) := by decide +kernel

/-- The same with slot 0 holding `n` bytes. -/
def latSlot (o : OpBlk) (x : LUnit) (n : Nat) : State :=
  oneTile { tileAt 0 [] with
    slots := Tab.empty.set 0 { Slot.reset with st := .running, buf := List.replicate n 3 }
    lat := { Lattice.reset with cfg := ⟨1, [], [o]⟩, units := Tab.empty.set o.unit x } }

/-- An LD with exactly 64 bytes to read; an SV with room for exactly 64; a QMX with two slots. -/
theorem witness_ld_sv :
    (let s := latSlot (blkOf 0 1) LUnit.reset 64
     uKind 0 = .ld ∧ (s.lat_ 5).latLive (s.ctx 5) = true ∧ (s.lat_ 5).lat.cfg.op? 0 = some (blkOf 0 1) ∧ (blkOf 0 1).mode % 2 = 0 ∧
     (s.lat_ 5).lat.cfg.on 0 3 = false ∧ (s.lat_ 5).lat.stopped = false ∧ (s.lat_ 5).holding (s.ctx 5) 0 = false ∧
     ((s.lat_ 5).unit 0).lastFire ≠ some s.cycle ∧ 64 ≤ (((s.lat_ 5).slot (blkOf 0 1).slot).absorb (s.ctx 5)).buf.length) ∧
    (let s := latSlot (blkOf 13 1) loaded 960
     uKind 13 = .sv ∧ (s.lat_ 5).ready (s.ctx 5) 13 1 true = some (blkOf 13 1, entry 1) ∧
     condOf (s.lat_ 5).lat.cfg (blkOf 13 1) (entry 1) = true ∧ operand (s.lat_ 5).lat.cfg (blkOf 13 1) (entry 1) 0 = some tok7 ∧
     tok7.net = 1 ∧ (((s.lat_ 5).slot (blkOf 13 1).slot).absorb (s.ctx 5)).fill + 64 = 1024) ∧
    (let o : OpBlk := { blkOf 13 2 with fmtOut := 4, slot := 1 }
     let s := latSlot o loaded 1023
     (s.lat_ 5).ready (s.ctx 5) 13 2 true = some (o, entry 1) ∧ condOf (s.lat_ 5).lat.cfg o (entry 1) = true ∧
     o.slot % 8 ≠ o.slot / 8 % 8 ∧ (((s.lat_ 5).slot (o.slot % 8)).absorb (s.ctx 5)).fill + 32 ≤ 1024 ∧
     (((s.lat_ 5).slot (o.slot / 8 % 8)).absorb (s.ctx 5)).fill + 1 = 1024) := by decide +kernel

/-- CP with out0 connected to input 0 of unit 4, emitting a message of 65 bytes; CP collecting its second token of three. -/
theorem witness_cp :
    (let s := oneTile { tileAt 0 [] with
       lat := { Lattice.reset with
         cfg := ⟨1, [0x8300], [blkOf 3 1]⟩
         units := Tab.empty.set 3 { LUnit.reset with cpIn := some (List.replicate 65 3, 0, 1000000), pumped := 999999 } } }
     (s.lat_ 5).latLive (s.ctx 5) = true ∧ (s.lat_ 5).cpInbound = some 0 ∧ (s.lat_ 5).lat.stopped = false ∧
     ((s.lat_ 5).unit 3).cpIn = some (List.replicate 65 3, 0, 1000000) ∧ (s.lat_ 5).holding (s.ctx 5) 3 = false) ∧
    (let s := latIn (blkOf 3 1) { loaded with cpOut := [7, 7] }
     (s.lat_ 5).ready (s.ctx 5) 3 1 true = some (blkOf 3 1, entry 1) ∧ ((s.lat_ 5).unit 3).cpSending = false ∧
     operand (s.lat_ 5).lat.cfg (blkOf 3 1) (entry 1) 0 = some tok7 ∧ ((s.lat_ 5).unit 3).cpOut.length + 1 < (blkOf 3 1).count) := by
  decide +kernel

theorem sum_zeros (n : Nat) : (List.replicate n (0 : BitVec 96)).sum = 0 := by
  induction n with
  | zero => rfl
  | succ n ih => rw [List.replicate_succ, List.sum_cons, ih]; rfl
theorem getD_zeros (n k : Nat) : (List.replicate n (0 : BitVec 96)).getD k 0 = 0 := by
  simp [List.getD_eq_getElem?_getD, List.getElem?_replicate]; split <;> rfl

theorem cleared_check : (MxBank.cleared false).check = (none, none) := by
  have e : ((MxBank.cleared false).acc = List.replicate 1024 0) := rfl
  have f : ((MxBank.cleared false).rowChk = List.replicate 32 0) := rfl
  have g : ((MxBank.cleared false).colChk = List.replicate 32 0) := rfl
  simp only [MxBank.check, e, f, g, getD_zeros, List.drop_replicate, List.take_replicate, sum_zeros, List.map_const']
  decide +kernel

/-- MX with a cleared bank: a firing that is not the last, and a readout at its first token. -/
theorem witness_mx_fires :
    let s := latIn (blkOf 5 1) { loaded with mxBank := MxBank.cleared false }
    (s.lat_ 5).ready (s.ctx 5) 5 1 true = some (blkOf 5 1, entry 1) ∧ operand (s.lat_ 5).lat.cfg (blkOf 5 1) (entry 1) 0 = some tok7 ∧
    operand (s.lat_ 5).lat.cfg (blkOf 5 1) (entry 1) 1 = some tok7 ∧ (s.lat_ 5).lat.cfg.on 5 2 = false ∧ (s.lat_ 5).lat.cfg.on 5 3 = false ∧
    ((s.lat_ 5).unit 5).lastFire = none ∧ ((s.lat_ 5).unit 5).mxSince + 1 ≠ (blkOf 5 1).count ∧
    ((s.lat_ 5).unit 5).mxBank.acc.length = 1024 ∧ ((s.lat_ 5).unit 5).mxBank.rowChk.length = 32 ∧
    ((s.lat_ 5).unit 5).mxBank.colChk.length = 32 ∧ ((s.lat_ 5).unit 5).mxBank.special.length = 1024 := by decide +kernel

theorem witness_mx_readout :
    let r : MxOut := ⟨MxBank.cleared false, 1000000, 0⟩
    let s := latIn (blkOf 5 1) { LUnit.reset with mxOut := [r], pumped := 999999 }
    ((s.lat_ 5).lat.cfg.op? 5 = some (blkOf 5 1) ∧ ((s.lat_ 5).unit 5).mxOut = [r] ∧ r.emitted = 0 ∧ (blkOf 5 1).mode % 4 = 0 ∧ s.gatedNow = false ∧ (s.lat_ 5).latLive (s.ctx 5) = true ∧
     r.next ≤ s.cycle ∧ (s.lat_ 5).holding (s.ctx 5) 5 = false ∧ r.bank.acc.length = 1024 ∧
     (∀ z ∈ r.bank.special, z = false) ∧ (∀ z ∈ r.bank.exactRange, z = false)) ∧ r.bank.check = (none, none) :=
  ⟨by decide +kernel, cleared_check⟩

/-- What an XF lane gives where no implementation's choice enters (R130): its value, or the list of the one value it may take. -/
def xfFixed (q : Nat × Nat × Nat) : Bool :=
  match floatVal 0 q.2.1 with
  | .fin n m k => xfFinite q.1 n m k == [q.2.2]
  | _ => xfLane q.1 0 0 q.2.1 == q.2.2

theorem test_xf_special_lanes : xfSpecial.length = 18 ∧ xfSpecial.all xfFixed = true := by decide +kernel

/-- EXP of 1, of 88.75, of −105 and of 0: the encodings within 1 unit in the last place of e (2.718281828 lies between 0x402DF854 and
0x402DF855), infinity, 0 below −104, and 1 beside its neighbours. -/
theorem test_xf_near :
    xfFinite 1 false 1 0 = [0x402DF854, 0x402DF855] ∧ xfFinite 1 false 355 (-2) = [0x7F800000] ∧ xfFinite 1 true 105 0 = [0] ∧ 0x3F800000 ∈ xfFinite 1 false 0 0 := by decide +kernel

/-! ### Witnesses: stream slots and fused slots -/

/-- Every kind of instruction at the ends of its ranges. -/
theorem witness_sinstr :
    (SInstr.src 7 5 1 3 0xFFFFFF8000000000#64 0x7FFFF#64).Ok ∧ (SInstr.src 0 0 2 2 0x7FFFFFFFFF#64 0xFFFFFFFFFFF80000#64).Ok ∧
    (SInstr.dst 7 5 3 true 0 63 2).Ok ∧ (SInstr.loop 5 0xFFFFFF 0 0x7FFFFFFFFF#64).Ok ∧ (SInstr.loop 0 1 0 0).Ok ∧
    (SInstr.move 65536 255).Ok ∧ (SInstr.move 4 0).Ok ∧ (SInstr.at_ 7 true 0).Ok ∧ (SInstr.waitc 7 63 0).Ok ∧
    (SInstr.signal 7 1 63 0 65535).Ok ∧ (SInstr.signal 0 0 0 0 1).Ok ∧ (SInstr.end_ true).Ok ∧
    decodeSInstr (encodeSInstr (.move 65536 255)) = some (.move 65536 255) := by
  simp only [SInstr.Ok, signedField]
  refine ⟨?_, ?_, ?_, ?_, ?_, ?_, ?_, ?_, ?_, ?_, ?_, ?_, ?_⟩ <;> decide +kernel

/-- Tile 5 with slot 3 RUNNING at instruction `i`, base 1 holding 5,000,001. -/
def slotRuns (i : SInstr) (timed : Bool) : State :=
  slotIn 0 [] { Slot.reset with
    st := .running, prog := [i], base := [0, 5000001, 0, 0, 0, 0, 0, 0], loops := List.replicate 6 ⟨1, 0, 0⟩, timed := timed, due := 1000000,
    ended := none }

theorem witness_slot_instructions :
    (∀ i ∈ [SInstr.src 0 0 0 0 0 0, .dst 0 0 0 false 0 0 0, .loop 5 2 1 1, .waitc 0 63 0, .signal 0 0 63 0 65535, .end_ true],
      ((slotRuns i false).seen 5).SlotAt ((slotRuns i false).ctx 5) 3 i) ∧
    ((slotRuns (.at_ 1 true 0) true).seen 5).SlotAt ((slotRuns (.at_ 1 true 0) true).ctx 5) 3 (.at_ 1 true 0) ∧
    (slotRuns (.at_ 1 true 0) true).sidereal < ((((slotRuns (.at_ 1 true 0) true).seen 5).slot 3).base.getD 1 0 + 0).toNat ∧
    ((slotRuns (.at_ 0 false 0) true).seen 5).SlotAt ((slotRuns (.at_ 0 false 0) true).ctx 5) 3 (.at_ 0 false 0) ∧
    ((((slotRuns (.waitc 0 63 0) false).seen 5).rd F.TIL_ARRIVAL.count 63 : Int) -
      ((((slotRuns (.waitc 0 63 0) false).seen 5).slot 3).base.getD 0 0 + 0).toNat % 2 ^ 32) % 2 ^ 32 < 2 ^ 31 := by
  unfold Tile.SlotAt; decide +kernel

/-- A slot that has read its program line and its base table: of the program whose first word is END with persist (Table 5-6: opcode 8,
persist bit 8), and of zeros (refused). -/
def arms (word : Nat) : State :=
  slotIn 0 [] { Slot.reset with
    st := .arming, progAddr := 0x1000, baseAddr := 0x40, due := 1000000, got := leBytes 16 word ++ List.replicate 48 0
    base := [1, 2, 3, 4, 5, 6, 7, 8] }

theorem witness_stream_validate :
    (((arms 0x108).seen 5).slot 3).st = .arming ∧ (((arms 0x108).seen 5).slot 3).heldBy = none ∧ ((arms 0x108).seen 5).st = .running ∧
    (((arms 0x108).seen 5).slot 3).base ≠ [] ∧ (((arms 0x108).seen 5).slot 3).due ≤ (arms 0x108).cycle ∧ (arms 0x108).gatedNow = false ∧
    validateProg (((arms 0x108).seen 5).slot 3).progWords 0 false none none = .ok [.end_ true] ∧
    (((arms 0).seen 5).slot 3).base ≠ [] ∧ validateProg (((arms 0).seen 5).slot 3).progWords 0 false none none = .error 0 := by
  decide +kernel

/-- The reads of an arming slot: its program line, and its base table once END has been read. -/
theorem witness_arm_reads :
    (let b := ((slotIn 0 [] { Slot.reset with st := .arming, progAddr := 0x61000, baseAddr := 0x40, due := 2000000 }).seen 5)
     let c := (slotIn 0 [] Slot.reset).ctx 5
     (b.slot 3).haveProg = false ∧ 0x61000 + (b.slot 3).got.length + 64 ≤ b.size ∧ b.PortFree c false (0x61000 + (b.slot 3).got.length) 64) ∧
    (let b := ((slotIn 0 [] { Slot.reset with
       st := .arming, baseAddr := 0x61000, due := 2000000, got := leBytes 16 0x108 ++ List.replicate 48 0 }).seen 5)
     let c := (slotIn 0 [] Slot.reset).ctx 5
     (b.slot 3).haveProg = true ∧ b.PortFree c false 0x61000 64) := by
  unfold Tile.PortFree; decide +kernel

/-- WAITS in deadline form at its target (late by 1 cycle), and AT in deadline form in the cycle of its target. -/
theorem witness_late :
    (running (encCmd 0x1C 1 2 0 1) [(2, 5000000)]).Fetches 5 (encCmd 0x1C 1 2 0 1) ∧ (running (encCmd 0x1C 1 2 0 1) [(2, 5000000)]).Quiet 5 ∧
    (((running (encCmd 0x1C 1 2 0 1) [(2, 5000000)]).at_ 5).gr 2).toNat ≤ (running (encCmd 0x1C 1 2 0 1) [(2, 5000000)]).sidereal ∧
    ((slotRuns (.at_ 1 true 0xFFFFFFFFFFFFFFFF#64) true).seen 5).SlotAt ((slotRuns (.at_ 1 true 0xFFFFFFFFFFFFFFFF#64) true).ctx 5) 3
      (.at_ 1 true 0xFFFFFFFFFFFFFFFF#64) ∧
    ((((slotRuns (.at_ 1 true 0xFFFFFFFFFFFFFFFF#64) true).seen 5).slot 3).base.getD 1 0 + 0xFFFFFFFFFFFFFFFF#64).toNat ≤
      (slotRuns (.at_ 1 true 0xFFFFFFFFFFFFFFFF#64) true).sidereal := by
  unfold State.Fetches State.Boundary State.Quiet Tile.SlotAt; decide +kernel

/-! ### Witnesses: beats, fused commands, flits and messages -/

/-- Slot 3 at a MOVE of 65 bytes whose second beat, one byte, comes next, to LOCAL; and at a MOVE of 64 bytes to another tile. -/
def moves (len off : Nat) (dp : Nat) (doff : Word) : State :=
  slotIn 0 [] { Slot.reset with
    st := .running, prog := [.move len 0], base := [0, 0, 0, 0, 0, 0, 0, 0], loops := List.replicate 6 ⟨1, 0, 0⟩
    due := 1000000, srcI := some (.src 0 0 0 0 0x100 0), dstI := some (.dst 0 dp 0 true doff 63 0)
    move := some ⟨List.replicate 6 0, off⟩ }

theorem witness_beats :
    ((moves 65 64 0 0x17FF00).seen 5).SlotAt ((moves 65 64 0 0x17FF00).ctx 5) 3 (.move 65 0) ∧
    (((moves 65 64 0 0x17FF00).seen 5).slot 3).incoming = [] ∧
    ((moves 64 0 1 0x8FF00000040).seen 5).SlotAt ((moves 64 0 1 0x8FF00000040).ctx 5) 3 (.move 64 0) ∧
    (0x17FF00#64 + 64).toNat + 1 ≤ ((moves 65 64 0 0x17FF00).seen 5).size ∧ (0x17FF00#64 + 64).toNat % 4 = 0 ∧
    (0x8FF00000040#64).toNat % 64 = 0 ∧ (0x8FF00000040#64).toNat / 2 ^ 32 = 2303 ∧ (0x8FF00000040#64).toNat / 2 ^ 21 % 2 ^ 11 = 0 ∧
    (0x8FF00000040#64).toNat % 2 ^ 21 < ((moves 64 0 1 0x8FF00000040).seen 5).size := by
  unfold Tile.SlotAt; decide +kernel

/-- The same beats where the read port of their bank is free, and where the fetch of another unit has it. -/
theorem witness_beat_ports :
    (let s := moves 65 64 0 0x17FF00
     s.gatedNow = false ∧ (s.seen 5).PortFree (s.ctx 5) false (0x100 + 64) 1 ∧ ((s.seen 5).slot 3).move = some ⟨List.replicate 6 0, 64⟩ ∧
     streamRange (s.ctx 5) (s.seen 5) 0 (0x17FF00#64 + 64) true 63 = false) ∧
    (let s := moves 64 0 1 0x8FF00000040
     (s.seen 5).PortFree (s.ctx 5) false 0x100 64 ∧ streamRange (s.ctx 5) (s.seen 5) 1 0x8FF00000040#64 true 63 = false) ∧
    (let s := moves 64 0 5 0
     ((s.seen 5).slot 3).timed = false ∧ (((s.seen 5).slot 3).absorb (s.ctx 5)).rows = none ∧
     (((s.seen 5).slot 3).absorb (s.ctx 5)).out = [] ∧ (((s.seen 5).slot 3).absorb (s.ctx 5)).fill +
       (((s.seen 5).slot 3).absorb (s.ctx 5)).expected + 64 ≤ 1024) ∧
    (let b : Tile := (moves 64 0 0 0).tile 5
     let s := oneTile { b with bank := { BankSt.empty with grants := [⟨0, false, 1000000, .slot 1, false, 0x40, []⟩] } }
     (s.seen 5).SlotAt (s.ctx 5) 3 (.move 64 0) ∧ ((s.seen 5).slot 3).timed = false ∧
     ∃ j ∈ (s.seen 5).banksOf 0x100 64, (s.seen 5).grants s.cycle j false (.slot 3) = false) := by
  unfold Tile.SlotAt Tile.PortFree; decide +kernel

/-- A SIGNAL to tile 2303 and one whose address names no tile; a counter that has not reached its target. -/
theorem witness_signals :
    (let s := slotRuns (.signal 0 1 63 0x8FF00000000 1) false
     (s.seen 5).SlotAt (s.ctx 5) 3 (.signal 0 1 63 0x8FF00000000 1) ∧ ((s.seen 5).slot 3).heldBy = none ∧
     streamRange (s.ctx 5) (s.seen 5) 1 (((s.seen 5).slot 3).base.getD 0 0 + 0x8FF00000000) false 0 = false ∧
     streamRange (s.ctx 5) (s.seen 5) 1 (((s.seen 5).slot 3).base.getD 0 0 + 0x90000000000) false 0 = true) ∧
    (let s := slotRuns (.waitc 0 63 1) false
     (s.seen 5).SlotAt (s.ctx 5) 3 (.waitc 0 63 1) ∧
     ¬ ((((s.seen 5).rd F.TIL_ARRIVAL.count 63 : Int) - (((s.seen 5).slot 3).base.getD 0 0 + 1).toNat % 2 ^ 32) % 2 ^ 32 < 2 ^ 31)) := by
  unfold Tile.SlotAt; decide +kernel

theorem witness_passes :
    (let s := slotIn 0 [] { Slot.reset with st := .running, prog := [.end_ true], ended := some true }
     (s.seen 5).st = .running ∧ ((s.seen 5).slot 3).st = .running ∧ ((s.seen 5).slot 3).ended = some true ∧
     ((s.seen 5).slot 3).reqs = [] ∧ ((s.seen 5).slot 3).writes = [] ∧ (s.seen 5).inj = [] ∧ ((s.seen 5).slot 3).toLat = false ∧
     ((s.seen 5).slot 3).heldBy = none ∧ ((s.seen 5).slot 3).calOut = 0 ∧ ((s.seen 5).slot 3).rows = none ∧ ((s.seen 5).slot 3).out = [] ∧
     (s.seen 5).bank.atoms = [] ∧ s.gatedNow = false) ∧
    (let s := slotIn 0 [] { Slot.reset with st := .running, prog := [.end_ true], reqs := [⟨0, 600000, false, true, none, 0, none⟩] }
     (s.seen 5).st = .running ∧ ((s.seen 5).slot 3).heldBy = none ∧
     ∃ r ∈ ((s.seen 5).slot 3).reqs, r.live = true ∧ r.at_ + 400000 ≤ s.cycle) := by decide +kernel

/-- A descriptor with every step, of queue 9 and send entry 3. -/
def aDesc : FDesc := ⟨0xFF, 1, 2, 9, 3, 0, 0x1000, 0x1100, 0x1200, 0x1300, 0x2000, 0x3000, 16, 1, 0x4000⟩

/-- Tile 5 with fused slot 2 at step `n` of `d`, queue 9 OPEN with one message, send entry 3 OPEN with one credit. -/
def fusedAt (n : Nat) (d : FDesc) (slots : Tab Nat Slot) : State :=
  oneTile (((((({ tileAt 0 [] with
    fused := Tab.empty.set 2 { Fused.reset with busy := true, step := n, addr := 0x100, desc := some d, due := 1000000 }
    queues := Tab.empty.set 9 [aMsg], slots := slots }).wr F.TIL_CHQ_STATE.state 9 1).wr F.TIL_CHS_CFG.max_len 3 1).wr F.TIL_CHS_CFG.enable 3 1).wr
    F.TIL_CHS_STATE.state 3 1).wr F.TIL_CHS_STATE.credit 3 1)

theorem witness_fused_recv_send :
    (let s := fusedAt 1 aDesc .empty
     (s.seen 5).FusedAt (s.ctx 5) 2 1 aDesc ∧ (s.seen 5).seq.blk = none ∧ (s.seen 5).rd F.TIL_CHQ_STATE.state 9 = 1 ∧
     (s.seen 5).cpInbound = none ∧ (s.seen 5).queue 9 = [aMsg] ∧ Mem.wf 0 (s.seen 5).spad = true ∧
     (s.seen 5).PortsIdle (s.ctx 5) ∧ (s.seen 5).bank.atoms = []) ∧
    (let s := fusedAt 5 aDesc .empty
     (s.seen 5).FusedAt (s.ctx 5) 2 5 aDesc ∧ ((s.seen 5).fslot 2).sent = false ∧ (s.seen 5).rd F.TIL_CHS_STATE.state 3 = 1 ∧
     (s.seen 5).rd F.TIL_CHS_STATE.credit 3 = 1 ∧ aDesc.sendLen ≤ (s.seen 5).rd F.TIL_CHS_CFG.max_len 3 * 16 ∧ (s.seen 5).sends = [] ∧
     (s.seen 5).PortsIdle (s.ctx 5)) ∧
    (let s := fusedAt 7 aDesc .empty; (s.seen 5).FusedAt (s.ctx 5) 2 7 aDesc ∧ (s.seen 5).PortFree (s.ctx 5) false aDesc.next 64) := by
  unfold Tile.FusedAt Tile.PortsIdle Tile.PortFree; decide +kernel

/-- A fused send on a BROKEN entry and on a DISABLED one. -/
theorem witness_fused_send_fails :
    (∀ st ∈ [0, 2], let s := oneTile (((fusedAt 5 aDesc .empty).tile 5).wr F.TIL_CHS_STATE.state 3 st)
      (s.seen 5).FusedAt (s.ctx 5) 2 5 aDesc ∧ (s.seen 5).rd F.TIL_CHS_STATE.state 3 = st) := by
  unfold Tile.FusedAt; decide +kernel

/-- Where every listed fused slot but `f` is not busy, no other slot is. -/
theorem others_idle (b : Tile) (f : Nat) (h : ∀ e ∈ b.fused.entries, e.1 = f ∨ e.2.busy = false) (g : Nat) (hg : g ≠ f) :
    (b.fslot g).busy = false := by
  have key : ∀ l : List (Nat × Fused), (∀ e ∈ l, e.1 = f ∨ e.2.busy = false) → ((Tab.lookupIn l g).getD .reset).busy = false := by
    intro l
    induction l with
    | nil => intro _; rfl
    | cons a l ih =>
      intro h
      have ha := h a (by simp)
      have hl := ih (fun e he => h e (by simp [he]))
      unfold Tab.lookupIn
      split
      · rename_i e
        rcases ha with ha | ha
        · exact absurd (e.symm.trans ha) hg
        · exact ha
      · exact hl
  exact key b.fused.entries h

theorem witness_fused_alone :
    (∀ g, g ≠ 2 → (((fusedAt 1 aDesc .empty).seen 5).fslot g).busy = false) ∧
    (∀ k, (((fusedAt 4 aDesc (Tab.empty.set 1 { Slot.reset with st := .parked, heldBy := some 2 })).seen 5).slot k).st = .idle ∨
      (((fusedAt 4 aDesc (Tab.empty.set 1 { Slot.reset with st := .parked, heldBy := some 2 })).seen 5).slot k).st = .parked) :=
  ⟨others_idle _ 2 (by decide +kernel),
   Tab.get_of_all ((fusedAt 4 aDesc (Tab.empty.set 1 { Slot.reset with st := .parked, heldBy := some 2 })).seen 5).slots
     (fun (z : Slot) => z.st = .idle ∨ z.st = .parked) .reset (by decide +kernel) (.inl rfl)⟩

theorem witness_fused_arm :
    (let s := fusedAt 2 { aDesc with flags := 0x1F } .empty
     (s.seen 5).FusedAt (s.ctx 5) 2 2 { aDesc with flags := 0x1F } ∧ ((s.seen 5).slot 1).st = .idle ∧ ((s.seen 5).slot 1).heldBy = none) ∧
    (let s := fusedAt 2 aDesc (Tab.empty.set 1 { Slot.reset with st := .parked })
     (s.seen 5).FusedAt (s.ctx 5) 2 2 aDesc ∧ aDesc.has 5 = true ∧ ((s.seen 5).slot 1).st = .parked ∧ ((s.seen 5).slot 1).heldBy = none) ∧
    (let s := fusedAt 3 { aDesc with flags := 0x1F } (Tab.empty.set 2 { Slot.reset with st := .running, prog := [.move 64 0], due := 2000000 })
     (s.seen 5).FusedAt (s.ctx 5) 2 3 { aDesc with flags := 0x1F } ∧ ((s.seen 5).slot 2).st = .running) ∧
    (let s := fusedAt 4 aDesc (Tab.empty.set 1 { Slot.reset with st := .parked, heldBy := some 2 })
     (s.seen 5).FusedAt (s.ctx 5) 2 4 aDesc) := by
  unfold Tile.FusedAt; decide +kernel

/-! ### Witnesses: flits, messages, registers and Vesper -/

/-- A RUNNING module in which every tile is as after reset. -/
def onJob : State := { State.reset with st := .running, bootReady := false, cycle := 1000000, sidereal := 5000000 }

/-- A flit in the router of tile 5 on an input. -/
def flitTo (hdr : Word) (inp : Nat) : Flit := ⟨5, 0, inp, 1000000, 2, 0, hdr, 77, none, none⟩
def withFlits (l : List Flit) : State := { onJob with flits := l }

/-- The module in which tile 6 is a vacancy whose routers failed. -/
def lost6 (s : State) : State := { s with tiles := s.tiles.set 6 { Tile.reset with vacant := true }, routerFailed := [150] }

/-- A flit alone in a router: to the next column, to the next row, over an unreachable link, to its end by every kind of end, on along a
row cast and down a column cast, a cast of a kind that has none, and on an input from a link. -/
theorem witness_flit_routes :
    (let f := flitTo (hdrData 47 0 0 0 0 2 false) 3
     (withFlits [f]).flits.filter (fun f => f.x + 48 * f.y == 5 && decide (f.at_ ≤ onJob.cycle)) = [f] ∧ hCast f.hdr = 0 ∧
     dirTo f.x f.y (hDx f.hdr) (hDy f.hdr) = some 3 ∧ (withFlits [f]).neighbour f.x f.y 3 = some (6, 0, 1) ∧
     (lost6 (withFlits [f])).neighbour f.x f.y 3 = some (6, 0, 3) ∧ f.inp ≠ 0 ∧ ((withFlits [f]).tile 5).vacant = false) ∧
    (let f := flitTo (hdrData (5 + 48 * 47) 0 0 0 0 2 false) 0
     dirTo f.x f.y (hDx f.hdr) (hDy f.hdr) = some 4 ∧ (withFlits [f]).neighbour f.x f.y 4 = some (5, 1, 1)) ∧
    (∀ kind, kind < 7 → let f := flitTo (BitVec.ofNat 64 (kind + 5 * 2 ^ 3)) 3
      dirTo f.x f.y (hDx f.hdr) (hDy f.hdr) = none ∧ hKind f.hdr = kind ∧ hCast f.hdr = 0) := by
  decide +kernel

theorem witness_flit_ends :
    (let f := flitTo (BitVec.ofNat 64 (2 + 5 * 2 ^ 3)) 3
     (f.y = 0 ∨ f.y = 47) ∧ chanX 5 = f.x ∧ chanY 5 = f.y ∧ f.x ≠ 0 ∧ f.x ≠ 47) ∧
    (let f : Flit := { flitTo (BitVec.ofNat 64 (5 + 7 * 2 ^ 9)) 3 with x := 0, y := 7 }
     dirTo f.x f.y (hDx f.hdr) (hDy f.hdr) = none ∧ hKind f.hdr = 5 ∧ f.x = 0 ∧ f.y ≠ 0 ∧ f.y ≠ 47) ∧
    (let f := flitTo (hdrData 47 0 0 1 0 2 false) 1
     hCast f.hdr = 1 ∧ hKind f.hdr ≤ 1 ∧ hDy f.hdr = f.sy ∧ f.x ≠ f.sx ∧ dirTo f.x f.y (hDx f.hdr) (hDy f.hdr) = some 3 ∧
     (withFlits [f]).neighbour f.x f.y 3 = some (6, 0, 1)) ∧
    (let f : Flit := { flitTo (hdrData (5 + 48 * 9) 0 0 2 0 2 false) 2 with sx := 1 }
     hCast f.hdr = 2 ∧ f.x = hDx f.hdr ∧ f.x ≠ f.sx ∧ dirTo f.x f.y (hDx f.hdr) (hDy f.hdr) = some 4) ∧
    (let f := flitTo (BitVec.ofNat 64 (5 + 47 * 2 ^ 3 + 2 ^ 15)) 1; hCast f.hdr = 1 ∧ 1 < hKind f.hdr) ∧
    (let f := flitTo (hdrData (47 + 48) 0 0 1 0 2 false) 1; hCast f.hdr = 1 ∧ hDy f.hdr ≠ f.sy) ∧
    (let f := flitTo (hdrData 5 0 0 0 0 2 false) 1; let g := flitTo (hdrData 5 1 0 0 0 9 false) 3
     (withFlits [f, g]).flits.filter (fun f => f.x + 48 * f.y == 5 && decide (f.at_ ≤ onJob.cycle)) = [f, g] ∧ f.at_ = g.at_ ∧
     f.inp < g.inp ∧ hKind f.hdr = 0 ∧ hKind g.hdr = 0 ∧ hCast g.hdr = 0 ∧ hDx f.hdr = f.x ∧ hDy f.hdr = f.y ∧ hDx g.hdr = g.x ∧
     hDy g.hdr = g.y) := by
  decide +kernel

/-- A landing at tile 5 in this cycle. -/
def landingOf (hdr : Word) (back : Option Nat) (t : Tile) : State := { oneTile t with landings := [⟨5, 1000000, hdr, 77, back⟩] }

/-- On the last line of the scratchpad and one beyond it, a count, an atomic one whose read was two cycles ago, a return of an earlier
arming, one to slot 3's buffer with room for exactly 64 bytes, and one at a FENCED tile. -/
theorem witness_landing :
    (let s := landingOf (hdrData 5 24575 63 0 0 2 true) none (tileAt 0 [])
     (∀ m ∈ s.landings, m.tile = 5 → m.w ≤ s.cycle → m = ⟨5, 1000000, hdrData 5 24575 63 0 0 2 true, 77, none⟩) ∧ (s.seen 5).vacant = false ∧
     (s.seen 5).deaf = false ∧ hKind (hdrData 5 24575 63 0 0 2 true) = 0 ∧ hLine (hdrData 5 24575 63 0 0 2 true) * 64 + 64 = (s.seen 5).size ∧
     hAtomic (hdrData 5 24575 63 0 0 2 true) = 0 ∧ bufferReturn (hdrData 5 24575 63 0 0 2 true) = none ∧ Mem.wf 0 (s.seen 5).spad = true ∧
     (s.seen 5).PortFree (s.ctx 5) true 1572800 64 ∧ (s.seen 5).bank.grants = [] ∧ (s.seen 5).calLive none = true ∧
     (s.seen 5).size ≤ hLine (hdrData 5 24576 63 0 0 2 true) * 64) ∧
    (hKind (hdrSignal 5 63 65535 2) = 1 ∧ hAmount (hdrSignal 5 63 65535 2) = 65535) ∧
    (let s := landingOf (hdrData 5 8 0 0 1 2 false) none (tileAt 0 [])
     hAtomic (hdrData 5 8 0 0 1 2 false) ≠ 0 ∧ ((s.seen 5).landingAtom 1000000 512).isSome = true) ∧
    (((landingOf (hdrData 5 8 0 0 0 2 false) (some 11) (tileAt 0 [])).seen 5).calLive (some 11) = false) ∧
    (let h : Word := BitVec.ofNat 64 (4 + 5 * 2 ^ 3 + 35 * 2 ^ 18)
     let s := landingOf h none { tileAt 0 [] with slots := Tab.empty.set 3 { Slot.reset with st := .running, buf := List.replicate 960 1 } }
     bufferReturn h = some 3 ∧ ((s.seen 5).slot 3).st = .running ∧ ((s.seen 5).slot 3).incoming = [] ∧ ((s.seen 5).slot 3).buf.length = 960 ∧
     (s.seen 5).deaf = false) ∧
    ((landingOf 0 none { tileAt 0 [] with st := .fenced }).seen 5).deaf = true := by unfold Tile.PortFree; decide +kernel

/-- A packet at or for tile 5 from tile 7. -/
def pkt (ep op rep : Nat) (w : Word) (data : List Byte) : VPkt := ⟨5, 0, [], 2, 1000000, 5, 0, ep, 1, op, 1, 0x1007, 3, w, data, 7, 0, rep, 0, none⟩

/-- Tile 5 blocked on a VLD with tag 3 since 400,000 cycles, and some packets in the inbox. -/
def onVld (l : List VPkt) : State :=
  { oneTile { tileAt 0 [] with seq := { (tileAt 0 []).seq with blk := some ⟨.vld, 1⟩, vldTag := 3, vldAt := 600000 } } with inbox := l }

theorem witness_vld :
    ((onVld []).seen 5).st = .running ∧ ((onVld []).seen 5).seq.blk = some ⟨.vld, 1⟩ ∧
    (onVld [pkt 0 4 0 0 (leBytes 16 9)]).inbox.find? (fun p => p.atTile 5 && p.isResponse && p.rep == 0) = some (pkt 0 4 0 0 (leBytes 16 9)) ∧
    (pkt 0 4 0 0 (leBytes 16 9)).rtag = ((onVld []).seen 5).seq.vldTag ∧
    (onVld [pkt 0 6 0 5 []]).inbox.find? (fun p => p.atTile 5 && p.isResponse && p.rep == 0) = some (pkt 0 6 0 5 []) ∧
    ((onVld []).seen 5).seq.vldAt + 400000 ≤ (onVld []).cycle := by decide +kernel

/-- A message of 16 bytes for queue 9 of tile 5 from send entry 2 of tile 7. -/
def aMsgPkt : VPkt := pkt 0 7 0 (BitVec.ofNat 64 (9 + 2 * 2 ^ 6 + 16 * 2 ^ 12)) aMsg.bytes

/-- Tile 5 with queue 9 in a state, of one block per slot and depth 1, its peer tile 7. -/
def queued (state : Nat) (l : List Msg) : State :=
  { oneTile (((({ tileAt 0 [] with queues := Tab.empty.set 9 l }.wr F.TIL_CHQ_STATE.state 9 state).wr F.TIL_CHQ_CFG.peer_tile 9 7).wr
      F.TIL_CHQ_CFG.slot_blocks 9 1).wr F.TIL_CHQ_CFG.depth 9 1) with inbox := [aMsgPkt] }

theorem witness_message :
    (queued 1 []).inbox.find? (fun p => p.atTile 5 && p.op == 7) = some aMsgPkt ∧ bits aMsgPkt.w.toNat 0 6 = 9 ∧ aMsgPkt.msg 1000000 = { aMsg with at_ := 1000000 } ∧
    ((queued 1 []).seen 5).Accepts 9 (aMsgPkt.msg 1000000) ∧ ((queued 1 []).seen 5).seq.blk = none ∧ ((queued 1 []).seen 5).vacant = false ∧
    ((queued 2 []).seen 5).rd F.TIL_CHQ_STATE.state 9 ≠ 1 ∧
    ¬ ((queued 1 [aMsg]).seen 5).Accepts 9 (aMsgPkt.msg 1000000) ∧ ((queued 1 [aMsg]).seen 5).deaf = false ∧
    ((queued 1 [aMsg]).seen 5).rd F.TIL_CHQ_STATE.state 9 = 1 := by
  unfold Tile.Accepts; decide +kernel

/-- `queued` with tile 5 blocked on a CRECV of queue 9 since cycle 999,000. -/
def receiving : State :=
  (queued 1 []).setTile 5 (let t := (queued 1 []).tile 5
    { t with seq := { t.seq with blk := some ⟨.recv 9 0x17F000, 1⟩, sinceCycle := 999000 } })

theorem witness_receive :
    (receiving.seen 5).Accepts 9 (aMsgPkt.msg receiving.cycle) ∧ (receiving.seen 5).seq.blk = some ⟨.recv 9 0x17F000, 1⟩ ∧
    (receiving.seen 5).queue 9 = [] ∧ (receiving.seen 5).recvAhead 9 999000 = false ∧ (receiving.seen 5).bank = .empty ∧
    (receiving.seen 5).PortsIdle (receiving.ctx 5) ∧ (receiving.seen 5).seq.sinceCycle = 999000 ∧ Mem.wf 0 (receiving.seen 5).spad = true ∧
    ((lost6 (queued 1 [])).seen 6).vacant = true := by
  unfold Tile.Accepts Tile.PortsIdle; decide +kernel

/-- Tile 5 waiting for the reply to a CSEND on entry 3 since 400,000 cycles (`wait`), 15 of 16 credits left, and a reply in the inbox. -/
def onSend (code : Nat) (wait : Bool) : State :=
  { oneTile ((((({ tileAt 0 [] with
      seq := { (tileAt 0 []).seq with blk := if wait then some ⟨.send 3, 1⟩ else none }
      sends := if wait then [⟨.csend, 3, 0x100, 16, aMsg.bytes, some 600000, 600000⟩] else [] }.wr F.TIL_CHS_CFG.enable 3 1).wr
      F.TIL_CHS_CFG.credits 3 16).wr F.TIL_CHS_STATE.state 3 1).wr F.TIL_CHS_STATE.credit 3 15)) with
    inbox := [pkt 0 5 7 (BitVec.ofNat 64 (code + 3 * 2 ^ 2 + 1 * 2 ^ 8)) []] }

theorem witness_replies :
    (∀ code, code < 4 → (onSend code true).replyFor 5 code = some (pkt 0 5 7 (BitVec.ofNat 64 (code + 3 * 2 ^ 2 + 1 * 2 ^ 8)) [])) ∧
    (∀ code, code < 4 → 3 = bits (BitVec.ofNat 64 (code + 3 * 2 ^ 2 + 1 * 2 ^ 8)).toNat 2 6 ∧
      bits (BitVec.ofNat 64 (code + 3 * 2 ^ 2 + 1 * 2 ^ 8)).toNat 8 5 = 1) ∧
    ((onSend 0 true).seen 5).deaf = false ∧ ((onSend 0 true).seen 5).rd F.TIL_CHS_STATE.state 3 = 1 ∧
    ((onSend 0 true).seen 5).sends = [⟨.csend, 3, 0x100, 16, aMsg.bytes, some 600000, 600000⟩] ∧
    ((onSend 0 true).seen 5).seq.blk = some ⟨.send 3, 1⟩ ∧
    ((onSend 0 true).seen 5).rd F.TIL_CHS_STATE.credit 3 + 1 = 16 ∧ ((onSend 0 true).seen 5).rd F.TIL_CHS_CFG.credits 3 = 16 ∧
    600000 + 400000 ≤ (onSend 0 true).cycle ∧ (onSend 3 false).replyFor 5 3 ≠ none ∧ ((onSend 3 false).seen 5).sends = [] := by decide +kernel

/-- OBS_APR_SEG 3 and RST_LAST: registers of the Observatory's own, one writable and one read-only. -/
theorem witness_own_register :
    State.reset.OwnReg (Reg.OBS_APR_SEG.place.base + 3 * Reg.OBS_APR_SEG.place.stride) 8 .OBS_APR_SEG 0 3 0 ∧
    State.reset.OwnReg 0x3000008 4 .RST_LAST 0 0 0 ∧ validSrc 0x18FF = true ∧ validSrc 0x1900 = false ∧
    Reg.OBS_APR_SEG ∉ specialRegs ∧ State.reset.hostWriting = false ∧
    vspTarget 0x1000000 = some (0, 0, 0) ∧ goodSize 0x1000000 8 = true ∧ (0x1000000 < 0x4000000) := by
  unfold State.OwnReg; decide +kernel

theorem witness_reachable :
    onJob.bootReady = false ∧ onJob.reachable = true ∧ onJob.ctlDead = false ∧ onJob.OwnReg 0x3000008 4 .RST_LAST 0 0 0 := by
  unfold State.OwnReg; decide +kernel

theorem witness_configuration :
    ({ State.reset with st := .ready } : State).st = .ready ∧ ({ State.reset with st := .ready } : State).inJob = false ∧
    onJob.st ≠ .ready ∧ onJob.st ≠ .joined ∧ onJob.inJob = true ∧ (onJob.port 15).st = .dark ∧
    (({ onJob with ports := Tab.empty.set 15 { Port.reset with st := .up } } : State).port 15).st ≠ .dark ∧
    (({ onJob with ports := Tab.empty.set 15 { Port.reset with st := .up } } : State).port 15).st ≠ .down := by decide +kernel

/-- Packets in Vesper. -/
def withPkts (l : List VPkt) : State := { onJob with pkts := l }

/-- The packet's head, and its second flit behind it, in the router of tile 5. -/
def atFive (vc inp dx : Nat) : VPkt := { pkt 0 0 0 0 [] with worm := [⟨5, 0, inp, [1000000, 1000000]⟩], gone := 0, vc := vc, dx := dx }

/-- A head on its way, before an unreachable link and at its endpoint, a request and a response; two heads that need one output, of which
one is on VC 1, or is first in the round-robin order; a packet that has come whole, and one with a record. -/
theorem witness_packets :
    (let p := atFive 0 3 47
     p.only 5 0 3 1000000 [1000000] ∧ p.outAt 5 0 = 3 ∧ (withPkts [p]).OutputIdle 5 0 3 ∧
     (withPkts [p]).neighbour 5 0 3 = some (6, 0, 1) ∧ (lost6 (withPkts [p])).neighbour 5 0 3 = some (6, 0, 3) ∧ p.headAt 5 0 = true ∧
     (lost6 (withPkts [p])).OutputIdle 5 0 3 ∧ p.isResponse = false ∧ p.op ≠ 7 ∧ p.op ≠ 10 ∧ p.rec_ = none ∧ p.ep ≠ 1 ∧
     { p with op := 4 }.isResponse = true ∧ ((lost6 (withPkts [p])).tile 5).vacant = false) ∧
    (let p := atFive 0 3 5
     dirTo 5 0 p.dx p.dy = none ∧ (withPkts [p]).OutputIdle 5 0 (p.outAt 5 0) ∧ { p with gone := 1 }.gone = p.len) ∧
    (let p := atFive 1 3 47; let q := atFive 0 1 47
     q.only 5 0 1 1000000 [1000000] ∧ p.outAt 5 0 = q.outAt 5 0 ∧ q.headAt 5 0 = true ∧ (withPkts [p, q]).OutputIdle 5 0 3 ∧
     (withPkts [p, q]).neighbour 5 0 3 = some (6, 0, 1) ∧ p.vc = 1 ∧ q.vc ≠ 1 ∧
     (withPkts [p, q]).turnOf 5 3 0 1 < (withPkts [p, q]).turnOf 5 3 0 3) ∧
    (let p := pkt 0 0 0 0 []
     p.worm = [] ∧ p.dx < 48 ∧ p.dy < 48 ∧ p.ready ≤ onJob.cycle ∧ p.rec_ = none ∧ p.ep = 0 ∧ p.isResponse = false) := by
  unfold VPkt.only State.OutputIdle; decide +kernel

theorem witness_packet_accesses :
    (let p := pkt 2 0 0 0x200000 []
     let s := { onJob with inbox := [p] }
     s.inbox.find? (fun p => p.op == 0 || p.op == 1) = some p ∧ bits p.w.toNat 0 28 = 0x200000 ∧ bits p.w.toNat 28 1 = 0 ∧ bits p.w.toNat 29 1 = 0 ∧
     regAt 0x200000 = some (.FAB_PORT_CTRL, 0, 0, 0) ∧ inFab 0x200000 = true) ∧
    (let p := { pkt 0 1 0 0x1000000 (leBytes 16 1) with src := 1 }
     ({ onJob with inbox := [p] } : State).inbox.find? (fun p => p.op == 0 || p.op == 1) = some p ∧ bits p.w.toNat 0 28 = 0x1000000 ∧
     regAt 0x1000000 = some (.TIL_STATE, 0, 0, 0) ∧ inTil 0x1000000 = true) ∧
    (let p := pkt 0 3 0 (BitVec.ofNat 64 (0x17FFF0 + 16 * 2 ^ 21)) (leBytes 16 1)
     let s : State := { oneTile (tileAt 0 []) with inbox := [p] }
     s.inbox.find? (fun p => p.ep == 0 && (p.op == 2 || p.op == 3)) = some p ∧ bits p.w.toNat 0 21 = 0x17FFF0 ∧ bits p.w.toNat 21 13 = 16 ∧
     (s.seen 5).vacant = false ∧ (s.seen 5).deaf = false ∧ p.data.length = 16 ∧ Mem.wf 0 (s.seen 5).spad = true ∧
     (({ oneTile { tileAt 0 [] with st := .fenced } with inbox := [p] } : State).seen 5).deaf = true) ∧
    (let p := pkt 0 6 8 (BitVec.ofNat 64 (5 + 4 * 2 ^ 16 + 3 * 2 ^ 24)) []
     let s : State := { oneTile (tileAt 0 []) with inbox := [p] }
     s.inbox.find? (fun p => p.atTile 5 && p.op == 6 && (p.rep == 8 || p.rep == 9 || p.rep == 2)) = some p ∧ bits p.w.toNat 24 3 = 3 ∧
     ((s.seen 5).slot 3).heldBy = none) := by decide +kernel

/-! ### Witnesses: memory -/

/-- An ACTIVE channel with every slot CAL and the calendar on. -/
def calOn : Chan :=
  (List.range 20).foldl (fun h j => h.wr F.MEM_CAL_TABLE.slots j 0x5555555555555555) ({ Chan.reset with st := .active }.wr F.MEM_CAL_CTRL.enable 0 1)
/-- Channel 95 in a state, at the start of a slot 10 of a frame. -/
def atChan (h : Chan) : State := { onJob with sidereal := 3840 * 1000 + 600, chans := Tab.empty.set 95 h }

/-- A calendar read of a line by slot 7 of tile 5, and a write, at the port in this cycle. -/
def calRead : Word := BitVec.ofNat 64 (2 + 5 * 2 ^ 41 + 7 * 2 ^ 53)
def calWrite (m : Nat) : Word := BitVec.ofNat 64 (3 + m % 2 ^ 24 * 2 ^ 17 + 5 * 2 ^ 41 + 7 * 2 ^ 53 + m / 2 ^ 24 * 2 ^ 56)
def readReq (m : Nat) : CalReq := ⟨1000000, calRead, BitVec.ofNat 512 m, none⟩
def writeReq (m : Nat) : CalReq := ⟨1000000, calWrite m, 9, none⟩
def asks (h : Chan) (q : CalReq) : Chan := { h with arrived := [q] }

/-- The CAL slots of a request, as `Chan.Request` names them. -/
def slotsOf (h : Chan) (m : Nat) (write : Bool) : List Nat :=
  h.calSlots ((atChan h).ctx 95) 1280 (h.slotsFor m write) (slotStart ((atChan h).ctx 95) (max (1000000 + 24) h.calEnd))

theorem witness_calendar_fields :
    calFields calRead (BitVec.ofNat 512 (lineCount - 1)) = (lineCount - 1, 5, 7, false) ∧ calFields calRead (BitVec.ofNat 512 lineCount) = (lineCount, 5, 7, false) ∧
    calFields (calWrite (lineCount - 1)) 9 = (lineCount - 1, 5, 7, true) := by decide +kernel

/-- The last line, read and written in time. -/
theorem witness_calendar_admits :
    (let h := asks calOn (readReq (lineCount - 1)); let c := (atChan h).ctx 95
     (atChan h).chanSeen 95 = { h with regs := { h.regs with now := 1000000 } } ∧ 1000000 ≤ c.cycle ∧
     h.Admits c 1000000 (lineCount - 1) false (slotsOf h (lineCount - 1) false)) ∧
    (let h := asks calOn (writeReq (lineCount - 1)); let c := (atChan h).ctx 95
     h.Admits c 1000000 (lineCount - 1) true (slotsOf h (lineCount - 1) true) ∧ Mem.wf 0 h.mem = true) := by
  unfold Chan.Admits; decide +kernel

/-- Errors in one byte, in two, and a code line that must be fetched. -/
theorem witness_calendar_errors :
    errBytes 0 = 0 ∧ errBytes 0xFF = 1 ∧ errBytes 0x1FF = 2 ∧ errBytes (0x1FF + 2 ^ 543) = 3 ∧
    decide (calOn.calEcc.find (lpddrBank 5) ≠ some (lpddrBlock 5)) = true := by decide +kernel

/-- No calendar slot at all: the request is late; a bank that a calendar access holds; the calendar off; a return that is due. -/
theorem witness_calendar_refused :
    (let h := asks ({ Chan.reset with st := .active }.wr F.MEM_CAL_CTRL.enable 0 1) (readReq 0)
     h.st = .active ∧ h.rd F.MEM_CAL_CTRL.enable 0 = 1 ∧ h.closing = false ∧ h.rd F.MEM_CH_STATUS.cal_fault 0 = 0 ∧
     (slotsOf h 0 false).length < h.slotsFor 0 false) ∧
    (let h := { asks calOn (readReq 0) with busy := [⟨lpddrBank 0, 1000000, 1000500, true⟩] }; let ts := slotsOf h 0 false
     ts.length = h.slotsFor 0 false ∧ ts.getLastD 0 ≤ 1000000 + 564 ∧
     h.bankMeets true (lpddrBank 0) (ts.headD 0) (ts.headD 0 + 113 + 6 * h.slotsFor 0 false) = true) ∧
    (asks { Chan.reset with st := .active } (readReq 0)).rd F.MEM_CAL_CTRL.enable 0 ≠ 1 ∧
    (let h := { calOn with rets := [⟨1000000, returnHdr 95 calRead, List.replicate 64 0, none⟩] }
     ((atChan h).chanSeen 95).rets = [⟨1000000, returnHdr 95 calRead, List.replicate 64 0, none⟩] ∧ 1000000 ≤ (atChan h).cycle) := by decide +kernel

/-- An open request at channel 95 for a line. -/
def openPkt (op m : Nat) : VPkt :=
  { pkt 1 op 0 (BitVec.ofNat 64 (m + 7 * 2 ^ 27 + 0x81 * 2 ^ 30)) (List.replicate 64 3) with dx := chanX 95, dy := chanY 95 }
def openAt (h : Chan) (p : VPkt) : State := { atChan h with inbox := [p] }
/-- A channel with every slot open. -/
def opens : Chan := { Chan.reset with st := .active }

theorem witness_open_arrivals :
    (∀ m ∈ [0, lineCount - 1, lineCount], ∀ op ∈ [8, 9],
      (openAt opens (openPkt op m)).inbox.find? (fun p => p.ep == 1 && (p.op == 8 || p.op == 9) && p.dx == chanX 95 && p.dy == chanY 95) =
        some (openPkt op m) ∧ bits (openPkt op m).w.toNat 0 27 = m) ∧
    ((openAt Chan.reset (openPkt 8 0)).chan 95).st ≠ .active ∧ ((openAt opens (openPkt 8 0)).chan 95).st = .active ∧
    ((openAt opens (openPkt 8 0)).chan 95).comb = [] ∧ ((openAt opens (openPkt 8 0)).chan 95).queue.length < 64 ∧
    ((openAt { opens with queue := List.replicate 64 ⟨openPkt 9 0, 0, 255, true, false⟩ } (openPkt 8 0)).chan 95).queue.length = 64 ∧
    (⟨0, 1000000 - 256, [], 15, true, none⟩ : Comb).takes ((openAt opens (openPkt 8 0)).ctx 95) 0 = true ∧
    (⟨0, 1000000 - 257, [], 15, true, none⟩ : Comb).takes ((openAt opens (openPkt 8 0)).ctx 95) 0 = false := by decide +kernel

/-- A write, an uncombined read, and a read with its combining entry, each able to start in this cycle. -/
theorem witness_open_accesses :
    (let q : OpenReq := ⟨openPkt 9 8, 8, 0x81, true, false⟩
     let s := atChan { opens with queue := [q] }
     (s.chanSeen 95).openNext (s.ctx 95) [] (s.chanSeen 95).queue = some q ∧ Mem.wf 0 (s.chan 95).mem = true ∧ q.pkt.data.length = 64) ∧
    (let q : OpenReq := ⟨openPkt 8 8, 8, 255, false, false⟩
     let s := atChan { opens with queue := [q] }
     (s.chanSeen 95).openNext (s.ctx 95) [] (s.chanSeen 95).queue = some q) ∧
    (let q : OpenReq := ⟨openPkt 8 8, 8, 255, false, true⟩
     let e : Comb := ⟨8, 999990, [openPkt 8 8, openPkt 8 8], 2, true, none⟩
     let s := atChan { opens with queue := [q], comb := [e] }
     (s.chanSeen 95).openNext (s.ctx 95) [] (s.chanSeen 95).queue = some q ∧ (s.chan 95).comb = [e] ∧ e.m = q.m ∧ ((openAt { opens with comb := [e] } (openPkt 8 8)).chan 95).comb = [e] ∧
      e.takes ((openAt opens (openPkt 8 8)).ctx 95) 8 = true ∧ (s.chanSeen 95).fetches 8 = true) ∧
    (let s := atChan { opens with rereads := [⟨8, 999000⟩] }
     (s.chan 95).rereads = [⟨8, 999000⟩] ∧ s.recsOut = [] ∧
     (s.chanSeen 95).openFits (s.ctx 95) 8 (2 + ((s.chanSeen 95).fetches 8).toNat) = true) := by decide +kernel

/-- Slot 0 of a frame; a channel's emergency; the refresh window of bank 0; a closing calendar; a channel in SELF_REFRESH. -/
theorem witness_upkeep :
    (let s : State := { atChan opens with sidereal := 3840 * 1000 }
     (s.chan 95).st = .active ∧ s.sidereal % 3840 < 6 ∧ refreshMeets (s.ctx 95) 0 s.cycle s.cycle = true ∧ (s.chan 95).st ≠ .selfRefresh) ∧
    (let s : State := { atChan opens with pwr := { (atChan opens).pwr with emerg := [(5, 95)] } }
     (5, 95) ∈ s.pwr.emerg) ∧
    (let s : State := { atChan opens with st := .ready }
     (s.st = .ready ∧ (s.chan 95).rd F.MEM_CAL_CTRL.enable 0 = 0) ∧ (1#64).toNat % 2 = 1) ∧
    ((atChan opens).st ≠ .ready ∧ (atChan opens).st ≠ .joined) ∧
    ((atChan calOn).chan 95).rd F.MEM_CAL_CTRL.enable 0 = 1 ∧ (2#64).toNat % 2 = 0 ∧
    ((atChan { calOn with closing := true }).chan 95).closing = true ∧ ((atChan { calOn with closing := true }).chan 95).rets = [] ∧
    ((atChan { opens with st := .selfRefresh }).chan 95).st = .selfRefresh ∧ (atChan opens).resets = [] := by decide +kernel

/-- The map that leaves channel 63 out, in READY with every channel of it ACTIVE. -/
theorem witness_channel_map :
    (let s : State := { State.reset with st := .ready, chans := ⟨(List.range 96).map (fun k => (k, opens))⟩ }
     s.st = .ready ∧ (∀ ch, ch < 96 → (s.chan ch).rd F.MEM_CAL_CTRL.enable 0 = 0 ∧ (s.chan ch).queue = []) ∧
     (∀ ch, ch < 64 → (0x7FFFFFFFFFFFFFFF#64).toNat.testBit ch = true → (s.chan ch).st = .active) ∧
     s.rd F.MEM_GLB_ENABLE_LO.enable 0 0 ≠ (0x7FFFFFFFFFFFFFFF#64).toNat) := by decide +kernel

/-! ### Witnesses: barriers, the nova -/

/-- Tile 5 alone in barrier tree 31, its root and only participant, arrived; blocked on BAR or with a BARA pending. -/
def soloTree (blk : Bool) (glob : Nat) : State :=
  oneTile ((((({ tileAt 0 [] with
    arrived := Tab.empty.set 31 999999
    seq := { (tileAt 0 []).seq with blk := if blk then some ⟨.barrier 31, 1⟩ else none } }.wr F.TIL_PUL_BAR.enable 31 1).wr F.TIL_PUL_BAR.height 31 0).wr
      F.TIL_PUL_BAR.participant 31 1).wr F.TIL_PUL_BAR.global 31 glob).wr F.TIL_PUL_STATE.pending_bara 0 (if blk then 0 else 2 ^ 31))

theorem witness_barrier_tree :
    (let s := soloTree true 0
     s.node 5 31 F.TIL_PUL_BAR.enable = 1 ∧ s.node 5 31 F.TIL_PUL_BAR.parent = 0 ∧ s.node 5 31 F.TIL_PUL_BAR.global ≠ 1 ∧ s.treeOk 31 5 = true ∧
     s.barRel.find (5, 31) = none ∧ (s.gb 31).local_ = none ∧ (s.gb 31).signal = none ∧ s.conj = none ∧ s.rootArrival 31 5 = some 999999) ∧
    (let s := { soloTree true 0 with barRel := Tab.empty.set (5, 31) 999999 }
     s.treeOf 31 5 = [5] ∧ s.barRel.find (5, 31) = some 999999 ∧ 999999 + s.node 5 31 F.TIL_PUL_BAR.height + 1 ≤ s.cycle ∧
     (s.seen 5).st = .running ∧ (s.seen 5).seq.blk = some ⟨.barrier 31, 1⟩) ∧
    (let s := { soloTree false 0 with barRel := Tab.empty.set (5, 31) 999999 }
     (s.seen 5).seq.blk = none ∧ (s.seen 5).barPending 31 = true) ∧ ((soloTree true 0).seen 5).vacant = false := by decide +kernel

theorem witness_fault_and_abort_lines :
    (let s : State := { onJob with faults := [999904] }
     (∃ f ∈ s.faults, f + 96 ≤ s.cycle) ∧ s.st = .running ∧ s.rd F.RST_FENCE.module 0 0 = 0 ∧ ({ s with st := .ready } : State).st ≠ .running) ∧
    (let s : State := { onJob with abortAt := some 999904 }; s.abortAt = some 999904 ∧ 999904 + 96 ≤ s.cycle) := by decide +kernel

/-- An M packet of an op at port 15, UP. -/
def mPkt (op hi : Nat) (data : List Byte) : FPkt := ⟨BitVec.ofNat 64 (2 * 2 ^ 58 + op * 2 ^ 60), BitVec.ofNat 64 hi, data⟩
def atPort (p : Port) : State := { onJob with ports := Tab.empty.set 15 p }
def upWith (l : List FPkt) : State := atPort { Port.reset with st := .up, rxM := l }

/-- Global barrier 31 at its root module, whose children are ports 3 and 15: arrivals, with and without the other child's. -/
theorem witness_global_barrier :
    (let q := mPkt 4 (31 + 255 * 2 ^ 5) (List.replicate 16 1)
     let s := (({ upWith [q] with gbar := Tab.empty.set 31 { GBar.reset with episode := 255, local_ := some 999999 } } : State).wr
       F.RTE_GBAR.enable 0 31 1 |>.wr F.RTE_GBAR.root 0 31 1 |>.wr F.RTE_GBAR.children 0 31 0x8000)
     s.AtHead 15 q [] ∧ q.op = 4 ∧ 31 = bits q.hi.toNat 0 5 ∧ s.conj = none ∧ bits q.hi.toNat 5 8 = (s.gb 31).episode ∧
     s.rd F.RTE_GBAR.enable 0 31 = 1 ∧ s.rd F.RTE_GBAR.root 0 31 = 1 ∧ (s.gb 31).arrivedUp = false ∧ (s.gb 31).local_ = some 999999 ∧
     portsOf (s.rd F.RTE_GBAR.children 0 31) = [15] ∧
     portsOf ((s.wr F.RTE_GBAR.children 0 31 0x8008).rd F.RTE_GBAR.children 0 31) = [3, 15] ∧ (s.gb 31).kids = [] ∧
     bits (mPkt 4 31 []).hi.toNat 5 8 ≠ (s.gb 31).episode ∧ (s.wr F.RTE_GBAR.children 0 31 0x8000).inJob = true) ∧
    (let q := mPkt 5 (31 + 255 * 2 ^ 5) (leBytes 8 5000100)
     let s : State := { upWith [q] with gbar := Tab.empty.set 31 { GBar.reset with episode := 255 } }
     s.AtHead 15 q [] ∧ q.op = 5 ∧ 31 = bits q.hi.toNat 0 5 ∧ bits q.hi.toNat 5 8 = (s.gb 31).episode ∧ s.conj = none) ∧
    (let s : State := { soloTree true 1 with gbar := Tab.empty.set 31 { GBar.reset with signal := some 1000000 } }
     (s.gb 31).signal = some 1000000 ∧ s.globalRoot 31 = some 5) := by
  unfold State.AtHead; decide +kernel

theorem witness_nova :
    (let s := (upWith []).wr F.GLB_JOB.job 0 0 4095
     s.st = .running ∧ s.rd F.RST_FENCE.module 0 0 = 0 ∧ (s.port 15).st.linked = true ∧ s.job = 4095 ∧
     (7 : Nat) ≠ s.job ∧
     (let d := { ((s.wr F.RTE_NOVA.valid 0 0 1).wr F.RTE_NOVA.job 0 0 4095) with st := .fenced }
      d.rd F.RTE_NOVA.valid 0 0 = 1 ∧ d.rd F.RTE_NOVA.job 0 0 = 4095 ∧ d.job = 4095 ∧ d.inJob = false ∧ (d.port 15).st.linked = true)) ∧ State.reset.inJob = false := by decide +kernel

/-! ### Witnesses: ports, time, the fabric -/

def inSt (st : PortState) : State := atPort { Port.reset with st := st }

theorem witness_port_commands :
    (inSt .dark).MayPort 15 1 ∧ (inSt .down).MayPort 15 2 ∧ (inSt .up).MayPort 15 3 ∧ ({ inSt .drained with st := .draining } : State).MayPort 15 4 ∧
    ¬ (inSt .up).MayPort 15 1 ∧ ¬ (inSt .dark).MayPort 15 2 ∧ ¬ (inSt .dark).MayPort 15 3 ∧ ¬ (inSt .up).MayPort 15 4 := by
  refine ⟨?_, ?_, ?_, ?_, ?_, ?_, ?_, ?_⟩ <;> simp only [State.MayPort] <;> decide +kernel

/-- Eight lanes, no lane, no partner for a second; the least and the greatest latency, and a configured one a cycle too short. -/
theorem witness_training :
    (let s := inSt .training
     (s.port 15).st = .training ∧ (s.chooseLanes 15 255 255 255 0).isOk = true ∧ (s.chooseLanes 15 0 0 255 0).isOk = false) ∧
    (let s := { atPort { Port.reset with st := .training, trainAt := some 1000 } with cycle := 2000001000 }
     (s.port 15).st = .training ∧ (s.port 15).trainAt = some 1000 ∧ 1000 + 2000000000 ≤ s.cycle) ∧
    ((inSt .parallax).port 15).st = .parallax ∧ (inSt .parallax).rd F.FAB_PORT_CFG.latency 15 0 = 0 ∧
    (max 64 ((0 + 63) / 64 + 8) + 7) / 8 * 8 = 64 ∧ ((4088 * 64) % 2 ^ 19 + 63) / 64 + 8 = 4096 ∧
    ((inSt .parallax).wr F.FAB_PORT_CFG.latency 15 0 64).rd F.FAB_PORT_CFG.latency 15 0 = 64 ∧ (64 : Nat) < ((57 * 64) % 2 ^ 19 + 63) / 64 + 8 ∧
    ((inSt .drained).port 15).st.linked = true := by decide +kernel

/-- The ninth uncorrectable codeword among 1,048,576, and a maintenance codeword due, with and without a PARTNER_DARK notice. -/
theorem witness_codewords :
    (let s := atPort { Port.reset with st := .up, cw := 1048600, bad := [1048599, 7000, 6000, 5000, 4000, 3000, 2000, 26] }
     (s.port 15).st.linked = true ∧ (s.port 15).bad.length = 8 ∧ ∀ k ∈ (s.port 15).bad, (s.port 15).cw + 1 < k + 1048576) ∧
    ((inSt .up).port 15).maintAt ≠ some ((inSt .up).sidereal / 20480) ∧ ((inSt .up).port 15).darkNotice = false ∧
    (let s := atPort { Port.reset with st := .drained, darkNotice := true }
     (s.port 15).maintAt ≠ some (s.sidereal / 20480) ∧ (s.port 15).st.linked = true ∧ (s.port 15).darkNotice = true) := by decide +kernel

/-- A packet of a class with 64 payload bytes for tile 2303 of EID 9, of job 5. -/
def fPkt (cls hops hi : Nat) : FPkt :=
  ⟨BitVec.ofNat 64 (cls + 9 * 2 ^ 4 + 8 * 2 ^ 18 + 5 * 2 ^ 32 + hops * 2 ^ 44 + 4 * 2 ^ 50 + (if cls = 1 then 2 ^ 60 else 0)), BitVec.ofNat 64 hi,
    List.replicate 64 3⟩

/-- Good packets of each class; a class S packet at the first cycle it may be delivered in. -/
theorem witness_received :
    (∀ cls, cls < 3 → (fPkt cls 1 0).cls = cls ∧ (fPkt cls 1 0).reserved = false ∧ (fPkt cls 1 0).data.length = 16 * (fPkt cls 1 0).len) ∧
    (let s := ((atPort { Port.reset with st := .up, markerOk := true }).wr F.GLB_TIME_STATUS.state 0 0 2).wr F.FAB_PORT_PARALLAX.latency 15 0 64
     let p := fPkt 0 1 ((5000000 + 1 - 64) % 65536 + 2303 * 2 ^ 16)
     (s.port 15).st.linked = true ∧ (s.port 15).bad = [] ∧ s.timeSt = 2 ∧ (s.port 15).markerOk = true ∧
     (p.stamp + s.rd F.FAB_PORT_PARALLAX.latency 15 0 + 2 ^ 16 - s.sidereal % 2 ^ 16) % 2 ^ 16 = 1) := by decide +kernel

/-- DISCOVER out and in, a stale neighbour, drain and resume notices, drained in order and by the time limit, packets, credits. -/
theorem witness_port_packets :
    (let s := atPort { Port.reset with st := .up, discDue := true, nbrAt := some 1000, creditDue := true }
     let t := { s with cycle := 1000 + 2097152 }
     (s.port 15).st.linked = true ∧ (s.port 15).discDue = true ∧ (t.port 15).nbrAt = some 1000 ∧ 1000 + 2097152 ≤ t.cycle ∧
     (s.port 15).creditDue = true) ∧
    (∀ op ∈ [0, 1, 2], (upWith [mPkt op 0 (List.replicate 16 1)]).AtHead 15 (mPkt op 0 (List.replicate 16 1)) [] ∧
      (mPkt op 0 (List.replicate 16 1)).op = op) ∧
    (let s := atPort { Port.reset with st := .drained, rxM := [mPkt 3 0 []] }
     s.AtHead 15 (mPkt 3 0 []) [] ∧ (mPkt 3 0 []).op = 3 ∧ (s.port 15).st = .drained) ∧
    (let s := atPort { Port.reset with st := .up, drainAt := some 980000, noticeOut := true, noticeIn := true }
     (s.port 15).st = .up ∧ (s.port 15).drainAt = some 980000 ∧ (s.port 15).noticeOut = true ∧ (s.port 15).noticeIn = true ∧
     (s.port 15).txC = [] ∧ (s.port 15).txM = [] ∧ (s.port 15).elastic = [] ∧ (s.port 15).rxM = [] ∧ (s.port 15).building = 0 ∧ s.routeQ = [] ∧ 980000 + 20000 ≤ s.cycle) ∧
    (let s := atPort { Port.reset with st := .up, txC := [fPkt 1 1 0], txM := [mPkt 4 0 []] }
     let t := atPort { Port.reset with st := .up, txC := [fPkt 1 1 0], sentC := 64 }
     (s.port 15).drainAt = none ∧ (s.port 15).creditsC ≠ 0 ∧ (s.port 15).creditsM ≠ 0 ∧ (t.port 15).creditsC = 0) := by
  unfold State.AtHead; decide +kernel

/-- A codeword that 15 symbols leave correctable and 16 do not, a packet that began in an earlier codeword, and a reply to a probe. -/
theorem witness_link_layer :
    (List.range 15).Nodup ∧ (∀ e ∈ List.range 16, e < 544) ∧ (List.range 16).length = 16 ∧ (fPkt 1 1 0).crc ≠ (fPkt 1 1 0).crc + 1 ∧
    (let p : Port := { Port.reset with st := .up, part := some (true, some 4999990), probes := [(4997120, 63000000)] }
     ((atPort p).port 15).part.any (·.1) = true ∧ (p.part.bind (·.2)).getD 5000000 = 4999990 ∧ p.trip 64000000 (some (4997120, 1000)) = some 999000) ∧
    ((atPort { Port.reset with st := .parallax, probes := [(4997120, 63000000)], trips := 255 }).port 15).trips < 256 := by decide +kernel

/-- Time: a child of port 15 in a state, with a good marker of that port's. -/
def child (time : Nat) (st : ModState) : State :=
  ({ atPort { Port.reset with st := .up, markerAt := some (1000000 - 61440), markerOk := true } with
    st := st, freqPort := some 15, holdAt := some 1000 } : State).wr F.GLB_TIME_CFG.role 0 0 2 |>.wr F.GLB_TIME_CFG.parent 0 0 15
    |>.wr F.GLB_TIME_STATUS.state 0 0 time |>.wr F.GLB_TIME_STATUS.active_parent 0 0 15

theorem witness_time :
    (child 1 .ready).timeSt = 1 ∧ (child 1 .ready).markerGood ((child 1 .ready).rd F.GLB_TIME_CFG.parent 0 0) = true ∧
    (child 1 .ready).startPending = false ∧ ((child 1 .ready).port 15).st.linked = true ∧ (child 1 .ready).role = 2 ∧
    15 = (child 1 .ready).rd F.GLB_TIME_CFG.parent 0 0 ∧ (child 1 .ready).freqPort = some 15 ∧ (child 1 .ready).inJob = false ∧
    (child 2 .running).timeSt = 2 ∧ 15 = (child 2 .running).rd F.GLB_TIME_STATUS.active_parent 0 0 ∧ (child 2 .running).rd F.RST_FENCE.module 0 0 = 0 ∧
    (child 2 .running).st ≠ .ready ∧ (child 2 .running).st ≠ .joined ∧
    64 * ((child 2 .running).sidereal : Int) + (child 2 .running).phase + 0 - ((64 * 4999990 + 9 * 64 : Nat) : Int) = 64 ∧
    (((child 2 .running).port 15).trip (64 * (child 2 .running).cycle) none).elim (9 * 64) (fun d => d / 2 % 2 ^ 19) = 9 * 64 ∧
    (child 3 .running).timeSt = 3 ∧ (child 3 .running).markerGood ((child 3 .running).rd F.GLB_TIME_CFG.parent 0 0) = true ∧
    ((child 2 .running).port ((child 2 .running).rd F.GLB_TIME_STATUS.active_parent 0 0)).markerAt = some (1000000 - 61440) ∧
    1000000 - 61440 + 61440 ≤ (child 2 .running).cycle ∧
    (let s := { child 3 .running with cycle := 1000 + 20000000 }; s.timeSt = 3 ∧ s.holdAt = some 1000 ∧ 1000 + 20000000 ≤ s.cycle) := by
  decide +kernel

/-- Identity and tables: an entry of RTE_ROUTE that names port 15, with the port UP and DOWN. -/
theorem witness_identity :
    (let s := { inSt .up with st := .ready }
     s.st = .ready ∧ (s.port 15).st.linked = true ∧ s.rd F.RTE_SELF.eid_valid 0 0 = 0 ∧
     (s.wr F.RTE_SELF.eid_valid 0 0 1).rd F.RTE_SELF.eid_valid 0 0 = 1 ∧ ({ s with st := .joined } : State).st = .joined ∧
     Reg.RTE_ROUTE.place.count = 4096 ∧
     (∃ n ∈ changedPorts 0 (s.regWord .RTE_ROUTE 0 4095).toNat
       (({ s with regs := s.regs.store .RTE_ROUTE 0 4095 s.cycle (.full 0x800F) } : State).regWord .RTE_ROUTE 0 4095).toNat, (s.port n).st = .up) ∧
     (let t := { inSt .down with st := .ready }
      ∀ n ∈ changedPorts 0 (t.regWord .RTE_ROUTE 0 4095).toNat
       (({ t with regs := t.regs.store .RTE_ROUTE 0 4095 t.cycle (.full 0x800F) } : State).regWord .RTE_ROUTE 0 4095).toNat, (t.port n).st ≠ .up)) := by
  decide +kernel

/-- EID 9 is reached by port 15. -/
def routed (p : Port) (dst15 : Nat) : State := ((atPort p).wr F.RTE_ROUTE.entry1 0 2 (0x8000 + dst15)).wr F.GLB_JOB.job 0 0 5

/-- A flit of tile 2303's row for EID 9. -/
def taken (z line : Nat) : Taken := ⟨z, 42, eoHdr 47 42 9 2303 line 0 0, 7, none⟩
def building : Build := ⟨999990, 999999, eoHdr 47 42 9 2303 10 0 0, fPkt 0 1 0, false, false⟩

theorem witness_edge_flits :
    (let s := routed { Port.reset with st := .up, taken := [taken 1000000 11] } 15
     (s.port 15).taken = [taken 1000000 11] ∧ entryValid (s.route (eoEid (taken 1000000 11).hdr)) = true ∧
     entryKind (s.route (eoEid (taken 1000000 11).hdr)) = 0 ∧ entryTarget (s.route (eoEid (taken 1000000 11).hdr)) % 16 = 15 ∧
     (s.port 15).build.find 42 = none ∧ s.sendPoint 15 (s.sidereal + 1000000 - s.cycle) = 0 ∧ s.st ≠ .fenced) ∧
    (((routed { Port.reset with st := .down, taken := [taken 1000000 11] } 15).port 15).st ≠ .up) ∧
    (let s := routed { Port.reset with st := .up, taken := [taken 1000000 11], build := Tab.empty.set 42 building } 15
     (s.port 15).build.find 42 = some building ∧ building.joins (taken 1000000 11) = true ∧ building.s + 4 ≤ s.cycle ∧ building.dead = false) ∧
    ((routed { Port.reset with st := .up, build := Tab.empty.set 42 building } 15).port 15).taken = [] := by decide +kernel

theorem witness_delivery :
    (let p := fPkt 0 1 (2303 * 2 ^ 16 + 32767 * 2 ^ 28)
     let s := (routed { Port.reset with st := .up, elastic := [⟨5000000, p⟩] } 14)
     (s.port 15).elastic = [⟨5000000, p⟩] ∧ 5000000 ≤ s.sidereal ∧ p.job = s.job ∧ p.cast = 0 ∧ p.tile = 2303 ∧ p.data.length = 16 * p.len ∧
     p.dst = (s.wr F.RTE_SELF.eid 0 0 9).eid ∧
     p.dst ≠ s.eid ∧ s.portTo p.dst = some 14 ∧ sameDie 15 14 = true ∧ p.hops ≠ 0 ∧
     ({ s with ports := s.ports.set 14 { Port.reset with st := .up } } : State).sendPoint 14 (5000000 + 8) = 0 ∧
     p.job ≠ (s.wr F.GLB_JOB.job 0 0 6).job) := by decide +kernel

/-- A control packet that came by port 15. -/
def item (p : FPkt) : RouteItem := ⟨1, 42, some 15, p⟩

theorem witness_control_routes :
    (let s := { routed { Port.reset with st := .up } 14 with routeQ := [item (fPkt 1 1 2303)] }
     let t := s.wr F.RTE_SELF.eid 0 0 9
     s.routeQ = [item (fPkt 1 1 2303)] ∧ t.routeQ = [item (fPkt 1 1 2303)] ∧ s.st ≠ .fenced ∧ (fPkt 1 1 2303).dst = t.eid ∧
     (fPkt 1 1 2303).cTile < 2304 ∧ (fPkt 1 1 2303).op = 1 ∧ (fPkt 1 1 2303).frag = 0 ∧
     ({ fPkt 1 1 2303 with lo := (fPkt 1 1 2303).lo + 0x1000000000000000#64 } : FPkt).op = 2 ∧
     (fPkt 1 1 2303).dst ≠ s.eid ∧ (fPkt 1 1 2303).hops ≠ 0 ∧ (fPkt 1 0 2303).hops = 0 ∧ s.portTo (fPkt 1 1 2303).dst = some 14 ∧ 14 / 8 = (item (fPkt 1 1 2303)).x ∧
     (let u : State := { s with ports := s.ports.set 14 { Port.reset with st := .up } }; (u.port 14).st = .up ∧ (u.port 14).drainAt = none) ∧
     (let v := s.wr F.RTE_ROUTE.entry1 0 2 0x8003; v.portTo (fPkt 1 1 2303).dst = some 3 ∧ 3 / 8 ≠ (item (fPkt 1 1 2303)).x) ∧
     (onJob.portTo 9 = none)) := by decide +kernel

/-- Fragments: a whole message of 64 bytes; the two of a message of 260, the second there or the first, at a port's queue, and put together. -/
theorem witness_fragments :
    (let w := fPkt 1 1 (2303 + 64 * 2 ^ 36); let f := fPkt 1 1 (2303 + 260 * 2 ^ 36); let l := fPkt 1 1 (2303 + 260 * 2 ^ 36 + 2 ^ 49)
     let m : Reasm := ⟨1, 15, 900000, f.lo, f.hi, [(0, f.data)]⟩
     w.fragments = 1 ∧ w.frag = 0 ∧ (bits w.hi.toNat 36 13 + 255) / 256 = 1 ∧ f.fragments = 2 ∧ (bits f.hi.toNat 36 13 + 255) / 256 = 2 ∧
     f.frag = 0 ∧ l.frag = 1 ∧ ofMessage m (item l) ∧ (∀ p ∈ m.parts, p.1 ≠ l.frag) ∧
     (∀ k, k < 2 → (k, [f.data, l.data].getD k []) ∈ m.parts ++ [(l.frag, l.data)]) ∧ (m.parts.map (·.1)).Nodup ∧
     (item f).sameMessage { item l with pkt := l } = true ∧
     (let s : State := { onJob with frags := [item l], reasm := [m], gather := [item f] }
      s.frags = [item l] ∧ s.reasm[0]? = some m ∧ m.first + 100000 ≤ s.cycle)) ∧
    (let f := fPkt 1 1 (2303 + 4096 * 2 ^ 36); let l := fPkt 1 1 (2303 + 4096 * 2 ^ 36 + 2 ^ 49)
     let m : Reasm := ⟨1, 15, 900000, f.lo, f.hi, [(0, f.data)]⟩
     ofMessage m (item l) ∧ (bits l.hi.toNat 36 13 + 255) / 256 = 16 ∧ l.frag + 1 < l.fragments ∧ l.frag ≠ 0 ∧ (∀ p ∈ m.parts, p.1 ≠ 15)) := by
  unfold ofMessage; decide +kernel

/-- Packets that a group cast, the mirror port, another job, a missing route and a FENCED module meet at their delivery cycle. -/
def delivers (p : FPkt) (dst15 : Nat) : State :=
  { routed { Port.reset with st := .up, elastic := [⟨5000000, p⟩] } dst15 with bootReady := false }
def castPkt (cast hops : Nat) : FPkt := { fPkt 0 hops (2303 * 2 ^ 16) with lo := setBits (fPkt 0 hops 0).lo 2 2 cast }

theorem witness_group_delivery :
    (∀ cast ∈ [1, 2], (castPkt cast 1).cast = cast ∧ (castPkt cast 1).dst % 256 = 9 ∧ (castPkt cast 1).job = 5 ∧ (castPkt cast 1).tile = 2303 ∧
      (castPkt cast 1).src ≠ (delivers (castPkt cast 1) 14).eid) ∧
    (let s := (delivers (castPkt 1 1) 14).wr F.RTE_ROW.valid 0 9 1 |>.wr F.RTE_ROW.local 0 9 1
     s.rd F.RTE_ROW.valid 0 9 = 1 ∧ s.rd F.RTE_ROW.local 0 9 = 1 ∧ s.rd F.RTE_ROW.out_mask 0 9 = 0 ∧
     (s.wr F.RTE_ROW.local 0 9 0).rd F.RTE_ROW.local 0 9 = 0 ∧ (s.wr F.RTE_ROW.out_mask 0 9 (2 ^ 14)).rd F.RTE_ROW.out_mask 0 9 = 2 ^ 14) ∧
    (let s := (delivers (castPkt 2 1) 14).wr F.RTE_COL.valid 0 9 1 |>.wr F.RTE_COL.local 0 9 1
     s.rd F.RTE_COL.valid 0 9 = 1 ∧ s.rd F.RTE_COL.local 0 9 = 1 ∧ s.rd F.RTE_COL.out_mask 0 9 = 0) ∧
    (let s := delivers (castPkt 0 0) 7
     (castPkt 0 0).cast = 0 ∧ s.portTo (castPkt 0 0).dst = some 7 ∧ 7 = mirrorOf 15 ∧ (castPkt 0 0).hops = 0 ∧ (castPkt 0 0).job = s.job ∧
     (castPkt 0 0).dst ≠ s.eid ∧ s.st ≠ .fenced ∧ ({ s with st := .fenced } : State).st = .fenced ∧
     (s.wr F.RTE_ROUTE.entry1 0 2 0).portTo (castPkt 0 0).dst = none) := by decide +kernel

/-- A packet between port dies taken up, no route for a flit, a send point in use, a FENCED module, and a port that drains. -/
theorem witness_edge_rest :
    (let q := fPkt 0 3 0
     let k : Taken := { taken 1000000 11 with fwd := some (q.lo, q.hi) }
     let s := routed { Port.reset with st := .up, taken := [k] } 15
     k.fwd = some (q.lo, q.hi) ∧ FPkt.cast ⟨q.lo, q.hi, []⟩ = 0 ∧ s.portTo (FPkt.dst ⟨q.lo, q.hi, []⟩) = some 15) ∧
    entryValid ((atPort { Port.reset with st := .up, taken := [taken 1000000 11] }).route 9) = false ∧
    (let s := routed { Port.reset with st := .up, taken := [taken 1000000 11], pts := [5000000] } 15
     5000000 ∈ (s.port 15).pts ∧ (s.port 15).open_ = true ∧ s.maintWindow 15 ≤ 5000000 % 20480 ∧ 5000000 % 20480 ≤ 20477) ∧
    (let s := routed { Port.reset with st := .up, drainAt := some 999999, build := Tab.empty.set 42 building } 15
     (s.port 15).build = Tab.empty.set 42 building ∧ (s.port 15).open_ = false ∧ building.dead = false) := by decide +kernel

/-! ### Witnesses: the host, mailboxes and firmware -/

/-- APR segment 0 mapped to LPDDR 0, segment 1 to scratchpads, segment 2 unmapped; every channel of the map in service. -/
def mapped : State :=
  ((onJob.wr F.OBS_APR_SEG.space 0 2 0).wr F.OBS_APR_SEG.space 0 1 2).wr F.MEM_GLB_ENABLE_LO.enable 0 0 (2 ^ 64 - 1)

/-- A read over a line boundary up to a 4 KiB boundary; a write of whole groups and one of part of a group; the last bytes of a
scratchpad; an unmapped segment. -/
theorem witness_bulk :
    aprOk 0xFC1 63 = true ∧ mapped.reachable = true ∧ mapped.ctlDead = false ∧ mapped.aprMap 0xFC1 63 = .lpddr 0xFC1 ∧
    aprOk 0x40 8 = true ∧ mapped.aprMap 0x40 8 = .lpddr 0x40 ∧ (0x40 % 64 + 8 ≤ 64 ∧ 0x40 % 8 = 0) ∧ mapped.aprMap 0x41 4 = .lpddr 0x41 ∧
    ¬ (0x41 % 8 = 0 ∧ 4 % 8 = 0) ∧
    aprOk (2 ^ 34 + 2303 * 2 ^ 21 + 0x17FF00) 256 = true ∧ mapped.aprMap (2 ^ 34 + 2303 * 2 ^ 21 + 0x17FF00) 256 = .scratch 2303 0x17FF00 ∧
    mapped.aprMap (2 ^ 34 + 2303 * 2 ^ 21 + 0x180000) 4 = .unmapped ∧ mapped.aprSpace (2 ^ 34 + 2303 * 2 ^ 21 + 0x180000) = 2 ∧
    aprOk (2 ^ 35 + 2 ^ 34 - 4) 4 = true ∧ mapped.aprMap (2 ^ 35 + 2 ^ 34 - 4) 4 = .unmapped ∧ mapped.aprSpace (2 ^ 35 + 2 ^ 34 - 4) ≠ 2 ∧ mapped.hostWriting = false := by
  decide +kernel

theorem witness_host_timeout :
    ∀ w : Bool, let r : HReq := ⟨7, 2, w, 0, 600000, [⟨9, none, 0, 4, [], false, false, []⟩], none⟩
      ({ onJob with host := [r] } : State).host = [r] ∧ r.ended = false ∧ r.at_ + 400000 ≤ onJob.cycle ∧ r.write = w := by decide +kernel

/-- Mailbox 31 free, held by the host, and held and posted. -/
def box (owner full : Nat) : State := (onJob.wr F.MBX_LOCK.owner 31 0 owner).wr F.MBX_FLAG.full 31 0 full

theorem witness_mailboxes :
    (box 0 0).mbxOk 1 31 = true ∧ (box 0 0).hostWriting = false ∧ (box 0 0).owner 31 = 0 ∧ (box 1 0).owner 31 = 1 ∧ (box 1 0).full 31 = false ∧
    (box 1 1).full 31 = true ∧ (box 1 1).owner 31 ≠ 2 ∧ (box 1 1).mbxOk 2 31 = true ∧ mbxSizeOk (31 * 0x1000 + 0xFC0) 64 = true ∧
    Mem.wf 0 (box 1 0).mbx = true ∧ (0x1F#64).toNat % 32 = 31 := by decide +kernel

theorem witness_reply_waits :
    (let r : Reply := ⟨⟨3, 1, 0, 1, 0, [], 0⟩, 0, List.replicate 4032 1⟩
     ({ onJob with replies := [r] } : State).replies = [r] ∧ ({ onJob with replies := [r] } : State).fwRuns = true ∧ r.body.length ≤ 4032 ∧
     onJob.owner 7 = 0 ∧ (onJob.wr F.MBX_LOCK.owner 7 0 1).owner 7 ≠ 0) := by decide +kernel

/-- A command of the host's stands posted in mailbox 3. -/
def offer (s : State) (sender code : Nat) (args : List Byte) : State :=
  ((((({ s with mbx := Mem.putBytes 0 [] 0x3040 args } : State).wr F.MBX_FLAG.full 3 0 1).wr F.MBX_LOCK.owner 3 0 sender).wr
    F.MBX_SENDER.sender 3 0 sender).wr F.MBX_CMD.code 3 0 code).wr F.MBX_CMD.length 3 0 args.length
def inState (st : ModState) : State := { onJob with st := st }

/-- The two premises of the statements about commands, as one check. -/
def meets (s : State) : Bool :=
  s.canTake 3 && s.owner 3 != 0x10 && Mem.wf 0 s.mbx &&
    (cmdInfo (s.posted 3).code).any (fun i => i.allows (s.posted 3).sender && decide (s.st ∈ i.legal) && !s.romRecovery && !s.heldUp (s.posted 3))

theorem meets_both (s : State) (h : meets s = true) : s.Offers 3 (s.posted 3) ∧ s.Legal (s.posted 3) := by
  unfold meets at h
  simp only [Bool.and_eq_true, bne_iff_ne, ne_eq] at h
  obtain ⟨⟨⟨h1, h2⟩, h3⟩, h4⟩ := h
  refine ⟨⟨by decide, h1, h2, h3, rfl⟩, ?_⟩
  cases e : cmdInfo (s.posted 3).code with
  | none => rw [e] at h4; cases h4
  | some i =>
    rw [e] at h4
    simp only [Option.any_some, Bool.and_eq_true, decide_eq_true_eq, Bool.not_eq_true'] at h4
    exact ⟨i, e, h4.1.1.1, h4.1.1.2, h4.1.2, h4.2⟩

def listArgs (kind : Nat) : List Byte := leBytes 4 0 ++ [62, BitVec.ofNat 8 kind] ++ List.replicate 10 0
def startArgs (job start : Nat) : List Byte := leBytes 2 job ++ List.replicate 6 0 ++ leBytes 8 start
def domArgs_ (d i : Nat) : List Byte := [BitVec.ofNat 8 d, 0] ++ leBytes 2 i ++ List.replicate 12 0
def selectArgs (b : Nat) : List Byte := BitVec.ofNat 8 b :: List.replicate 15 0
/-- A first and last chunk of 16 bytes at the end of a region. -/
def chunkArgs (what flags off : Nat) : List Byte :=
  [BitVec.ofNat 8 what, BitVec.ofNat 8 flags, 0, 0] ++ leBytes 4 off ++ List.replicate 8 0 ++ List.replicate 16 9

/-- One command of every kind that a statement speaks of, posted in a state in which it is legal. -/
def offers : List State :=
  [offer (inState .ready) 1 0x01 [], offer (inState .ready) 1 0x50 (listArgs 0), offer (inState .ready) 1 0x50 (listArgs 1),
   offer (inState .ready) 1 0x51 (listArgs 0), offer (inState .joined) 1 0x11 [], offer (inState .held) 1 0x12 [],
   offer (inState .held) 1 0x20 (selectArgs 0), offer (inState .held) 1 0x20 (selectArgs 1), offer (inState .held) 1 0x20 (selectArgs 2),
   offer (inState .ready) 1 0x21 (chunkArgs 1 3 0xFFFF0), offer (inState .ready) 1 0x22 (chunkArgs 0 3 0xFFFFF0), offer (inState .ready) 1 0x22 [1],
   offer (inState .held) 1 0x22 [1],
   offer (inState .ready) 1 0x41 (chunkArgs 0 2 0x1FFFFF0), offer (inState .joined) 1 0x10 (startArgs 4095 5200000),
   offer (inState .joined) 1 0x30 (domArgs_ 1 2303), offer (inState .joined) 1 0x30 (domArgs_ 2 3), offer (inState .joined) 1 0x30 (domArgs_ 3 95),
   offer (inState .joined) 1 0x30 (domArgs_ 4 15), offer (inState .joined) 1 0x30 (domArgs_ 5 0), offer (inState .joined) 1 0x30 (domArgs_ 6 0),
   offer (inState .joined) 1 0x31 (domArgs_ 1 2303), offer (inState .joined) 1 0x31 (domArgs_ 2 3), offer (inState .joined) 1 0x31 (domArgs_ 3 95),
   offer (inState .joined) 1 0x31 (domArgs_ 6 0), offer (inState .fenced) 1 0x32 [],
   offer (inState .ready) 1 0x40 ([2, 2] ++ leBytes 2 2303 ++ List.replicate 12 0), offer (inState .joined) 1 0x60 (List.replicate 32 0),
   offer (inState .joined) 1 0x61 (List.replicate 80 0)]

theorem witness_offers : ∀ s ∈ offers, s.Offers 3 (s.posted 3) ∧ s.Legal (s.posted 3) := by
  intro s hs
  refine meets_both s ?_
  have h : ∀ s ∈ offers, meets s = true := by decide +kernel
  exact h s hs

/-- Refused commands: an unknown code; a sender that may not; a payload where there is none; a state outside the row's; and FENCE past its
bound. -/
theorem witness_refused_commands :
    (let s := offer (inState .ready) 1 0xFF []
     s.canTake 3 = true ∧ s.owner 3 ≠ 0x10 ∧ cmdInfo (s.posted 3).code = none) ∧
    (let s := offer (inState .ready) 2 0x11 []
     s.canTake 3 = true ∧ (cmdInfo (s.posted 3).code).any (fun i => !i.allows (s.posted 3).sender) = true) ∧
    ((offer (inState .ready) 1 0x01 [1]).posted 3).len ≠ 0 ∧
    (let s := offer (inState .running) 1 0x11 []
     (s.posted 3).len = 0 ∧ (cmdInfo (s.posted 3).code).any (fun i => i.allows (s.posted 3).sender && decide (s.st ∉ i.legal)) = true ∧
     s.romRecovery = false) ∧
    (let p : Prog := ⟨⟨3, 0x31, 0, 1, 16, domArgs_ 2 3, 1000⟩, .fence 2 3⟩
     let s : State := { onJob with prog := [p], cycle := 1000 + 2000000 }
     s.prog = [p] ∧ (cmdInfo p.cmd.code).any (fun i => decide (p.cmd.taken + i.bound ≤ s.cycle)) = true ∧ s.owner (p.cmd.k + 4) = 0) := by
  decide +kernel

/-- A flash that holds the delivered bank A alone. -/
def bankA : Mem := Mem.putBytes 0xFF [] 0x00400000 deliveredBank

theorem witness_banks :
    ({ inState .held with flash := bankA } : State).bankFail 0 = 0 ∧ ({ inState .held with flash := bankA } : State).bankFail 1 ≠ 0 ∧
    ({ inState .held with flash := bankA } : State).bankReady = true ∧ ({ inState .held with flash := [] } : State).bankReady = false ∧
    Mem.wf 0xFF bankA = true := by decide +kernel

theorem witness_chunks :
    (let c := (offer (inState .ready) 1 0x21 (chunkArgs 1 3 0xFFFF0)).posted 3
     c.num 0 1 = 1 ∧ 1 ≠ onJob.activeBank ∧ chunkShape c 0x100000 = true ∧ onJob.chunkHits 1 c = false ∧ c.last = true ∧ c.first = true) ∧
    (let c := (offer (inState .ready) 1 0x22 (chunkArgs 0 3 0xFFFFF0)).posted 3
     c.num 0 1 = 0 ∧ 1 - onJob.rd F.SEC_BOOT_STATUS.slot 0 0 = 1 ∧ chunkShape c 0x1000000 = true ∧ onJob.chunkHits 3 c = false) ∧
    (let c := (offer (inState .ready) 1 0x41 (chunkArgs 0 2 0x1FFFFF0)).posted 3
     c.num 0 1 = 0 ∧ 1 - onJob.rd F.ERR_CONTENT.slot 0 0 = 1 ∧ chunkShape c 0x2000000 = true ∧ c.first = false ∨ c.last = false) ∧
    ((offer (inState .ready) 1 0x22 [1]).posted 3).num 0 1 = 1 ∧ (offer (inState .held) 1 0x22 [1]).st ≠ .ready := by decide +kernel

/-- The first start cycle that START accepts; a tree, the time, a place that refuse it. -/
theorem witness_start :
    (let s := offer (inState .joined) 1 0x10 (startArgs 4095 5200000)
     let c := s.posted 3
     c.len = 16 ∧ c.num 0 2 = 4095 ∧ c.zero 2 7 = true ∧ s.sidereal + 200000 = c.num 8 8 ∧ s.timeSt ≠ 1 ∧ s.timeSt ≠ 3 ∧ s.timeSt ≠ 4 ∧
     s.holding = false ∧ s.level = 0 ∧ s.startPending = false ∧ s.treesOk = true ∧ s.channelsOk = true ∧ s.placeOk = true) ∧
    (let s := { inState .joined with tiles := Tab.empty.set 5 (({ Tile.reset with st := .idle }.wr F.TIL_ENTRY.release 0 1).wr F.TIL_PUL_BAR.enable 0 1 |>.wr
        F.TIL_PUL_BAR.parent 0 3) }
     s.treesOk = false) ∧
    ((inState .joined).wr F.RTE_PLACE_NEED.check 0 0 1 |>.wr F.RTE_PLACE_GEN.dist_gen 0 0 7).placeOk = false ∧
    ((inState .joined).wr F.GLB_TIME_STATUS.state 0 0 3).timeSt = 3 := by decide +kernel

/-- The start cycle of a module with one released tile; a drain, quiet or not, and at its time limit. -/
theorem witness_job :
    (let s := ({ inState .joined with tiles := Tab.empty.set 2303 ({ Tile.reset with st := .idle }.wr F.TIL_ENTRY.release 0 1) } : State).wr
       F.GLB_MODULE_STATE.start_pending 0 0 1 |>.wr F.GLB_START.start 0 0 5000000
     s.startPending = true ∧ s.rd F.GLB_START.start 0 0 ≤ s.sidereal ∧ s.released = [2303] ∧ (s.seen 2303).st = .idle ∧ s.st = .joined ∧
     ({ s with st := .held } : State).st ≠ .joined) ∧
    (onJob.allStopped = true ∧ onJob.jobFenced = false ∧ ({ onJob with jobFenced := true } : State).jobFenced = true) ∧
    ((inState .draining).quiet = true ∧ ({ inState .draining with lastS := 999999 } : State).quiet = false ∧
     ({ inState .draining with drainBegan := 5, cycle := 2000005 } : State).drainBegan + 2000000 ≤ 2000005) ∧
    onJob.rd F.RST_FENCE.module 0 0 = 0 ∧ onJob.st ≠ .dark := by decide +kernel

/-! ### Witnesses: resets, eclipses, records, tests -/

/-- What the RESET and FENCE commands of `offers` name, and the states of their units. -/
theorem witness_domains :
    (∀ e ∈ [(1, 2303), (2, 3), (3, 95), (4, 15), (5, 0), (6, 0)], (let c := (offer (inState .joined) 1 0x30 (domArgs_ e.1 e.2)).posted 3
      c.len = 16 ∧ c.num 0 1 = e.1 ∧ c.num 2 2 = e.2 ∧ e.2 < domUnits e.1 ∧ c.zero 1 1 = true ∧ c.zero 4 15 = true)) ∧
    ((inState .joined).resets = [] ∧ (inState .joined).rd F.ERR_CTRL.history_mode 0 0 = 0 ∧ (inState .joined).startPending = false ∧
     (inState .joined).conj = none ∧ (inState .joined).adopt = none) ∧
    (let t : State := { inState .joined with tiles := Tab.empty.set 2303 { Tile.reset with st := .idle } }
     (t.tile 2303).st = .idle ∧ (t.tile 2303).goAt = none ∧ t.eclipsed 1 2303 = false ∧ (t.seen 2303).st = .idle) ∧
    ((inState .joined).tile 2303).st ≠ .idle ∧ ((inState .joined).tile 2303).st ≠ .fenced ∧
    (let t : State := { inState .joined with chans := Tab.empty.set 95 opens }
     (t.chan 95).rd F.MEM_CAL_CTRL.enable 0 = 0 ∧ (t.chan 95).rd F.MEM_CH_STATE.train_fail 0 = 0 ∧ (t.chan 95).st = .active ∧ t.eclipsed 3 95 = false) ∧
    ((inSt .down).port 15).st ≠ .up ∧ ((inSt .up).port 15).st = .up ∧
    ({ inState .joined with ecl := [⟨2, 3, 5, false⟩] } : State).eclipsed 2 3 = true ∧ (inState .joined).eclipsed 2 3 = false ∧
    (inState .joined).eclipsed 6 0 = false ∧ (inState .joined).rd F.RST_FENCE.module 0 0 = 0 := by decide +kernel

/-- A reset of each domain in progress, begun so long ago that its bound has passed; the states its end asks for. -/
theorem witness_reset_ends :
    (∀ d ∈ [1, 3, 4, 6], let s : State := { inState .joined with resets := [⟨d, 0, 1000, some ⟨3, 0x30, 0, 1, 16, [], 900⟩, 0⟩], cycle := 400001000 }
      s.resets = [⟨d, 0, 1000, some ⟨3, 0x30, 0, 1, 16, [], 900⟩, 0⟩] ∧ s.owner 7 = 0 ∧ Mem.wf 0 s.mbx = true ∧ (s.tile 0).st = .offline ∧ s.ecl = [] ∧
      1000 + 400000000 ≤ s.cycle ∧ s.st ≠ .running ∧ s.st ≠ .draining ∧ s.startPending = false) ∧
    (({ inState .joined with chans := Tab.empty.set 0 { Chan.reset with st := .selfRefresh } } : State).chan 0).st = .selfRefresh := by decide +kernel

/-- Tile 2303 dead in the reset of its die, and its column still to change; another tile of the column still or not. -/
theorem witness_retire :
    (let s : State := { inState .ready with resets := [⟨2, tileDie 2303, 1000, none, 0⟩], cycle := 400001000 }
     s.mayRetire 2303 = true) ∧
    (let s : State := { inState .ready with pendingRemap := [2303] }
     s.pendingRemap = [2303] ∧ tileColumn 2303 = (3, 23, edgeRow (2303 / 48)) ∧ s.columnStill 3 23 = true ∧
     ({ s with tiles := Tab.empty.set 2255 { Tile.reset with st := .idle } } : State).columnStill 3 23 = false) := by decide +kernel

/-- The first failure of tile 2303's column, and a later one: the column's spare is in use, or a remap is due. -/
theorem witness_failures :
    (inState .ready).firstFailure 2303 = true ∧
    ({ inState .ready with pendingRemap := [2255] } : State).firstFailure 2303 = false ∧
    ({ inState .ready with skip := Tab.empty.set (3, 23) 4 } : State).firstFailure 2303 = false := by decide +kernel

theorem witness_eclipse_ends :
    (let s : State := { inState .fenced with ecl := [⟨6, 0, 800000, true⟩] }
     (∀ e ∈ s.ecl, e.dom = 6 → e.drained = true) ∧ s.rd F.ERR_CTRL.history_mode 0 0 = 0) ∧
    (let s : State := { inState .joined with ecl := [⟨2, 3, 800000, false⟩], prog := [⟨⟨3, 0x31, 0, 1, 16, [], 900⟩, .fence 2 3⟩] }
     s.ecl = [⟨2, 3, 800000, false⟩] ∧ 800000 + 200000 ≤ s.cycle ∧ s.prog = [⟨⟨3, 0x31, 0, 1, 16, [], 900⟩, .fence 2 3⟩] ∧ s.owner 7 = 0 ∧
     Mem.wf 0 s.mbx = true ∧ ({ s with cycle := 999999 } : State).cycle < 800000 + 200000) := by decide +kernel

/-- An error record, and an almanac entry of a transient fault. -/
def aRec (rept : Nat) : Rec := ⟨100, 0, 0x20, 9, 0, 95, 0, 0, 0, 0, 0, 1, 2, 3, 4, rept, 0, 1, 0, 0⟩
def anAlm : Alm := ⟨none, 1, 1, 1, 5, [0, 0, 0], 0x20, 0, 0, 0, 0⟩

/-- Two records of one Observatory cycle, of which the later by die comes after, and two of different cycles. -/
theorem witness_record_order :
    (let s : State := { onJob with recs := [aRec 0], logQ := [aRec 1], logNew := (250000, 1) }
     s.logNew.1 = s.cycle / 4 ∧ s.logQ.drop (s.logQ.length - min s.logNew.2 s.logQ.length) = [aRec 1] ∧
     (aRec 0).before { aRec 1 with die := 3 } = true ∧ { aRec 0 with die := 3 }.before (aRec 1) = false) ∧ onJob.logNew.1 ≠ onJob.cycle / 4 := by
  decide +kernel

theorem witness_records :
    (let s : State := { onJob with recs := [aRec 0], logQ := List.replicate 511 (aRec 0) }
     s.recs[0]? = some (aRec 0) ∧ s.recs.take 0 = [] ∧ s.logQ.length < 512 ∧
     512 ≤ ({ s with logQ := List.replicate 512 (aRec 0) } : State).logQ.length) ∧
    (let s : State := { onJob with logQ := [aRec 1] }
     s.logQ = [aRec 1] ∧ (∀ e ∈ s.log.reverse.take 64, (aRec 1).matches e = false) ∧ s.almQ.length < 1024) ∧
    (let s : State := { onJob with logQ := [aRec 0], log := [aRec 0] }
     (s.log.reverse.take 64).find? (Rec.matches (aRec 0)) = some (aRec 0)) ∧
    (let s : State := { onJob with chk := [5] }
     5 ∈ s.chk ∧ (s.wr F.ERR_CTRL.checksum_action 0 0 0).rd F.ERR_CTRL.checksum_action 0 0 = 0 ∧ s.rd F.ERR_CTRL.checksum_action 0 0 = 1) ∧
    (let s : State := { onJob with almQ := [anAlm] }
     s.almQ = [anAlm] ∧ s.almanac = [] ∧ 0 < almCap) ∧
    (let s : State := { onJob with almQ := [anAlm], almanac := [anAlm] }
     s.almanac.reverse.find? (Alm.merges anAlm) = some anAlm) := by decide +kernel

/-- Tile 0 RUNNING and due; tile 5 blocked on TRNS with a window; a tile in TRANSIT before and after its classification. -/
def inTransit (cls began : Nat) : State :=
  oneTile { tileAt 0 [] with st := .transit, transit := some ⟨.running, began, [], ⟨0, [], []⟩, cls, false⟩ }

theorem witness_transits :
    (let s := (({ onJob with tiles := Tab.empty.set 0 { Tile.reset with st := .running } } : State).wr F.ERR_CTRL.transit_en 0 0 1).wr
       F.ERR_TRANSIT_CFG.max_open 0 0 1 |>.wr F.ERR_TRANSIT_CFG.period 0 0 1
     (s.tile 0).vacant = false ∧ (s.tile 0).st = .running ∧ s.rd F.ERR_CTRL.transit_en 0 0 = 1 ∧ s.st ≠ .dark ∧ s.lastDue 0 = some 0 ∧
     s.dueAt.find 0 = none ∧ s.due = [] ∧ s.urgent = [] ∧ s.windows = [] ∧ s.saves = [] ∧ 1 ≤ s.rd F.ERR_TRANSIT_CFG.max_open 0 0) ∧
    (let s : State := { oneTile { tileAt 0 [] with seq := { (tileAt 0 []).seq with blk := some ⟨.transit, 1⟩, sinceCycle := 999999 } } with windows := [5] }
     (s.tile 5).st = .running ∧ (s.tile 5).seq.blk = some ⟨.transit, 1⟩ ∧ (s.tile 5).seq.sinceCycle < s.cycle ∧ 5 ∈ s.windows ∧
     (s.tile 5).slotsAll (fun x => x.st.atRest) = true ∧ (s.tile 5).fusedAll (fun x => !x.busy) = true) ∧
    (((inTransit 0 (1000000 - 128193)).tile 5).st = .transit ∧
     ((inTransit 0 (1000000 - 128193)).tile 5).transit = some ⟨.running, 1000000 - 128193, [], ⟨0, [], []⟩, 0, false⟩ ∧
     1000000 - 128193 + 128193 ≤ onJob.cycle) ∧
    (((inTransit 3 800000).tile 5).transit = some ⟨.running, 800000, [], ⟨0, [], []⟩, 3, false⟩ ∧ 800000 + 200000 ≤ (inTransit 3 800000).cycle ∧
     5 ∉ (inTransit 3 800000).due ∧ 5 ∉ (inTransit 3 800000).urgent) := by decide +kernel

/-- An IDLE tile that is due, and an urgent transit before its classification. -/
theorem witness_transits_more :
    (let s := (({ inState .joined with tiles := Tab.empty.set 0 { Tile.reset with st := .idle } } : State).wr F.ERR_CTRL.transit_en 0 0 1).wr
       F.ERR_TRANSIT_CFG.max_open 0 0 1 |>.wr F.ERR_TRANSIT_CFG.period 0 0 1
     (s.tile 0).st = .idle ∧ (s.tile 0).vacant = false ∧ s.lastDue 0 = some 0 ∧ s.startPending = false ∧ s.conj = none ∧ s.adopt = none ∧
     s.dueAt.find 0 = none ∧ s.rd F.ERR_CTRL.transit_en 0 0 = 1) ∧
    (let x : TransitSt := ⟨.running, 1000000 - 128193, [], ⟨0, [], []⟩, 0, true⟩
     let s := oneTile { tileAt 0 [] with st := .transit, transit := some x }
     (s.tile 5).transit = some x ∧ x.urgent = true ∧ x.cls = 0) := by decide +kernel

/-- The last region of tile 5: not begun; 64 cycles old; redirected; older than the interval. -/
theorem witness_background :
    (let s := (running 0 []).wr F.ERR_CTRL.bg_enable 0 0 1
     (s.tile 5).vacant = false ∧ (s.tile 5).st = .running ∧ s.rd F.ERR_CTRL.bg_enable 0 0 = 1 ∧ s.bg.find 5 = none ∧ s.bgAt.find 5 = none) ∧
    (let b : BgTest := ⟨383, 1000000 - 64, 64, false, none, false⟩
     let s : State := { running 0 [] with bg := Tab.empty.set 5 b }
     s.bg.find 5 = some b ∧ b.copied = 64 ∧ { b with copied := 63 }.copied ≠ 64 ∧ b.restored = none ∧ s.atomicPending 5 b.region = false ∧ (383 * 4096 + 4092) / 4096 = b.region ∧ (383 * 4096 + 4092) % 4 = 0 ∧
     (s.repairs ++ s.newRepairs).filter (fun r => r.1 == 5) = [] ∧ ({ b with redirected := true } : BgTest).held = false ∧
     bits (scratchWord (383 * 4096) 31).toNat 8 6 < 64) ∧
    (let b : BgTest := ⟨383, 0, 64, true, none, false⟩
     let s : State := ({ running 0 [] with bg := Tab.empty.set 5 b } : State).wr F.ERR_BG_CFG.interval 0 0 1000
     s.bg.find 5 = some b ∧ b.began + s.rd F.ERR_BG_CFG.interval 0 0 ≤ s.cycle) := by decide +kernel

/-- SELF_TEST of the one tile 2303, IDLE. -/
theorem witness_self_test :
    (let s := offer { inState .ready with tiles := Tab.empty.set 2303 { Tile.reset with st := .idle } } 1 0x40 ([2, 2] ++ leBytes 2 2303 ++ List.replicate 12 0)
     let c := s.posted 3
     c.code = 0x40 ∧ c.len = 16 ∧ c.num 0 1 = 2 ∧ c.num 1 1 = 2 ∧ c.num 2 2 = 2303 ∧ c.zero 4 15 = true ∧ s.startPending = false ∧
     (selfScope c).filter (fun t => (s.tile t).st == .idle && !(s.tile t).vacant) = [2303] ∧ (s.tile 2303).goAt = none ∧ (s.seen 2303).st = .idle ∧
     bits (c.num 0 1) 1 1 = 1 ∧ s.newRepairs = []) := by decide +kernel

/-- Tiles 5 and 6 wait for each other to take a message, as their copies of the publication records say. -/
def hung (found : Bool) : State :=
  let p (peer : Nat) : Pub := ⟨2 + peer * 2 ^ 10, 100, .running, false⟩
  (({ onJob with sidereal := 256 * 19531, pubs := (Tab.empty.set 5 (p 6)).set 6 (p 5), det := { State.reset.det with found := if found then [(5, 2, 100), (6, 2, 100)] else [] } } : State).wr
    F.RST_HANG_CFG.enable 0 0 1).wr F.RST_HANG_CFG.interval 0 0 1 |>.wr F.RST_HANG_CFG.all_threshold 0 0 0

theorem witness_hang :
    (hung true).rd F.RST_HANG_CFG.enable 0 0 = 1 ∧ (hung true).rd F.RST_HANG_CFG.interval 0 0 = 1 ∧ (hung true).sidereal % (1 * 256) = 0 ∧
    (hung true).sidereal ≠ (hung true).det.last ∧ (hung true).rd F.RST_HANG_CFG.all_threshold 0 0 = 0 ∧ (hung true).hungSet = [5, 6] ∧
    [5, 6].map (fun u => ((hung true).pub u).key u) = (hung true).det.found ∧ (hung true).det.told = [] ∧ (hung false).det.found = [] ∧
    ((hung true).wr F.RST_HANG_CFG.action 0 0 0).rd F.RST_HANG_CFG.action 0 0 = 0 ∧ (hung true).rd F.RST_HANG_CFG.action 0 0 = 1 ∧
    ({ hung true with pubs := .empty } : State).hungSet = [] := by decide +kernel

/-- A lattice's hang flag of tile 5 alone, and a module whose one RUNNING tile has waited on a counter for longer than the threshold, seen
once before. -/
def hangs (flag : Bool) : State :=
  let p : Pub := ⟨3, 100, .running, flag⟩
  (({ oneTile (tileAt 0 []) with sidereal := 256 * 19531, pubs := Tab.empty.set 5 p, det := { State.reset.det with all := [p.key 5] } } : State).wr
    F.RST_HANG_CFG.enable 0 0 1).wr F.RST_HANG_CFG.interval 0 0 1

theorem witness_hang_rest :
    (let s := (hangs true).wr F.RST_HANG_CFG.action 0 0 0 |>.wr F.RST_HANG_CFG.all_threshold 0 0 0
     (s.pub 5).hang = true ∧ s.hungSet = [] ∧ s.rd F.RST_HANG_CFG.all_threshold 0 0 = 0 ∧ s.rd F.RST_HANG_CFG.action 0 0 = 0 ∧ 5 ∉ s.det.lattice) ∧
    (let s := (hangs false).wr F.RST_HANG_CFG.action 0 0 0 |>.wr F.RST_HANG_CFG.all_threshold 0 0 1
     allTiles.filter (fun t => !(s.tile t).vacant && (s.pub t).st == .running) = [5] ∧ s.st = .running ∧ s.hungSet = [] ∧
     s.rd F.RST_HANG_CFG.all_threshold 0 0 = 1 ∧ (s.pub 5).kind = 3 ∧ 1 * 256 < (s.sidereal + 2 ^ 32 - (s.pub 5).since) % 2 ^ 32 ∧
     s.det.all = [(s.pub 5).key 5] ∧ s.det.toldAll = []) ∧
    (hung true).st = .running ∧ (hung true).ecl = [] := by decide +kernel

theorem witness_hang_lattice (t : Nat) : ((hung true).pub t).hang = false :=
  Tab.get_of_all (hung true).pubs (fun (z : Pub) => z.hang = false) ⟨0xD, 0, .offline, false⟩ (by decide +kernel) rfl t

/-! ### Witnesses: fleet, boot, power -/

/-- The module that a conjunction of 1,024 episodes with the partner of port 15 asks for, at the earliest start. -/
def conjBase : State :=
  ({ inSt .up with st := .joined } : State).wr F.FAB_PORT_NBR.serial 15 0 77 |>.wr F.GLB_TIME_CFG.role 0 0 1
def conjArgs_ : List Byte := [0, 15] ++ leBytes 2 1024 ++ List.replicate 4 0 ++ leBytes 8 77 ++ leBytes 8 5200000 ++ List.replicate 8 0
def aConj (running : Bool) : Conj := ⟨⟨3, 0x60, 0, 1, 32, [], 900⟩, 0, 15, 1024, 77, 1000, running, 0, 0, []⟩

theorem witness_conjunction :
    meets (offer conjBase 1 0x60 conjArgs_) = true ∧
    (let s := offer conjBase 1 0x60 conjArgs_; conjArgs (s.posted 3) s = 0 ∧ conjState (s.posted 3) s = 0 ∧ s.tainted = false) ∧
    (let s := offer (conjBase.wr F.GLB_TIME_CFG.role 0 0 0) 1 0x60 conjArgs_; conjArgs (s.posted 3) s = 0 ∧ conjState (s.posted 3) s = 1) ∧
    (conjBase.wr F.SEC_TAINT.scan_tainted 0 0 1).tainted = true ∧
    (let s : State := { conjBase with conj := some (aConj false), prog := [⟨(aConj false).cmd, .conjunction⟩] }
     s.conj = some (aConj false) ∧ (aConj false).start ≤ s.sidereal ∧ (s.port (aConj false).port).st = .up ∧
     s.prog = [⟨(aConj false).cmd, .conjunction⟩] ∧ s.owner ((aConj false).cmd.k + 4) = 0 ∧ Mem.wf 0 s.mbx = true ∧
     (({ s with ports := .empty } : State).port 15).st ≠ .up) := by decide +kernel

/-- The release of the last of 1,024 episodes, all matched. -/
theorem witness_conjunction_end :
    (let x : Conj := { aConj true with done := 1024 }
     let s : State := { conjBase with conj := some x, prog := [⟨x.cmd, .conjunction⟩] }
     (s.barReleaseIn 15).conj = some x ∧ x.running = true ∧ x.episodes ≤ x.done ∧ (s.barReleaseIn 15).prog = [⟨x.cmd, .conjunction⟩] ∧
     (s.barReleaseIn 15).owner (x.cmd.k + 4) = 0 ∧ Mem.wf 0 (s.barReleaseIn 15).mbx = true ∧
     x.start + 500000 * (1 + 2) ≤ ({ s with sidereal := 2000000 } : State).sidereal) := by decide +kernel

/-- ADOPT of 256 bytes at the earliest start: the spare takes EID 9 with the link of port 15, and the source's own. -/
def adoptBase : State :=
  (({ inSt .up with st := .joined } : State).wr F.RTE_FLEET_STATUS.proven 0 0 1).wr F.MEM_GLB_ENABLE_LO.enable 0 0 (2 ^ 64 - 1)
def adoptArgs_ (role : Nat) : List Byte :=
  [BitVec.ofNat 8 role, 15] ++ leBytes 2 9 ++ List.replicate 4 0 ++ leBytes 8 77 ++ leBytes 8 2405000000 ++ leBytes 8 0 ++ leBytes 8 0 ++ leBytes 8 256
    ++ (if role = 0 then List.replicate 30 0 ++ leBytes 2 64 else leBytes 2 4096 ++ List.replicate 30 0)

theorem witness_adopt :
    (∀ r ∈ [0, 1], let s := offer adoptBase 1 0x61 (adoptArgs_ r)
      meets s = true ∧ (s.posted 3).num 0 1 = r ∧ adoptArgs (s.posted 3) s = 0 ∧ adoptState (s.posted 3) s = 0 ∧ s.adopt = none ∧
      (let t : State := { s with tiles := Tab.empty.set 0 { Tile.reset with st := .fenced } }; adoptArgs (t.posted 3) t = 0 ∧ adoptState (t.posted 3) t = 1)) := by
  decide +kernel

/-- The spare at a step: EID 9, 64 bytes to copy, port 15 with latency 64. -/
def anAdopt (step attempt : Nat) (ready copying : Bool) : Adopt :=
  ⟨⟨3, 0x61, 0, 1, 80, [], 900⟩, 0, 15, 9, 77, 5400000, 0, 0, 64, List.replicate 15 0 ++ [64], step, ready, copying, attempt, 5000000, 0, 0⟩
def adopting (a : Adopt) (st : PortState) : State :=
  (({ inSt st with st := .joined, adopt := some a, prog := [⟨a.cmd, .adopt⟩] } : State).wr F.FAB_PORT_PARALLAX.latency 15 0 64).wr F.GLB_TIME_CFG.role 0 0 1

theorem witness_adopting :
    (∀ n, n < 16 → ((adopting (anAdopt 2 0 false false) .dark).port n).st = .dark) ∧
    (∀ n, n < 16 → ((adopting (anAdopt 2 0 false false) .down).port n).st ≠ .up) ∧ ((adopting (anAdopt 2 0 false false) .down).port 15).st ≠ .dark ∧
    (let s := adopting (anAdopt 4 0 false false) .up
     5400000 ≤ s.sidereal + 400000 ∧ s.role = 1 ∧ s.prog = [⟨(anAdopt 4 0 false false).cmd, .adopt⟩] ∧ s.owner 7 = 0 ∧ Mem.wf 0 s.mbx = true ∧
     ∀ n, n < 16 → (anAdopt 4 0 false false).lat.getD n 0 ≠ 0 → (s.port n).st = .up ∧ s.rd F.FAB_PORT_PARALLAX.latency n 0 = (anAdopt 4 0 false false).lat.getD n 0) ∧
    (let s := adopting (anAdopt 4 0 false false) .training
     (∃ n, n < 16 ∧ (anAdopt 4 0 false false).lat.getD n 0 ≠ 0 ∧ (s.port n).st ≠ .up) ∧ ∀ n, n < 16 → (s.port n).st ≠ .down) ∧
    (anAdopt 6 0 true false).next ≤ (adopting (anAdopt 6 0 true false) .up).sidereal ∧
    (let s := adopting (anAdopt 5 1 true true) .up
     s.copyDigest 0 64 = s.copyDigest 0 64 ∧ s.copyDigest 0 64 + 1 ≠ s.copyDigest 0 64 ∧ (anAdopt 5 1 true true).attempt < 3) ∧
    ((adopting (anAdopt 5 1 true true) .down).port (anAdopt 5 1 true true).port).st ≠ .up := by decide +kernel

/-- The ends of an adoption: a port still UP after its time; a source port dark, down and up; the third attempt; a partner gone stale, and no
copy packet for its time. -/
theorem witness_adoption_ends :
    (let s := { adopting (anAdopt 2 0 false false) .up with cycle := 2000900 }
     (s.port 15).st = .up ∧ (anAdopt 2 0 false false).cmd.taken + 2000000 ≤ s.cycle ∧ (anAdopt 2 0 false false).attempt = 0 ∧
     (adopting (anAdopt 2 0 false false) .up).cycle < (anAdopt 2 0 false false).cmd.taken + 2000000) ∧
    (let a : Adopt := { anAdopt 4 0 false false with role := 1 }
     a.role = 1 ∧ a.cmd.k = 3 ∧ a.ready = false ∧ (adopting a .dark).fwRuns = true ∧ ((adopting a .dark).port a.port).st = .dark ∧
     ((adopting a .down).port a.port).st = .down ∧ (adopting a .down).rd F.FAB_PORT_STATE.down_reason a.port 0 ≠ 4 ∧
     ((adopting a .up).port a.port).st = .up) ∧
    3 ≤ (anAdopt 5 3 true true).attempt ∧ (anAdopt 5 1 true true).step = 5 ∧
    (adopting (anAdopt 5 1 true true) .up).rd F.FAB_PORT_NBR_ID.fresh 15 0 = 0 ∧
    (anAdopt 5 1 true true).lastAt + 2000000 ≤ ({ adopting (anAdopt 5 1 true true) .up with cycle := 9000000 } : State).cycle ∧
    (let a : Adopt := { anAdopt 4 0 true false with role := 1 }; a.role ≠ 0 ∧ a.ready = true ∧ a.start = 5400000 ∧
      a.start ≤ ({ adopting a .down with sidereal := 5400000 } : State).sidereal) := by decide +kernel

/-- A key that has signed its last, and one that is lost. -/
theorem witness_exhausted_key :
    (let s := (inState .ready).wr F.SEC_KEY_STATUS.exhausted 0 0 1 |>.wr F.SEC_KEY_INDEX.next 0 0 1047552
     s.tainted = false ∧ s.rd F.SEC_KEY_STATUS.exhausted 0 0 = 1 ∧ s.rd F.SEC_KEY_STATUS.lost 0 0 = 0 ∧ s.rd F.SEC_KEY_INDEX.next 0 0 < 1048576 ∧
     (s.wr F.SEC_KEY_STATUS.lost 0 0 1).rd F.SEC_KEY_STATUS.lost 0 0 ≠ 0) := by decide +kernel

/-- The module as after reset may boot; with its flash erased it has no valid firmware. -/
theorem witness_boot :
    State.reset.mayBoot = true ∧ onJob.mayBoot = false ∧ State.reset.bootSlot = 0 ∧ State.reset.tiles = .empty ∧ State.reset.almanac = [] ∧
    ({ State.reset with flash := [] } : State).fwFail 0 ≠ 0 ∧ ({ State.reset with flash := [] } : State).fwFail 1 ≠ 0 ∧
    (inState .ready).spdmUp = true ∧ (inState .ready).tainted = false ∧ (inState .ready).rd F.SEC_KEY_STATUS.exhausted 0 0 = 0 ∧
    (inState .ready).rd F.SEC_KEY_INDEX.next 0 0 + 1 < 1047552 ∧ ((inState .ready).wr F.SEC_TAINT.scan_tainted 0 0 1).tainted = true ∧
    onJob.pwr.railsOn = true ∧ onJob.sec.scanAt = none ∧ (3 % 256 ≠ 255) ∧
    (let s : State := { onJob with sec := { onJob.sec with scanAt := some (1000000 - 40000) } }
     s.sec.scanAt = some (1000000 - 40000) ∧ 1000000 - 40000 + 40000 ≤ s.cycle ∧ s.rd F.RST_FENCE.module 0 0 = 0) := by decide +kernel

theorem witness_power :
    State.reset.pwr.perstN = true ∧ State.reset.pwr.railsOn = true ∧
    ({ State.reset with pwr := { Power.reset with perstN := false } } : State).pwr.perstN = false ∧
    (let p : Power := { Power.reset with railsOn := false }; p.railsOn = false ∧ p.latched = false ∧ p.senseAt = some 0 ∧ ({ p with senseAt := none } : Power).senseAt = none) ∧
    ((onJob.wr F.PWR_CLK.refclk_ok 0 0 1).rd F.PWR_CLK.refclk_ok 0 0 = 1 ∧ onJob.role ≠ 1 ∧ (onJob.wr F.GLB_TIME_CFG.role 0 0 1).role = 1 ∧ onJob.timeSt ≠ 4) ∧
    (onJob.wr F.PWR_CLK.refclk_ok 0 0 0).rd F.PWR_CLK.refclk_ok 0 0 = 0 ∧ onJob.reachable = true ∧ onJob.pwr.dead = false ∧
    (let s : State := { inState .ready with sidereal := 40000000, pwr := { Power.reset with emerg := [(1, 0)] } }
     s.sidereal % 2000000 = 0 ∧ s.sidereal / 2000000 ≠ s.pwr.lastMs ∧ s.holding = true ∧ s.scheduled = false) ∧
    (let s : State := ({ inState .ready with sidereal := 40000000 } : State).wr F.PWR_THROTTLE.level 0 0 15
     s.sidereal % 20000000 = 0 ∧ s.sidereal / 20000000 ≠ s.pwr.lastTenMs ∧ s.holding = false ∧ s.scheduled = false ∧ s.level = 15) := by decide +kernel

/-! ### Witnesses: the queue and the memories -/

theorem witness_pending : ({ State.reset with pending := [.tileRetire 5 false, .hangEvaluation] } : State).pending = .tileRetire 5 false :: [.hangEvaluation] := rfl

theorem witness_memories : State.reset.MemoriesOk :=
  ⟨rfl, by
    simp only [State.reset, deliveredFlash]
    exact Mem.putBytes_wf _ _ _ _ (Mem.putBytes_wf _ _ _ _ rfl)⟩

/-- The statement's other premise, at a concrete state: the step of the reset state, whose queue is empty, answers. -/
theorem witness_memories_step : ∃ s', step State.reset = .next s' := ⟨_, rfl⟩

/-- A read port that stream slot 3 has in cycle 7, in bank 0, which belongs to SEQ: data accesses come before it, those of a fused slot
after it; and an atomic in progress. -/
theorem witness_bank_ports :
    let g : Grant := ⟨0, false, 7, .slot 3, false, 0, []⟩
    let b : Tile := { Tile.reset with bank := { Tile.reset.bank with grants := [g], atoms := [⟨9, 16, [1, 2, 3, 4], .data, none, none⟩] } }
    BankUnit.data ∈ bankOrder (b.owner 7 0) ∧ BankUnit.fused 2 ∈ bankOrder (b.owner 7 0) ∧ BankUnit.load ∈ bankOrder (b.owner 7 2) ∧
    b.banksOf 4 8 = [0] ∧ b.grant? 7 0 true = none ∧ b.grant? 7 0 false = some g ∧ b.prio 7 0 .data < b.prio 7 0 g.by_ ∧
    ¬ b.prio 7 0 (.fused 2) < b.prio 7 0 g.by_ ∧ b.OneGrant ∧ b.grant? 8 0 false = none ∧ b.inAtomic 7 18 2 = true ∧
    BankUnit.cls .data ≠ .lnd ∧ BankUnit.cls .landing = .lnd := by
  unfold Tile.OneGrant; decide +kernel

end Sys2Proof.Tests
end

section
/-! The module after a cold reset (R16 to R18, R322, R380, R399). -/
namespace Sys2Proof.Machine

/-- Stores into one field leave every other field. -/
theorem RegFile.rd_foldl_wr_ne {α : Type} (l : List α) (f g : Fld) (i j v : α → Nat) (h : f.id ≠ g.id) (r : RegFile) (u k : Nat) :
    (l.foldl (fun r x => r.wr f (i x) (j x) (v x)) r).rd g u k = r.rd g u k := by
  induction l generalizing r with
  | nil => rfl
  | cons x xs ih =>
    rw [List.foldl_cons, ih, RegFile.rd_wr_ne _ _ (by simp [h])]

/-- The fields that `resetRegs` presets: fused values, and the segments of Table 11-17. -/
def presetFields : List Fld :=
  [F.RTE_SERIAL.serial, F.SEC_FUSE.programmed, F.PWR_CORE.setpoint, F.SEC_KEY_HASH.hash, F.OBS_APR_SEG.base, F.OBS_APR_SEG.space]

/-- A field that nothing presets reads as its Reset column. -/
theorem resetRegs_rd (g : Fld) (i j : Nat) (h : ∀ f ∈ presetFields, f.id ≠ g.id) : resetRegs.rd g i j = g.reset := by
  simp only [presetFields, List.forall_mem_cons, List.not_mem_nil, false_implies, implies_true, and_true] at h
  obtain ⟨hSerial, hProgrammed, hSetpoint, hHash, hBase, hSpace⟩ := h
  have segments (l : List Nat) (b c : Nat → Nat) (r : RegFile) :
      (l.foldl (fun r s => (r.wr F.OBS_APR_SEG.base 0 s (b s)).wr F.OBS_APR_SEG.space 0 s (c s)) r).rd g i j = r.rd g i j := by
    induction l generalizing r with
    | nil => rfl
    | cons x xs ih => rw [List.foldl_cons, ih, RegFile.rd_wr_ne _ _ (by simp [hSpace]), RegFile.rd_wr_ne _ _ (by simp [hBase])]
  unfold resetRegs
  rw [segments, RegFile.rd_foldl_wr_ne _ _ _ _ _ _ hHash, RegFile.rd_wr_ne _ _ (by simp [hSetpoint]),
    RegFile.rd_wr_ne _ _ (by simp [hProgrammed]), RegFile.rd_wr_ne _ _ (by simp [hSerial])]
  rfl

theorem State.reset_rd (g : Fld) (i j : Nat) (h : ∀ f ∈ presetFields, f.id ≠ g.id) : State.reset.rd g i j = g.reset :=
  resetRegs_rd g i j h

/-- The mailbox payloads are empty, and the delivered flash is erased but for what is written into it (log entry 4). -/
theorem State.reset_memoriesOk : State.reset.MemoriesOk :=
  ⟨rfl, by
    simp only [State.reset, deliveredFlash]
    exact Mem.putBytes_wf _ _ _ _ (Mem.putBytes_wf _ _ _ _ rfl)⟩

end Sys2Proof.Machine

namespace Sys2Proof.Proofs
open Sys2Proof.Machine

/-- Settles O59: every register that the statement reads has its Reset column's value, and the rest is `State.reset` itself. -/
theorem resetState : Obligations.ResetState := by
  unfold Obligations.ResetState
  refine ⟨rfl, rfl, State.reset_rd _ _ _ (by decide), ?pending, fun t => ⟨rfl, fun a => rfl⟩, fun n => rfl, fun k => ⟨?owner, ?full⟩,
    rfl, rfl, rfl, rfl, rfl, rfl, rfl, rfl, fun ch => rfl, rfl, State.reset_rd _ _ _ (by decide), State.reset_rd _ _ _ (by decide),
    State.reset_memoriesOk, rfl⟩
  case pending => rw [State.startPending, State.reset_rd _ _ _ (by decide)]; rfl
  case owner => exact State.reset_rd _ _ _ (by decide)
  case full => rw [State.full, State.reset_rd _ _ _ (by decide)]; rfl

end Sys2Proof.Proofs
end

section
/-! What a store into a register and the clearing that a read brings leave in each of its fields (R6, R7, R9, R10). -/
namespace Sys2Proof.Machine

/-! ### Folds that act on one element at a time -/

/-- A fold whose steps all keep a view keeps it. -/
theorem foldl_keeps {α β γ : Type} (step : β → α → β) (view : β → γ) (l : List α) (h : ∀ y ∈ l, ∀ b, view (step b y) = view b) (b : β) :
    view (l.foldl step b) = view b :=
  List.foldlRecOn l step (motive := fun c => view c = view b) rfl fun c hc y hy => (h y hy c).trans hc

/-- A fold over distinct elements of which `x` alone changes a view: the view after it is what the step at `x` makes of it. -/
theorem foldl_only_at {α β γ : Type} (step : β → α → β) (view : β → γ) (l : List α) (x : α) (hx : x ∈ l) (hn : l.Nodup)
    (h : ∀ y ∈ l, y ≠ x → ∀ b, view (step b y) = view b) (b : β) :
    ∃ c, view c = view b ∧ view (l.foldl step b) = view (step c x) := by
  obtain ⟨pre, post, rfl⟩ := List.append_of_mem hx
  obtain ⟨-, hrest, hpre⟩ := List.nodup_append.1 hn
  refine ⟨pre.foldl step b, foldl_keeps step view pre (fun y hy c => h y (by simp [hy]) (hpre y hy x (by simp)) c) b, ?_⟩
  rw [List.foldl_append, List.foldl_cons]
  refine foldl_keeps step view post (fun y hy c => h y (by simp [hy]) ?_ c) _
  rintro rfl
  exact (List.nodup_cons.1 hrest).1 hy

/-! ### Fields of a register -/

theorem Reg.fields_id_nodup (r : Reg) : (r.fields.map Fld.id).Nodup := by cases r <;> decide

theorem Reg.fields_nodup (r : Reg) : r.fields.Nodup := r.fields_id_nodup.of_map

theorem Reg.field_eq_of_id {r : Reg} {f g : Fld} (hf : f ∈ r.fields) (hg : g ∈ r.fields) (h : f.id = g.id) : f = g :=
  List.inj_on_of_nodup_map r.fields_id_nodup hf hg h

theorem Reg.again_mem {r : Reg} {a : Fld} (h : r.again = some a) : a ∈ r.fields := List.mem_of_find?_eq_some h

theorem Reg.again_acc {r : Reg} {a : Fld} (h : r.again = some a) : a.acc = .rc := by
  have := List.find?_some h
  simp only [Bool.and_eq_true, beq_iff_eq] at this
  exact this.2

/-! ### Stores -/

theorem RegFile.rd_addSat_ne (r : RegFile) {f g : Fld} {i j u k : Nat} (n : Nat) (h : (f.id, i, j) ≠ (g.id, u, k)) :
    (r.addSat f i j n).rd g u k = r.rd g u k := by
  unfold RegFile.addSat
  dsimp only
  split <;> exact RegFile.rd_wr_ne r _ h

theorem RegFile.rd_w1c_ne (r : RegFile) (again : Option Fld) {f g : Fld} {i j u k : Nat} (cycle m : Nat) (hf : (f.id, i, j) ≠ (g.id, u, k))
    (ha : ∀ x, again = some x → (x.id, i, j) ≠ (g.id, u, k)) : (r.w1c again f i j cycle m).rd g u k = r.rd g u k := by
  unfold RegFile.w1c
  dsimp only
  refine (RegFile.rd_wr_ne _ _ hf).trans ?_
  split
  · next x =>
    split
    · rfl
    · exact RegFile.rd_addSat_ne r _ (ha x rfl)
  · rfl

/-- What a store does at one field of the register. -/
def RegFile.storeField (reg : Reg) (i j cycle : Nat) (a : Access) (r : RegFile) (f : Fld) : RegFile :=
  if a.hits f = false then r
  else match f.acc with
    | .rw => if f.isReserved (a.val f) then r else r.wr f i j (a.val f)
    | .w1c => r.w1c reg.again f i j cycle (a.val f)
    | _ => r

theorem RegFile.store_eq_foldl (r : RegFile) (reg : Reg) (i j cycle : Nat) (a : Access) :
    r.store reg i j cycle a = reg.fields.foldl (RegFile.storeField reg i j cycle a) r := rfl

theorem RegFile.rd_storeField_ne (reg : Reg) (cycle : Nat) (a : Access) (r : RegFile) {f g : Fld} {i j u k : Nat}
    (hf : (f.id, i, j) ≠ (g.id, u, k)) (ha : ∀ x, reg.again = some x → (x.id, i, j) ≠ (g.id, u, k)) :
    (RegFile.storeField reg i j cycle a r f).rd g u k = r.rd g u k := by
  unfold RegFile.storeField
  split
  · rfl
  · split
    · split
      · rfl
      · exact RegFile.rd_wr_ne r _ hf
    · exact RegFile.rd_w1c_ne r _ _ _ hf ha
    · rfl

theorem Access.val_lt (a : Access) (f : Fld) : a.val f < 2 ^ f.width := Nat.mod_lt _ (Nat.two_pow_pos _)

theorem RegFile.rd_storeField_rw (reg : Reg) (i j cycle : Nat) (a : Access) (r : RegFile) {f : Fld} (h : f.acc = .rw) :
    (RegFile.storeField reg i j cycle a r f).rd f i j = a.new f (r.rd f i j) := by
  unfold RegFile.storeField Access.new
  cases hh : a.hits f
  · simp
  · cases hr : f.isReserved (a.val f) <;> simp [h, Nat.mod_eq_of_lt (a.val_lt f)]

theorem RegFile.storeField_ro (reg : Reg) (i j cycle : Nat) (a : Access) (r : RegFile) {f : Fld} (h : f.acc = .ro) :
    RegFile.storeField reg i j cycle a r f = r := by
  unfold RegFile.storeField
  rw [h]
  exact ite_self r

/-- The again_count field of a register is none of its RW and RO fields. -/
theorem Reg.again_id_ne {reg : Reg} {f : Fld} (hf : f ∈ reg.fields) (hrc : f.acc ≠ .rc) (i j : Nat) :
    ∀ x, reg.again = some x → (x.id, i, j) ≠ (f.id, i, j) := by
  intro x hx he
  have : x = f := Reg.field_eq_of_id (Reg.again_mem hx) hf (congrArg Prod.fst he)
  exact hrc (this ▸ Reg.again_acc hx)

/-- After a store, an RW or RO field reads as the store's step at that field leaves it. -/
theorem RegFile.rd_store_at (r : RegFile) (reg : Reg) (i j cycle : Nat) (a : Access) {f : Fld} (hf : f ∈ reg.fields) (hrc : f.acc ≠ .rc) :
    ∃ c : RegFile, c.rd f i j = r.rd f i j ∧ (r.store reg i j cycle a).rd f i j = (RegFile.storeField reg i j cycle a c f).rd f i j :=
  foldl_only_at _ (fun c : RegFile => c.rd f i j) reg.fields f hf reg.fields_nodup
    (fun _ hy hne c => RegFile.rd_storeField_ne reg cycle a c (fun he => hne (Reg.field_eq_of_id hy hf (congrArg Prod.fst he)))
      (Reg.again_id_ne hf hrc i j)) r

theorem RegFile.rd_store_rw (r : RegFile) (reg : Reg) (i j cycle : Nat) (a : Access) {f : Fld} (hf : f ∈ reg.fields) (h : f.acc = .rw) :
    (r.store reg i j cycle a).rd f i j = a.new f (r.rd f i j) := by
  obtain ⟨c, hc, hs⟩ := r.rd_store_at reg i j cycle a hf (by simp [h])
  rw [hs, RegFile.rd_storeField_rw reg i j cycle a c h, hc]

theorem RegFile.rd_store_ro (r : RegFile) (reg : Reg) (i j cycle : Nat) (a : Access) {f : Fld} (hf : f ∈ reg.fields) (h : f.acc = .ro) :
    (r.store reg i j cycle a).rd f i j = r.rd f i j := by
  obtain ⟨c, hc, hs⟩ := r.rd_store_at reg i j cycle a hf (by simp [h])
  rw [hs, RegFile.storeField_ro reg i j cycle a c h, hc]

/-- A store changes no field outside its register, unit and index. -/
theorem RegFile.rd_store_other (r : RegFile) (reg : Reg) (i j cycle : Nat) (a : Access) (g : Fld) (u k : Nat)
    (h : ∀ f ∈ reg.fields, (f.id, i, j) ≠ (g.id, u, k)) : (r.store reg i j cycle a).rd g u k = r.rd g u k :=
  foldl_keeps _ (fun c : RegFile => c.rd g u k) reg.fields
    (fun f hf c => RegFile.rd_storeField_ne reg cycle a c (h f hf) (fun x hx => h x (Reg.again_mem hx))) r

/-- Storing an access in a register is what `State.Stores` says. -/
theorem State.stores_store (s : State) (r : Reg) (i j cycle : Nat) (a : Access) :
    s.Stores { s with regs := s.regs.store r i j cycle a } r i j a :=
  ⟨rfl, fun _ hf h => s.regs.rd_store_rw r i j cycle a hf h, fun _ hf h => s.regs.rd_store_ro r i j cycle a hf h,
    s.regs.rd_store_other r i j cycle a⟩

/-- An access that reaches no RW field stores nothing. -/
theorem State.stores_self (s : State) (r : Reg) (i j : Nat) (a : Access) (h : ∀ f ∈ r.fields, f.acc = .rw → a.hits f = false) :
    s.Stores s r i j a :=
  ⟨rfl, fun f hf hrw => by simp [Access.new, h f hf hrw], fun _ _ _ => rfl, fun _ _ _ _ => rfl⟩

/-! ### Reads -/

theorem RegFile.rd_clearRc_ne (r : RegFile) {f g : Fld} {i j u k : Nat} (h : (f.id, i, j) ≠ (g.id, u, k)) :
    (r.clearRc f i j).rd g u k = r.rd g u k := by
  unfold RegFile.clearRc
  dsimp only
  split <;> exact RegFile.rd_wr_ne r _ h

theorem RegFile.rd_clearRc_same (r : RegFile) (f : Fld) (i j : Nat) :
    (r.clearRc f i j).rd f i j = (r.rd f i j - (r.logOf f i j r.now).before) % 2 ^ f.width := by
  unfold RegFile.clearRc
  dsimp only
  split <;> exact RegFile.rd_wr_same r f i j _

/-- Clearing an RC field leaves what a read of every other field returns. -/
theorem RegFile.seen_clearRc_ne (r : RegFile) {f g : Fld} {i j u k : Nat} (h : (f.id, i, j) ≠ (g.id, u, k)) :
    (r.clearRc f i j).seen g u k = r.seen g u k := by
  have hlog : ∀ c, (r.clearRc f i j).logOf g u k c = r.logOf g u k c := by
    intro c
    unfold RegFile.logOf
    rw [RegFile.rd_clearRc_ne r h]
    unfold RegFile.clearRc
    dsimp only
    split
    · rfl
    · rw [show (r.wr f i j (r.rd f i j - (r.logOf f i j r.now).before)).log = r.log from rfl, Tab.get_set_ne _ _ _ h, Tab.find_set_ne _ _ h]
  have hnow : (r.clearRc f i j).now = r.now := by
    unfold RegFile.clearRc
    dsimp only
    split <;> rfl
  unfold RegFile.seen
  rw [hlog, hnow, RegFile.rd_clearRc_ne r h]

/-- The clearing at one field of the register. -/
def RegFile.clearField (i j off4 size : Nat) (r : RegFile) (f : Fld) : RegFile :=
  if f.acc = .rc ∧ f.within off4 size then r.clearRc f i j else r

theorem RegFile.readClear_eq_foldl (r : RegFile) (reg : Reg) (i j off4 size : Nat) :
    r.readClear reg i j off4 size = reg.fields.foldl (RegFile.clearField i j off4 size) r := rfl

/-- A read changes no field outside its register, unit and index. -/
theorem RegFile.rd_readClear_other (r : RegFile) (reg : Reg) (i j off4 size : Nat) (g : Fld) (u k : Nat)
    (h : ∀ f ∈ reg.fields, (f.id, i, j) ≠ (g.id, u, k)) : (r.readClear reg i j off4 size).rd g u k = r.rd g u k := by
  refine foldl_keeps (RegFile.clearField i j off4 size) (fun c : RegFile => c.rd g u k) reg.fields (fun f hf c => ?_) r
  unfold RegFile.clearField
  split
  · exact RegFile.rd_clearRc_ne c (h f hf)
  · rfl

/-- After a read, an RC field wholly within it holds the increments that the read did not return, any other field what it held. -/
theorem RegFile.rd_readClear (r : RegFile) (reg : Reg) (i j off4 size : Nat) {f : Fld} (hf : f ∈ reg.fields) :
    (r.readClear reg i j off4 size).rd f i j =
      if f.acc = .rc ∧ f.within off4 size = true then (r.rd f i j - r.seen f i j) % 2 ^ f.width else r.rd f i j := by
  have hother : ∀ y ∈ reg.fields, y ≠ f → ∀ c : RegFile, ((RegFile.clearField i j off4 size c y).rd f i j,
      (RegFile.clearField i j off4 size c y).seen f i j) = (c.rd f i j, c.seen f i j) := by
    intro y hy hne c
    have hk : (y.id, i, j) ≠ (f.id, i, j) := fun he => hne (Reg.field_eq_of_id hy hf (congrArg Prod.fst he))
    unfold RegFile.clearField
    split
    · rw [RegFile.rd_clearRc_ne c hk, RegFile.seen_clearRc_ne c hk]
    · rfl
  obtain ⟨c, hc, hs⟩ := foldl_only_at _ (fun c : RegFile => (c.rd f i j, c.seen f i j)) reg.fields f hf reg.fields_nodup hother r
  obtain ⟨hrd, hseen⟩ := Prod.mk.inj hc
  rw [RegFile.readClear_eq_foldl, (Prod.mk.inj hs).1, ← hrd, ← hseen]
  unfold RegFile.clearField
  split
  · next h => rw [RegFile.rd_clearRc_same, RegFile.seen, if_pos h.1]
  · rfl

end Sys2Proof.Machine
end

section
/-! Register accesses that the Observatory serves, and those it sends on their Vesper path (R6, R7, R222, R371, R394, R395, R539). -/
namespace Sys2Proof.Machine

/-! ### Places and windows -/

/-- An offset of the CTL window has no bit of the MBX window. -/
theorem ctl_offset {off : Nat} (h : off < 0x4000000) : bits off 28 1 = 0 ∧ off % 0x10000000 = off := by
  unfold bits
  omega

theorem vspTarget_none {off : Nat} (h : vspTarget off = none) : inTil off = false ∧ inChan off = false ∧ inFab off = false := by
  simpa [vspTarget, ite_eq_iff] using h

theorem regAt_place {off i j b : Nat} {r : Reg} (h : regAt off = some (r, i, j, b)) : r.place.find off = some (i, j, b) := by
  obtain ⟨q, -, hq⟩ := List.exists_of_findSome?_eq_some h
  obtain ⟨⟨u, k, c⟩, hp, he⟩ := Option.map_eq_some_iff.1 hq
  cases he
  exact hp

/-- A register of the ports' control block lies in the FAB block. -/
theorem inFab_of_portReg {off i j b : Nat} {r : Reg} (h : regAt off = some (r, i, j, b)) (hr : r = .FAB_PORT_CTRL ∨ r = .FAB_PORT_CFG) :
    inFab off = true := by
  have hp := regAt_place h
  unfold Place.find at hp
  simp only [inFab, Bool.and_eq_true, decide_eq_true_eq]
  rcases hr with rfl | rfl <;>
  · simp only [Reg.place, Nat.reduceEqDiff, if_false, Option.ite_none_left_eq_some] at hp
    omega

theorem size_of_good {off size : Nat} (h : goodSize off size = true) : size = 4 ∨ size = 8 := by
  simp only [goodSize, Bool.and_eq_true, Bool.or_eq_true, beq_iff_eq] at h
  exact h.1

/-! ### Accesses that the Observatory serves -/

section
variable {s : State} {off size i j b : Nat} {r : Reg} (h : s.OwnReg off size r i j b)
include h

theorem State.ctlWrite_own (src : Nat) (v : Word) : s.ctlWrite src off size v = s.writeReg src r i j ⟨b, size, v⟩ := by
  obtain ⟨-, -, -, hat, -, hmsix, hvsp⟩ := h
  obtain ⟨hTil, hChan, -⟩ := vspTarget_none hvsp
  have hno : ¬ (0x180000 ≤ off ∧ off < 0x180400) := by omega
  unfold State.ctlWrite
  simp only [if_neg hno, hat, hTil, hChan, Bool.false_eq_true, if_false]

theorem State.ctlRead_own (clears : Bool) :
    s.ctlRead clears off size = (if clears then s.clearReg r i j b size else s, cutWord (s.word r i j) b size) := by
  obtain ⟨-, -, -, hat, -, hmsix, hvsp⟩ := h
  obtain ⟨hTil, hChan, -⟩ := vspTarget_none hvsp
  have hno : ¬ (0x180000 ≤ off ∧ off < 0x180400) := by omega
  have hpba : ¬ (0x181000 ≤ off ∧ off < 0x181008) := by omega
  unfold State.ctlRead
  simp only [if_neg hno, if_neg hpba, hat, hTil, hChan, Bool.false_eq_true, if_false]

/-- A write of any source but the rack controller reaches the register. -/
theorem State.regWriteCmd_own {src : Nat} (v : Word) (hsrc : validSrc src = true) (hrack : src ≠ 2) :
    s.regWriteCmd src off size v = s.writeReg src r i j ⟨b, size, v⟩ := by
  have hw := State.ctlWrite_own h src v
  obtain ⟨hreach, hdead, hgood, -, hoff, -, hvsp⟩ := h
  obtain ⟨hbit, hmod⟩ := ctl_offset hoff
  unfold State.regWriteCmd
  simp [hbit, hmod, hsrc, hrack, hreach, winSize, hoff, accessOk, hgood, hdead, hvsp, hw]

/-- A read of a tile or of firmware returns nothing by itself here; it clears what it reads. -/
theorem State.regReadCmd_own {src : Nat} (hsrc : validSrc src = true) (hrack : src ≠ 2) (hhost : src ≠ 1) :
    s.regReadCmd src off size = s.clearReg r i j b size := by
  have hr := State.ctlRead_own h true
  obtain ⟨hreach, hdead, hgood, -, hoff, -, hvsp⟩ := h
  obtain ⟨hbit, hmod⟩ := ctl_offset hoff
  unfold State.regReadCmd
  simp [hbit, hmod, hsrc, hrack, hhost, hreach, winSize, hoff, accessOk, hgood, hdead, hvsp, hr]

/-- A read of the host is completed with the register's value, and clears what it reads (R372). -/
theorem State.regReadCmd_host_own (hwriting : s.hostWriting = false) :
    s.regReadCmd 1 off size = (s.clearReg r i j b size).complete (.data (leBytes size (cutWord (s.word r i j) b size))) := by
  have hr := State.ctlRead_own h true
  obtain ⟨hreach, hdead, hgood, -, hoff, -, hvsp⟩ := h
  obtain ⟨hbit, hmod⟩ := ctl_offset hoff
  unfold State.regReadCmd State.hostRead
  simp [hbit, hmod, validSrc, hreach, winSize, hoff, accessOk, hgood, hdead, hvsp, hr, hwriting]

/-- The rack controller's read returns the value and clears nothing, and its write is DENIED (R395). -/
theorem State.vendorMsg_own (write : Bool) (v : Word) (hboot : s.bootReady = false) :
    s.vendorMsg false write off size v = if write then s.vendor 8 0 else s.vendor 0 (cutWord (s.word r i j) b size) := by
  have hr := State.ctlRead_own h false
  obtain ⟨hreach, hdead, hgood, -, hoff, -, hvsp⟩ := h
  have hsize : size ≤ 8 := by rcases size_of_good hgood with rfl | rfl <;> omega
  unfold State.vendorMsg
  cases write <;> simp [State.rackOn, hboot, hreach, winSize, hoff, accessOk, hgood, hdead, hvsp, hr, hsize]

end

/-! ### What such a write stores -/

/-- A register without rules of its own stores what reaches it (R6, R7). -/
theorem State.writeReg_plain (s : State) (src i j : Nat) (a : Access) {r : Reg} (hr : r ∉ specialRegs) (hctrl : r ≠ .FAB_PORT_CTRL)
    (hcfg : r ≠ .FAB_PORT_CFG) :
    s.writeReg src r i j a =
      if (r.fields.any (fun f => a.hits f && f.acc != .ro && f.acc != .rc)) = false then s
      else { s with regs := s.regs.store r i j s.cycle a } := by
  simp only [specialRegs, List.mem_cons, List.not_mem_nil, or_false, not_or] at hr
  unfold State.writeReg
  have hneed : r ≠ .RTE_PLACE_NEED := by simp [hr]
  simp only [ne_eq, hneed, not_false_eq_true, true_and]
  congr 1
  split <;> simp_all

theorem State.writeReg_stores (s : State) (src i j : Nat) (a : Access) {r : Reg} (hr : r ∉ specialRegs) (hctrl : r ≠ .FAB_PORT_CTRL)
    (hcfg : r ≠ .FAB_PORT_CFG) : s.Stores (s.writeReg src r i j a) r i j a := by
  rw [State.writeReg_plain s src i j a hr hctrl hcfg]
  split
  · next hnone =>
    refine s.stores_self r i j a fun f hf hrw => ?_
    have := List.any_eq_false.1 hnone f hf
    simpa [hrw] using this
  · exact s.stores_store r i j s.cycle a

/-! ### What such a read clears -/

theorem Reg.eq_pwrTemp_of_max {r : Reg} : ∀ f ∈ r.fields, f.id = F.PWR_TEMP.max.id → r = .PWR_TEMP := by
  cases r <;> decide

theorem State.clearReg_plain (s : State) (i j off4 size : Nat) {r : Reg} (h : r ≠ .PWR_TEMP) :
    s.clearReg r i j off4 size = { s with regs := s.regs.readClear r i j off4 size } := by
  unfold State.clearReg
  split
  · exact absurd rfl h
  · rfl

theorem State.clearReg_pwrTemp (s : State) (i j off4 size : Nat) :
    s.clearReg .PWR_TEMP i j off4 size =
      if F.PWR_TEMP.max.within off4 size then
        ({ s with regs := s.regs.readClear .PWR_TEMP i j off4 size } : State).wr F.PWR_TEMP.max i j (s.rd F.PWR_TEMP.temp i j)
      else { s with regs := s.regs.readClear .PWR_TEMP i j off4 size } := rfl

/-- What a read clears lies in its register, and only registers change. -/
theorem State.clearReg_onlyReg (s : State) (r : Reg) (i j off4 size : Nat) : s.OnlyReg (s.clearReg r i j off4 size) r i j := by
  have plain : s.OnlyReg { s with regs := s.regs.readClear r i j off4 size } r i j :=
    ⟨rfl, s.regs.rd_readClear_other r i j off4 size⟩
  by_cases h : r = .PWR_TEMP
  · subst h
    rw [State.clearReg_pwrTemp]
    split
    · exact ⟨rfl, fun g u k hg => (State.rd_wr_ne _ _ (hg F.PWR_TEMP.max (by decide))).trans (plain.2 g u k hg)⟩
    · exact plain
  · rw [State.clearReg_plain s i j off4 size h]
    exact plain

/-- Every field of the register holds after a read what `State.afterRead` says. -/
theorem State.rd_clearReg (s : State) (r : Reg) (i j off4 size : Nat) {f : Fld} (hf : f ∈ r.fields) :
    (s.clearReg r i j off4 size).rd f i j = s.afterRead f i j off4 size := by
  have hrd := s.regs.rd_readClear r i j off4 size hf
  unfold State.afterRead
  by_cases hmax : f.id = F.PWR_TEMP.max.id
  · have hr := Reg.eq_pwrTemp_of_max f hf hmax
    subst hr
    have hfm : f = F.PWR_TEMP.max := Reg.field_eq_of_id hf (by decide) hmax
    subst hfm
    rw [State.clearReg_pwrTemp]
    by_cases hw : F.PWR_TEMP.max.within off4 size = true
    · rw [if_pos hw, State.rd_wr_same, if_pos ⟨rfl, hw⟩, if_pos rfl]
    · rw [if_neg hw, if_neg (fun h => hw h.2)]
      exact hrd.trans (if_neg (fun h => hw h.2))
  · rw [if_neg hmax]
    by_cases hr : r = .PWR_TEMP
    · subst hr
      rw [State.clearReg_pwrTemp]
      split
      · rw [State.rd_wr_ne _ _ (fun he => hmax (congrArg Prod.fst he).symm)]
        exact hrd
      · exact hrd
    · rw [State.clearReg_plain s i j off4 size hr]
      exact hrd

/-! ### Requests in the mesh -/

/-- The offset that a register access carries (log entry 21). -/
theorem regAccessWord_offset (mbx : Bool) (size : Nat) {off : Nat} (h : off < 0x4000000) : (regAccessWord off mbx size).toNat % 2 ^ 28 = off := by
  unfold regAccessWord
  rw [BitVec.toNat_ofNat]
  omega

/-- A register write carries its 64-bit word in the low 8 bytes of its data. -/
theorem leNat_wordData (v : Word) : leNat ((padTo 16 (leBytes 8 v.toNat)).take 8) = v.toNat := by
  have htake : (padTo 16 (leBytes 8 v.toNat)).take 8 = leBytes 8 v.toNat := by
    unfold padTo
    rw [List.take_of_length_le (i := 16) (by simp [leBytes_length])]
    exact List.take_left' (leBytes_length 8 _)
  rw [htake, leNat_leBytes]
  exact Nat.mod_eq_of_lt v.isLt

section
variable {s : State} {off size : Nat} {q : Nat × Nat × Nat} (hreach : s.reachable = true) (hdead : s.ctlDead = false)
  (hgood : goodSize off size = true) (hoff : off < 0x4000000) (hq : vspTarget off = some q)
include hreach hdead hgood hoff hq

/-- A host write of a TIL, MEM or FAB register goes out on its Vesper path (R539). -/
theorem State.regWriteCmd_host_mesh (v : Word) : s.regWriteCmd 1 off size v = s.hostReg true q off size v := by
  obtain ⟨hbit, hmod⟩ := ctl_offset hoff
  unfold State.regWriteCmd
  simp [hbit, hmod, validSrc, hreach, winSize, hoff, accessOk, hgood, hdead, hq]

/-- A management core's write of such a register enters Vesper at (0, 47) (R222, R539). -/
theorem State.regWriteCmd_core_mesh (v : Word) {src : Nat} (hsrc : src = 0x10 ∨ src = 0x11) :
    s.regWriteCmd src off size v = s.coreReg src true q off size v := by
  obtain ⟨hbit, hmod⟩ := ctl_offset hoff
  unfold State.regWriteCmd
  rcases hsrc with rfl | rfl <;> simp [hbit, hmod, validSrc, hreach, winSize, hoff, accessOk, hgood, hdead, hq]

end

/-! ### Locks of a lost owner -/

/-- What freeing a lost owner's locks does at one mailbox. -/
def State.freeLock (owner : Nat) (s : State) (k : Nat) : State :=
  if s.rd F.MBX_LOCK.owner k 0 = owner ∧ s.rd F.MBX_FLAG.full k 0 = 0 then s.wr F.MBX_LOCK.owner k 0 0 else s

theorem State.freeLocks_eq_foldl (owner : Nat) (s : State) : s.freeLocks owner = (List.range 32).foldl (State.freeLock owner) s := rfl

/-- It changes no field but that mailbox's lock. -/
theorem State.rd_freeLock_ne (owner : Nat) (s : State) {j u k : Nat} {g : Fld} (h : (F.MBX_LOCK.owner.id, j, 0) ≠ (g.id, u, k)) :
    (s.freeLock owner j).rd g u k = s.rd g u k := by
  unfold State.freeLock
  split
  · exact State.rd_wr_ne s _ h
  · rfl

/-- Freeing a lost owner's locks frees those on mailboxes with full = 0, and no other (R384). -/
theorem State.owner_freeLocks (s : State) (owner : Nat) {k : Nat} (hk : k < 32) :
    (s.freeLocks owner).owner k = if s.owner k = owner ∧ s.rd F.MBX_FLAG.full k 0 = 0 then 0 else s.owner k := by
  obtain ⟨c, hc, hs⟩ := foldl_only_at (State.freeLock owner) (fun c : State => (c.owner k, c.rd F.MBX_FLAG.full k 0)) (List.range 32) k
    (List.mem_range.2 hk) List.nodup_range
    (fun j _ hj c => Prod.ext (c.rd_freeLock_ne owner (by simp [hj])) (c.rd_freeLock_ne owner (by simp [F.MBX_LOCK.owner, F.MBX_FLAG.full]))) s
  obtain ⟨hown, hfull⟩ := Prod.mk.inj hc
  rw [State.freeLocks_eq_foldl, (Prod.mk.inj hs).1, ← hown, ← hfull]
  unfold State.owner State.freeLock
  split
  · simp
  · rfl

end Sys2Proof.Machine
end

section
/-! Writes of the configuration registers by module state (R334, R456, R503, R525, Tables 11-17 and 14-9). -/
namespace Sys2Proof.Machine

/-! ### Status bits -/

/-- A status bit that hardware sets changes its register alone. -/
theorem State.flag_onlyReg (s : State) {r : Reg} {again f : Fld} (i j m : Nat) (ha : again ∈ r.fields) (hf : f ∈ r.fields) :
    s.OnlyReg (s.flag again f i j m) r i j :=
  ⟨rfl, fun _ _ _ h => s.rd_flag_ne m (h f hf) (h again ha)⟩

/-- A status bit of one bit reads 1 once hardware has set it. -/
theorem State.rd_flag_one (s : State) {again f : Fld} (i j : Nat) (hw : f.width = 1) (ha : again.id ≠ f.id) :
    (s.flag again f i j 1).rd f i j = 1 := by
  rw [State.rd_flag_same s i j 1 ha, hw, pow_one, Nat.or_mod_two_eq_one]
  exact .inr rfl

/-! ### ERR registers (R456) -/

theorem State.writeErr_open (s : State) (r : Reg) (a : Access) (h : s.st = .ready ∨ s.st = .joined) :
    s.writeErr r a = { s with regs := s.regs.store r 0 0 s.cycle a } := by
  unfold State.writeErr
  rcases h with h | h <;> simp [h]

/-- Outside READY and JOINED, ERR_CTRL keeps history_mode and sets cfg_ignored if the write would change it. -/
theorem State.writeErr_ctrl (s : State) (a : Access) (h1 : s.st ≠ .ready) (h2 : s.st ≠ .joined) :
    s.writeErr .ERR_CTRL a =
      (if a.hits F.ERR_CTRL.history_mode && a.val F.ERR_CTRL.history_mode != s.rd F.ERR_CTRL.history_mode 0 0 then
        (({ s with regs := s.regs.store .ERR_CTRL 0 0 s.cycle a } : State).wr F.ERR_CTRL.history_mode 0 0
          (s.rd F.ERR_CTRL.history_mode 0 0)).flag F.ERR_STATUS.again_count F.ERR_STATUS.cfg_ignored 0 0 1
      else ({ s with regs := s.regs.store .ERR_CTRL 0 0 s.cycle a } : State).wr F.ERR_CTRL.history_mode 0 0
          (s.rd F.ERR_CTRL.history_mode 0 0)) := by
  unfold State.writeErr
  simp [h1, h2]

theorem State.writeErr_ignored (s : State) {r : Reg} (a : Access) (hr : r ≠ .ERR_CTRL) (h1 : s.st ≠ .ready) (h2 : s.st ≠ .joined) :
    s.writeErr r a = s.flag F.ERR_STATUS.again_count F.ERR_STATUS.cfg_ignored 0 0 1 := by
  unfold State.writeErr
  simp only [beq_eq_false_iff_ne.2 h1, beq_eq_false_iff_ne.2 h2, Bool.or_self, Bool.false_eq_true, if_false]

theorem State.writeErr_ctrl_spec (s : State) (v : Word) (h1 : s.st ≠ .ready) (h2 : s.st ≠ .joined) :
    ∃ s', s' = s.writeErr .ERR_CTRL (.full v) ∧ s' = { s with regs := s'.regs } ∧
      s'.rd F.ERR_CTRL.history_mode 0 0 = s.rd F.ERR_CTRL.history_mode 0 0 % 2 ^ F.ERR_CTRL.history_mode.width ∧
      (∀ f ∈ Reg.fields .ERR_CTRL, f.acc = .rw → f.id ≠ F.ERR_CTRL.history_mode.id → s'.rd f 0 0 = (Access.full v).new f (s.rd f 0 0)) ∧
      ((Access.full v).val F.ERR_CTRL.history_mode ≠ s.rd F.ERR_CTRL.history_mode 0 0 → s'.rd F.ERR_STATUS.cfg_ignored 0 0 = 1) := by
  refine ⟨_, rfl, ?_⟩
  rw [State.writeErr_ctrl s _ h1 h2]
  obtain ⟨-, hstored, -⟩ := s.stores_store .ERR_CTRL 0 0 s.cycle (.full v)
  have hother : ∀ f ∈ Reg.fields .ERR_CTRL, f.acc = .rw → f.id ≠ F.ERR_CTRL.history_mode.id →
      (({ s with regs := s.regs.store .ERR_CTRL 0 0 s.cycle (.full v) } : State).wr F.ERR_CTRL.history_mode 0 0
        (s.rd F.ERR_CTRL.history_mode 0 0)).rd f 0 0 = (Access.full v).new f (s.rd f 0 0) := fun f hf hrw hne =>
    (State.rd_wr_ne _ _ (by simp [hne.symm])).trans (hstored f hf hrw)
  have hstatus : ∀ f ∈ Reg.fields .ERR_CTRL, F.ERR_STATUS.cfg_ignored.id ≠ f.id ∧ F.ERR_STATUS.again_count.id ≠ f.id := by decide
  split
  · refine ⟨rfl, ?_, fun f hf hrw hne => ?_, fun _ => State.rd_flag_one _ 0 0 rfl (by decide)⟩
    · rw [State.rd_flag_ne _ _ (by decide) (by decide), State.rd_wr_same]
    · obtain ⟨hc, ha⟩ := hstatus f hf
      rw [State.rd_flag_ne _ _ (by simp [hc]) (by simp [ha])]
      exact hother f hf hrw hne
  · next hno =>
    refine ⟨rfl, State.rd_wr_same _ _ _ _ _, hother, fun hne => absurd ?_ hno⟩
    rw [show (Access.full v).hits F.ERR_CTRL.history_mode = true from rfl, Bool.true_and, bne_iff_ne]
    exact hne

/-! ### The place declaration (R503) -/

/-- A number of `k` fields of 3 bits, lowest first. -/
def pack3 (d : Nat → Nat) (k : Nat) : Nat := (List.range k).foldl (fun m n => m + d n * 2 ^ (3 * n)) 0

theorem pack3_succ (d : Nat → Nat) (k : Nat) : pack3 d (k + 1) = pack3 d k + d k * 2 ^ (3 * k) := by
  simp [pack3, List.range_succ]

theorem pack3_lt (d : Nat → Nat) (h : ∀ n, d n < 8) (k : Nat) : pack3 d k < 2 ^ (3 * k) := by
  induction k with
  | zero => simp [pack3]
  | succ k ih =>
    rw [pack3_succ, show 3 * (k + 1) = 3 * k + 3 by omega, Nat.pow_add]
    nlinarith [h k]

/-- Each field reads back. -/
theorem bits_pack3 (d : Nat → Nat) (h : ∀ n, d n < 8) {k n : Nat} (hn : n < k) : bits (pack3 d k) (3 * n) 3 = d n := by
  induction k with
  | zero => omega
  | succ k ih =>
    rw [pack3_succ]
    rcases Nat.lt_succ_iff_lt_or_eq.1 hn with hlt | rfl
    · obtain ⟨e, rfl⟩ : ∃ e, k = n + 1 + e := ⟨k - (n + 1), by omega⟩
      rw [← ih hlt]
      unfold bits
      rw [show 3 * (n + 1 + e) = 3 * n + (3 + 3 * e) by omega, Nat.pow_add, Nat.pow_add, ← Nat.mul_assoc, Nat.mul_right_comm,
        Nat.add_mul_div_right _ _ (Nat.two_pow_pos _)]
      rw [← Nat.mul_assoc, Nat.mul_right_comm, Nat.add_mul_mod_self_right]
    · unfold bits
      rw [Nat.add_mul_div_right _ _ (Nat.two_pow_pos _), Nat.div_eq_of_lt (pack3_lt d h n), Nat.zero_add]
      exact Nat.mod_eq_of_lt (h n)

/-- The need of port `n` after a write of `v`: a reserved one leaves it as it was (R9). -/
def State.needAfter (s : State) (v : Word) (n : Nat) : Nat :=
  if bits v.toNat (3 * n) 3 < 6 then bits v.toNat (3 * n) 3 else bits (s.rd F.RTE_PLACE_NEED.need 0 0) (3 * n) 3

theorem State.needAfter_lt (s : State) (v : Word) (n : Nat) : s.needAfter v n < 8 := by
  unfold State.needAfter bits
  split <;> exact Nat.mod_lt _ (by decide)

theorem Access.word_full (v : Word) : (Access.full v).word = v.toNat := by
  simp only [Access.full, Access.word, Nat.mul_zero, pow_zero, Nat.mul_one]
  exact Nat.mod_eq_of_lt v.isLt

/-- A write of RTE_PLACE_NEED while no job runs or is pending. -/
theorem State.writePlace_need (s : State) (v : Word) (h : s.inJob = false) :
    s.writePlace true (.full v) = (s.wr F.RTE_PLACE_NEED.need 0 0 (pack3 (s.needAfter v) 16)).wr F.RTE_PLACE_NEED.check 0 0
      ((Access.full v).val F.RTE_PLACE_NEED.check) := by
  have hmerged : (List.range 16).foldl (fun m n => m + (if (decide ((Access.full v).off4 * 8 ≤ 3 * n) &&
      decide (3 * n + 3 ≤ ((Access.full v).off4 + (Access.full v).size) * 8)) && decide (bits (Access.full v).word (3 * n) 3 < 6) then
        bits (Access.full v).word (3 * n) 3 else bits (s.rd F.RTE_PLACE_NEED.need 0 0) (3 * n) 3) * 2 ^ (3 * n)) 0 =
      pack3 (s.needAfter v) 16 := by
    refine List.foldl_ext _ _ 0 fun m n hn => ?_
    have : n < 16 := List.mem_range.1 hn
    simp only [Access.word_full, State.needAfter]
    simp [Access.full, show 3 * n + 3 ≤ 64 by omega]
  unfold State.writePlace
  rw [h]
  simp only [Bool.false_eq_true, if_false]
  rw [hmerged]
  rfl

theorem State.writePlace_need_spec (s : State) (v : Word) (h : s.inJob = false) :
    ∃ s', s' = s.writePlace true (.full v) ∧ s.OnlyReg s' .RTE_PLACE_NEED 0 0 ∧
      s'.rd F.RTE_PLACE_NEED.check 0 0 = v.toNat / 2 ^ 63 ∧
      ∀ n, n < 16 → bits (s'.rd F.RTE_PLACE_NEED.need 0 0) (3 * n) 3 =
        if bits v.toNat (3 * n) 3 < 6 then bits v.toNat (3 * n) 3 else bits (s.rd F.RTE_PLACE_NEED.need 0 0) (3 * n) 3 := by
  refine ⟨_, rfl, ?_⟩
  rw [State.writePlace_need s v h]
  refine ⟨⟨rfl, fun g u k hg => ?_⟩, ?_, fun n hn => ?_⟩
  · rw [State.rd_wr_ne _ _ (hg _ (by decide)), State.rd_wr_ne _ _ (hg _ (by decide))]
  · rw [State.rd_wr_same, Nat.mod_eq_of_lt (Access.val_lt _ _), Access.val, Access.word_full]
    exact Nat.mod_eq_of_lt (Nat.div_lt_of_lt_mul v.isLt)
  · rw [State.rd_wr_ne _ _ (by decide), State.rd_wr_same, show F.RTE_PLACE_NEED.need.width = 3 * 16 from rfl,
      Nat.mod_eq_of_lt (pack3_lt _ (s.needAfter_lt v) 16), bits_pack3 _ (s.needAfter_lt v) hn]
    rfl

/-- A refused declaration is answered with WRONG_STATE, cmd_refused and one record, and stores nothing. -/
theorem State.writePlace_refused_spec (s : State) (need : Bool) (v : Word) (h : s.inJob = true) :
    ∃ s', s' = s.writePlace need (.full v) ∧ s' = { s with regs := s'.regs, recs := s'.recs } ∧
      s'.rd F.RTE_STATUS.last_status 0 0 = 1 ∧ s'.rd F.RTE_STATUS.cmd_refused 0 0 = 1 ∧ s'.recs.length = s.recs.length + 1 ∧
      (∀ f ∈ Reg.fields .RTE_PLACE_GEN ++ Reg.fields .RTE_PLACE_NEED, s'.rd f 0 0 = s.rd f 0 0) := by
  refine ⟨_, rfl, ?_⟩
  unfold State.writePlace
  rw [h, if_pos rfl]
  generalize (if need = true then 0x300050 else 0x300048 : Nat) = off
  have hrd : ∀ f, (s.rteRefuse 1 off).rd f 0 0 =
      ((s.wr F.RTE_STATUS.last_status 0 0 1).flag F.RTE_STATUS.again_count F.RTE_STATUS.cmd_refused 0 0 1).rd f 0 0 := fun _ => rfl
  refine ⟨rfl, ?_, ?_, List.length_append, fun f hf => ?_⟩
  · rw [hrd, State.rd_flag_ne _ _ (by decide) (by decide), State.rd_wr_same]
    rfl
  · rw [hrd, State.rd_flag_one _ _ _ rfl (by decide)]
  · have hids : ∀ f ∈ Reg.fields .RTE_PLACE_GEN ++ Reg.fields .RTE_PLACE_NEED, F.RTE_STATUS.cmd_refused.id ≠ f.id ∧
        F.RTE_STATUS.again_count.id ≠ f.id ∧ F.RTE_STATUS.last_status.id ≠ f.id := by decide
    obtain ⟨h1, h2, h3⟩ := hids f hf
    rw [hrd, State.rd_flag_ne _ _ (by simp [h1]) (by simp [h2]), State.rd_wr_ne _ _ (by simp [h3])]

end Sys2Proof.Machine
end

section
/-! Register accesses and configuration registers: the clauses of O34, and O34. -/
namespace Sys2Proof.Proofs
open Sys2Proof.Machine

/-! ### Register accesses -/

theorem ownReg_write {s : State} {src off size i j b : Nat} {v : Word} {r : Reg} (h : s.OwnReg off size r i j b)
    (hsrc : validSrc src = true) (hrack : src ≠ 2) (hr : r ∉ specialRegs) :
    ∃ s', exec (.registerWrite src off size v) s = .next s' ∧ s.Stores s' r i j ⟨b, size, v⟩ := by
  refine ⟨s.regWriteCmd src off size v, rfl, ?_⟩
  rw [State.regWriteCmd_own h v hsrc hrack]
  obtain ⟨-, -, -, hat, -, -, hvsp⟩ := h
  obtain ⟨-, -, hfab⟩ := vspTarget_none hvsp
  have hport : ¬ (r = .FAB_PORT_CTRL ∨ r = .FAB_PORT_CFG) := fun he => by
    rw [inFab_of_portReg hat he] at hfab
    cases hfab
  exact s.writeReg_stores src i j _ hr (fun he => hport (.inl he)) (fun he => hport (.inr he))

theorem ownReg_read {s : State} {src off size i j b : Nat} {r : Reg} (h : s.OwnReg off size r i j b)
    (hsrc : validSrc src = true) (hrack : src ≠ 2) (hhost : src ≠ 1) :
    ∃ s', exec (.rcFieldRead src off size) s = .next s' ∧ s.OnlyReg s' r i j ∧ ∀ f ∈ r.fields, s'.rd f i j = s.afterRead f i j b size := by
  refine ⟨s.regReadCmd src off size, rfl, ?_⟩
  rw [State.regReadCmd_own h hsrc hrack hhost]
  exact ⟨s.clearReg_onlyReg r i j b size, fun f hf => s.rd_clearReg r i j b size hf⟩

theorem ownReg_hostRead {s : State} {off size i j b : Nat} {r : Reg} (h : s.OwnReg off size r i j b) (hw : s.hostWriting = false) :
    ∃ s', exec (.rcFieldRead 1 off size) s = .next s' ∧
      s'.sent = s.sent ++ [.completion s.hostNext (.data (leBytes size (cutWord (s.word r i j) b size)))] ∧
      s' = { s with regs := s'.regs, sent := s'.sent, hostNext := s.hostNext + 1 } ∧
      ∀ f ∈ r.fields, s'.rd f i j = s.afterRead f i j b size := by
  refine ⟨s.regReadCmd 1 off size, rfl, ?_⟩
  rw [State.regReadCmd_host_own h hw]
  have hrd := fun f hf => s.rd_clearReg r i j b size (f := f) hf
  obtain ⟨hregs, -⟩ := s.clearReg_onlyReg r i j b size
  rw [hregs] at hrd ⊢
  exact ⟨rfl, rfl, hrd⟩

theorem ownReg_vendor {s : State} {off size i j b : Nat} {v : Word} {r : Reg} (h : s.OwnReg off size r i j b) (hboot : s.bootReady = false) :
    exec (.i3cVendorMessage (0x7E, false) false off size v) s = .next (s.put (.vendor 0 (BitVec.ofNat 64 (cutWord (s.word r i j) b size)))) ∧
    exec (.i3cVendorMessage (0x7E, false) true off size v) s = .next (s.put (.vendor 8 0)) := by
  have key (write : Bool) : exec (.i3cVendorMessage (0x7E, false) write off size v) s = .next (s.vendorMsg false write off size v) := rfl
  rw [key, key, State.vendorMsg_own h false v hboot, State.vendorMsg_own h true v hboot]
  exact ⟨rfl, rfl⟩

/-- Of the other message types the endpoint supports control, PLDM and SPDM, none of which asks an answer here (R394). -/
theorem vendor_other_types {s : State} {typ off size : Nat} {mbx write : Bool} {v : Word} (hreach : s.reachable = true)
    (hboot : s.bootReady = false) (hv : typ ≠ 0x7E) (hp : typ ≠ 1 ∨ write = false) :
    exec (.i3cVendorMessage (typ, mbx) write off size v) s =
      .next (if typ = 0 ∨ typ = 1 ∨ typ = 5 then s else s.put (.unsupported typ)) := by
  have hthr : ¬ (typ = 1 ∧ write = true) := fun ⟨h1, h2⟩ => by rcases hp with h | h <;> simp_all
  have hknown : mctpTypes.contains typ = false ↔ ¬ (typ = 0 ∨ typ = 1 ∨ typ = 5) := by simp [mctpTypes, hv]
  have key : exec (.i3cVendorMessage (typ, mbx) write off size v) s =
      .next (if typ = 0x7E then s.vendorMsg mbx write off size v else if typ = 0x01 ∧ write = true then s.setThreshold mbx off v
        else if s.rackOn ∧ mctpTypes.contains typ = false then s.put (.unsupported typ) else s) := rfl
  rw [key, if_neg hv, if_neg hthr]
  simp only [hknown, State.rackOn, hreach, hboot, Bool.not_false, Bool.and_self, true_and, ite_not]

theorem meshReg_hostWrite {s : State} {off size x y ep : Nat} {v : Word} (hreach : s.reachable = true) (hdead : s.ctlDead = false)
    (hgood : goodSize off size = true) (hoff : off < 0x4000000) (hq : vspTarget off = some (x, y, ep)) :
    ∃ (s' : State) (p : VPkt) (r : HReq), exec (.registerWrite 1 off size v) s = .next s' ∧ s'.pkts = s.pkts ++ [p] ∧ s'.host = s.host ++ [r] ∧
      s' = { s with pkts := s'.pkts, host := s'.host, hostNext := s.hostNext + 2 } ∧ r.write = true ∧ p.op = 1 ∧ p.src = 1 ∧ p.dx = x ∧
      p.dy = y ∧ p.ep = ep ∧ p.x = 0 ∧ p.y = 46 ∧ p.w.toNat % 2 ^ 28 = off ∧ leNat (p.data.take 8) = v.toNat := by
  have key : exec (.registerWrite 1 off size v) s = .next (s.hostReg true (x, y, ep) off size v) :=
    congrArg Host.Outcome.next (State.regWriteCmd_host_mesh hreach hdead hgood hoff hq v)
  exact ⟨_, _, _, key, rfl, rfl, rfl, rfl, rfl, rfl, rfl, rfl, rfl, rfl, rfl, regAccessWord_offset false size hoff, leNat_wordData v⟩

theorem meshReg_coreWrite {s : State} {off size x y ep src : Nat} {v : Word} (hreach : s.reachable = true) (hdead : s.ctlDead = false)
    (hgood : goodSize off size = true) (hoff : off < 0x4000000) (hq : vspTarget off = some (x, y, ep)) (hsrc : src = 0x10 ∨ src = 0x11) :
    ∃ (s' : State) (p : VPkt), exec (.registerWrite src off size v) s = .next s' ∧
      s' = { s with pkts := s.pkts ++ [p] } ∧ p.op = 1 ∧ p.src = src ∧ p.dx = x ∧ p.dy = y ∧ p.ep = ep ∧ p.x = 0 ∧ p.y = 47 ∧
      p.w.toNat % 2 ^ 28 = off ∧ leNat (p.data.take 8) = v.toNat := by
  have key : exec (.registerWrite src off size v) s = .next (s.coreReg src true (x, y, ep) off size v) :=
    congrArg Host.Outcome.next (State.regWriteCmd_core_mesh hreach hdead hgood hoff hq v hsrc)
  exact ⟨_, _, key, rfl, rfl, rfl, rfl, rfl, rfl, rfl, rfl, regAccessWord_offset false size hoff, leNat_wordData v⟩

theorem targetReset_frees (s : State) :
    ∃ s', exec .i3cTargetReset s = .next s' ∧ s' = { s with regs := s'.regs, vend := [] } ∧
      ∀ k, k < 32 → s'.owner k = if s.owner k = 2 ∧ s.rd F.MBX_FLAG.full k 0 = 0 then 0 else s.owner k :=
  ⟨({ s with vend := [] } : State).freeLocks 2, rfl, State.freeLocks_same 2 { s with vend := [] },
    fun _ hk => State.owner_freeLocks { s with vend := [] } 2 hk⟩

/-! ### Configuration registers -/

/-- Each of ERR_CTRL, ERR_TRANSIT_CFG and ERR_BG_CFG in and outside READY and JOINED. -/
theorem errConfig_write (s : State) (v : Word) : ∀ e ∈ [(0, Reg.ERR_CTRL), (1, .ERR_TRANSIT_CFG), (2, .ERR_BG_CFG)],
    ((s.st = .ready ∨ s.st = .joined) → ∃ s', exec (.errConfigWrite e.1 v) s = .next s' ∧ s.Stores s' e.2 0 0 (.full v)) ∧
    (s.st ≠ .ready → s.st ≠ .joined → e.1 = 0 → ∃ s', exec (.errConfigWrite 0 v) s = .next s' ∧ s' = { s with regs := s'.regs } ∧
      s'.rd F.ERR_CTRL.history_mode 0 0 = s.rd F.ERR_CTRL.history_mode 0 0 % 2 ^ F.ERR_CTRL.history_mode.width ∧
      (∀ f ∈ Reg.fields .ERR_CTRL, f.acc = .rw → f.id ≠ F.ERR_CTRL.history_mode.id → s'.rd f 0 0 = (Access.full v).new f (s.rd f 0 0)) ∧
      ((Access.full v).val F.ERR_CTRL.history_mode ≠ s.rd F.ERR_CTRL.history_mode 0 0 → s'.rd F.ERR_STATUS.cfg_ignored 0 0 = 1)) ∧
    (s.st ≠ .ready → s.st ≠ .joined → e.1 ≠ 0 → ∃ s', exec (.errConfigWrite e.1 v) s = .next s' ∧ s.OnlyReg s' .ERR_STATUS 0 0 ∧
      s'.rd F.ERR_STATUS.cfg_ignored 0 0 = 1) := by
  intro e he
  have hexec : exec (.errConfigWrite e.1 v) s = .next (s.writeErr e.2 (.full v)) := by
    simp only [List.mem_cons, List.not_mem_nil, or_false] at he
    rcases he with rfl | rfl | rfl <;> rfl
  have hctrl : e.1 ≠ 0 → e.2 ≠ .ERR_CTRL := by
    simp only [List.mem_cons, List.not_mem_nil, or_false] at he
    rcases he with rfl | rfl | rfl <;> simp
  refine ⟨fun hopen => ⟨_, hexec, ?_⟩, fun h1 h2 _ => ?_, fun h1 h2 h0 => ⟨_, hexec, ?_⟩⟩
  · rw [State.writeErr_open s e.2 _ hopen]
    exact s.stores_store e.2 0 0 s.cycle _
  · obtain ⟨s', rfl, hspec⟩ := s.writeErr_ctrl_spec v h1 h2
    exact ⟨_, rfl, hspec⟩
  · rw [State.writeErr_ignored s _ (hctrl h0) h1 h2]
    exact ⟨s.flag_onlyReg 0 0 1 (by decide) (by decide), s.rd_flag_one 0 0 rfl (by decide)⟩

theorem portCfg_write (s : State) (v : Word) {n : Nat} (hn : n < 16) :
    ((s.port n).st = .dark ∨ (s.port n).st = .down → ∃ s', exec (.fabPortCfgWrite n v) s = .next s' ∧ s.Stores s' .FAB_PORT_CFG n 0 (.full v)) ∧
    ((s.port n).st ≠ .dark → (s.port n).st ≠ .down → ∃ s', exec (.fabPortCfgWrite n v) s = .next s' ∧ s.OnlyReg s' .FAB_PORT_STATUS n 0 ∧
      s'.rd F.FAB_PORT_STATUS.cfg_ignored n 0 = 1) := by
  have hexec : exec (.fabPortCfgWrite n v) s = .next (s.writePortCfg n (.full v)) := congrArg Host.Outcome.next (if_neg (by omega))
  refine ⟨fun h => ⟨_, hexec, ?_⟩, fun h1 h2 => ⟨_, hexec, ?_⟩⟩
  · rw [State.writePortCfg, if_pos h]
    exact s.stores_store .FAB_PORT_CFG n 0 s.cycle _
  · rw [State.writePortCfg, if_neg (by simp [h1, h2])]
    exact ⟨s.flag_onlyReg n 0 1 (by decide) (by decide), s.rd_flag_one n 0 rfl (by decide)⟩

theorem placeGen_write (s : State) (v : Word) (h : s.inJob = false) :
    ∃ s', exec (.rtePlaceWrite false v) s = .next s' ∧ s.Stores s' .RTE_PLACE_GEN 0 0 (.full v) := by
  refine ⟨s.writePlace false (.full v), rfl, ?_⟩
  rw [State.writePlace, h, if_neg Bool.false_ne_true, if_pos rfl]
  exact s.stores_store .RTE_PLACE_GEN 0 0 s.cycle _

/-- The registers that take writes in every module state (R525, Tables 11-17 and 14-9). -/
theorem configWrites (s : State) (v : Word) :
    (∀ seg, seg < 4 → ∃ s', exec (.obsAprSegWrite seg v) s = .next s' ∧ s.Stores s' .OBS_APR_SEG 0 seg (.full v)) ∧
    (∃ s', exec (.rstHangCfgWrite v) s = .next s' ∧ s.Stores s' .RST_HANG_CFG 0 0 (.full v)) ∧
    (∃ s', exec (.pwrEnvCfgWrite v) s = .next s' ∧ s.Stores s' .PWR_ENV_CFG 0 0 (.full v)) := by
  refine ⟨fun seg hseg => ⟨_, congrArg Host.Outcome.next (if_pos hseg), ?_⟩, ⟨_, rfl, ?_⟩, ⟨_, rfl, s.stores_store .PWR_ENV_CFG 0 0 s.cycle _⟩⟩
  · exact s.writeReg_stores 1 0 seg _ (by decide) (by decide) (by decide)
  · exact s.writeReg_stores 1 0 0 _ (by decide) (by decide) (by decide)

/-- Settles O34, clause by clause. -/
theorem registerAndConfigurationAccesses : Obligations.RegisterAndConfigurationAccesses := by
  unfold Obligations.RegisterAndConfigurationAccesses
  refine ⟨⟨fun s src off size v r i j b h hsrc hrack => ⟨ownReg_write h hsrc hrack, ownReg_read h hsrc hrack, ownReg_hostRead h,
      ownReg_vendor h⟩,
    fun s typ off size mbx write v => vendor_other_types,
    fun s off size x y ep v hreach hdead hgood hoff hq => ⟨meshReg_hostWrite hreach hdead hgood hoff hq,
      fun src => meshReg_coreWrite hreach hdead hgood hoff hq⟩,
    targetReset_frees⟩, fun s v => ?_⟩
  obtain ⟨hseg, hhang, henv⟩ := configWrites s v
  refine ⟨hseg, hhang, henv, errConfig_write s v, fun n => portCfg_write s v, fun h => ⟨placeGen_write s v h, ?need⟩, fun h need => ?refused⟩
  case need =>
    obtain ⟨s', rfl, hspec⟩ := s.writePlace_need_spec v h
    exact ⟨_, rfl, hspec⟩
  case refused =>
    obtain ⟨s', rfl, hspec⟩ := s.writePlace_refused_spec need v h
    exact ⟨_, rfl, hspec⟩

end Sys2Proof.Proofs
end

section
/-! What a change of the module's state or job, the end of its job ports and a module eclipse keep and set (R16, R37, R308, R337, R468,
R469). -/
namespace Sys2Proof.Machine

/-! ### Interrupts and job ports -/

theorem State.irq_same (s : State) (b : Nat) :
    s.irq b = { s with regs := (s.irq b).regs, sent := (s.irq b).sent, pba := (s.irq b).pba } := by
  unfold State.irq
  dsimp only
  split
  · unfold State.signal
    split <;> rfl
  · rfl

/-- Marking job ports changes their mark alone. -/
theorem State.markPorts_same (v : State → Nat → Nat) (l : List Nat) (s : State) :
    l.foldl (fun s n => s.wr F.FAB_PORT_STATE.job_port n 0 (v s n)) s =
      { s with regs := (l.foldl (fun s n => s.wr F.FAB_PORT_STATE.job_port n 0 (v s n)) s).regs } := by
  induction l generalizing s with
  | nil => rfl
  | cons n r ih => rw [List.foldl_cons, ih]; rfl

theorem State.rd_markPorts (v : State → Nat → Nat) (l : List Nat) (s : State) {g : Fld} (i j : Nat) (h : F.FAB_PORT_STATE.job_port.id ≠ g.id) :
    (l.foldl (fun s n => s.wr F.FAB_PORT_STATE.job_port n 0 (v s n)) s).rd g i j = s.rd g i j :=
  foldl_keeps _ (fun c : State => c.rd g i j) l (fun _ _ c => c.rd_wr_ne _ (by simp [h])) s

/-! ### The module's state -/

/-- The fields that a change of the module's state writes. -/
def modFields : List Fld := [F.FAB_PORT_STATE.job_port, F.GLB_MODULE_STATE.state, F.OBS_IRQ_STATUS.cause, F.OBS_IRQ_STATUS.again_count]

/-- The module with its new state, before its registers show it. -/
def State.leaveFor (m : ModState) (s : State) : State := if s.st = .running then { s.noJobPorts with st := m } else { s with st := m }

theorem State.setMod_eq (m : ModState) (s : State) (h : s.st ≠ m) :
    s.setMod m = (((s.leaveFor m).wr F.GLB_MODULE_STATE.state 0 0 m.code).irq 0).discoverAll := if_neg h

theorem State.setMod_self (s : State) : s.setMod s.st = s := if_pos rfl

theorem State.leaveFor_same (m : ModState) (s : State) : s.leaveFor m = { s with st := m, regs := (s.leaveFor m).regs } := by
  unfold State.leaveFor State.noJobPorts
  split
  · rw [State.markPorts_same (fun _ _ => 0)]
  · rfl

theorem State.rd_leaveFor (m : ModState) (s : State) {g : Fld} (i j : Nat) (h : F.FAB_PORT_STATE.job_port.id ≠ g.id) :
    (s.leaveFor m).rd g i j = s.rd g i j := by
  unfold State.leaveFor State.noJobPorts
  split
  · exact State.rd_markPorts (fun _ _ => 0) allPorts s i j h
  · rfl

/-- A change of the module's state reaches its registers, its ports and what it sends, and nothing else. -/
theorem State.setMod_same (m : ModState) (s : State) :
    s.setMod m = { s with st := m, regs := (s.setMod m).regs, ports := (s.setMod m).ports, sent := (s.setMod m).sent
                          pba := (s.setMod m).pba } := by
  by_cases h : s.st = m
  · subst h
    rw [State.setMod_self]
  · rw [State.setMod_eq m s h, State.irq_same, State.leaveFor_same]
    rfl

theorem State.setMod_st (m : ModState) (s : State) : (s.setMod m).st = m := by rw [State.setMod_same]
theorem State.setMod_tiles (m : ModState) (s : State) : (s.setMod m).tiles = s.tiles := by rw [State.setMod_same]
theorem State.setMod_chans (m : ModState) (s : State) : (s.setMod m).chans = s.chans := by rw [State.setMod_same]
theorem State.setMod_mbx (m : ModState) (s : State) : (s.setMod m).mbx = s.mbx := by rw [State.setMod_same]

theorem State.rd_discoverAll (s : State) (g : Fld) (i j : Nat) : s.discoverAll.rd g i j = s.rd g i j := rfl

theorem State.rd_setMod (m : ModState) (s : State) {g : Fld} (i j : Nat) (h : ∀ f ∈ modFields, f.id ≠ g.id) :
    (s.setMod m).rd g i j = s.rd g i j := by
  simp only [modFields, List.forall_mem_cons, List.not_mem_nil, false_implies, implies_true, and_true] at h
  obtain ⟨hport, hstate, hcause, hagain⟩ := h
  by_cases hm : s.st = m
  · subst hm
    rw [State.setMod_self]
  · rw [State.setMod_eq m s hm, State.rd_discoverAll, State.rd_irq _ _ hcause hagain, State.rd_wr_ne _ _ (by simp [hstate]),
      State.rd_leaveFor m s i j hport]

/-- The register shows the state that the module has entered (Table 0-6). -/
theorem State.rd_setMod_state (m : ModState) (s : State) (h : s.st ≠ m) : (s.setMod m).rd F.GLB_MODULE_STATE.state 0 0 = m.code := by
  rw [State.setMod_eq m s h, State.rd_discoverAll, State.rd_irq _ _ (by decide) (by decide), State.rd_wr_same]
  cases m <;> rfl

/-! ### The module's job -/

theorem State.setJob_frame (v : Nat) (s : State) : (s.setJob v).tiles = s.tiles ∧ (s.setJob v).st = s.st ∧ (s.setJob v).mbx = s.mbx := by
  unfold State.setJob
  split
  · exact ⟨rfl, rfl, rfl⟩
  · exact ⟨rfl, rfl, rfl⟩

theorem State.rd_setJob (v : Nat) (s : State) {g : Fld} (i j : Nat) (h : F.GLB_JOB.job.id ≠ g.id) : (s.setJob v).rd g i j = s.rd g i j := by
  unfold State.setJob
  split
  · rfl
  · exact State.rd_wr_ne s v (by simp [h])

theorem State.rd_setJob_job (v : Nat) (s : State) (h : v < 2 ^ 12) : (s.setJob v).rd F.GLB_JOB.job 0 0 = v := by
  unfold State.setJob
  split
  · next hj => exact hj
  · rw [State.rd_discoverAll, State.rd_wr_same]
    exact Nat.mod_eq_of_lt h

/-! ### A module eclipse -/

/-- What no eclipse changes at once: tiles, memory channels and mailbox payloads. -/
def State.unitsAndMail (s : State) : Tab Nat Tile × Tab Nat Chan × Mem := (s.tiles, s.chans, s.mbx)

theorem State.novaRecord_unitsAndMail (s : State) (job eid reason start : Nat) :
    (s.novaRecord job eid reason start).unitsAndMail = s.unitsAndMail := by
  simp [State.unitsAndMail, State.novaRecord]

theorem State.novaOut_unitsAndMail (s : State) (but : Option Nat) (job eid reason start : Nat) :
    (s.novaOut but job eid reason start).unitsAndMail = s.unitsAndMail := by
  unfold State.novaOut
  refine foldl_keeps _ State.unitsAndMail allPorts (fun n _ c => ?_) s
  dsimp only
  split <;> rfl

/-- The nova of a module eclipse, and the mark that a fence followed on the records that are not yet written. -/
def State.eclipseNova (s : State) (cause : Nat) : State :=
  let s0 := if decide (cause ≠ 7) && s.inJob then
    (s.novaRecord s.job s.eid cause s.sidereal).novaOut none s.job s.eid cause s.sidereal else s
  if cause = 1 then s0.mapRecs Rec.fenced else s0

theorem State.eclipseNova_unitsAndMail (s : State) (cause : Nat) : (s.eclipseNova cause).unitsAndMail = s.unitsAndMail := by
  have hnova : (if decide (cause ≠ 7) && s.inJob then
      (s.novaRecord s.job s.eid cause s.sidereal).novaOut none s.job s.eid cause s.sidereal else s).unitsAndMail = s.unitsAndMail := by
    split
    · rw [State.novaOut_unitsAndMail, State.novaRecord_unitsAndMail]
    · rfl
  unfold State.eclipseNova
  dsimp only
  split
  · exact hnova
  · exact hnova

/-- The fence registers of an eclipse by `cause` in sidereal cycle `since`, and the end of a pending start. -/
def State.eclipseRegs (cause since : Nat) (s : State) : State :=
  (((s.wr F.RST_FENCE.module 0 0 1).wr F.RST_FENCE.cause 0 0 cause).wr F.RST_FENCE.since_lo 0 0 since).wr F.GLB_MODULE_STATE.start_pending 0 0 0

/-- The module enters FENCED and the abort line is driven in cycle `k`; the record's third word is not told here. -/
def State.eclipseEnter (k : Nat) (s : State) : State :=
  (({ s.setMod .fenced with abortAt := some k, ecl := (s.setMod .fenced).ecl ++ [⟨6, 0, k, false⟩] } : State).flag
    F.RST_STATUS.again_count F.RST_STATUS.fence 0 0 1).irq 3

/-- An eclipse is its nova, its registers, the module's entry to FENCED, and a record. -/
theorem State.eclipse_eq (s : State) (cause : Nat) (h : s.Unfenced) :
    ∃ w, s.eclipse cause = (((s.eclipseNova cause).eclipseRegs cause s.sidereal).eclipseEnter s.cycle).obsRec 0x61 0 0 0
      (BitVec.ofNat 64 (6 + cause * 2 ^ 8)) w 0 0 0 0 0 := by
  obtain ⟨hmodule, hdark⟩ := h
  have hno : ¬ (s.rd F.RST_FENCE.module 0 0 = 1 ∨ s.st = .dark) := by
    rintro (h1 | h1)
    · rw [hmodule] at h1
      cases h1
    · exact hdark h1
  refine ⟨if decide (cause ≠ 7) && s.inJob || cause == 7 then
    (((s.eclipseNova cause).eclipseRegs cause s.sidereal).eclipseEnter s.cycle).regWord .RTE_NOVA 0 0 else 0, ?_⟩
  unfold State.eclipse
  rw [if_neg hno]
  rfl

theorem State.eclipseEnter_frame (k : Nat) (s : State) :
    (s.eclipseEnter k).st = .fenced ∧ (s.eclipseEnter k).abortAt = some k ∧ (s.eclipseEnter k).unitsAndMail = s.unitsAndMail := by
  simp [State.eclipseEnter, State.unitsAndMail, State.setMod_st, State.setMod_tiles, State.setMod_chans, State.setMod_mbx]

theorem State.rd_eclipseEnter (k : Nat) (s : State) {g : Fld}
    (h : ∀ f ∈ modFields ++ [F.RST_STATUS.fence, F.RST_STATUS.again_count], f.id ≠ g.id) : (s.eclipseEnter k).rd g 0 0 = s.rd g 0 0 := by
  have hmod : ∀ f ∈ modFields, f.id ≠ g.id := fun f hf => h f (List.mem_append_left _ hf)
  have hfence := h F.RST_STATUS.fence (by decide)
  have hagain := h F.RST_STATUS.again_count (by decide)
  unfold State.eclipseEnter
  rw [State.rd_irq _ 3 (hmod _ (by decide)) (hmod _ (by decide)), State.rd_flag_ne _ _ (by simp [hfence]) (by simp [hagain])]
  exact State.rd_setMod .fenced s 0 0 hmod

theorem State.rd_eclipseEnter_fence (k : Nat) (s : State) : (s.eclipseEnter k).rd F.RST_STATUS.fence 0 0 = 1 := by
  unfold State.eclipseEnter
  rw [State.rd_irq _ 3 (by decide) (by decide)]
  exact State.rd_flag_one _ 0 0 rfl (by decide)

/-- A module eclipse fences the module for its cause (R468, R469). -/
theorem State.eclipse_fencedFor (s : State) (cause : Nat) (hc : cause < 256) (h : s.Unfenced) : s.FencedFor (s.eclipse cause) cause := by
  obtain ⟨w, he⟩ := s.eclipse_eq cause h
  obtain ⟨hst, habort, hunits⟩ := ((s.eclipseNova cause).eclipseRegs cause s.sidereal).eclipseEnter_frame s.cycle
  obtain ⟨htiles, hchans, hmbx⟩ : (s.eclipse cause).tiles = s.tiles ∧ (s.eclipse cause).chans = s.chans ∧ (s.eclipse cause).mbx = s.mbx := by
    have : (s.eclipse cause).unitsAndMail = s.unitsAndMail := by
      rw [he]
      exact hunits.trans (s.eclipseNova_unitsAndMail cause)
    simpa [State.unitsAndMail] using this
  have hrd : ∀ g : Fld, (∀ f ∈ modFields ++ [F.RST_STATUS.fence, F.RST_STATUS.again_count], f.id ≠ g.id) →
      (s.eclipse cause).rd g 0 0 = ((s.eclipseNova cause).eclipseRegs cause s.sidereal).rd g 0 0 := fun g hg => by
    rw [he]
    exact State.rd_eclipseEnter s.cycle _ hg
  refine ⟨?_, ?_, ?_, ?_, ?_, htiles, hchans, hmbx, ?_⟩
  · rw [he]; exact hst
  · rw [hrd _ (by decide), State.eclipseRegs, State.rd_wr_ne _ _ (by decide), State.rd_wr_ne _ _ (by decide), State.rd_wr_ne _ _ (by decide),
      State.rd_wr_same]
    rfl
  · rw [hrd _ (by decide), State.eclipseRegs, State.rd_wr_ne _ _ (by decide), State.rd_wr_ne _ _ (by decide), State.rd_wr_same]
    exact Nat.mod_eq_of_lt hc
  · rw [he]; exact State.rd_eclipseEnter_fence s.cycle _
  · rw [he]; exact habort
  · rw [hrd _ (by decide), State.eclipseRegs, State.rd_wr_same]
    rfl

end Sys2Proof.Machine
end

section
/-! How firmware takes a command from its mailbox, what it checks first, and how it replies (R382, R386, R387). -/
namespace Sys2Proof.Machine

/-! ### Taking and answering -/

/-- Every field of the mailbox registers. -/
def mbxFields : List Fld := Reg.fields .MBX_LOCK ++ Reg.fields .MBX_FLAG ++ Reg.fields .MBX_SENDER ++ Reg.fields .MBX_CMD ++ Reg.fields .MBX_REF

/-- Mailbox `k` after its command has been taken: it is empty, and its lock is free. -/
def State.takeFrom (k : Nat) (s : State) : State := (s.wr F.MBX_FLAG.full k 0 0).wr F.MBX_LOCK.owner k 0 0

theorem State.mbxFlag_take (s : State) (src k : Nat) (hfull : s.full k = true) (hown : s.owner k ≠ src) :
    s.mbxFlag src k false true = s.takeFrom k := by
  unfold State.mbxFlag
  simp [hfull, hown, State.takeFrom]

theorem State.rd_takeFrom (s : State) (k : Nat) {g : Fld} (i j : Nat) (h : ∀ f ∈ mbxFields, f.id ≠ g.id) :
    (s.takeFrom k).rd g i j = s.rd g i j := by
  have hlock := h F.MBX_LOCK.owner (by decide)
  have hfull := h F.MBX_FLAG.full (by decide)
  rw [State.takeFrom, State.rd_wr_ne _ _ (by simp [hlock]), State.rd_wr_ne _ _ (by simp [hfull])]

/-- A mailbox that firmware takes from holds a command, and its reply's mailbox is free (R387). -/
theorem State.canTake_spec {s : State} {k : Nat} (h : s.canTake k = true) : s.full k = true ∧ s.owner (k + 4) = 0 := by
  unfold State.canTake State.eligible at h
  simp only [Bool.and_eq_true, beq_iff_eq] at h
  obtain ⟨⟨⟨⟨-, hfull⟩, -⟩, howner⟩, -⟩ := h
  exact ⟨hfull, howner⟩

/-- The command `c` has been taken and can be answered at once: the reply mailbox's lock is free. -/
def State.Answerable (s : State) (c : Cmd) : Prop := s.Taken c ∧ s.owner (c.k + 4) = 0 ∧ Mem.wf 0 s.mbx = true

theorem State.takeFrom_answerable {s : State} {k : Nat} {c : Cmd} (h : s.Offers k c) : (s.takeFrom k).Answerable c := by
  obtain ⟨-, htake, -, hwf, rfl⟩ := h
  obtain ⟨-, howner⟩ := State.canTake_spec htake
  refine ⟨⟨?_, State.rd_wr_same _ _ _ _ _⟩, ?_, hwf⟩
  · show ((s.takeFrom k).rd F.MBX_FLAG.full k 0 == 1) = false
    rw [State.takeFrom, State.rd_wr_ne _ _ (by simp [F.MBX_FLAG.full, F.MBX_LOCK.owner]), State.rd_wr_same]
    rfl
  · unfold State.owner
    rw [State.takeFrom, State.rd_wr_ne _ _ (by simp [State.posted]), State.rd_wr_ne _ _ (by simp [F.MBX_FLAG.full, F.MBX_LOCK.owner])]
    exact howner

/-- Whether a command can be answered rests on the mailboxes alone. -/
theorem State.Answerable.of_mailboxes {s s' : State} {c : Cmd} (h : s.Answerable c) (hmbx : s'.mbx = s.mbx)
    (hrd : ∀ f ∈ mbxFields, ∀ i j, s'.rd f i j = s.rd f i j) : s'.Answerable c := by
  obtain ⟨⟨hfull, howner⟩, hfree, hwf⟩ := h
  refine ⟨⟨?_, (hrd _ (by decide) _ _).trans howner⟩, (hrd _ (by decide) _ _).trans hfree, hmbx ▸ hwf⟩
  rw [State.full, hrd _ (by decide)]
  exact hfull

theorem State.rd_addWrap (s : State) (f g : Fld) (i j u k n : Nat) :
    (s.addWrap f i j n).rd g u k = if (f.id, i, j) = (g.id, u, k) then (s.rd f i j + n) % 2 ^ f.width else s.rd g u k :=
  RegFile.rd_wr s.regs f g i j u k _

theorem State.post_frame (r : Reply) (s : State) : (s.post r).tiles = s.tiles ∧ (s.post r).st = s.st := by
  simp [State.post]

/-- Posting a reply writes registers of its own mailbox alone. -/
theorem State.rd_post_other (r : Reply) (s : State) (g : Fld) {i : Nat} (j : Nat) (h : r.cmd.k + 4 ≠ i) : (s.post r).rd g i j = s.rd g i j := by
  simp only [State.post, State.rd_addWrap, State.rd_wr, Prod.mk.injEq, h, false_and, and_false, if_false]
  rfl

theorem State.rd_post (r : Reply) (s : State) {g : Fld} (i j : Nat) (h : ∀ f ∈ mbxFields, f.id ≠ g.id) : (s.post r).rd g i j = s.rd g i j := by
  have hlock := h F.MBX_LOCK.owner (by decide)
  have hfull := h F.MBX_FLAG.full (by decide)
  have hsender := h F.MBX_SENDER.sender (by decide)
  have hposts := h F.MBX_SENDER.posts (by decide)
  have hlength := h F.MBX_CMD.length (by decide)
  have hstatus := h F.MBX_CMD.status (by decide)
  have hseq := h F.MBX_CMD.seq (by decide)
  have hcode := h F.MBX_CMD.code (by decide)
  have hreply := h F.MBX_REF.reply_to (by decide)
  simp only [State.post, State.rd_addWrap, State.rd_wr, Prod.mk.injEq, hlock, hfull, hsender, hposts, hlength, hstatus, hseq, hcode, hreply,
    false_and, if_false]
  rfl

/-- A posted reply stands in its mailbox as R386 says. -/
theorem State.post_replied (c : Cmd) (status : Nat) (body : List Byte) (s : State) (hlen : body.length ≤ 4032) (hwf : Mem.wf 0 s.mbx = true) :
    (s.post ⟨c, status, body⟩).Replied c status body := by
  have hbody : body.take 4032 = body := List.take_of_length_le hlen
  have hmem : (s.post ⟨c, status, body⟩).mbx = Mem.putBytes 0 s.mbx ((c.k + 4) * 0x1000 + 0x40) body := by
    simp only [State.post, hbody]
    rfl
  have hlength : body.length % 2 ^ 12 = body.length := Nat.mod_eq_of_lt (by omega)
  have hfields : (s.post ⟨c, status, body⟩).rd F.MBX_FLAG.full (c.k + 4) 0 = 1 ∧ (s.post ⟨c, status, body⟩).rd F.MBX_LOCK.owner (c.k + 4) 0 = 0x10 ∧
      (s.post ⟨c, status, body⟩).rd F.MBX_CMD.status (c.k + 4) 0 = status % 2 ^ 16 ∧
      (s.post ⟨c, status, body⟩).rd F.MBX_CMD.code (c.k + 4) 0 = c.code % 2 ^ 16 ∧
      (s.post ⟨c, status, body⟩).rd F.MBX_CMD.seq (c.k + 4) 0 = c.seq % 2 ^ 16 ∧
      (s.post ⟨c, status, body⟩).rd F.MBX_CMD.length (c.k + 4) 0 = body.length % 2 ^ 12 := by
    simp [State.post, State.rd_addWrap, State.rd_wr, F.MBX_LOCK.owner, F.MBX_FLAG.full, F.MBX_SENDER.sender, F.MBX_SENDER.posts,
      F.MBX_CMD.length, F.MBX_CMD.status, F.MBX_CMD.seq, F.MBX_CMD.code, F.MBX_REF.reply_to, hbody]
  obtain ⟨hfull, howner, hstatus, hcode, hseq, hlen'⟩ := hfields
  refine ⟨by rw [State.full, hfull]; rfl, howner, hstatus, hcode, hseq, hlen'.trans hlength, ?_⟩
  rw [hmem]
  exact Mem.bytes_putBytes 0 body s.mbx _ hwf

theorem State.reply_frame (c : Cmd) (status : Nat) (body : List Byte) (s : State) :
    (s.reply c status body).tiles = s.tiles ∧ (s.reply c status body).st = s.st := by
  unfold State.reply
  dsimp only
  split
  · exact s.post_frame _
  · exact ⟨rfl, rfl⟩

theorem State.rd_reply (c : Cmd) (status : Nat) (body : List Byte) (s : State) {g : Fld} (i j : Nat) (h : ∀ f ∈ mbxFields, f.id ≠ g.id) :
    (s.reply c status body).rd g i j = s.rd g i j := by
  unfold State.reply
  dsimp only
  split
  · exact State.rd_post _ s i j h
  · rfl

/-- An answerable command's reply is posted at once. -/
theorem State.Answerable.reply {s : State} {c : Cmd} (h : s.Answerable c) (status : Nat) {body : List Byte} (hlen : body.length ≤ 4032) :
    (s.reply c status body).Posts c status body := by
  obtain ⟨htaken, hfree, hwf⟩ := h
  have he : s.reply c status body = s.post ⟨c, status, body⟩ := if_pos hfree
  obtain ⟨hfull, howner⟩ := htaken
  have hk : c.k + 4 ≠ c.k := by omega
  rw [he]
  refine ⟨⟨?_, (s.rd_post_other _ _ 0 hk).trans howner⟩, s.post_replied c status body hlen hwf⟩
  rw [State.full, s.rd_post_other _ _ 0 hk]
  exact hfull

/-! ### The checks of R387 -/

/-- A legal command that firmware takes: its payload is judged first, then what else the state must be, then it acts. -/
theorem State.firmware_legal {s : State} {k : Nat} {c : Cmd} (mine : Cmd → Bool) (args state : Cmd → State → Nat) (act : Cmd → State → State)
    (ho : s.Offers k c) (hl : s.Legal c) (hm : mine c = true) :
    s.firmware k mine args state act =
      if args c s ≠ 0 then (s.takeFrom k).reply c (args c s) []
      else if state c s = 1 then ((s.takeFrom k).reply c 1 []).refusedRec c.code
      else if state c s ≠ 0 then (s.takeFrom k).reply c (state c s) []
      else act c (s.takeFrom k) := by
  obtain ⟨-, htake, hown, -, rfl⟩ := ho
  obtain ⟨i, hinfo, hallow, hst, hrom, hheld⟩ := hl
  obtain ⟨hfull, -⟩ := State.canTake_spec htake
  have hlegal : i.legal.contains s.st = true := List.contains_iff_mem.2 hst
  unfold State.firmware
  simp only [htake, hinfo, hm, hallow, hrom, hlegal, hheld, State.mbxFlag_take s 0x10 k hfull hown, Bool.true_eq_false, Bool.false_eq_true,
    false_and, if_false]

end Sys2Proof.Machine
end

section
/-! A job's start: what START checks, and the start cycle (R36 to R39, R108, R226, R242, R308, R502). -/
namespace Sys2Proof.Machine

/-! ### What START checks rests on tiles, ports and its own registers -/

section
variable (s : State) (regs : RegFile)

theorem State.node_regs (t i : Nat) (f : Fld) : ({ s with regs := regs } : State).node t i f = s.node t i f := rfl
theorem State.kidsOf_regs (t i : Nat) : ({ s with regs := regs } : State).kidsOf t i = s.kidsOf t i := rfl
theorem State.neighbour_regs (x y d : Nat) : ({ s with regs := regs } : State).neighbour x y d = s.neighbour x y d := rfl
theorem State.nodeOk_regs (i t : Nat) : ({ s with regs := regs } : State).nodeOk i t = s.nodeOk i t := rfl

theorem State.below_regs (i n t : Nat) : ({ s with regs := regs } : State).below i n t = s.below i n t := by
  induction n generalizing t with
  | zero => rfl
  | succ n ih => simp only [State.below, State.kidsOf_regs, ih]

theorem State.rootOf_regs (i n t : Nat) : ({ s with regs := regs } : State).rootOf i n t = s.rootOf i n t := by
  induction n generalizing t with
  | zero => rfl
  | succ n ih => simp only [State.rootOf, State.node_regs, State.neighbour_regs, ih]

theorem State.treeOk_regs (i t : Nat) : ({ s with regs := regs } : State).treeOk i t = s.treeOk i t := by
  simp only [State.treeOk, State.treeOf, State.below_regs, State.rootOf_regs]
  rfl

theorem State.treesOk_regs : ({ s with regs := regs } : State).treesOk = s.treesOk := by
  simp only [State.treesOk, State.treeOk_regs, State.node_regs]
  rfl

theorem State.channelsOk_regs : ({ s with regs := regs } : State).channelsOk = s.channelsOk := rfl

end

/-- Taking the command changes nothing that START checks. -/
theorem State.takeFrom_checks (s : State) (k : Nat) :
    (s.takeFrom k).treesOk = s.treesOk ∧ (s.takeFrom k).channelsOk = s.channelsOk ∧ (s.takeFrom k).placeOk = s.placeOk := by
  refine ⟨s.treesOk_regs _, s.channelsOk_regs _, ?_⟩
  have hrd : ∀ g : Fld, (∀ f ∈ mbxFields, f.id ≠ g.id) → ∀ i j, (s.takeFrom k).rd g i j = s.rd g i j := fun g h i j => s.rd_takeFrom k i j h
  have hport : ∀ n, (s.takeFrom k).port n = s.port n := fun _ => rfl
  simp only [State.placeOk, State.linkRate, hport, hrd F.RTE_PLACE_NEED.check (by decide), hrd F.GLB_DIST_GEN.gen (by decide),
    hrd F.RTE_PLACE_GEN.dist_gen (by decide), hrd F.MEM_GLB_MAP.gen (by decide), hrd F.RTE_PLACE_GEN.map_gen (by decide),
    hrd F.RTE_PLACE_NEED.need (by decide), hrd F.FAB_PORT_STATE.lanes_active (by decide), hrd F.FAB_PORT_STATE.rate (by decide)]

/-! ### START -/

/-- A payload field of `n` bytes is a number of `n` bytes. -/
theorem Cmd.num_lt (c : Cmd) (off n : Nat) : c.num off n < 2 ^ (8 * n) :=
  (leNat_lt _).trans_le (Nat.pow_le_pow_right (by decide) (Nat.mul_le_mul_left 8 (by simp)))

/-- The state with the accepted start pending, before the reply. -/
def State.acceptStart (c : Cmd) (s : State) : State :=
  (((s.wr F.GLB_START.start 0 0 (c.num 8 8)).wr F.GLB_MODULE_STATE.start_pending 0 0 1).setJob (c.num 0 2)).discoverAll

theorem State.start_accepted (c : Cmd) (s : State) (h1 : s.treesOk = true) (h2 : s.channelsOk = true) (h3 : s.placeOk = true) :
    s.start c = (s.acceptStart c).reply c 0 [] := by
  unfold State.start
  rw [if_neg (by simp [h1, h2]), if_neg (by simp [h3])]
  rfl

theorem State.start_badTrees (c : Cmd) (s : State) (h : s.treesOk = false ∨ s.channelsOk = false) : s.start c = s.reply c 2 [] := if_pos h

theorem State.start_badPlace (c : Cmd) (s : State) (h1 : s.treesOk = true) (h2 : s.channelsOk = true) (h3 : s.placeOk = false) :
    s.start c = (s.flag F.RTE_FLEET_STATUS.again_count F.RTE_FLEET_STATUS.place_refused 0 0 1).reply c 2 [] := by
  unfold State.start
  rw [if_neg (by simp [h1, h2]), if_pos h3]

/-- An accepted start writes GLB_START, the pending mark and GLB_JOB alone. -/
theorem State.rd_acceptStart (c : Cmd) (s : State) {g : Fld} (i j : Nat)
    (h : ∀ f ∈ [F.GLB_START.start, F.GLB_MODULE_STATE.start_pending, F.GLB_JOB.job], f.id ≠ g.id) :
    (s.acceptStart c).rd g i j = s.rd g i j := by
  simp only [List.forall_mem_cons, List.not_mem_nil, false_implies, implies_true, and_true] at h
  obtain ⟨hstart, hpending, hjob⟩ := h
  rw [State.acceptStart, State.rd_discoverAll, State.rd_setJob _ _ _ _ hjob, State.rd_wr_ne _ _ (by simp [hpending]),
    State.rd_wr_ne _ _ (by simp [hstart])]

theorem State.acceptStart_frame (c : Cmd) (s : State) :
    (s.acceptStart c).tiles = s.tiles ∧ (s.acceptStart c).st = s.st ∧ (s.acceptStart c).mbx = s.mbx :=
  State.setJob_frame (c.num 0 2) ((s.wr F.GLB_START.start 0 0 (c.num 8 8)).wr F.GLB_MODULE_STATE.start_pending 0 0 1)

theorem State.acceptStart_pends (c : Cmd) (s : State) (hjob : c.num 0 2 < 0xFFE) :
    (s.acceptStart c).rd F.GLB_JOB.job 0 0 = c.num 0 2 ∧ (s.acceptStart c).rd F.GLB_START.start 0 0 = c.num 8 8 ∧
    (s.acceptStart c).rd F.GLB_MODULE_STATE.start_pending 0 0 = 1 := by
  refine ⟨State.rd_setJob_job _ _ (by omega), ?_, ?_⟩
  · rw [State.acceptStart, State.rd_discoverAll, State.rd_setJob _ _ _ _ (by decide), State.rd_wr_ne _ _ (by decide), State.rd_wr_same]
    exact Nat.mod_eq_of_lt (c.num_lt 8 8)
  · rw [State.acceptStart, State.rd_discoverAll, State.rd_setJob _ _ _ _ (by decide), State.rd_wr_same]
    rfl

/-! ### The start cycle -/

/-- A start whose module has left JOINED is dropped. -/
theorem State.startCycle_dropped (s : State) (hp : s.startPending = true) (ht : s.rd F.GLB_START.start 0 0 ≤ s.sidereal) (hst : s.st ≠ .joined) :
    s.startCycle = ((s.wr F.GLB_MODULE_STATE.start_pending 0 0 0).wr F.GLB_START.start 0 0 0).setJob 0 := by
  unfold State.startCycle
  dsimp only
  rw [if_neg (by simp [hp, ht]), if_pos hst]
  exact if_pos hp

/-- The module as the job begins, before the released tiles enter RUNNING. -/
def State.beginJob (s : State) : State :=
  ((({ s with started := some (s.cycle, s.released.map (fun t => (t, s.tile t))) } : State).wr F.GLB_MODULE_STATE.start_pending 0 0 0).setMod
    .running).newJob

/-- One released tile enters RUNNING at its entry (R108). -/
def State.enterTile (at_ : Nat) (s : State) (t : Nat) : State :=
  s.onTile t fun c tl => (tl.enterRunning { c with cycle := s.cycleOf at_ } s.job (BitVec.ofNat 64 at_), [])

theorem State.startCycle_joined (s : State) (hp : s.startPending = true) (ht : s.rd F.GLB_START.start 0 0 ≤ s.sidereal) (hst : s.st = .joined) :
    s.startCycle = s.released.foldl (State.enterTile (s.rd F.GLB_START.start 0 0)) s.beginJob := by
  unfold State.startCycle
  dsimp only
  rw [if_neg (by simp [hp, ht]), if_neg (by simp [hst])]
  rfl

/-- The fields that a new job's own state lies in. -/
def newJobFields : List Fld :=
  [F.RTE_RANK.counted, F.RTE_RANK.late_count, F.FAB_PORT_STATE.job_port, F.RTE_NOVA.valid, F.ERR_DIGEST_HEAD.stored]

theorem State.markPorts_frame (v : State → Nat → Nat) (l : List Nat) (s : State) :
    (l.foldl (fun s n => s.wr F.FAB_PORT_STATE.job_port n 0 (v s n)) s).st = s.st ∧
    (l.foldl (fun s n => s.wr F.FAB_PORT_STATE.job_port n 0 (v s n)) s).tiles = s.tiles := by
  rw [State.markPorts_same]
  exact ⟨rfl, rfl⟩

theorem State.newJob_frame (s : State) : s.newJob.st = s.st ∧ s.newJob.tiles = s.tiles := by
  simp [State.newJob, State.markPorts_frame (fun s n => ((s.port n).st == .up).toNat)]

theorem State.rd_newJob (s : State) {g : Fld} (i j : Nat) (h : ∀ f ∈ newJobFields, f.id ≠ g.id) : s.newJob.rd g i j = s.rd g i j := by
  simp only [newJobFields, List.forall_mem_cons, List.not_mem_nil, false_implies, implies_true, and_true] at h
  obtain ⟨hcounted, hlate, hport, hnova, hdigest⟩ := h
  unfold State.newJob
  dsimp only
  rw [State.rd_wr_ne _ _ (by simp [hdigest]), State.rd_wr_ne _ _ (by simp [hnova]),
    State.rd_markPorts (fun s n => ((s.port n).st == .up).toNat) _ _ _ _ hport, State.rd_wr_ne _ _ (by simp [hlate]),
    State.rd_wr_ne _ _ (by simp [hcounted])]
  rfl

theorem State.beginJob_frame (s : State) : s.beginJob.st = .running ∧ s.beginJob.tiles = s.tiles := by
  unfold State.beginJob
  rw [(State.newJob_frame _).1, (State.newJob_frame _).2, State.setMod_st, State.setMod_tiles]
  exact ⟨rfl, rfl⟩

/-- The job goes on in GLB_JOB; the module's register shows RUNNING, and no start pends. -/
theorem State.rd_beginJob (s : State) (hst : s.st = .joined) :
    s.beginJob.rd F.GLB_MODULE_STATE.state 0 0 = 4 ∧ s.beginJob.rd F.GLB_MODULE_STATE.start_pending 0 0 = 0 ∧
    s.beginJob.rd F.GLB_JOB.job 0 0 = s.rd F.GLB_JOB.job 0 0 := by
  unfold State.beginJob
  refine ⟨?_, ?_, ?_⟩
  · rw [State.rd_newJob _ _ _ (by decide), State.rd_setMod_state _ _ (by simp [hst])]
    rfl
  · rw [State.rd_newJob _ _ _ (by decide), State.rd_setMod _ _ _ _ (by decide), State.rd_wr_same]
    rfl
  · rw [State.rd_newJob _ _ _ (by decide), State.rd_setMod _ _ _ _ (by decide), State.rd_wr_ne _ _ (by decide)]
    rfl

/-! ### A command on one tile, as the module sees it -/

theorem State.rd_freeLocks_other (s : State) (owner : Nat) {g : Fld} (i j : Nat) (h : F.MBX_LOCK.owner.id ≠ g.id) :
    (s.freeLocks owner).rd g i j = s.rd g i j :=
  foldl_keeps (State.freeLock owner) (fun c : State => c.rd g i j) (List.range 32) (fun _ _ c => c.rd_freeLock_ne owner (by simp [h])) s

theorem State.rd_tileMoved (s : State) (t : Nat) (a b : TileState) {g : Fld} (i j : Nat) (h : F.MBX_LOCK.owner.id ≠ g.id) :
    (s.tileMoved t a b).rd g i j = s.rd g i j := by
  unfold State.tileMoved
  dsimp only
  obtain ⟨w, hw⟩ : ∃ w, (if a = b ∨ (s.tileWas.find t).any (fun w => w.1 == s.cycle / 4) = true then s
      else { s with tileWas := s.tileWas.set t (s.cycle / 4, a) }) = { s with tileWas := w } := by
    split <;> exact ⟨_, rfl⟩
  rw [hw]
  have hfreed : (if b = .offline ∧ a ≠ .offline then ({ s with tileWas := w } : State).freeLocks (tileSrc t)
      else { s with tileWas := w }).rd g i j = s.rd g i j := by
    split
    · exact State.rd_freeLocks_other _ _ i j h
    · rfl
  split
  · exact hfreed
  · exact hfreed

/-- The tile reads as the command left it. -/
theorem State.tile_withTile (s : State) (t : Nat) (x : Tile) (o : List Out) : (s.withTile t x o).tile t = x := by
  unfold State.withTile
  rw [State.emits_sameBeside false t (s.seenOuts t ++ o), State.tileMoved_same]
  exact Tab.get_set_same _ _ _ _

/-- Of the module's registers a tile command can free mailbox locks alone. -/
theorem State.rd_withTile (s : State) (t : Nat) (x : Tile) (o : List Out) {g : Fld} (i j : Nat) (h : F.MBX_LOCK.owner.id ≠ g.id) :
    (s.withTile t x o).rd g i j = s.rd g i j := by
  unfold State.withTile
  rw [State.emits_sameBeside false t (s.seenOuts t ++ o)]
  exact State.rd_tileMoved _ t _ _ i j h

/-- Tile `t` enters RUNNING in the module's job; every other tile, the module's state and its registers but mailbox locks stay. -/
theorem State.enterTile_spec (s : State) (at_ : Nat) {t : Nat} (ht : t < 2304) :
    ((s.enterTile at_ t).tile t).st = .running ∧ ((s.enterTile at_ t).tile t).seq.job = s.job ∧
    (∀ u, u ≠ t → (s.enterTile at_ t).tile u = s.tile u) ∧ (s.enterTile at_ t).st = s.st ∧
    ∀ (g : Fld) (i j : Nat), F.MBX_LOCK.owner.id ≠ g.id → (s.enterTile at_ t).rd g i j = s.rd g i j := by
  unfold State.enterTile
  rw [State.onTile_eq s t _ ht, State.tile_withTile]
  obtain ⟨hother, -, -, -, -, -, hst, -⟩ := s.withTile_onlyTile t
    ((s.seen t).enterRunning { s.ctx t with cycle := s.cycleOf at_ } s.job (BitVec.ofNat 64 at_)) []
  exact ⟨rfl, rfl, hother, hst, fun g i j h => s.rd_withTile t _ _ i j h⟩

/-- All released tiles enter RUNNING. -/
theorem State.enterTiles_frame (at_ : Nat) (l : List Nat) (hl : ∀ t ∈ l, t < 2304) (s : State) :
    (l.foldl (State.enterTile at_) s).st = s.st ∧
    (∀ (g : Fld) (i j : Nat), F.MBX_LOCK.owner.id ≠ g.id → (l.foldl (State.enterTile at_) s).rd g i j = s.rd g i j) ∧
    (∀ t, t ∉ l → (l.foldl (State.enterTile at_) s).tile t = s.tile t) := by
  refine ⟨foldl_keeps _ State.st l (fun t ht c => ?_) s, fun g i j h => foldl_keeps _ (fun c : State => c.rd g i j) l (fun t ht c => ?_) s,
    fun u hu => foldl_keeps _ (fun c : State => c.tile u) l (fun t ht c => ?_) s⟩
  · obtain ⟨-, -, -, hst, -⟩ := c.enterTile_spec at_ (hl t ht)
    exact hst
  · obtain ⟨-, -, -, -, hrd⟩ := c.enterTile_spec at_ (hl t ht)
    exact hrd g i j h
  · obtain ⟨-, -, hother, -⟩ := c.enterTile_spec at_ (hl t ht)
    exact hother u (fun he => hu (he ▸ ht))

theorem State.enterTiles_run (at_ : Nat) (l : List Nat) (hl : ∀ t ∈ l, t < 2304) (hn : l.Nodup) (s : State) {t : Nat} (ht : t ∈ l) :
    ((l.foldl (State.enterTile at_) s).tile t).st = .running ∧ ((l.foldl (State.enterTile at_) s).tile t).seq.job = s.job := by
  have hother : ∀ u ∈ l, u ≠ t → ∀ c : State, ((c.enterTile at_ u).tile t, (c.enterTile at_ u).job) = (c.tile t, c.job) := by
    intro u hu hne c
    obtain ⟨-, -, htile, -, hrd⟩ := c.enterTile_spec at_ (hl u hu)
    exact Prod.ext (htile t hne.symm) (hrd F.GLB_JOB.job 0 0 (by decide))
  obtain ⟨c, hc, hs⟩ := foldl_only_at (State.enterTile at_) (fun c : State => (c.tile t, c.job)) l t ht hn hother s
  obtain ⟨hst, hjob, -⟩ := c.enterTile_spec at_ (hl t ht)
  rw [(Prod.mk.inj hs).1]
  exact ⟨hst, hjob.trans (Prod.mk.inj hc).2⟩

end Sys2Proof.Machine
end

section
/-! START, the start cycle, the drain and the end of a job (R36 to R39, R108, R332, R473, R474, R518). -/
namespace Sys2Proof.Proofs
open Sys2Proof.Machine

/-! ### START -/

theorem start_firmware {s : State} {k : Nat} {c : Cmd} (ho : s.Offers k c) (hl : s.Legal c) (hcode : c.code = 0x10) :
    exec (.start k) s = .next (if startArgs c s ≠ 0 then (s.takeFrom k).reply c (startArgs c s) []
      else if startState c s = 1 then ((s.takeFrom k).reply c 1 []).refusedRec c.code
      else if startState c s ≠ 0 then (s.takeFrom k).reply c (startState c s) []
      else (s.takeFrom k).start c) :=
  congrArg Host.Outcome.next (State.firmware_legal (fun c => c.code == 0x10) startArgs startState State.start ho hl (by simp [hcode]))

/-- A start refused with `status` leaves the job, the pending mark and the tiles as they were. -/
theorem refused_start_spec {s : State} {k : Nat} {c : Cmd} (ho : s.Offers k c) (status : Nat) :
    ((s.takeFrom k).reply c status []).Posts c status [] ∧
    ((s.takeFrom k).reply c status []).startPending = s.startPending ∧
    ((s.takeFrom k).reply c status []).rd F.GLB_JOB.job 0 0 = s.rd F.GLB_JOB.job 0 0 ∧
    ((s.takeFrom k).reply c status []).tiles = s.tiles := by
  have hrd : ∀ g : Fld, (∀ f ∈ mbxFields, f.id ≠ g.id) → ((s.takeFrom k).reply c status []).rd g 0 0 = s.rd g 0 0 := fun g h =>
    (State.rd_reply c status [] _ 0 0 h).trans (s.rd_takeFrom k 0 0 h)
  obtain ⟨htiles, -⟩ := State.reply_frame c status [] (s.takeFrom k)
  refine ⟨(State.takeFrom_answerable ho).reply status (by simp), ?_, hrd _ (by decide), htiles⟩
  unfold State.startPending
  rw [hrd _ (by decide)]

/-- START with a payload out of range, or a start too near, is BAD_ARGUMENT. -/
theorem start_badArgument {s : State} {k : Nat} {c : Cmd} (ho : s.Offers k c) (hl : s.Legal c) (hcode : c.code = 0x10)
    (hbad : c.len ≠ 16 ∨ c.num 0 2 = 0 ∨ 0xFFE ≤ c.num 0 2 ∨ c.zero 2 7 = false ∨ c.num 8 8 < s.sidereal + 200000) :
    exec (.start k) s = .next ((s.takeFrom k).reply c 2 []) := by
  have hargs : startArgs c s = 2 := by
    refine if_neg ?_
    rintro ⟨hlen, hjob, hmax, hzero, hfar⟩
    simp only [hzero, Bool.true_eq_false, false_or] at hbad
    omega
  rw [start_firmware ho hl hcode, hargs, if_pos (by decide)]

section
/-! The payload of START is good (R38). -/
variable {s : State} {k : Nat} {c : Cmd} (ho : s.Offers k c) (hl : s.Legal c) (hcode : c.code = 0x10) (hargs : startArgs c s = 0)
include ho hl hcode hargs

/-- Time, an emergency or throttling refuses the start with WRONG_STATE, and a record (R332, R518). -/
theorem start_wrongState (h : s.timeSt = 1 ∨ s.timeSt = 3 ∨ s.timeSt = 4 ∨ s.holding = true ∨ s.level ≠ 0) :
    exec (.start k) s = .next (((s.takeFrom k).reply c 1 []).refusedRec c.code) := by
  have hstate : startState c s = 1 := if_pos h
  rw [start_firmware ho hl hcode, hargs, if_neg (by simp), hstate, if_pos rfl]

theorem start_busy (h : ¬ (s.timeSt = 1 ∨ s.timeSt = 3 ∨ s.timeSt = 4 ∨ s.holding = true ∨ s.level ≠ 0)) (hp : s.startPending = true) :
    exec (.start k) s = .next ((s.takeFrom k).reply c 3 []) := by
  have hstate : startState c s = 3 := (if_neg h).trans (if_pos hp)
  rw [start_firmware ho hl hcode, hargs, if_neg (by simp), hstate, if_neg (by decide), if_pos (by decide)]

theorem start_acts (h : ¬ (s.timeSt = 1 ∨ s.timeSt = 3 ∨ s.timeSt = 4 ∨ s.holding = true ∨ s.level ≠ 0)) (hp : s.startPending = false) :
    exec (.start k) s = .next ((s.takeFrom k).start c) := by
  have hstate : startState c s = 0 := (if_neg h).trans (if_neg (by simp [hp]))
  rw [start_firmware ho hl hcode, hargs, if_neg (by simp), hstate, if_neg (by decide), if_neg (by simp)]

end

/-- Trees, channels and place are good: the start pends, and the sender is answered OK. -/
theorem accepted_start_spec {s : State} {k : Nat} {c : Cmd} (ho : s.Offers k c) (hjob : c.num 0 2 < 0xFFE) (htrees : s.treesOk = true)
    (hchans : s.channelsOk = true) (hplace : s.placeOk = true) :
    ((s.takeFrom k).start c).Posts c 0 [] ∧ ((s.takeFrom k).start c).rd F.GLB_JOB.job 0 0 = c.num 0 2 ∧
    ((s.takeFrom k).start c).rd F.GLB_START.start 0 0 = c.num 8 8 ∧ ((s.takeFrom k).start c).startPending = true ∧
    ((s.takeFrom k).start c).st = s.st ∧ ((s.takeFrom k).start c).tiles = s.tiles := by
  obtain ⟨ht, hc, hp⟩ := s.takeFrom_checks k
  rw [State.start_accepted c _ (ht.trans htrees) (hc.trans hchans) (hp.trans hplace)]
  obtain ⟨htiles, hst, hmbx⟩ := State.acceptStart_frame c (s.takeFrom k)
  obtain ⟨hj, hstart, hpend⟩ := State.acceptStart_pends c (s.takeFrom k) hjob
  have hanswer : ((s.takeFrom k).acceptStart c).Answerable c := (State.takeFrom_answerable ho).of_mailboxes hmbx fun f hf i j =>
    State.rd_acceptStart c _ i j fun g hg => (by decide : ∀ f ∈ mbxFields, ∀ g ∈ [F.GLB_START.start, F.GLB_MODULE_STATE.start_pending,
      F.GLB_JOB.job], g.id ≠ f.id) f hf g hg
  obtain ⟨htilesReply, hstReply⟩ := State.reply_frame c 0 [] ((s.takeFrom k).acceptStart c)
  refine ⟨hanswer.reply 0 (by simp), ?_, ?_, ?_, hstReply.trans hst, htilesReply.trans htiles⟩
  · rw [State.rd_reply _ _ _ _ _ _ (by decide), hj]
  · rw [State.rd_reply _ _ _ _ _ _ (by decide), hstart]
  · rw [State.startPending, State.rd_reply _ _ _ _ _ _ (by decide), hpend]
    rfl

/-- A place that does not hold refuses the start, and RTE_FLEET_STATUS shows it (R502). -/
theorem misplaced_start_spec {s : State} {k : Nat} {c : Cmd} (ho : s.Offers k c) (htrees : s.treesOk = true) (hchans : s.channelsOk = true)
    (hplace : s.placeOk = false) :
    ((s.takeFrom k).start c).Posts c 2 [] ∧ ((s.takeFrom k).start c).startPending = s.startPending ∧
    ((s.takeFrom k).start c).rd F.RTE_FLEET_STATUS.place_refused 0 0 = 1 := by
  obtain ⟨ht, hc, hp⟩ := s.takeFrom_checks k
  rw [State.start_badPlace c _ (ht.trans htrees) (hc.trans hchans) (hp.trans hplace)]
  have hids : ∀ f ∈ mbxFields, F.RTE_FLEET_STATUS.place_refused.id ≠ f.id ∧ F.RTE_FLEET_STATUS.again_count.id ≠ f.id := by decide
  refine ⟨((State.takeFrom_answerable ho).of_mailboxes (by simp) fun f hf i j => ?_).reply 2 (by simp), ?_, ?_⟩
  · obtain ⟨hrefused, hagain⟩ := hids f hf
    exact State.rd_flag_ne _ _ (by simp [hrefused]) (by simp [hagain])
  · rw [State.startPending, State.rd_reply _ _ _ _ _ _ (by decide), State.rd_flag_ne _ _ (by decide) (by decide),
      s.rd_takeFrom k _ _ (by decide)]
    rfl
  · rw [State.rd_reply _ _ _ _ _ _ (by decide), State.rd_flag_one _ _ _ rfl (by decide)]

/-! ### The start cycle -/

/-- The module and every released tile enter RUNNING in the job that GLB_JOB names. -/
theorem startCycle_runs {s : State} (hp : s.startPending = true) (ht : s.rd F.GLB_START.start 0 0 ≤ s.sidereal) (hst : s.st = .joined)
    (hn : s.released.Nodup) (hl : ∀ t ∈ s.released, t < 2304) :
    s.startCycle.st = .running ∧ s.startCycle.startPending = false ∧ s.startCycle.rd F.GLB_MODULE_STATE.state 0 0 = 4 ∧
    s.startCycle.rd F.GLB_JOB.job 0 0 = s.rd F.GLB_JOB.job 0 0 ∧
    (∀ t ∈ s.released, (s.startCycle.tile t).st = .running ∧ (s.startCycle.tile t).seq.job = s.job) ∧
    (∀ t, t ∉ s.released → s.startCycle.tile t = s.tile t) := by
  rw [s.startCycle_joined hp ht hst]
  obtain ⟨hrun, htiles⟩ := s.beginJob_frame
  obtain ⟨hstate, hpending, hjob⟩ := s.rd_beginJob hst
  obtain ⟨hstFold, hrdFold, hotherFold⟩ := State.enterTiles_frame (s.rd F.GLB_START.start 0 0) s.released hl s.beginJob
  refine ⟨hstFold.trans hrun, ?_, ?_, ?_, fun t hr => ?_, fun t hr => ?_⟩
  · rw [State.startPending, hrdFold _ _ _ (by decide), hpending]
    rfl
  · rw [hrdFold _ _ _ (by decide), hstate]
  · rw [hrdFold _ _ _ (by decide), hjob]
  · obtain ⟨hrunning, hseq⟩ := State.enterTiles_run (s.rd F.GLB_START.start 0 0) s.released hl hn s.beginJob hr
    exact ⟨hrunning, hseq.trans hjob⟩
  · rw [hotherFold t hr, State.tile, htiles]
    rfl

/-- A module that has left JOINED drops the start: no job, and nothing pends. -/
theorem startCycle_drops {s : State} (hp : s.startPending = true) (ht : s.rd F.GLB_START.start 0 0 ≤ s.sidereal) (hst : s.st ≠ .joined) :
    s.startCycle.startPending = false ∧ s.startCycle.rd F.GLB_JOB.job 0 0 = 0 ∧ s.startCycle.st = s.st ∧ s.startCycle.tiles = s.tiles := by
  rw [s.startCycle_dropped hp ht hst]
  obtain ⟨htiles, hstJob, -⟩ := State.setJob_frame 0 ((s.wr F.GLB_MODULE_STATE.start_pending 0 0 0).wr F.GLB_START.start 0 0 0)
  refine ⟨?_, State.rd_setJob_job _ _ (by decide), hstJob, htiles⟩
  rw [State.startPending, State.rd_setJob _ _ _ _ (by decide), State.rd_wr_ne _ _ (by decide), State.rd_wr_same]
  rfl

/-! ### The end of the job -/

theorem jobDrainBegin_drains {s : State} (hst : s.st = .running) (hstop : s.allStopped = true) (hf : s.jobFenced = false) :
    ∃ s', exec .jobDrainBegin s = .next s' ∧ s'.st = .draining ∧ s'.drainBegan = s.cycle ∧ s'.tiles = s.tiles ∧
      s'.rd F.GLB_JOB.job 0 0 = s.rd F.GLB_JOB.job 0 0 := by
  refine ⟨({ s with drainBegan := s.cycle } : State).setMod .draining, ?_, State.setMod_st _ _, ?_, State.setMod_tiles _ _,
    State.rd_setMod _ _ _ _ (by decide)⟩
  · exact congrArg Host.Outcome.next ((if_pos ⟨hst, hstop⟩).trans (if_neg (by simp [hf])))
  · rw [State.setMod_same]

theorem jobDrainBegin_fences {s : State} (hst : s.st = .running) (hstop : s.allStopped = true) (hf : s.jobFenced = true) (hu : s.Unfenced) :
    ∃ s', exec .jobDrainBegin s = .next s' ∧ s.FencedFor s' 6 :=
  ⟨s.eclipse 6, congrArg Host.Outcome.next ((if_pos ⟨hst, hstop⟩).trans (if_pos hf)), s.eclipse_fencedFor 6 (by decide) hu⟩

theorem drainingEnd_joins {s : State} (hst : s.st = .draining) (hq : s.quiet = true) :
    ∃ s', exec .drainingEnd s = .next s' ∧ s'.st = .joined ∧ s'.rd F.GLB_JOB.job 0 0 = 0 ∧ s'.rd F.GLB_START.start 0 0 = 0 ∧
      s'.tiles = s.tiles := by
  refine ⟨s.endJob.setMod .joined, congrArg Host.Outcome.next (if_pos ⟨hst, hq⟩), State.setMod_st _ _, ?_, ?_, ?_⟩
  · rw [State.rd_setMod _ _ _ _ (by decide), State.endJob, State.rd_setJob_job _ _ (by decide)]
  · rw [State.rd_setMod _ _ _ _ (by decide), State.endJob, State.rd_setJob _ _ _ _ (by decide), State.rd_wr_same]
    rfl
  · obtain ⟨htiles, -⟩ := State.setJob_frame 0 (s.wr F.GLB_START.start 0 0 0)
    exact (State.setMod_tiles _ _).trans htiles

theorem drainingEnd_waits {s : State} (hq : s.quiet = false) : exec .drainingEnd s = .next s :=
  congrArg Host.Outcome.next (if_neg (by simp [hq]))

theorem drainingTimeout_fences {s : State} (hst : s.st = .draining) (ht : s.drainBegan + 2000000 ≤ s.cycle) (hu : s.Unfenced) :
    ∃ s', exec .drainingTimeout s = .next s' ∧ s.FencedFor s' 6 :=
  ⟨s.eclipse 6, congrArg Host.Outcome.next (if_pos ⟨hst, ht⟩), s.eclipse_fencedFor 6 (by decide) hu⟩

/-- Settles O48, clause by clause. -/
theorem jobLife : Obligations.JobLife := by
  unfold Obligations.JobLife
  refine ⟨fun s k c ho hl hcode hlen hjob hmax hzero hfar => ?payload, fun s k c ho hl hcode hbad => ?badArgument,
    fun s hp ht => ⟨fun hst hn hr => ?runs, fun hst => ⟨_, rfl, startCycle_drops hp ht hst⟩⟩,
    fun s => ⟨jobDrainBegin_drains, jobDrainBegin_fences, drainingEnd_joins, fun _ => drainingEnd_waits, drainingTimeout_fences⟩⟩
  case badArgument => exact ⟨_, start_badArgument ho hl hcode hbad, refused_start_spec ho 2⟩
  case runs =>
    obtain ⟨hrun, hpending, hstate, hjob, hreleased, hother⟩ := startCycle_runs hp ht hst hn hr
    exact ⟨_, rfl, hrun, hpending, hstate, hjob, fun t htile _ => hreleased t htile, hother⟩
  case payload =>
    have hargs : startArgs c s = 0 := if_pos ⟨hlen, hjob, hmax, hzero, hfar⟩
    refine ⟨fun h1 h3 h4 hhold hlevel hp => ?free, fun h => ?wrongState, fun h1 h3 h4 hhold hlevel hp => ?busy⟩
    case free =>
      have hacts := start_acts ho hl hcode hargs (by simp [h1, h3, h4, hhold, hlevel]) hp
      refine ⟨fun htrees hchans hplace => ⟨_, hacts, accepted_start_spec ho hmax htrees hchans hplace⟩, fun hbad => ?_,
        fun htrees hchans hplace => ?_⟩
      · obtain ⟨ht, hc, -⟩ := s.takeFrom_checks k
        rw [State.start_badTrees c (s.takeFrom k) (by rwa [ht, hc])] at hacts
        obtain ⟨hposts, hpending, -, htiles⟩ := refused_start_spec ho 2
        exact ⟨_, hacts, hposts, hpending.trans hp, htiles⟩
      · obtain ⟨hposts, hpending, hrefused⟩ := misplaced_start_spec ho htrees hchans hplace
        exact ⟨_, hacts, hposts, hpending.trans hp, hrefused⟩
    case wrongState =>
      obtain ⟨hposts, hpending, -, htiles⟩ := refused_start_spec ho 1
      exact ⟨_, start_wrongState ho hl hcode hargs h, hposts, hpending, htiles⟩
    case busy =>
      obtain ⟨hposts, hpending, hjobKept, htiles⟩ := refused_start_spec ho 3
      exact ⟨_, start_busy ho hl hcode hargs (by simp [h1, h3, h4, hhold, hlevel]) hp, hposts, hpending.trans hp, hjobKept, htiles⟩

end Sys2Proof.Proofs
end

section
/-! A tile's lattice in one cycle: what setting status bits, drawing rounding words and counting firings leave of it, and how a unit's
outputs pass or hold their tokens (R68, R74, R75, R120, R121, R126, R153, R155). -/
namespace Sys2Proof.Machine

/-! ### Numeric status and rounding words -/

@[simp] theorem Tile.lat_numFlag (tl : Tile) (c : Ctx) (f : Fld) : (tl.numFlag c f).lat = tl.lat := by
  unfold Tile.numFlag
  dsimp only
  split <;> rfl

@[simp] theorem Tile.lat_numFlagIf (tl : Tile) (c : Ctx) (b : Bool) (f : Fld) : (tl.numFlagIf c b f).lat = tl.lat := by
  unfold Tile.numFlagIf
  split
  · exact tl.lat_numFlag c f
  · rfl

theorem Tile.regs_numFlag (tl : Tile) (c : Ctx) (f : Fld) :
    (tl.numFlag c f).regs = tl.regs.hwSet F.TIL_NUM_STATUS.again_count f 0 0 c.cycle 1 := by
  unfold Tile.numFlag
  dsimp only
  split <;> rfl

/-- A numeric status bit that hardware sets reads 1 (R10). -/
theorem Tile.rd_numFlag_same (tl : Tile) (c : Ctx) {f : Fld} (hf : F.TIL_NUM_STATUS.again_count.id ≠ f.id) (hw : f.width = 1) :
    (tl.numFlag c f).rd f 0 = 1 := by
  unfold Tile.rd
  rw [Tile.regs_numFlag, RegFile.rd_hwSet_same _ 0 0 _ _ hf, hw, pow_one, Nat.mod_two_eq_one_iff_testBit_zero]
  simp

theorem Tile.rd_numFlagIf_ne (tl : Tile) (c : Ctx) (b : Bool) {f g : Fld} (j : Nat) (hf : f.id ≠ g.id)
    (ha : F.TIL_NUM_STATUS.again_count.id ≠ g.id) : (tl.numFlagIf c b f).rd g j = tl.rd g j := by
  unfold Tile.numFlagIf
  split
  · unfold Tile.rd
    rw [Tile.regs_numFlag, RegFile.rd_hwSet_ne _ _ _ (by simp [hf]) (by simp [ha])]
  · rfl

@[simp] theorem Tile.lat_draw (tl : Tile) (c : Ctx) (o : OpBlk) (k : Nat) : (tl.draw c o k).2.lat = tl.lat := by
  unfold Tile.draw
  dsimp only
  repeat' split
  all_goals rfl

theorem Tile.rd_addWrap_ne (tl : Tile) {f g : Fld} (n k j : Nat) (h : f.id ≠ g.id) : (tl.addWrap f n k).rd g j = tl.rd g j :=
  RegFile.rd_wr_ne tl.regs _ (by simp [h])

/-- Drawing rounding words moves the rounding counters and no other register. -/
theorem Tile.rd_draw_ne (tl : Tile) (c : Ctx) (o : OpBlk) (k : Nat) {g : Fld} (j : Nat) (h : F.TIL_SR_COUNT.count.id ≠ g.id) :
    (tl.draw c o k).2.rd g j = tl.rd g j := by
  unfold Tile.draw
  dsimp only
  split
  · split
    · split
      · rfl
      · exact tl.rd_addWrap_ne _ _ j h
    · exact tl.rd_addWrap_ne _ _ j h
  · rfl

/-! ### Units -/

theorem Tile.unit_setUnit (tl : Tile) (u v : Nat) (x : LUnit) : (tl.setUnit u x).unit v = if u = v then x else tl.unit v :=
  Tab.get_set _ _ _ _ _

@[simp] theorem Tile.unit_setUnit_same (tl : Tile) (u : Nat) (x : LUnit) : (tl.setUnit u x).unit u = x := by simp [Tile.unit_setUnit]

theorem Tile.unit_of_lat {a b : Tile} (h : a.lat = b.lat) (v : Nat) : a.unit v = b.unit v := by
  unfold Tile.unit
  rw [h]

/-- A unit set to one with the same queues and links: every unit has its own as before. -/
theorem Tile.inq_setUnit {tl : Tile} {u : Nat} {x : LUnit} (h : x.inq = (tl.unit u).inq) (v : Nat) :
    ((tl.setUnit u x).unit v).inq = (tl.unit v).inq := by
  rw [Tile.unit_setUnit]
  split
  · next hv => rw [h, hv]
  · rfl

@[simp] theorem Tile.cfg_setUnit (tl : Tile) (u : Nat) (x : LUnit) : (tl.setUnit u x).lat.cfg = tl.lat.cfg := rfl
@[simp] theorem Tile.rd_setUnit (tl : Tile) (u : Nat) (x : LUnit) (g : Fld) (j : Nat) : (tl.setUnit u x).rd g j = tl.rd g j := rfl

/-- A lattice counter's step that leaves the lattice, or some register, leaves it whether or not the counter is being cleared (R155). -/
theorem Tile.latCount_keeps {α : Type} (view : Tile → α) (c : Ctx) (f : Tile → Tile) (tl : Tile) (h : view (f tl) = view tl) :
    view (tl.latCount c f) = view tl := by
  unfold Tile.latCount
  split
  · rfl
  · exact h

/-! ### Tokens on the links -/

/-- What the destinations `ds` of a token put on the links to unit `v`, the token having left in cycle `k` (R120). -/
def linked (k : Nat) (tok : Tok) (v : Nat) (ds : List (Nat × Nat)) : List (Nat × Nat × Tok) :=
  (ds.filter (fun d => d.1 == v)).map (fun d => (d.2, k + 2, tok))

/-- A unit whose inputs have been given some tokens more. -/
def LUnit.given (l : List (Nat × Nat × Tok)) (x : LUnit) : LUnit := { x with inq := x.inq ++ l }

theorem LUnit.given_given (x : LUnit) (l m : List (Nat × Nat × Tok)) : (x.given l).given m = x.given (l ++ m) := by
  simp [LUnit.given]

/-- A token given to its destinations stands last on their links, and nothing else of the units has changed. -/
theorem Tile.unit_feed (k : Nat) (tok : Tok) (v : Nat) (ds : List (Nat × Nat)) (tl : Tile) :
    (tl.feed k tok ds).unit v = (tl.unit v).given (linked k tok v ds) := by
  induction ds generalizing tl with
  | nil => simp [Tile.feed, linked, LUnit.given]
  | cons d ds ih =>
    obtain ⟨u, i⟩ := d
    rw [Tile.feed, ih, Tile.unit_setUnit]
    by_cases h : u = v
    · subst h
      simp [linked, LUnit.given]
    · simp [linked, h]

theorem Tile.regs_feed (k : Nat) (tok : Tok) (ds : List (Nat × Nat)) (tl : Tile) : (tl.feed k tok ds).regs = tl.regs := by
  induction ds generalizing tl with
  | nil => rfl
  | cons d ds ih => exact ih _

/-- The same for all the tokens that leave a unit in one cycle. -/
theorem Tile.unit_feeds (k v : Nat) (dests : Nat → List (Nat × Nat)) (l : List (Nat × Tok)) (tl : Tile) :
    (l.foldl (fun t q => t.feed k q.2 (dests q.1)) tl).unit v = (tl.unit v).given (l.flatMap (fun q => linked k q.2 v (dests q.1))) := by
  induction l generalizing tl with
  | nil => simp [LUnit.given]
  | cons q l ih => rw [List.foldl_cons, ih, Tile.unit_feed, LUnit.given_given, List.flatMap_cons]

/-! ### Passing and holding -/

/-- The tokens that are to leave a unit in this cycle, each with its output. -/
def LUnit.leaving (c : Ctx) (x : LUnit) : List (Nat × Tok) :=
  (x.pipe.filter (fun p => decide (p.2.1 ≤ c.cycle))).map (fun p => (p.1, p.2.2))

/-- A unit without the tokens that have left it. -/
def LUnit.left (c : Ctx) (x : LUnit) : LUnit := { x with pipe := x.pipe.filter (fun p => decide (c.cycle < p.2.1)) }

/-- Where every input fed has room, the tokens that are ready pass to their links (R121). -/
theorem Tile.passUnit_room {c : Ctx} {u : Nat} {tl : Tile} (h : tl.HasRoom u ((tl.unit u).leaving c)) :
    tl.passUnit c u = ((tl.unit u).leaving c).foldl (fun t q => t.feed c.cycle q.2 (tl.lat.cfg.dests u q.1))
      (tl.setUnit u ((tl.unit u).left c)) := by
  rw [LUnit.leaving, List.foldl_map]
  refine if_pos ?_
  rw [List.isEmpty_iff, List.filter_eq_nil_iff]
  intro p hp
  simpa using h (p.1, p.2.2) (List.mem_map_of_mem hp)

/-- Where some input has none, all of them hold, and the counts of R153 take note (R121). -/
theorem Tile.passUnit_full {c : Ctx} {u : Nat} {tl : Tile} (h : ¬ tl.HasRoom u ((tl.unit u).leaving c)) :
    ∃ full, tl.passUnit c u = (tl.setUnit u ((tl.unit u).holds c.cycle)).imbalance c u full := by
  refine ⟨_, if_neg fun hnil => h ?_⟩
  rw [List.isEmpty_iff, List.filter_eq_nil_iff] at hnil
  intro q hq
  obtain ⟨p, hp, rfl⟩ := List.mem_map.1 hq
  simpa using hnil p hp

/-- The imbalance count is register state alone (R153). -/
theorem Tile.lat_imbalance (c : Ctx) (u : Nat) (full : List (Nat × Nat × Tok)) (tl : Tile) : (tl.imbalance c u full).lat = tl.lat := by
  unfold Tile.imbalance
  dsimp only
  split
  · exact Tile.latCount_keeps Tile.lat c _ tl rfl
  · rfl

theorem Tile.rd_imbalance_ne (c : Ctx) (u : Nat) (full : List (Nat × Nat × Tok)) (tl : Tile) {g : Fld} (j : Nat)
    (h : ∀ f ∈ Reg.fields .TIL_LAT_IMBAL, f.id ≠ g.id) : (tl.imbalance c u full).rd g j = tl.rd g j := by
  simp only [Reg.fields, List.forall_mem_cons, List.not_mem_nil, false_implies, implies_true, and_true] at h
  obtain ⟨hinput, hunit, hcycles⟩ := h
  unfold Tile.imbalance
  dsimp only
  split
  · refine Tile.latCount_keeps (fun t => t.rd g j) c _ tl ?_
    rw [Tile.rd_wr, if_neg (by simp [hinput]), Tile.rd_wr, if_neg (by simp [hunit])]
    exact RegFile.rd_addSat_ne _ _ (by simp [hcycles])
  · rfl

/-- Passing or holding its outputs changes no register but the unit's imbalance count. -/
theorem Tile.rd_passUnit_ne (c : Ctx) (u : Nat) (tl : Tile) {g : Fld} (j : Nat) (h : ∀ f ∈ Reg.fields .TIL_LAT_IMBAL, f.id ≠ g.id) :
    (tl.passUnit c u).rd g j = tl.rd g j := by
  by_cases hroom : tl.HasRoom u ((tl.unit u).leaving c)
  · rw [Tile.passUnit_room hroom]
    exact foldl_keeps _ (fun t : Tile => t.rd g j) _ (fun p _ t => by rw [Tile.rd, Tile.regs_feed]; rfl) _
  · obtain ⟨full, hpass⟩ := Tile.passUnit_full hroom
    rw [hpass, Tile.rd_imbalance_ne c u full _ j h, Tile.rd_setUnit]

/-- Neither passing nor holding its outputs changes a unit's tag counter. -/
theorem Tile.genTag_passUnit (c : Ctx) (u : Nat) (tl : Tile) : ((tl.passUnit c u).unit u).genTag = (tl.unit u).genTag := by
  by_cases hroom : tl.HasRoom u ((tl.unit u).leaving c)
  · rw [Tile.passUnit_room hroom, Tile.unit_feeds, Tile.unit_setUnit_same]
    rfl
  · obtain ⟨full, hpass⟩ := Tile.passUnit_full hroom
    rw [hpass, Tile.unit_of_lat (Tile.lat_imbalance c u full _), Tile.unit_setUnit_same]
    rfl

/-! ### Generated tokens -/

/-- The tokens that a generating unit emits, each with its output (R126). -/
def genToks (b : Tile) (tag : BitVec 8) (outs : List (Nat × Nat × Nat)) : List (Nat × Tok) :=
  outs.map (fun q => (q.1, ⟨q.2.1, BitVec.ofNat 512 q.2.2, tag, b.lat.cfg.phase⟩))

/-- A unit with tokens at the end of its pipeline that are on its outputs in cycle `k`. -/
def LUnit.loaded (k : Nat) (toks : List (Nat × Tok)) (x : LUnit) : LUnit := { x with pipe := x.pipe ++ toks.map (fun q => (q.1, k, q.2)) }

/-- The tile as the tokens that unit `u` emits in this cycle stand on its outputs. -/
def Tile.emitting (b : Tile) (c : Ctx) (u : Nat) (toks : List (Nat × Tok)) : Tile :=
  (b.setUnit u ((b.unit u).loaded c.cycle toks)).latCount c (fun t => t.addWrap F.TIL_LAT_FIRE.count u 1)

/-- Tokens generated with no latency are on the unit's outputs in the same cycle. -/
theorem Tile.generate_now (b : Tile) (c : Ctx) (u : Nat) (tag : BitVec 8) (outs : List (Nat × Nat × Nat)) :
    b.generate c u 0 tag outs = (b.emitting c u (genToks b tag outs)).passUnit c u := by
  unfold Tile.generate Tile.emitting LUnit.loaded genToks
  simp only [List.map_map, if_true]
  rfl

theorem Tile.lat_emitting (b : Tile) (c : Ctx) (u : Nat) (toks : List (Nat × Tok)) :
    (b.emitting c u toks).lat = (b.setUnit u ((b.unit u).loaded c.cycle toks)).lat :=
  Tile.latCount_keeps Tile.lat c _ _ rfl

theorem Tile.unit_emitting (b : Tile) (c : Ctx) (u v : Nat) (toks : List (Nat × Tok)) :
    (b.emitting c u toks).unit v = if u = v then (b.unit u).loaded c.cycle toks else b.unit v := by
  rw [Tile.unit_of_lat (b.lat_emitting c u toks), Tile.unit_setUnit]

theorem Tile.inq_emitting (b : Tile) (c : Ctx) (u v : Nat) (toks : List (Nat × Tok)) :
    ((b.emitting c u toks).unit v).inq = (b.unit v).inq := by
  rw [Tile.unit_of_lat (b.lat_emitting c u toks)]
  exact Tile.inq_setUnit (by rfl) v

theorem Tile.cfg_emitting (b : Tile) (c : Ctx) (u : Nat) (toks : List (Nat × Tok)) : (b.emitting c u toks).lat.cfg = b.lat.cfg := by
  rw [Tile.lat_emitting, Tile.cfg_setUnit]

/-- In a unit none of whose other tokens is ready, those just emitted leave, and they alone. -/
theorem Tile.leaving_emitting {b : Tile} {c : Ctx} {u : Nat} (hq : b.PipeQuiet c u) (toks : List (Nat × Tok)) :
    ((b.emitting c u toks).unit u).leaving c = toks := by
  have hold : (b.unit u).pipe.filter (fun p => decide (p.2.1 ≤ c.cycle)) = [] :=
    List.filter_eq_nil_iff.2 fun p hp => by simpa using hq p hp
  have hnew : (toks.map (fun q => (q.1, c.cycle, q.2))).filter (fun p => decide (p.2.1 ≤ c.cycle)) = toks.map (fun q => (q.1, c.cycle, q.2)) :=
    List.filter_eq_self.2 fun p hp => by
      obtain ⟨q, -, rfl⟩ := List.mem_map.1 hp
      simp
  rw [Tile.unit_emitting, if_pos rfl, LUnit.leaving, LUnit.loaded, List.filter_append, hold, hnew, List.nil_append, List.map_map]
  exact List.map_id toks

/-- And the others stay. -/
theorem Tile.pipe_left_emitting {b : Tile} {c : Ctx} {u : Nat} (hq : b.PipeQuiet c u) (toks : List (Nat × Tok)) :
    (((b.emitting c u toks).unit u).left c).pipe = (b.unit u).pipe := by
  have hold : (b.unit u).pipe.filter (fun p => decide (c.cycle < p.2.1)) = (b.unit u).pipe :=
    List.filter_eq_self.2 fun p hp => by simpa using hq p hp
  have hnew : (toks.map (fun q => (q.1, c.cycle, q.2))).filter (fun p => decide (c.cycle < p.2.1)) = [] :=
    List.filter_eq_nil_iff.2 fun p hp => by
      obtain ⟨q, -, rfl⟩ := List.mem_map.1 hp
      simp
  rw [Tile.unit_emitting, if_pos rfl, LUnit.left, LUnit.loaded, List.filter_append, hold, hnew, List.append_nil]

theorem Tile.hasRoom_emitting (b : Tile) (c : Ctx) (u : Nat) (toks l : List (Nat × Tok)) :
    (b.emitting c u toks).HasRoom u l ↔ b.HasRoom u l := by
  simp only [Tile.HasRoom, Tile.backlog, Tile.cfg_emitting, Tile.inq_emitting]

/-- Tokens that a unit emits with no latency, no other being ready, pass where their inputs have room (R120, R121). -/
theorem Tile.generate_passes {b : Tile} {c : Ctx} {u : Nat} {tag : BitVec 8} {outs : List (Nat × Nat × Nat)} (hq : b.PipeQuiet c u)
    (hroom : b.HasRoom u (genToks b tag outs)) : b.Passes (b.generate c u 0 tag outs) c u (genToks b tag outs) := by
  rw [Tile.generate_now]
  generalize genToks b tag outs = toks at hroom ⊢
  have hleaving := Tile.leaving_emitting hq toks
  rw [Tile.passUnit_room (by rwa [hleaving, Tile.hasRoom_emitting]), hleaving, Tile.cfg_emitting]
  constructor
  · rw [Tile.unit_feeds, Tile.unit_setUnit_same]
    exact Tile.pipe_left_emitting hq toks
  · intro v
    rw [Tile.unit_feeds]
    exact congrArg (· ++ _) ((Tile.inq_setUnit (by rfl) v).trans (Tile.inq_emitting b c u v toks))

/-- Where some input of theirs has no room they are held, and the unit's whole pipeline with them (R121). -/
theorem Tile.generate_holds {b : Tile} {c : Ctx} {u : Nat} {tag : BitVec 8} {outs : List (Nat × Nat × Nat)} (hq : b.PipeQuiet c u)
    (hroom : ¬ b.HasRoom u (genToks b tag outs)) : b.Holds (b.generate c u 0 tag outs) c u (genToks b tag outs) := by
  rw [Tile.generate_now]
  generalize genToks b tag outs = toks at hroom ⊢
  obtain ⟨full, hpass⟩ : ∃ full, (b.emitting c u toks).passUnit c u = _ :=
    Tile.passUnit_full (by rwa [Tile.leaving_emitting hq, Tile.hasRoom_emitting])
  have hunit (v : Nat) := Tile.unit_of_lat (Tile.lat_imbalance c u full
    ((b.emitting c u toks).setUnit u (((b.emitting c u toks).unit u).holds c.cycle))) v
  rw [hpass]
  refine ⟨?_, ?_, fun v => ?_⟩
  · rw [hunit, Tile.unit_setUnit_same, Tile.unit_emitting, if_pos rfl]
    rfl
  · rw [hunit, Tile.unit_setUnit_same]
    rfl
  · rw [hunit]
    exact (Tile.inq_setUnit (by rfl) v).trans (Tile.inq_emitting b c u v toks)

/-- Generating tokens changes no register but the unit's counts of firings and of imbalance. -/
theorem Tile.rd_generate_ne (b : Tile) (c : Ctx) (u : Nat) (tag : BitVec 8) (outs : List (Nat × Nat × Nat)) {g : Fld} (j : Nat)
    (hfire : F.TIL_LAT_FIRE.count.id ≠ g.id) (himbal : ∀ f ∈ Reg.fields .TIL_LAT_IMBAL, f.id ≠ g.id) :
    (b.generate c u 0 tag outs).rd g j = b.rd g j := by
  rw [Tile.generate_now, Tile.rd_passUnit_ne c u _ j himbal]
  exact Tile.latCount_keeps (fun t : Tile => t.rd g j) c _ _ (Tile.rd_addWrap_ne _ _ _ j hfire)

theorem Tile.genTag_generate (b : Tile) (c : Ctx) (u : Nat) (tag : BitVec 8) (outs : List (Nat × Nat × Nat)) :
    ((b.generate c u 0 tag outs).unit u).genTag = (b.unit u).genTag := by
  rw [Tile.generate_now, Tile.genTag_passUnit, Tile.unit_emitting, if_pos rfl]
  rfl

/-! ### Tiles with the same flow of tokens -/

/-- Two tiles alike in what decides where unit `u`'s tokens go and what is held up: the configuration, the links, and the unit's pipeline. -/
def Tile.SameFlow (b x : Tile) (u : Nat) : Prop :=
  x.lat.cfg = b.lat.cfg ∧ (∀ v, (x.unit v).inq = (b.unit v).inq) ∧ (x.unit u).pipe = (b.unit u).pipe

section
variable {b x : Tile} {u : Nat} (h : b.SameFlow x u)
include h

theorem Tile.SameFlow.pipeQuiet_iff (c : Ctx) : x.PipeQuiet c u ↔ b.PipeQuiet c u := by
  obtain ⟨-, -, hpipe⟩ := h
  simp only [Tile.PipeQuiet, hpipe]

theorem Tile.SameFlow.hasRoom_iff (toks : List (Nat × Tok)) : x.HasRoom u toks ↔ b.HasRoom u toks := by
  obtain ⟨hcfg, hinq, -⟩ := h
  simp only [Tile.HasRoom, Tile.backlog, hcfg, hinq]

theorem Tile.SameFlow.passes_iff (y : Tile) (c : Ctx) (toks : List (Nat × Tok)) : x.Passes y c u toks ↔ b.Passes y c u toks := by
  obtain ⟨hcfg, hinq, hpipe⟩ := h
  simp only [Tile.Passes, hcfg, hinq, hpipe]

theorem Tile.SameFlow.holds_iff (y : Tile) (c : Ctx) (toks : List (Nat × Tok)) : x.Holds y c u toks ↔ b.Holds y c u toks := by
  obtain ⟨-, hinq, hpipe⟩ := h
  simp only [Tile.Holds, hinq, hpipe]

theorem Tile.SameFlow.genToks_eq (tag : BitVec 8) (outs : List (Nat × Nat × Nat)) : genToks x tag outs = genToks b tag outs := by
  obtain ⟨hcfg, -, -⟩ := h
  simp only [genToks, hcfg]

/-- What the one generates passes as though the other did. -/
theorem Tile.SameFlow.generate_passes {c : Ctx} {tag : BitVec 8} {outs : List (Nat × Nat × Nat)} (hq : b.PipeQuiet c u)
    (hroom : b.HasRoom u (genToks b tag outs)) : b.Passes (x.generate c u 0 tag outs) c u (genToks b tag outs) := by
  rw [← h.passes_iff, ← h.genToks_eq]
  exact Tile.generate_passes ((h.pipeQuiet_iff c).2 hq) ((h.hasRoom_iff _).2 (h.genToks_eq tag outs ▸ hroom))

/-- And it is held as though the other did. -/
theorem Tile.SameFlow.generate_holds {c : Ctx} {tag : BitVec 8} {outs : List (Nat × Nat × Nat)} (hq : b.PipeQuiet c u)
    (hroom : ¬ b.HasRoom u (genToks b tag outs)) : b.Holds (x.generate c u 0 tag outs) c u (genToks b tag outs) := by
  rw [← h.holds_iff, ← h.genToks_eq]
  exact Tile.generate_holds ((h.pipeQuiet_iff c).2 hq) (mt (h.hasRoom_iff _).1 (h.genToks_eq tag outs ▸ hroom))

end

end Sys2Proof.Machine
end

section
/-! The checksums of an MX accumulator bank, and the first token of its readout (R71 to R73, R137). -/
namespace Sys2Proof.Machine

/-! ### The comparison of R71 -/

/-- The sum of a row of accumulators, modulo 2⁹⁶. -/
def MxBank.rowSum (m : MxBank) (r : Nat) : BitVec 96 := ((m.acc.drop (32 * r)).take 32).sum

theorem firstTrue_eq_none_iff (l : List Bool) : firstTrue l = none ↔ ∀ b ∈ l, b = false := by
  simp [firstTrue, List.findIdx?_eq_none_iff]

/-- The comparison that finds nothing has found every row equal to its checksum. -/
theorem MxBank.rowSum_of_check {m : MxBank} (h : m.check = (none, none)) {r : Nat} (hr : r < 32) : m.rowSum r = m.rowChk.getD r 0 := by
  have hrows := (firstTrue_eq_none_iff _).1 (Prod.mk.inj h).1
  simpa [MxBank.rowSum] using hrows _ (List.mem_map.2 ⟨r, List.mem_range.2 hr, rfl⟩)

/-! ### A fault in one cell -/

/-- The bank with the bits of `mask` flipped in one of its accumulator cells. -/
def MxBank.struck (cell : Nat) (mask : BitVec 96) (m : MxBank) : MxBank := { m with acc := m.acc.modify cell (· ^^^ mask) }

/-- Flipping no bit is no fault. -/
theorem MxBank.struck_zero (cell : Nat) (m : MxBank) : m.struck cell 0 = m := by
  have hid : (fun x : BitVec 96 => x ^^^ 0) = id := funext fun x => BitVec.xor_zero
  rw [MxBank.struck, hid, List.modify_id]

/-- One entry of a list changed to another value: the sum of the list is another. -/
theorem sum_modify_ne (l : List (BitVec 96)) {i : Nat} (hi : i < l.length) (f : BitVec 96 → BitVec 96) (hf : ∀ x, f x ≠ x) :
    (l.modify i f).sum ≠ l.sum := by
  rw [List.modify_eq_set_get f hi, List.sum_set', dif_pos hi]
  exact fun h => hf _ (neg_add_eq_zero.1 (add_eq_left.1 h)).symm

/-- The row of the cell that is struck has another sum. -/
theorem MxBank.rowSum_struck_ne {m : MxBank} (hlen : m.acc.length = 1024) {cell : Nat} (hc : cell < 1024) {mask : BitVec 96}
    (hm : mask ≠ 0) : (m.struck cell mask).rowSum (cell / 32) ≠ m.rowSum (cell / 32) := by
  have hflip (x : BitVec 96) : x ^^^ mask ≠ x := fun h => hm ((BitVec.xor_right_inj x).1 (h.trans BitVec.xor_zero.symm))
  unfold MxBank.rowSum MxBank.struck
  dsimp only
  rw [List.drop_modify_of_ge _ _ _ _ (by omega), List.take_modify]
  exact sum_modify_ne _ (by simp [hlen]; omega) _ hflip

/-- R71: of a bank whose checksums agree, the comparison finds a fault in any one cell. -/
theorem MxBank.check_struck_ne {m : MxBank} (hchk : m.check = (none, none)) (hlen : m.acc.length = 1024) {cell : Nat} (hc : cell < 1024)
    {mask : BitVec 96} (hm : mask ≠ 0) : (m.struck cell mask).check ≠ (none, none) := fun hstruck =>
  MxBank.rowSum_struck_ne hlen hc hm
    ((MxBank.rowSum_of_check hstruck (by omega)).trans (MxBank.rowSum_of_check hchk (by omega)).symm)

/-! ### What the comparison does to the tile -/

/-- No cell of the bank is special or out of exact range: its readout is compared (R72). -/
def MxBank.Comparable (m : MxBank) : Prop := (∀ z ∈ m.special, z = false) ∧ ∀ z ∈ m.exactRange, z = false

section
variable {m : MxBank} (hclean : m.Comparable) (c : Ctx) (tl : Tile)
include hclean

theorem MxBank.Comparable.not_skipped : (m.special.any id || m.exactRange.any id) = false := by
  obtain ⟨hspecial, hrange⟩ := hclean
  simp only [Bool.or_eq_false_iff, List.any_eq_false]
  exact ⟨fun z hz => by simp [hspecial z hz], fun z hz => by simp [hrange z hz]⟩

/-- A comparison that finds nothing leaves the tile as it is. -/
theorem Tile.mxCompare_agrees (h : m.check = (none, none)) : tl.mxCompare c m = (tl, []) := by
  unfold Tile.mxCompare
  rw [hclean.not_skipped, h]
  rfl

/-- A comparison that finds something sets checksum_fail and sends an error record (R73). -/
theorem Tile.mxCompare_fails (h : m.check ≠ (none, none)) :
    ∃ w : Word, tl.mxCompare c m = (tl.numFlag c F.TIL_NUM_STATUS.checksum_fail, [.record 0x03 2 5 0 w 0 0 0]) := by
  unfold Tile.mxCompare
  rw [hclean.not_skipped]
  split
  · next hfalse => exact absurd hfalse Bool.false_ne_true
  · split
    · next hnone => exact absurd hnone h
    · exact ⟨_, rfl⟩

end

/-- The comparison is over register state: it leaves the lattice. -/
theorem Tile.lat_mxCompare (c : Ctx) (m : MxBank) (tl : Tile) : (tl.mxCompare c m).1.lat = tl.lat := by
  unfold Tile.mxCompare
  repeat' split
  · rfl
  · rfl
  · exact tl.lat_numFlag c _

/-! ### The first token of a readout -/

/-- The first token of an EXACT readout of MX is due in this cycle (R137). -/
structure Tile.StartsReadout (b : Tile) (c : Ctx) (o : OpBlk) (r : MxOut) (later : List MxOut) : Prop where
  configured : b.lat.cfg.op? 5 = some o
  exactMode : o.mode % 4 = 0
  readout : (b.unit 5).mxOut = r :: later
  first : r.emitted = 0
  due : r.next ≤ c.cycle
  live : b.latLive c = true
  free : b.holding c 5 = false

/-- What an element's conversion leaves of the tile: words drawn for `k` elements, and the status bits of its conversions (R64, R68). -/
def Tile.mxConverted (c : Ctx) (o : OpBlk) (k : Nat) (overflow nan : Bool) (tl : Tile) : Tile :=
  ((tl.draw c o k).2.numFlagIf c overflow F.TIL_NUM_STATUS.cvt_overflow).numFlagIf c nan F.TIL_NUM_STATUS.cvt_nan

/-- MX with its tag counter gone on and `out` left to read out. -/
def Tile.mxAdvanced (out : List MxOut) (tl : Tile) : Tile :=
  tl.setUnit 5 { tl.unit 5 with genTag := (tl.unit 5).genTag + 1, mxOut := out }

theorem Tile.lat_mxConverted (c : Ctx) (o : OpBlk) (k : Nat) (overflow nan : Bool) (tl : Tile) :
    (tl.mxConverted c o k overflow nan).lat = tl.lat := by
  simp [Tile.mxConverted]

/-- The conversions leave checksum_fail. -/
theorem Tile.rd_mxConverted (c : Ctx) (o : OpBlk) (k : Nat) (overflow nan : Bool) (tl : Tile) :
    (tl.mxConverted c o k overflow nan).rd F.TIL_NUM_STATUS.checksum_fail 0 = tl.rd F.TIL_NUM_STATUS.checksum_fail 0 := by
  unfold Tile.mxConverted
  rw [Tile.rd_numFlagIf_ne _ c nan 0 (by decide) (by decide), Tile.rd_numFlagIf_ne _ c overflow 0 (by decide) (by decide),
    Tile.rd_draw_ne _ c o k 0 (by decide)]

/-- Advancing MX moves no token. -/
theorem Tile.sameFlow_mxAdvanced {b z : Tile} (h : z.lat = b.lat) (out : List MxOut) : b.SameFlow (z.mxAdvanced out) 5 := by
  refine ⟨?_, fun v => ?_, ?_⟩
  · rw [Tile.mxAdvanced, Tile.cfg_setUnit, h]
  · exact (Tile.inq_setUnit (by rfl) v).trans (congrArg LUnit.inq (Tile.unit_of_lat h v))
  · rw [Tile.mxAdvanced, Tile.unit_setUnit_same, Tile.unit_of_lat h]

section
/-! The bank of the readout that starts, with the fault that strikes it, has been compared (R71). -/
variable {c : Ctx} {tl0 b : Tile} {o : OpBlk} {r : MxOut} {later : List MxOut} {cell : Nat} {mask : BitVec 96} {y : Tile} {outs : List Out}
  (hb : tl0.pumpAll c = b) (h : b.StartsReadout c o r later) (hc : cell < 1024)
  (hcmp : b.mxCompare c (r.bank.struck cell mask) = (y, outs))
include hb h hc hcmp

/-- Elements are converted, MX advances, and one vector token is emitted; what the comparison hands out is handed out (R137). -/
theorem Tile.mxReadout_first_eq : ∃ (k : Nat) (overflow nan : Bool) (out : List MxOut) (v : Nat),
    tl0.mxReadout c cell mask = (((y.mxConverted c o k overflow nan).mxAdvanced out).generate c 5 0
      ((y.mxConverted c o k overflow nan).unit 5).genTag [(0, 1, v)], outs) := by
  obtain ⟨hop, hmode, hout, hfirst, hdue, hlive, hfree⟩ := h
  have hgo : ¬(b.latLive c = false ∨ c.cycle < r.next ∨ b.holding c 5 = true) := by
    simp [hlive, hfree, hdue]
  have hexact : r.emitted = 0 ∧ (!(0 == 1)) = true := ⟨hfirst, rfl⟩
  unfold Tile.mxReadout
  unfold MxBank.struck at hcmp
  simp only [hb, hop, hout, hmode, Nat.mod_eq_of_lt hc, if_neg hgo, if_pos hexact, hcmp]
  exact ⟨_, _, _, _, _, rfl⟩

/-- So the token is generated by a tile on which no other has moved, whose tag counter has gone on, and whose checksum_fail is as the
comparison left it. -/
theorem Tile.mxReadout_first : ∃ (x : Tile) (v : Nat),
    tl0.mxReadout c cell mask = (x.generate c 5 0 (b.unit 5).genTag [(0, 1, v)], outs) ∧
    b.SameFlow x 5 ∧ (x.unit 5).genTag = (b.unit 5).genTag + 1 ∧
    x.rd F.TIL_NUM_STATUS.checksum_fail 0 = y.rd F.TIL_NUM_STATUS.checksum_fail 0 := by
  obtain ⟨k, overflow, nan, out, v, heq⟩ := Tile.mxReadout_first_eq hb h hc hcmp
  have hlat : (y.mxConverted c o k overflow nan).lat = b.lat :=
    (Tile.lat_mxConverted c o k overflow nan y).trans (by simpa only [hcmp] using Tile.lat_mxCompare c (r.bank.struck cell mask) b)
  have hunit := Tile.unit_of_lat hlat 5
  refine ⟨_, v, hunit ▸ heq, Tile.sameFlow_mxAdvanced hlat out, ?_, Tile.rd_mxConverted c o k overflow nan y⟩
  rw [Tile.mxAdvanced, Tile.unit_setUnit_same, hunit]

end

end Sys2Proof.Machine

namespace Sys2Proof.Proofs
open Sys2Proof.Machine

theorem exec_mxReadout {s : State} {t cell : Nat} {mask : BitVec 96} {x : Tile} {outs : List Out} (ht : t < 2304) (hg : s.gatedNow = false)
    (h : (s.seen t).mxReadout (s.ctx t) cell mask = (x, outs)) : exec (.mxReadout t cell mask) s = .next (s.withTile t x outs) := by
  show execMxReadout t cell mask s = _
  rw [execMxReadout, State.onClocked_eq s t _ hg, State.onTile_eq s t _ ht, h]

section
/-! The first token of an EXACT readout whose bank agrees with its checksums. -/
variable {s : State} {t cell : Nat} {o : OpBlk} {r : MxOut} {later : List MxOut} (ht : t < 2304) (hg : s.gatedNow = false)
  (hcell : cell < 1024) (hstart : (s.lat_ t).StartsReadout (s.ctx t) o r later) (hagree : r.bank.check = (none, none))
  (hclean : r.bank.Comparable)
include ht hg hcell hstart hagree hclean

/-- A fault in any one cell is found (R71 to R73). -/
theorem mxReadout_finds_fault (hlen : r.bank.acc.length = 1024) {mask : BitVec 96} (hmask : mask ≠ 0) :
    ∃ (x : Tile) (w : Word), exec (.mxReadout t cell mask) s = .next (s.withTile t x [.record 0x03 2 5 0 w 0 0 0]) ∧
      x.rd F.TIL_NUM_STATUS.checksum_fail 0 = 1 := by
  have hstruck : (r.bank.struck cell mask).Comparable := hclean
  obtain ⟨w, hcompare⟩ := Tile.mxCompare_fails hstruck (s.ctx t) (s.lat_ t) (MxBank.check_struck_ne hagree hlen hcell hmask)
  obtain ⟨x, v, heq, -, -, hfail⟩ := Tile.mxReadout_first (b := s.lat_ t) rfl hstart hcell hcompare
  refine ⟨_, w, exec_mxReadout ht hg heq, ?_⟩
  rw [Tile.rd_generate_ne x _ 5 _ _ 0 (by decide) (by decide), hfail]
  exact Tile.rd_numFlag_same _ _ (by decide) rfl

/-- Without a fault the comparison finds nothing, and the token passes, or is held where an input has no room (R121). -/
theorem mxReadout_without_fault (hquiet : (s.lat_ t).PipeQuiet (s.ctx t) 5) :
    ∃ (x : Tile) (v : Line), exec (.mxReadout t cell 0) s = .next (s.withTile t x []) ∧
      x.rd F.TIL_NUM_STATUS.checksum_fail 0 = (s.lat_ t).rd F.TIL_NUM_STATUS.checksum_fail 0 ∧
      (∀ toks, toks = [(0, (⟨1, v, ((s.lat_ t).unit 5).genTag, (s.lat_ t).lat.cfg.phase⟩ : Tok))] →
        ((s.lat_ t).HasRoom 5 toks → (s.lat_ t).Passes x (s.ctx t) 5 toks) ∧
        (¬ (s.lat_ t).HasRoom 5 toks → (s.lat_ t).Holds x (s.ctx t) 5 toks)) ∧
      (x.unit 5).genTag = ((s.lat_ t).unit 5).genTag + 1 := by
  have hcompare : (s.lat_ t).mxCompare (s.ctx t) (r.bank.struck cell 0) = (s.lat_ t, []) := by
    rw [MxBank.struck_zero]
    exact Tile.mxCompare_agrees hclean (s.ctx t) (s.lat_ t) hagree
  obtain ⟨x, v, heq, hflow, htag, hfail⟩ := Tile.mxReadout_first (b := s.lat_ t) rfl hstart hcell hcompare
  refine ⟨_, BitVec.ofNat 512 v, exec_mxReadout ht hg heq, ?_, ?_, (Tile.genTag_generate x _ 5 _ _).trans htag⟩
  · rw [Tile.rd_generate_ne x _ 5 _ _ 0 (by decide) (by decide), hfail]
  · rintro toks rfl
    exact ⟨hflow.generate_passes (outs := [(0, 1, v)]) hquiet, hflow.generate_holds (outs := [(0, 1, v)]) hquiet⟩

end

/-- Settles O25: a changed cell changes the sum of its row, so the comparison of R71 fails; and where nothing is changed it is over the
bank whose checksums agree. -/
theorem mxReadoutFindsSingleFault : Obligations.MxReadoutFindsSingleFault := by
  unfold Obligations.MxReadoutFindsSingleFault
  intro s t cell mask o r later ht hcell hg hop hout hlive hdue hfree hfirst hmode hlen hagree hspecial hrange
  have hstart : (s.lat_ t).StartsReadout (s.ctx t) o r later := ⟨hop, hmode, hout, hfirst, hdue, hlive, hfree⟩
  refine ⟨mxReadout_finds_fault ht hg hcell hstart hagree ⟨hspecial, hrange⟩ hlen, ?_⟩
  rintro rfl hquiet
  exact mxReadout_without_fault ht hg hcell hstart hagree ⟨hspecial, hrange⟩ hquiet

end Sys2Proof.Proofs
end

section
/-! What a command on a tile's lattice leaves of the tile: the frame that all firings share (R123, R125, R126), the rounding words, status
bits and counts beside it, and the tokens that generating units emit. -/
namespace Sys2Proof.Machine

/-! ### Commands of one tile in a cycle that throttling does not gate -/

section
variable {s : State} {t : Nat} (ht : t < 2304) (hg : s.gatedNow = false)
include ht hg

/-- A command that comes to the tile `x` and hands out `outs`. -/
theorem exec_clocked {i : Instr} {f : Ctx → Tile → Tile × List Out} {x : Tile} {outs : List Out}
    (hi : exec i s = .next (s.onClocked t f)) (h : f (s.ctx t) (s.seen t) = (x, outs)) : exec i s = .next (s.withTile t x outs) := by
  rw [hi, State.onClocked_eq s t f hg, State.onTile_eq s t f ht, h]

/-- A command that hands out nothing. -/
theorem exec_clocked_silent {i : Instr} {f : Ctx → Tile → Tile} (hi : exec i s = .next (s.onClocked t fun c tl => (f c tl, []))) :
    exec i s = .next (s.withTile t (f (s.ctx t) (s.seen t)) []) :=
  exec_clocked ht hg hi rfl

end

/-! ### What a lattice's own work may change -/

/-- `x` is `b` but for the lattice and register fields. -/
def Tile.OnlyLattice (b x : Tile) : Prop := x = { b with lat := x.lat, regs := x.regs }

theorem Tile.OnlyLattice.refl (b : Tile) : b.OnlyLattice b := rfl

theorem Tile.OnlyLattice.trans {a b x : Tile} (h : a.OnlyLattice b) (h' : b.OnlyLattice x) : a.OnlyLattice x := by
  unfold Tile.OnlyLattice at *
  rw [h', h]

theorem Tile.OnlyLattice.spad {b x : Tile} (h : b.OnlyLattice x) : x.spad = b.spad := by
  unfold Tile.OnlyLattice at h
  rw [h]

theorem Tile.OnlyLattice.slots {b x : Tile} (h : b.OnlyLattice x) : x.slots = b.slots := by
  unfold Tile.OnlyLattice at h
  rw [h]

theorem Tile.OnlyLattice.queues {b x : Tile} (h : b.OnlyLattice x) : x.queues = b.queues := by
  unfold Tile.OnlyLattice at h
  rw [h]

theorem Tile.OnlyLattice.outbox {b x : Tile} (h : b.OnlyLattice x) : x.outbox = b.outbox := by
  unfold Tile.OnlyLattice at h
  rw [h]

theorem Tile.onlyLattice_setUnit (b : Tile) (u : Nat) (x : LUnit) : b.OnlyLattice (b.setUnit u x) := rfl

theorem Tile.onlyLattice_latCount {b : Tile} {f : Tile → Tile} (c : Ctx) (h : b.OnlyLattice (f b)) : b.OnlyLattice (b.latCount c f) := by
  unfold Tile.latCount
  split
  · exact .refl b
  · exact h

/-! ### The firing count (Table 4-16, R155) -/

/-- The step of the firing count of unit `u`. -/
def Tile.countFiring (c : Ctx) (u : Nat) (tl : Tile) : Tile := tl.latCount c fun t => t.addWrap F.TIL_LAT_FIRE.count u 1

theorem Tile.onlyLattice_countFiring (c : Ctx) (u : Nat) (tl : Tile) : tl.OnlyLattice (tl.countFiring c u) :=
  Tile.onlyLattice_latCount c rfl

theorem Tile.lat_countFiring (c : Ctx) (u : Nat) (tl : Tile) : (tl.countFiring c u).lat = tl.lat := Tile.latCount_keeps Tile.lat c _ tl rfl

theorem Tile.rd_countFiring_ne (c : Ctx) (u : Nat) (tl : Tile) {f : Fld} (j : Nat) (h : F.TIL_LAT_FIRE.count.id ≠ f.id) :
    (tl.countFiring c u).rd f j = tl.rd f j :=
  Tile.latCount_keeps (fun t : Tile => t.rd f j) c _ tl (Tile.rd_addWrap_ne tl u 1 j h)

theorem Tile.countsFiring_countFiring (c : Ctx) (u : Nat) (tl : Tile) : tl.CountsFiring (tl.countFiring c u) c u := by
  unfold Tile.CountsFiring Tile.countFiring Tile.latCount
  split
  · rfl
  · exact RegFile.rd_wr_same _ _ _ _ _

/-- The count is the same seen from a tile with the same counters and the same clear. -/
theorem Tile.CountsFiring.of_same {b b' x x' : Tile} {c : Ctx} {u : Nat} (h : b'.CountsFiring x' c u) (hclr : b'.latClr = b.latClr)
    (hb : b'.rd F.TIL_LAT_FIRE.count u = b.rd F.TIL_LAT_FIRE.count u) (hx : x.rd F.TIL_LAT_FIRE.count u = x'.rd F.TIL_LAT_FIRE.count u) :
    b.CountsFiring x c u := by
  unfold Tile.CountsFiring at h ⊢
  rw [hx, h, hclr, hb]

/-- A unit that is set and counts a firing: nothing else of the lattice has changed. -/
theorem Tile.setUnit_counted (b : Tile) (c : Ctx) (u : Nat) (y : LUnit) :
    ((b.setUnit u y).countFiring c u).unit u = y ∧ b.CountsFiring ((b.setUnit u y).countFiring c u) c u ∧
    (∀ v, v ≠ u → ((b.setUnit u y).countFiring c u).unit v = b.unit v) ∧ b.OnlyLattice ((b.setUnit u y).countFiring c u) := by
  have hlat := Tile.lat_countFiring c u (b.setUnit u y)
  have hcount := Tile.countsFiring_countFiring c u (b.setUnit u y)
  refine ⟨?_, hcount, fun v hv => ?_, (b.onlyLattice_setUnit u y).trans (Tile.onlyLattice_countFiring c u _)⟩
  · rw [Tile.unit_of_lat hlat, Tile.unit_setUnit_same]
  · rw [Tile.unit_of_lat hlat, Tile.unit_setUnit, if_neg (Ne.symm hv)]

/-! ### What a firing does beside the lattice -/

/-- `x` is `b` but for what a firing does beside the lattice: numeric status and its trap (R64, R101), rounding counts (R68), and what
goes to stream slots (R133). -/
structure Tile.Beside (b x : Tile) : Prop where
  same : x = { b with regs := x.regs, seq := { b.seq with pend := x.seq.pend }, slots := x.slots }
  rd : ∀ (f : Fld) (j : Nat), (∀ r ∈ [Reg.TIL_NUM_STATUS, .TIL_SR_COUNT], ∀ g ∈ Reg.fields r, f.id ≠ g.id) → x.rd f j = b.rd f j

theorem Tile.Beside.refl (b : Tile) : b.Beside b := ⟨rfl, fun _ _ _ => rfl⟩

theorem Tile.Beside.trans {a b x : Tile} (h : a.Beside b) (h' : b.Beside x) : a.Beside x := by
  refine ⟨?_, fun f j hf => (h'.rd f j hf).trans (h.rd f j hf)⟩
  rw [h'.same, h.same]

theorem Tile.beside_setSlot (b : Tile) (i : Nat) (sl : Slot) : b.Beside (b.setSlot i sl) := ⟨rfl, fun _ _ _ => rfl⟩

theorem Tile.beside_draw (b : Tile) (c : Ctx) (o : OpBlk) (k : Nat) : b.Beside (b.draw c o k).2 := by
  refine ⟨?_, fun f j hf => Tile.rd_draw_ne b c o k j (hf .TIL_SR_COUNT (by simp) _ (by decide)).symm⟩
  unfold Tile.draw
  dsimp only
  repeat' split
  all_goals rfl

theorem Tile.numFlag_same (b : Tile) (c : Ctx) (f : Fld) :
    b.numFlag c f = { b with regs := (b.numFlag c f).regs, seq := { b.seq with pend := (b.numFlag c f).seq.pend } } := by
  unfold Tile.numFlag
  dsimp only
  split <;> rfl

theorem Tile.beside_numFlagIf (b : Tile) (c : Ctx) (z : Bool) {f : Fld} (hf : f ∈ Reg.fields .TIL_NUM_STATUS) : b.Beside (b.numFlagIf c z f) := by
  refine ⟨?_, fun g j hg => Tile.rd_numFlagIf_ne b c z j (hg .TIL_NUM_STATUS (by simp) f hf).symm
    (hg .TIL_NUM_STATUS (by simp) _ (by decide)).symm⟩
  unfold Tile.numFlagIf
  split
  · rw [Tile.numFlag_same]
  · rfl

theorem Tile.Beside.lat {b x : Tile} (h : b.Beside x) : x.lat = b.lat := by rw [h.same]

/-! ### Firings -/

/-- The entry's tokens as they stand in the pipeline: output, latency, network and value of each (R126). -/
def outToks (b : Tile) (c : Ctx) (e : MEntry) (outs : List (Nat × Nat × Nat × Nat)) : List (Nat × Nat × Tok) :=
  outs.map (fun q => outTok b e q.1 (c.cycle + q.2.1) q.2.2.1 q.2.2.2)

/-- A unit that has fired its entry. -/
def LUnit.afterFiring (c : Ctx) (e : MEntry) (toks : List (Nat × Nat × Tok)) (x : LUnit) : LUnit :=
  { x with table := x.table.erase e, expTag := x.expTag + 1, lastFire := some c.cycle, pipe := x.pipe ++ toks }

theorem Tile.fired_eq (b : Tile) (c : Ctx) (u : Nat) (e : MEntry) (outs : List (Nat × Nat × Nat × Nat)) :
    b.fired c u e outs = (b.setUnit u ((b.unit u).afterFiring c e (outToks b c e outs))).countFiring c u := rfl

theorem Tile.onlyLattice_fired (b : Tile) (c : Ctx) (u : Nat) (e : MEntry) (outs : List (Nat × Nat × Nat × Nat)) :
    b.OnlyLattice (b.fired c u e outs) :=
  (b.onlyLattice_setUnit u _).trans (Tile.onlyLattice_countFiring c u _)

theorem Tile.rd_fired_ne (b : Tile) (c : Ctx) (u : Nat) (e : MEntry) (outs : List (Nat × Nat × Nat × Nat)) {f : Fld} (j : Nat)
    (h : F.TIL_LAT_FIRE.count.id ≠ f.id) : (b.fired c u e outs).rd f j = b.rd f j := by
  rw [Tile.fired_eq, Tile.rd_countFiring_ne c u _ j h, Tile.rd_setUnit]

/-- A unit that fires an entry, after what it does beside the lattice, is what `Tile.Fires` says (R123, R125, R126). -/
theorem Tile.Beside.fires {b x : Tile} (h : b.Beside x) (c : Ctx) (u : Nat) (e : MEntry) (outs : List (Nat × Nat × Nat × Nat)) :
    b.Fires (x.fired c u e outs) c u e (outToks b c e outs) := by
  have htoks : outToks x c e outs = outToks b c e outs := by simp only [outToks, outTok, h.lat]
  have hlat : (x.fired c u e outs).lat = (x.setUnit u ((x.unit u).afterFiring c e (outToks x c e outs))).lat := Tile.lat_countFiring c u _
  have hunit (v : Nat) : (x.fired c u e outs).unit v = if u = v then (b.unit u).afterFiring c e (outToks b c e outs) else b.unit v := by
    rw [Tile.unit_of_lat hlat, Tile.unit_setUnit, htoks, Tile.unit_of_lat h.lat, Tile.unit_of_lat h.lat]
  have hsame : x.OnlyLattice (x.fired c u e outs) := x.onlyLattice_fired c u e outs
  refine ⟨?unit, ?count, fun v hv => ?other, fun f j hf => ?regs, ?_, ?_, ?_, ?_, ?_, ?_⟩
  case unit => rw [hunit, if_pos rfl]; rfl
  case count =>
    refine (Tile.countsFiring_countFiring c u (x.setUnit u _)).of_same ?_ ?_ rfl
    · rw [h.same]; rfl
    · exact h.rd _ u (by decide)
  case other => rw [hunit, if_neg (Ne.symm hv)]
  case regs =>
    rw [Tile.rd_fired_ne x c u e outs j (hf .TIL_LAT_FIRE (by simp) _ (by decide)).symm]
    exact h.rd f j fun r hr => hf r (List.mem_cons_of_mem _ hr)
  · rw [hsame, h.same]
  · rw [hlat, Tile.cfg_setUnit, h.lat]
  · rw [hlat]
    show x.lat.load = b.lat.load
    rw [h.lat]
  · rw [hsame, h.same]
  · rw [hsame, h.same]
  · rw [hsame, h.same]

/-! ### Status bits of the lattice and discarded tokens (R134, R144 to R151) -/

theorem Tile.rd_latFlag_same (tl : Tile) (c : Ctx) {f : Fld} (ha : F.TIL_LAT_STATUS.again_count.id ≠ f.id) (hw : f.width = 1) :
    (tl.latFlag c f).rd f 0 = 1 := by
  show (tl.regs.hwSet F.TIL_LAT_STATUS.again_count f 0 0 c.cycle 1).rd f 0 0 = 1
  rw [RegFile.rd_hwSet_same _ 0 0 _ _ ha, hw, pow_one, Nat.mod_two_eq_one_iff_testBit_zero]
  simp

theorem Tile.rd_latFlag_ne (tl : Tile) (c : Ctx) {f g : Fld} (j : Nat) (hf : f.id ≠ g.id) (ha : F.TIL_LAT_STATUS.again_count.id ≠ g.id) :
    (tl.latFlag c f).rd g j = tl.rd g j :=
  RegFile.rd_hwSet_ne tl.regs c.cycle 1 (by simp [hf]) (by simp [ha])

theorem Tile.onlyLattice_phaseDiscard (c : Ctx) (n : Nat) (tl : Tile) : tl.OnlyLattice (tl.phaseDiscard c n) := by
  unfold Tile.phaseDiscard
  split <;> rfl

theorem Tile.lat_phaseDiscard (c : Ctx) (n : Nat) (tl : Tile) : (tl.phaseDiscard c n).lat = tl.lat := by
  unfold Tile.phaseDiscard
  split <;> rfl

/-- The fields that a discard of tokens may change. -/
def discardFields : List Fld := [F.TIL_PHASE_DISCARD.count, F.TIL_LAT_STATUS.discard, F.TIL_LAT_STATUS.again_count]

theorem Tile.rd_phaseDiscard_ne (c : Ctx) (n : Nat) (tl : Tile) {g : Fld} (j : Nat) (h : ∀ f ∈ discardFields, f.id ≠ g.id) :
    (tl.phaseDiscard c n).rd g j = tl.rd g j := by
  simp only [discardFields, List.forall_mem_cons, List.not_mem_nil, false_implies, implies_true, and_true] at h
  obtain ⟨hcount, hdiscard, hagain⟩ := h
  unfold Tile.phaseDiscard
  split
  · rfl
  · rw [Tile.rd_latFlag_ne _ c j hdiscard hagain]
    exact RegFile.rd_addSat_ne _ _ (by simp [hcount])

/-- A counter that hardware adds to saturates at its largest value. -/
theorem Tile.rd_addSat_same (tl : Tile) (f : Fld) (j n : Nat) : (tl.addSat f j n).rd f j = min (tl.rd f j + n) (2 ^ f.width - 1) := by
  have hlt : min (tl.rd f j + n) (2 ^ f.width - 1) < 2 ^ f.width := by have := Nat.two_pow_pos f.width; omega
  have hwr : (tl.regs.wr f 0 j (min (tl.rd f j + n) (2 ^ f.width - 1))).rd f 0 j = min (tl.rd f j + n) (2 ^ f.width - 1) := by
    rw [RegFile.rd_wr_same, Nat.mod_eq_of_lt hlt]
  unfold Tile.addSat RegFile.addSat
  dsimp only [Tile.rd]
  split <;> exact hwr

/-- A discarded token is counted and noted. -/
theorem Tile.phaseDiscard_one (c : Ctx) (tl : Tile) :
    (tl.phaseDiscard c 1).rd F.TIL_LAT_STATUS.discard 0 = 1 ∧ (tl.phaseDiscard c 1).rd F.TIL_PHASE_DISCARD.count 0 =
      min (tl.rd F.TIL_PHASE_DISCARD.count 0 + 1) (2 ^ F.TIL_PHASE_DISCARD.count.width - 1) := by
  have h : tl.phaseDiscard c 1 = (tl.addSat F.TIL_PHASE_DISCARD.count 0 1).latFlag c F.TIL_LAT_STATUS.discard := rfl
  rw [h]
  refine ⟨Tile.rd_latFlag_same _ c (by decide) rfl, ?_⟩
  rw [Tile.rd_latFlag_ne _ c 0 (by decide) (by decide), Tile.rd_addSat_same]

/-! ### Generating units -/

theorem Tile.onlyLattice_foldl {α : Type} (step : Tile → α → Tile) (h : ∀ (t : Tile) (x : α), t.OnlyLattice (step t x)) (l : List α) (b : Tile) :
    b.OnlyLattice (l.foldl step b) := by
  induction l generalizing b with
  | nil => exact .refl b
  | cons x l ih => exact (h b x).trans (ih (step b x))

theorem Tile.onlyLattice_feed (k : Nat) (tok : Tok) (ds : List (Nat × Nat)) (tl : Tile) : tl.OnlyLattice (tl.feed k tok ds) := by
  induction ds generalizing tl with
  | nil => exact .refl tl
  | cons d ds ih => exact (tl.onlyLattice_setUnit d.1 _).trans (ih _)

theorem Tile.onlyLattice_imbalance (c : Ctx) (u : Nat) (full : List (Nat × Nat × Tok)) (tl : Tile) : tl.OnlyLattice (tl.imbalance c u full) := by
  unfold Tile.imbalance
  dsimp only
  split
  · exact Tile.onlyLattice_latCount c rfl
  · exact .refl tl

theorem Tile.onlyLattice_passUnit (c : Ctx) (u : Nat) (tl : Tile) : tl.OnlyLattice (tl.passUnit c u) := by
  by_cases hroom : tl.HasRoom u ((tl.unit u).leaving c)
  · rw [Tile.passUnit_room hroom]
    exact (tl.onlyLattice_setUnit u _).trans (Tile.onlyLattice_foldl _ (fun t q => t.onlyLattice_feed _ _ _) _ _)
  · obtain ⟨full, h⟩ := Tile.passUnit_full hroom
    rw [h]
    exact (tl.onlyLattice_setUnit u _).trans (Tile.onlyLattice_imbalance c u full _)

theorem Tile.onlyLattice_generate (b : Tile) (c : Ctx) (u : Nat) (tag : BitVec 8) (outs : List (Nat × Nat × Nat)) :
    b.OnlyLattice (b.generate c u 0 tag outs) := by
  rw [Tile.generate_now]
  exact ((b.onlyLattice_setUnit u _).trans (Tile.onlyLattice_countFiring c u _)).trans (Tile.onlyLattice_passUnit c u _)

/-- Tokens generated with a latency stand in the pipeline. -/
theorem Tile.generate_later (b : Tile) (c : Ctx) (u k : Nat) (tag : BitVec 8) (outs : List (Nat × Nat × Nat)) (hk : k ≠ 0) :
    b.generate c u k tag outs = (b.setUnit u ((b.unit u).loaded (c.cycle + k) (genToks b tag outs))).countFiring c u := by
  unfold Tile.generate LUnit.loaded genToks
  simp only [List.map_map, if_neg hk]
  rfl

theorem Tile.countsFiring_generate (b : Tile) (c : Ctx) (u : Nat) (tag : BitVec 8) (outs : List (Nat × Nat × Nat)) :
    b.CountsFiring (b.generate c u 0 tag outs) c u := by
  rw [Tile.generate_now]
  exact (Tile.countsFiring_countFiring c u (b.setUnit u _)).of_same rfl rfl (Tile.rd_passUnit_ne c u _ u (by decide))

section
variable {b : Tile} {c : Ctx} {u : Nat} {tag : BitVec 8} {outs : List (Nat × Nat × Nat)} (hq : b.PipeQuiet c u)
include hq

/-- The unit whose tokens have passed: it holds none of them, and has perhaps fed itself. -/
theorem Tile.unit_generate_room (hroom : b.HasRoom u (genToks b tag outs)) : ∃ l, (b.generate c u 0 tag outs).unit u =
    ((((b.unit u).loaded c.cycle (genToks b tag outs)).left c).given l) := by
  rw [Tile.generate_now, Tile.passUnit_room (by rwa [Tile.leaving_emitting hq, Tile.hasRoom_emitting]), Tile.unit_feeds,
    Tile.unit_setUnit_same, Tile.unit_emitting, if_pos rfl]
  exact ⟨_, rfl⟩

/-- The unit whose tokens are held holds with all that it waits for (R121). -/
theorem Tile.unit_generate_full (hroom : ¬ b.HasRoom u (genToks b tag outs)) : (b.generate c u 0 tag outs).unit u =
    ((b.unit u).loaded c.cycle (genToks b tag outs)).holds c.cycle := by
  obtain ⟨full, h⟩ := Tile.passUnit_full (c := c) (u := u) (tl := b.emitting c u (genToks b tag outs))
    (by rwa [Tile.leaving_emitting hq, Tile.hasRoom_emitting])
  rw [Tile.generate_now, h, Tile.unit_of_lat (Tile.lat_imbalance c u full _), Tile.unit_setUnit_same, Tile.unit_emitting, if_pos rfl]

end

theorem Tile.SameFlow.hasRoom_genToks_iff {b x : Tile} {u : Nat} (h : b.SameFlow x u) (tag : BitVec 8) (outs : List (Nat × Nat × Nat)) :
    x.HasRoom u (genToks x tag outs) ↔ b.HasRoom u (genToks b tag outs) := by
  rw [h.genToks_eq, h.hasRoom_iff]

/-- A unit set to one with the same links and the same pipeline moves no token. -/
theorem Tile.sameFlow_setUnit {b : Tile} {u : Nat} {x : LUnit} (hinq : x.inq = (b.unit u).inq) (hpipe : x.pipe = (b.unit u).pipe) :
    b.SameFlow (b.setUnit u x) u :=
  ⟨rfl, Tile.inq_setUnit hinq, by rw [Tile.unit_setUnit_same, hpipe]⟩

end Sys2Proof.Machine
end

section
/-! What the firings of VX, XF and ST compute, and that each is what `Tile.Fires` says (R123, R128 to R130, Table 4-3). -/
namespace Sys2Proof.Machine

/-! ### Lanes and packed elements -/

theorem unpackElems_eq (w k v : Nat) : unpackElems w k v = (List.range k).map (fun j => v / 2 ^ (w * j) % 2 ^ w) := by
  induction k generalizing v with
  | zero => rfl
  | succ k ih =>
    rw [unpackElems, ih, List.range_succ_eq_map, List.map_cons, List.map_map]
    congr 1
    · simp
    · refine List.map_congr_left fun j _ => ?_
      rw [Function.comp_apply, Nat.div_div_eq_div_mul, ← Nat.pow_add, Nat.mul_succ, Nat.add_comm]

/-- An element of a packed value is the element packed, cut to its width. -/
theorem packElems_elem (w : Nat) (l : List Nat) (j : Nat) : packElems w l / 2 ^ (w * j) % 2 ^ w = l.getD j 0 % 2 ^ w := by
  induction l generalizing j with
  | nil => simp [packElems]
  | cons x l ih =>
    cases j with
    | zero => simp [packElems]
    | succ j =>
      have hlow : (x % 2 ^ w + 2 ^ w * packElems w l) / 2 ^ w = packElems w l := by
        rw [Nat.add_mul_div_left _ _ (Nat.two_pow_pos w), Nat.div_eq_of_lt (Nat.mod_lt _ (Nat.two_pow_pos w)), Nat.zero_add]
      rw [packElems, Nat.mul_succ, Nat.add_comm (w * j) w, Nat.pow_add, ← Nat.div_div_eq_div_mul, hlow, ih, List.getD_cons_succ]

/-- Bits below the width of a bit vector are the number's. -/
theorem toNat_ofNat_div_mod {n k w : Nat} (v : Nat) (h : k + w ≤ n) : (BitVec.ofNat n v).toNat / 2 ^ k % 2 ^ w = v / 2 ^ k % 2 ^ w := by
  have hsplit : 2 ^ n = 2 ^ k * 2 ^ (n - k) := by rw [← Nat.pow_add, Nat.add_sub_cancel' (by omega)]
  rw [BitVec.toNat_ofNat, hsplit, Nat.mod_mul_right_div_self, Nat.mod_mod_of_dvd _ (Nat.pow_dvd_pow 2 (by omega))]

theorem lane_ofNat (v : Nat) {j : Nat} (hj : j < 16) : lane (BitVec.ofNat 512 v) j = v / 2 ^ (32 * j) % 2 ^ 32 :=
  toNat_ofNat_div_mod v (by omega)

theorem tokLane_lt (t : Tok) (j : Nat) : tokLane t j < 2 ^ 32 := by
  unfold tokLane lane
  split <;> exact Nat.mod_lt _ (by decide)

/-- The lanes of an operand that is there (R129). -/
theorem lanes_some (t : Tok) : lanes (some t) = (List.range 16).map (tokLane t) := by
  unfold lanes tokLane lane
  dsimp only
  split
  · rw [List.map_const', List.length_range]
  · exact unpackElems_eq 32 16 _

/-- A lane of 16 packed lanes. -/
theorem packed_lane (f : Nat → Nat) {j : Nat} (hj : j < 16) (hf : f j < 2 ^ 32) :
    packElems 32 ((List.range 16).map f) / 2 ^ (32 * j) % 2 ^ 32 = f j := by
  rw [packElems_elem, List.getD_eq_getElem _ _ (by simpa using hj), List.getElem_map, List.getElem_range, Nat.mod_eq_of_lt hf]

/-! ### VX -/

/-- What a VX firing of op `op` computes from the operands of its entry (R129). -/
def vxResult (b : Tile) (c : Ctx) (o : OpBlk) (e : MEntry) (op : Nat)
    (f : OpBlk → List Nat → List Nat → List Nat → List Nat → Nat → VxRes) : VxRes :=
  f o (b.draw c o (vxDraws o op)).1 (lanes (operand b.lat.cfg o e 0)) (lanes (operand b.lat.cfg o e 1)) (lanes (operand b.lat.cfg o e 2))
    (packElems 32 (lanes (operand b.lat.cfg o e 0)))

/-- The status bits of a VX result (R64, R59). -/
def Tile.vxFlags (c : Ctx) (v : VxRes) (tl : Tile) : Tile :=
  ((tl.numFlagIf c v.ovf F.TIL_NUM_STATUS.cvt_overflow).numFlagIf c v.nan F.TIL_NUM_STATUS.cvt_nan).numFlagIf c v.mis
    F.TIL_NUM_STATUS.x96_mismatch

theorem Tile.beside_vxFlags (c : Ctx) (v : VxRes) (tl : Tile) : tl.Beside (tl.vxFlags c v) :=
  ((tl.beside_numFlagIf c v.ovf (by decide)).trans (Tile.beside_numFlagIf _ c v.nan (by decide))).trans
    (Tile.beside_numFlagIf _ c v.mis (by decide))

theorem Tile.rd_numFlagIf_same (tl : Tile) (c : Ctx) {b : Bool} (hb : b = true) {f : Fld} (hf : F.TIL_NUM_STATUS.again_count.id ≠ f.id)
    (hw : f.width = 1) : (tl.numFlagIf c b f).rd f 0 = 1 := by
  rw [Tile.numFlagIf, if_pos hb, Tile.rd_numFlag_same tl c hf hw]

/-- Each flag of the result sets its bit. -/
theorem Tile.rd_vxFlags (c : Ctx) (v : VxRes) (tl : Tile) :
    (v.ovf = true → (tl.vxFlags c v).rd F.TIL_NUM_STATUS.cvt_overflow 0 = 1) ∧
    (v.nan = true → (tl.vxFlags c v).rd F.TIL_NUM_STATUS.cvt_nan 0 = 1) ∧
    (v.mis = true → (tl.vxFlags c v).rd F.TIL_NUM_STATUS.x96_mismatch 0 = 1) := by
  unfold Tile.vxFlags
  refine ⟨fun h => ?_, fun h => ?_, fun h => Tile.rd_numFlagIf_same _ c h (by decide) rfl⟩
  · rw [Tile.rd_numFlagIf_ne _ c _ 0 (by decide) (by decide), Tile.rd_numFlagIf_ne _ c _ 0 (by decide) (by decide)]
    exact Tile.rd_numFlagIf_same tl c h (by decide) rfl
  · rw [Tile.rd_numFlagIf_ne _ c _ 0 (by decide) (by decide)]
    exact Tile.rd_numFlagIf_same _ c h (by decide) rfl

section
variable {tl0 b : Tile} {c : Ctx} {u op : Nat} {o : OpBlk} {e : MEntry} (hb : tl0.pumpAll c = b)
include hb

section
variable (hk : uKind u = .vx) (hready : b.ready c u op false = some (o, e))
include hk hready

/-- With cond = 0 the entry is fired and nothing placed (R128). -/
theorem Tile.vxFire_suppressed (lat : Nat) (f : OpBlk → List Nat → List Nat → List Nat → List Nat → Nat → VxRes)
    (hcond : condOf b.lat.cfg o e = false) : tl0.vxFire c u op lat f = b.fired c u e [] := by
  unfold Tile.vxFire
  simp only [hb, hk, hready, hcond, ne_eq, not_true, if_false, if_true]

/-- With cond = 1 the result is placed on out0 after the op's latency, and its flags are set. -/
theorem Tile.vxFire_result (lat : Nat) (f : OpBlk → List Nat → List Nat → List Nat → List Nat → Nat → VxRes)
    (hcond : condOf b.lat.cfg o e = true) : tl0.vxFire c u op lat f =
      ((b.draw c o (vxDraws o op)).2.vxFlags c (vxResult b c o e op f)).fired c u e
        [(0, lat, (vxResult b c o e op f).net, (vxResult b c o e op f).val)] := by
  unfold Tile.vxFire
  simp only [hb, hk, hready, hcond, ne_eq, not_true, if_false, Bool.true_eq_false]
  rfl

/-- So a VX firing is what `Tile.Fires` says, with one token or none. -/
theorem Tile.vxFire_fires (lat : Nat) (f : OpBlk → List Nat → List Nat → List Nat → List Nat → Nat → VxRes) :
    b.Fires (tl0.vxFire c u op lat f) c u e (if condOf b.lat.cfg o e then
      [outTok b e 0 (c.cycle + lat) (vxResult b c o e op f).net (vxResult b c o e op f).val] else []) := by
  cases hcond : condOf b.lat.cfg o e with
  | false =>
    rw [Tile.vxFire_suppressed hb hk hready lat f hcond]
    exact (Tile.Beside.refl b).fires c u e []
  | true =>
    rw [Tile.vxFire_result hb hk hready lat f hcond]
    exact ((b.beside_draw c o _).trans (Tile.beside_vxFlags c _ _)).fires c u e _

/-- CMPLT and CMPEQ place bit 0 of a control token on ctlout, or nothing (R129). -/
theorem Tile.vxCompare_fires (fp : FVal → FVal → Bool) (ip : Int → Int → Bool) : b.Fires (tl0.vxCompare c u op fp ip) c u e
    (if condOf b.lat.cfg o e then
      [outTok b e 2 (c.cycle + 2) 2 (if o.fmtIn = 9 then
          ip (int32 ((lanes (operand b.lat.cfg o e 0)).headD 0)) (int32 ((lanes (operand b.lat.cfg o e 1)).headD 0))
        else fp (floatVal 0 ((lanes (operand b.lat.cfg o e 0)).headD 0)) (floatVal 0 ((lanes (operand b.lat.cfg o e 1)).headD 0))).toNat]
    else []) := by
  unfold Tile.vxCompare
  simp only [hb, hk, hready, ne_eq, not_true, if_false]
  split
  · exact (Tile.Beside.refl b).fires c u e [_]
  · exact (Tile.Beside.refl b).fires c u e []

end

/-! ### ST -/

/-- An ST firing that passes an input which is there (Table 4-3). -/
theorem Tile.stFire_passes (hk : uKind u = .st) (hready : b.ready c u op false = some (o, e)) {pick : Bool → Option (Nat × Nat)}
    {out inp : Nat} (hpick : pick (condOf b.lat.cfg o e) = some (out, inp)) {v : Tok} (hv : operand b.lat.cfg o e inp = some v) :
    b.Fires (tl0.stFire c u op pick) c u e [outTok b e out (c.cycle + 1) v.net v.val.toNat] := by
  have heq : tl0.stFire c u op pick = b.fired c u e [(out, 1, v.net, v.val.toNat)] := by
    unfold Tile.stFire
    simp only [hb, hk, hready, hpick, hv, ne_eq, not_true, if_false]
  rw [heq]
  exact (Tile.Beside.refl b).fires c u e _

/-- An ST firing that drops its token. -/
theorem Tile.stFire_drops (hk : uKind u = .st) (hready : b.ready c u op false = some (o, e)) {pick : Bool → Option (Nat × Nat)}
    (hpick : pick (condOf b.lat.cfg o e) = none) : b.Fires (tl0.stFire c u op pick) c u e [] := by
  have heq : tl0.stFire c u op pick = b.fired c u e [] := by
    unfold Tile.stFire
    simp only [hb, hk, hready, hpick, ne_eq, not_true, if_false]
  rw [heq]
  exact (Tile.Beside.refl b).fires c u e _

/-- DLY takes its head token and passes it `count` cycles later (Table 4-3). -/
theorem Tile.stDelay_eq (hk : uKind u = .st) (hlive : b.latLive c = true) (hop : b.lat.cfg.op? u = some o) (hdly : o.op = 5)
    {q : Nat × Nat × Tok} (hhead : (b.unit u).head c 0 = some q) (hphase : q.2.2.phase = b.lat.cfg.phase)
    (hroom : (b.unit u).pipe.length < o.count) (hfree : b.holding c u = false) (hfire : (b.unit u).lastFire ≠ some c.cycle) :
    tl0.stDelay c u = (b.setUnit u { b.unit u with
      inq := (b.unit u).inq.erase q, lastFire := some c.cycle
      pipe := (b.unit u).pipe ++ [(0, c.cycle + o.count, q.2.2)] }).countFiring c u := by
  have hgo : ¬(o.op ≠ 5 ∨ q.2.2.phase ≠ b.lat.cfg.phase ∨ o.count ≤ (b.unit u).pipe.length ∨ b.holding c u = true ∨
      (b.unit u).lastFire = some c.cycle) := by
    simp [hdly, hphase, hfree, hfire, hroom]
  unfold Tile.stDelay
  simp only [hb, hk, hlive, hop, hhead, if_neg hgo, ne_eq, not_true, Bool.true_eq_false, or_self, if_false]
  rfl

end

end Sys2Proof.Machine
end

section
/-! VX on INT32 and XF, lane by lane (R129, R130). -/
namespace Sys2Proof.Machine

/-! ### VX on INT32 -/

theorem zipWith_lanes (g : Nat → Nat → Nat) (x y : Nat → Nat) :
    List.zipWith g ((List.range 16).map x) ((List.range 16).map y) = (List.range 16).map (fun j => g (x j) (y j)) := by
  rw [List.zipWith_map, List.zipWith_self]

theorem zip3_map {α : Type} (g : Nat → Nat → Nat → α) (x y z : Nat → Nat) (l : List Nat) :
    zip3 g (l.map x) (l.map y) (l.map z) = l.map (fun j => g (x j) (y j) (z j)) := by
  induction l with
  | nil => rfl
  | cons a l ih => exact congrArg _ ih

theorem int32_eq_laneInt {a : Nat} (h : a < 2 ^ 32) : int32 a = laneInt a := by
  unfold int32 laneInt
  rw [Nat.mod_eq_of_lt h]
  split <;> split <;> omega

/-- The INT32 rows of `vxIntRows` are rows of Table 4-3, and compute lane by lane what the row says (R129). -/
theorem vxIntRows_lanes : ∀ r ∈ vxIntRows, ∃ (lat : Nat) (f : OpBlk → List Nat → List Nat → List Nat → List Nat → Nat → VxRes),
    (r.1, r.2.1, lat, f) ∈ vxRows ∧
    ∀ (o : OpBlk) (ws l : List Nat) (x y z : Nat → Nat) (v : Nat), o.fmtIn = 9 → (∀ j, x j < 2 ^ 32) → (∀ j, y j < 2 ^ 32) →
      (r.2.1 = 4 → l = (List.range 16).map z) →
      f o ws ((List.range 16).map x) ((List.range 16).map y) l v = vxInts ((List.range 16).map (fun j => r.2.2 (x j) (y j) (z j))) := by
  simp only [vxIntRows, List.forall_mem_cons, List.not_mem_nil, false_implies, implies_true, and_true, forall_const]
  refine ⟨⟨4, vxAdd, by simp [vxRows], ?add⟩, ⟨4, vxSub, by simp [vxRows], ?sub⟩, ⟨4, vxMul, by simp [vxRows], ?mul⟩,
    ⟨4, vxFma, by simp [vxRows], ?fma⟩, ⟨2, vxMin, by simp [vxRows], ?min⟩, ⟨2, vxMax, by simp [vxRows], ?max⟩⟩ <;>
    intro o ws l x y z v hfmt hx hy hl
  case add => rw [vxAdd, if_pos hfmt, zipWith_lanes]
  case sub =>
    rw [vxSub, if_pos hfmt, zipWith_lanes]
    exact congrArg vxInts (List.map_congr_left fun j _ => by rw [Nat.add_sub_assoc (hy j).le])
  case mul => rw [vxMul, if_pos hfmt, zipWith_lanes]
  case fma => rw [vxFma, if_pos hfmt, hl, zip3_map]
  case min =>
    rw [vxMin, zipWith_lanes]
    exact congrArg vxInts (List.map_congr_left fun j _ => by rw [if_pos hfmt, int32_eq_laneInt (hx j), int32_eq_laneInt (hy j)])
  case max =>
    rw [vxMax, zipWith_lanes]
    exact congrArg vxInts (List.map_congr_left fun j _ => by rw [if_pos hfmt, int32_eq_laneInt (hx j), int32_eq_laneInt (hy j)])

theorem vxIntRows_lt : ∀ r ∈ vxIntRows, ∀ {x y : Nat} (z : Nat), x < 2 ^ 32 → y < 2 ^ 32 → r.2.2 x y z < 2 ^ 32 := by
  simp only [vxIntRows, List.forall_mem_cons, List.not_mem_nil, false_implies, implies_true, and_true]
  refine ⟨?_, ?_, ?_, ?_, ?_, ?_⟩ <;> intro x y z hx hy
  · exact Nat.mod_lt _ (by decide)
  · exact Nat.mod_lt _ (by decide)
  · exact Nat.mod_lt _ (by decide)
  · exact Nat.mod_lt _ (by decide)
  · split <;> assumption
  · split <;> assumption

/-! ### XF -/

theorem signBit_lt (s : Bool) : signBit s 32 ≤ 2 ^ 31 := by
  cases s <;> decide

/-- A list that has encodings of binary32, and nothing else. -/
def Bin32 (l : List Nat) : Prop := l ≠ [] ∧ ∀ y ∈ l, y < 2 ^ 32

theorem Bin32.single {y : Nat} (h : y < 2 ^ 32) : Bin32 [y] := ⟨by simp, by simpa using h⟩

theorem Bin32.ite {p : Prop} [Decidable p] {a b : List Nat} (ha : Bin32 a) (hb : Bin32 b) : Bin32 (if p then a else b) := by
  split
  · exact ha
  · exact hb

/-- The signed zeros and the least magnitudes of either sign. -/
theorem Bin32.tiny : Bin32 [0, signBit true 32, 1, signBit true 32 + 1] := by
  unfold Bin32; decide

/-- The encodings next to a value are encodings. -/
theorem nearUlp_bin32 (s exact : Bool) (m : Nat) (e : Int) : Bin32 (nearUlp s exact m e) := by
  have hs := signBit_lt s
  have hsigned {l : List Nat} (hne : l ≠ []) (hl : ∀ y ∈ l, y ≤ 0x7F800000) : Bin32 (l.map (fun b => signBit s 32 + b)) := by
    refine ⟨by simpa using hne, fun y hy => ?_⟩
    obtain ⟨z, hz, rfl⟩ := List.mem_map.1 hy
    have := hl z hz
    omega
  have hmax : fmtMax 0 = 0x7F7FFFFF := rfl
  unfold nearUlp
  generalize encodeMag 23 127 m e 1 0 = lo
  refine hsigned ?_ ?_
  · repeat' split
    all_goals simp
  · intro y hy
    split_ifs at hy with hbig
    all_goals
      simp only [List.mem_cons, List.not_mem_nil, or_false] at hy
      omega

/-- The encodings that R130 leaves are encodings. -/
theorem xfFinite_bin32 (op : Nat) (s : Bool) (m : Nat) (e : Int) : Bin32 (xfFinite op s m e) := by
  have hsigned : Bin32 [signBit s 32 + 0x7F800000] := by
    have := signBit_lt s
    exact .single (by omega)
  unfold xfFinite
  split
  · exact .ite (nearUlp_bin32 _ _ _ _) (.ite (.single (by decide)) (.ite (.single (by decide)) (.ite (.single (by decide)) (nearUlp_bin32 _ _ _ _))))
  · exact .ite (.single (by decide)) (.ite (.single (by decide)) (.ite .tiny (nearUlp_bin32 _ _ _ _)))
  · exact .ite hsigned (nearUlp_bin32 _ _ _ _)
  · exact .ite hsigned (.ite (.single (by decide)) (nearUlp_bin32 _ _ _ _))
  · exact .ite .tiny (nearUlp_bin32 _ _ _ _)

/-- A lane with a finite input is one of the encodings that R130 leaves. -/
theorem xfLane_mem {op rm r x m : Nat} {s : Bool} {e : Int} (h : floatVal 0 x = .fin s m e) : xfLane op rm r x ∈ xfFinite op s m e := by
  obtain ⟨hne, -⟩ := xfFinite_bin32 op s m e
  have hlen : 0 < (xfFinite op s m e).length := List.length_pos_iff.2 hne
  unfold xfLane
  rw [h]
  dsimp only
  rw [List.getD_eq_getElem _ _ (Nat.mod_lt _ hlen)]
  exact List.getElem_mem _

/-- Every lane of an XF result is an encoding. -/
theorem xfLane_lt (op rm r x : Nat) : xfLane op rm r x < 2 ^ 32 := by
  cases h : floatVal 0 x with
  | nan => simp [xfLane, h, fmtNaN]
  | inf s =>
    have hs := signBit_lt s
    simp only [xfLane, h]
    split
    · split <;> decide
    · split <;> decide
    · omega
    · split <;> decide
    · omega
  | fin s m e =>
    obtain ⟨-, hlt⟩ := xfFinite_bin32 op s m e
    exact hlt _ (xfLane_mem h)

/-- Where R130 leaves one encoding, the lane is that. -/
theorem xfLane_of_single {op x m y : Nat} {s : Bool} {e : Int} (h : floatVal 0 x = .fin s m e) (hl : xfFinite op s m e = [y]) (rm r : Nat) :
    xfLane op rm r x = y := by
  simpa [hl] using xfLane_mem (op := op) (rm := rm) (r := r) h

/-- The special inputs of R130. -/
theorem xfLane_special (rm r : Nat) : ∀ q ∈ xfSpecial, xfLane q.1 rm r q.2.1 = q.2.2 := by
  simp only [xfSpecial, List.forall_mem_cons, List.not_mem_nil, false_implies, implies_true, and_true]
  refine ⟨rfl, rfl, rfl, rfl, rfl, rfl, rfl, ?_, ?_, ?_, ?_, ?_, ?_, ?_, ?_, ?_, rfl, rfl⟩ <;> exact xfLane_of_single rfl rfl rm r

/-- The lanes with their places. -/
theorem zipIdx_lanes (x : Nat → Nat) : ((List.range 16).map x).zipIdx = (List.range 16).map (fun j => (x j, j)) := by
  refine List.ext_getElem (by simp) fun i _ _ => ?_
  simp

section
variable {tl0 b : Tile} {c : Ctx} {op : Nat} {o : OpBlk} {e : MEntry} (hb : tl0.pumpAll c = b)
  (hready : b.ready c 9 op false = some (o, e))
include hb hready

/-- With cond = 0 an XF fires its entry and places nothing (R128). -/
theorem Tile.xfFire_suppressed (hcond : condOf b.lat.cfg o e = false) : b.Fires (tl0.xfFire c op) c 9 e [] := by
  have heq : tl0.xfFire c op = b.fired c 9 e [] := by
    unfold Tile.xfFire
    simp only [hb, hready, hcond, if_true]
  rw [heq]
  exact (Tile.Beside.refl b).fires c 9 e []

/-- With cond = 1 it places 16 lanes on out0 12 cycles later, each from the operand's lane and a rounding word of its own (R130, R68). -/
theorem Tile.xfFire_fires (hcond : condOf b.lat.cfg o e = true) {a : Tok} (ha : operand b.lat.cfg o e 0 = some a) :
    ∃ r : Nat → Nat, b.Fires (tl0.xfFire c op) c 9 e
      [outTok b e 0 (c.cycle + 12) 1 (packElems 32 ((List.range 16).map (fun j => xfLane op o.rmode (r j) (tokLane a j))))] := by
  have heq : tl0.xfFire c op = (b.draw c o 16).2.fired c 9 e [(0, 12, 1, packElems 32 ((List.range 16).map
      (fun j => xfLane op o.rmode ((b.draw c o 16).1.getD j 0) (tokLane a j))))] := by
    unfold Tile.xfFire
    simp only [hb, hready, hcond, ha, lanes_some, zipIdx_lanes, List.map_map, Bool.true_eq_false, if_false]
    rfl
  rw [heq]
  exact ⟨fun j => (b.draw c o 16).1.getD j 0, (b.beside_draw c o 16).fires c 9 e [_]⟩

end

end Sys2Proof.Machine
end

section
/-! SQ: how its loops begin and iterate (R131, R144). -/
namespace Sys2Proof.Machine

theorem toNat_decide_mul (p : Prop) [Decidable p] (k : Nat) : (decide p).toNat * k = if p then k else 0 := by
  split <;> simp [*]

/-- What is left of a loop after the iteration that it makes in cycle `k`. -/
def OpBlk.loopAfter (o : OpBlk) (k : Nat) (l : SqLoop) : Option SqLoop :=
  if o.count ≠ 0 ∧ l.i + 1 = o.count then none else some ⟨l.i + 1, k + o.rate + 1⟩

/-- What an iteration places on out0 and ctlout: output, network and value of each. -/
def OpBlk.loopOuts (o : OpBlk) (l : SqLoop) : List (Nat × Nat × Nat) :=
  [(0, 0, (o.param + l.i) % 2 ^ 32),
   (2, 2, 1 + (if l.i = 0 then 2 else 0) + (if o.count ≠ 0 ∧ l.i + 1 = o.count then 4 else 0))]

/-- A unit that has made an iteration of its loop. -/
def LUnit.iterated (o : OpBlk) (k : Nat) (l : SqLoop) (x : LUnit) : LUnit := { x with genTag := x.genTag + 1, sqLoop := o.loopAfter k l }

/-- A unit that has taken its control token. -/
def LUnit.controlled (c : Ctx) (e : MEntry) (loop : Option SqLoop) (x : LUnit) : LUnit :=
  { x with table := x.table.erase e, expTag := x.expTag + 1, lastFire := some c.cycle, sqLoop := loop }

/-! ### A unit that changes and generates tokens with no latency -/

/-- The loop as a unit that holds leaves it. -/
def SqLoop.held (k : Nat) (l : SqLoop) : SqLoop := { l with next := if k < l.next then l.next + 1 else l.next }

theorem LUnit.sqLoop_holds (k : Nat) (x : LUnit) : (x.holds k).sqLoop = x.sqLoop.map (SqLoop.held k) := rfl

theorem OpBlk.held_loopAfter (o : OpBlk) (k : Nat) (l : SqLoop) :
    (o.loopAfter k l).map (SqLoop.held k) = (o.loopAfter k l).map (fun l => { l with next := l.next + 1 }) := by
  unfold OpBlk.loopAfter
  split
  · rfl
  · rw [Option.map_some, Option.map_some, SqLoop.held, if_pos (by dsimp only; omega)]

/-- Whether its tokens pass or not, the unit's tag counter is its own, its firing is counted, and only lattice and register state moves. -/
theorem Tile.generated_always (b : Tile) (c : Ctx) (u : Nat) (y : LUnit) (tag : BitVec 8) (outs : List (Nat × Nat × Nat)) :
    (((b.setUnit u y).generate c u 0 tag outs).unit u).genTag = y.genTag ∧
    b.CountsFiring ((b.setUnit u y).generate c u 0 tag outs) c u ∧ b.OnlyLattice ((b.setUnit u y).generate c u 0 tag outs) := by
  refine ⟨?_, ?_, ?_⟩
  · rw [Tile.genTag_generate, Tile.unit_setUnit_same]
  · have hcount := Tile.countsFiring_generate (b.setUnit u y) c u tag outs
    generalize (b.setUnit u y).generate c u 0 tag outs = x at hcount ⊢
    exact hcount
  · have hframe := Tile.onlyLattice_generate (b.setUnit u y) c u tag outs
    generalize (b.setUnit u y).generate c u 0 tag outs = x at hframe ⊢
    exact (b.onlyLattice_setUnit u y).trans hframe

section
variable {b : Tile} {c : Ctx} {u : Nat} {y : LUnit} {tag : BitVec 8} {outs : List (Nat × Nat × Nat)}
  (hflow : b.SameFlow (b.setUnit u y) u) (hq : b.PipeQuiet c u)
include hflow hq

/-- Where its tokens have room they pass, and the unit's loop and message go on as they are. -/
theorem Tile.generated_room (hroom : b.HasRoom u (genToks b tag outs)) :
    b.Passes ((b.setUnit u y).generate c u 0 tag outs) c u (genToks b tag outs) ∧
    (((b.setUnit u y).generate c u 0 tag outs).unit u).sqLoop = y.sqLoop ∧
    (((b.setUnit u y).generate c u 0 tag outs).unit u).cpIn = y.cpIn := by
  refine ⟨hflow.generate_passes hq hroom, ?_⟩
  obtain ⟨l, hunit⟩ := Tile.unit_generate_room ((hflow.pipeQuiet_iff c).2 hq) ((hflow.hasRoom_genToks_iff tag outs).2 hroom)
  rw [hunit, Tile.unit_setUnit_same]
  exact ⟨rfl, rfl⟩

/-- Where they have none they are held, and the loop with them. -/
theorem Tile.generated_full (hroom : ¬ b.HasRoom u (genToks b tag outs)) :
    b.Holds ((b.setUnit u y).generate c u 0 tag outs) c u (genToks b tag outs) ∧
    (((b.setUnit u y).generate c u 0 tag outs).unit u).sqLoop = y.sqLoop.map (SqLoop.held c.cycle) ∧
    (y.cpIn = none → (((b.setUnit u y).generate c u 0 tag outs).unit u).cpIn = none) := by
  refine ⟨hflow.generate_holds hq hroom, ?_⟩
  rw [Tile.unit_generate_full ((hflow.pipeQuiet_iff c).2 hq) (mt (hflow.hasRoom_genToks_iff tag outs).1 hroom), Tile.unit_setUnit_same]
  refine ⟨LUnit.sqLoop_holds _ _, fun hin => ?_⟩
  show y.cpIn.map _ = none
  rw [hin, Option.map_none]

end

section
variable {tl0 b : Tile} {c : Ctx} {u : Nat} {o : OpBlk} (hb : tl0.pumpAll c = b) (hk : uKind u = .sq)
include hb hk

section
variable {e : MEntry} (hready : b.ready c u 1 true = some (o, e)) (hloop : (b.unit u).sqLoop = none)
include hready hloop

/-- A control token of a phase that drains is discarded (R144). -/
theorem Tile.sqFire_stopped (hstop : b.lat.stopped = true) :
    tl0.sqFire c u = (b.setUnit u ((b.unit u).controlled c e none)).phaseDiscard c 1 := by
  unfold Tile.sqFire LUnit.controlled
  simp only [hb, hk, hready, hloop, hstop, ne_eq, not_true, if_false, if_true, Option.isSome_none, Bool.false_eq_true]

/-- Otherwise cond = 1 starts a loop, and cond = 0 none (R131). -/
theorem Tile.sqFire_started (hstop : b.lat.stopped = false) :
    tl0.sqFire c u = b.setUnit u ((b.unit u).controlled c e (if condOf b.lat.cfg o e then some ⟨0, c.cycle + 1⟩ else none)) := by
  unfold Tile.sqFire LUnit.controlled
  simp only [hb, hk, hready, hloop, hstop, ne_eq, not_true, if_false, Option.isSome_none, Bool.false_eq_true]

/-- Either way the entry is gone and nothing else of the tile has moved; a discard is noted. -/
theorem Tile.sqFire_spec :
    (tl0.sqFire c u).unit u = (b.unit u).controlled c e
      (if b.lat.stopped = false ∧ condOf b.lat.cfg o e = true then some ⟨0, c.cycle + 1⟩ else none) ∧
    (b.lat.stopped = true → (tl0.sqFire c u).rd F.TIL_LAT_STATUS.discard 0 = 1) ∧
    (∀ v, v ≠ u → (tl0.sqFire c u).unit v = b.unit v) ∧ (tl0.sqFire c u).spad = b.spad := by
  cases hstop : b.lat.stopped with
  | true =>
    rw [Tile.sqFire_stopped hb hk hready hloop hstop]
    have hlat := Tile.lat_phaseDiscard c 1 (b.setUnit u ((b.unit u).controlled c e none))
    obtain ⟨hflag, -⟩ := Tile.phaseDiscard_one c (b.setUnit u ((b.unit u).controlled c e none))
    refine ⟨?_, fun _ => hflag, fun v hv => ?_, (Tile.onlyLattice_phaseDiscard c 1 _).spad⟩
    · rw [Tile.unit_of_lat hlat, Tile.unit_setUnit_same, if_neg (by simp)]
    · rw [Tile.unit_of_lat hlat, Tile.unit_setUnit, if_neg (Ne.symm hv)]
  | false =>
    rw [Tile.sqFire_started hb hk hready hloop hstop]
    refine ⟨?_, fun h => absurd h Bool.false_ne_true, fun v hv => ?_, rfl⟩
    · rw [Tile.unit_setUnit_same]
      simp only [true_and]
    · rw [Tile.unit_setUnit, if_neg (Ne.symm hv)]

end

section
variable {l : SqLoop} (hop : b.lat.cfg.op? u = some o) (hloop : (b.unit u).sqLoop = some l) (hdue : l.next ≤ c.cycle)
  (hlive : b.latLive c = true) (hfree : b.holding c u = false)
include hop hloop hdue hlive hfree

/-- An iteration that is due generates its two tokens with the SQ's tag (R131). -/
theorem Tile.sqIterate_eq :
    tl0.sqIterate c u = (b.setUnit u ((b.unit u).iterated o c.cycle l)).generate c u 0 (b.unit u).genTag (o.loopOuts l) := by
  have hgo : ¬(uKind u ≠ .sq ∨ b.latLive c = false ∨ c.cycle < l.next ∨ b.holding c u = true) := by
    simp [hk, hlive, hfree, hdue]
  unfold Tile.sqIterate LUnit.iterated OpBlk.loopAfter OpBlk.loopOuts
  simp only [hb, hop, hloop, if_neg hgo, decide_eq_true_eq, toNat_decide_mul]

/-- The tokens pass or are held; where they are held, so is the loop (R121). -/
theorem Tile.sqIterate_spec (hq : b.PipeQuiet c u) : ((tl0.sqIterate c u).unit u).genTag = (b.unit u).genTag + 1 ∧
    b.CountsFiring (tl0.sqIterate c u) c u ∧ (tl0.sqIterate c u).spad = b.spad ∧
    (b.HasRoom u (genToks b (b.unit u).genTag (o.loopOuts l)) →
      b.Passes (tl0.sqIterate c u) c u (genToks b (b.unit u).genTag (o.loopOuts l)) ∧
      ((tl0.sqIterate c u).unit u).sqLoop = o.loopAfter c.cycle l) ∧
    (¬ b.HasRoom u (genToks b (b.unit u).genTag (o.loopOuts l)) →
      b.Holds (tl0.sqIterate c u) c u (genToks b (b.unit u).genTag (o.loopOuts l)) ∧
      ((tl0.sqIterate c u).unit u).sqLoop = (o.loopAfter c.cycle l).map (fun l => { l with next := l.next + 1 })) := by
  rw [Tile.sqIterate_eq hb hk hop hloop hdue hlive hfree]
  have hflow : b.SameFlow (b.setUnit u ((b.unit u).iterated o c.cycle l)) u := Tile.sameFlow_setUnit rfl rfl
  obtain ⟨htag, hcount, hframe⟩ := Tile.generated_always b c u ((b.unit u).iterated o c.cycle l) (b.unit u).genTag (o.loopOuts l)
  refine ⟨htag, hcount, hframe.spad, fun hroom => ?_, fun hroom => ?_⟩
  · obtain ⟨hpass, hsq, -⟩ := Tile.generated_room hflow hq hroom
    exact ⟨hpass, hsq⟩
  · obtain ⟨hhold, hsq, -⟩ := Tile.generated_full hflow hq hroom
    refine ⟨hhold, hsq.trans ?_⟩
    rw [LUnit.iterated, OpBlk.held_loopAfter]

end

end

end Sys2Proof.Machine
end

section
/-! The firings of VX, XF, ST and SQ as commands: O22. -/
namespace Sys2Proof.Proofs
open Sys2Proof.Machine

section
variable {s : State} {t u : Nat} {o : OpBlk} {e : MEntry} (ht : t < 2304) (hg : s.gatedNow = false)
include ht hg

/-- The rows of Table 4-3 that make an out0 token (R123, R126, R128). -/
theorem vxRows_fire (hk : uKind u = .vx) : ∀ r ∈ vxRows, (s.lat_ t).ready (s.ctx t) u r.2.1 false = some (o, e) →
    ∃ x : Tile, exec (r.1 t u) s = .next (s.withTile t x []) ∧
      (s.lat_ t).Fires x (s.ctx t) u e (if condOf (s.lat_ t).lat.cfg o e then
        [outTok (s.lat_ t) e 0 (s.cycle + r.2.2.1) (vxResult (s.lat_ t) (s.ctx t) o e r.2.1 r.2.2.2).net
          (vxResult (s.lat_ t) (s.ctx t) o e r.2.1 r.2.2.2).val] else []) ∧
      (condOf (s.lat_ t).lat.cfg o e = true →
        ((vxResult (s.lat_ t) (s.ctx t) o e r.2.1 r.2.2.2).ovf = true → x.rd F.TIL_NUM_STATUS.cvt_overflow 0 = 1) ∧
        ((vxResult (s.lat_ t) (s.ctx t) o e r.2.1 r.2.2.2).nan = true → x.rd F.TIL_NUM_STATUS.cvt_nan 0 = 1) ∧
        ((vxResult (s.lat_ t) (s.ctx t) o e r.2.1 r.2.2.2).mis = true → x.rd F.TIL_NUM_STATUS.x96_mismatch 0 = 1)) := by
  have hexec : ∀ r ∈ vxRows, exec (r.1 t u) s = .next (s.onClocked t fun c tl => (tl.vxFire c u r.2.1 r.2.2.1 r.2.2.2, [])) := by
    simp only [vxRows, List.forall_mem_cons, List.not_mem_nil, false_implies, implies_true, and_true]
    exact ⟨rfl, rfl, rfl, rfl, rfl, rfl, rfl, rfl, rfl, rfl, rfl, rfl⟩
  intro r hr hready
  refine ⟨_, exec_clocked_silent ht hg (hexec r hr), Tile.vxFire_fires rfl hk hready _ _, fun hcond => ?_⟩
  obtain ⟨hovf, hnan, hmis⟩ := Tile.rd_vxFlags (s.ctx t) (vxResult (s.lat_ t) (s.ctx t) o e r.2.1 r.2.2.2)
    ((s.lat_ t).draw (s.ctx t) o (vxDraws o r.2.1)).2
  rw [Tile.vxFire_result (b := s.lat_ t) rfl hk hready _ _ hcond, Tile.rd_fired_ne _ _ _ _ _ 0 (by decide),
    Tile.rd_fired_ne _ _ _ _ _ 0 (by decide), Tile.rd_fired_ne _ _ _ _ _ 0 (by decide)]
  exact ⟨hovf, hnan, hmis⟩

/-- INT32 arithmetic, lane by lane (R129). -/
theorem vxIntRows_fire (hk : uKind u = .vx) : ∀ r ∈ vxIntRows, ∀ a b c : Tok,
    (s.lat_ t).ready (s.ctx t) u r.2.1 false = some (o, e) → condOf (s.lat_ t).lat.cfg o e = true → o.fmtIn = 9 →
    operand (s.lat_ t).lat.cfg o e 0 = some a → operand (s.lat_ t).lat.cfg o e 1 = some b →
    (r.2.1 = 4 → operand (s.lat_ t).lat.cfg o e 2 = some c) →
    ∃ (x : Tile) (k : Nat) (v : Tok), exec (r.1 t u) s = .next (s.withTile t x []) ∧
      (x.unit u).pipe = ((s.lat_ t).unit u).pipe ++ [(0, s.cycle + k, v)] ∧ v.net = 1 ∧ v.tag = e.tag ∧
      ∀ j, j < 16 → lane v.val j = r.2.2 (tokLane a j) (tokLane b j) (tokLane c j) := by
  intro r hr a b c hready hcond hfmt ha hb hc
  obtain ⟨lat, f, hmem, hlanes⟩ := vxIntRows_lanes r hr
  obtain ⟨x, hexec, ⟨hunit, -⟩, -⟩ := vxRows_fire ht hg hk _ hmem hready
  have hresult : vxResult (s.lat_ t) (s.ctx t) o e r.2.1 f =
      vxInts ((List.range 16).map fun j => r.2.2 (tokLane a j) (tokLane b j) (tokLane c j)) := by
    unfold vxResult
    rw [ha, hb, lanes_some, lanes_some]
    exact hlanes o _ _ _ _ (tokLane c) _ hfmt (tokLane_lt a) (tokLane_lt b) fun h4 => by rw [hc h4, lanes_some]
  refine ⟨x, lat, _, hexec, (congrArg LUnit.pipe hunit).trans (by rw [if_pos hcond]; rfl), ?_, rfl, fun j hj => ?_⟩
  · show (vxResult (s.lat_ t) (s.ctx t) o e r.2.1 f).net = 1
    rw [hresult]
    rfl
  · show lane (BitVec.ofNat 512 (vxResult (s.lat_ t) (s.ctx t) o e r.2.1 f).val) j = _
    rw [hresult, lane_ofNat _ hj]
    exact packed_lane (fun j => r.2.2 (tokLane a j) (tokLane b j) (tokLane c j)) hj (vxIntRows_lt r hr _ (tokLane_lt a j) (tokLane_lt b j))

/-- CMPLT and CMPEQ (R129). -/
theorem vxCompares_fire (hk : uKind u = .vx) {i : Instr} {op : Nat} {less : Bool}
    (hi : i = .vxCmplt t u ∧ op = 12 ∧ less = true ∨ i = .vxCmpeq t u ∧ op = 13 ∧ less = false)
    (hready : (s.lat_ t).ready (s.ctx t) u op false = some (o, e)) :
    (condOf (s.lat_ t).lat.cfg o e = false →
      ∃ x : Tile, exec i s = .next (s.withTile t x []) ∧ (s.lat_ t).Fires x (s.ctx t) u e []) ∧
    (condOf (s.lat_ t).lat.cfg o e = true → ∀ (a b : Nat), a = (lanes (operand (s.lat_ t).lat.cfg o e 0)).headD 0 →
      b = (lanes (operand (s.lat_ t).lat.cfg o e 1)).headD 0 →
      ∃ x : Tile, exec i s = .next (s.withTile t x []) ∧
        (s.lat_ t).Fires x (s.ctx t) u e [outTok (s.lat_ t) e 2 (s.cycle + 2) 2
          (if (if o.fmtIn = 9 then (if less then decide (int32 a < int32 b) else decide (int32 a = int32 b))
               else (if less then flt (floatVal 0 a) (floatVal 0 b) else feq (floatVal 0 a) (floatVal 0 b))) then 1 else 0)]) := by
  obtain ⟨fp, ip, hexec, hfp, hip⟩ : ∃ (fp : FVal → FVal → Bool) (ip : Int → Int → Bool),
      exec i s = .next (s.onClocked t fun c tl => (tl.vxCompare c u op fp ip, [])) ∧
      (∀ x y, fp x y = if less then flt x y else feq x y) ∧ (∀ x y, ip x y = if less then decide (x < y) else decide (x = y)) := by
    obtain ⟨rfl, rfl, rfl⟩ | ⟨rfl, rfl, rfl⟩ := hi
    · exact ⟨flt, fun a b => decide (a < b), rfl, fun _ _ => rfl, fun _ _ => rfl⟩
    · exact ⟨feq, fun a b => decide (a = b), rfl, fun _ _ => rfl, fun _ _ => rfl⟩
  have hfires := Tile.vxCompare_fires (b := s.lat_ t) rfl hk hready fp ip
  refine ⟨fun hcond => ⟨_, exec_clocked_silent ht hg hexec, ?_⟩, fun hcond a b ha hb => ⟨_, exec_clocked_silent ht hg hexec, ?_⟩⟩
  · rwa [hcond, if_neg Bool.false_ne_true] at hfires
  · rw [hcond, if_pos rfl, ← ha, ← hb, hfp, hip] at hfires
    rwa [Bool.toNat, Bool.cond_eq_ite] at hfires

end

section
variable {s : State} {t : Nat} {o : OpBlk} {e : MEntry} (ht : t < 2304) (hg : s.gatedNow = false)
include ht hg

/-- The five functions of XF (R128 to R130). -/
theorem xfRows_fire : ∀ r ∈ xfRows, (s.lat_ t).ready (s.ctx t) 9 r.2 false = some (o, e) →
    (condOf (s.lat_ t).lat.cfg o e = false →
      ∃ x : Tile, exec (r.1 t) s = .next (s.withTile t x []) ∧ (s.lat_ t).Fires x (s.ctx t) 9 e []) ∧
    (∀ a, condOf (s.lat_ t).lat.cfg o e = true → operand (s.lat_ t).lat.cfg o e 0 = some a →
      ∃ (x : Tile) (v : Nat), exec (r.1 t) s = .next (s.withTile t x []) ∧
        (s.lat_ t).Fires x (s.ctx t) 9 e [outTok (s.lat_ t) e 0 (s.cycle + 12) 1 v] ∧
        (∀ q ∈ xfSpecial, q.1 = r.2 → ∀ j, j < 16 → tokLane a j = q.2.1 → v / 2 ^ (32 * j) % 2 ^ 32 = q.2.2) ∧
        ∀ j n m k, j < 16 → floatVal 0 (tokLane a j) = .fin n m k → v / 2 ^ (32 * j) % 2 ^ 32 ∈ xfFinite r.2 n m k) := by
  have hexec : ∀ r ∈ xfRows, exec (r.1 t) s = .next (s.onClocked t fun c tl => (tl.xfFire c r.2, [])) := by
    simp only [xfRows, List.forall_mem_cons, List.not_mem_nil, false_implies, implies_true, and_true]
    exact ⟨rfl, rfl, rfl, rfl, rfl⟩
  intro r hr hready
  refine ⟨fun hcond => ⟨_, exec_clocked_silent ht hg (hexec r hr), Tile.xfFire_suppressed rfl hready hcond⟩, fun a hcond ha => ?_⟩
  obtain ⟨w, hfires⟩ := Tile.xfFire_fires (b := s.lat_ t) rfl hready hcond ha
  have hlane {j : Nat} (hj : j < 16) := packed_lane (fun j => xfLane r.2 o.rmode (w j) (tokLane a j)) hj (xfLane_lt r.2 o.rmode (w j) _)
  refine ⟨_, _, exec_clocked_silent ht hg (hexec r hr), hfires, fun q hq hop j hj hspecial => ?_, fun j n m k hj hfin => ?_⟩
  · rw [hlane hj, hspecial, ← hop]
    exact xfLane_special _ _ q hq
  · rw [hlane hj]
    exact xfLane_mem hfin

section
variable {u : Nat} (hk : uKind u = .st)
include hk

/-- SEL, BR, MRG and FLT where they pass an input (Table 4-3). -/
theorem stRows_fire {i : Instr} {op out inp : Nat}
    (hi : i = .stSel t u ∧ op = 1 ∧ out = 0 ∧ inp = (if condOf (s.lat_ t).lat.cfg o e then 0 else 1) ∨
      i = .stBr t u ∧ op = 2 ∧ out = (if condOf (s.lat_ t).lat.cfg o e then 0 else 1) ∧ inp = 0 ∨
      i = .stMrg t u ∧ op = 3 ∧ out = 0 ∧ inp = (if condOf (s.lat_ t).lat.cfg o e then 0 else 1) ∨
      i = .stFlt t u ∧ op = 4 ∧ out = 0 ∧ inp = 0 ∧ condOf (s.lat_ t).lat.cfg o e = true)
    (hready : (s.lat_ t).ready (s.ctx t) u op false = some (o, e)) {v : Tok} (hv : operand (s.lat_ t).lat.cfg o e inp = some v) :
    ∃ x : Tile, exec i s = .next (s.withTile t x []) ∧
      (s.lat_ t).Fires x (s.ctx t) u e [outTok (s.lat_ t) e out (s.cycle + 1) v.net v.val.toNat] := by
  obtain ⟨pick, hexec, hpick⟩ : ∃ pick : Bool → Option (Nat × Nat),
      exec i s = .next (s.onClocked t fun c tl => (tl.stFire c u op pick, [])) ∧ pick (condOf (s.lat_ t).lat.cfg o e) = some (out, inp) := by
    obtain ⟨rfl, rfl, rfl, rfl⟩ | ⟨rfl, rfl, rfl, rfl⟩ | ⟨rfl, rfl, rfl, rfl⟩ | ⟨rfl, rfl, rfl, rfl, hcond⟩ := hi
    · exact ⟨_, rfl, rfl⟩
    · exact ⟨_, rfl, rfl⟩
    · exact ⟨_, rfl, rfl⟩
    · exact ⟨_, rfl, if_pos hcond⟩
  exact ⟨_, exec_clocked_silent ht hg hexec, Tile.stFire_passes rfl hk hready hpick hv⟩

/-- FLT with cond = 0 drops its token. -/
theorem stFlt_drops (hready : (s.lat_ t).ready (s.ctx t) u 4 false = some (o, e)) (hcond : condOf (s.lat_ t).lat.cfg o e = false) :
    ∃ x : Tile, exec (.stFlt t u) s = .next (s.withTile t x []) ∧ (s.lat_ t).Fires x (s.ctx t) u e [] :=
  ⟨_, exec_clocked_silent ht hg rfl, Tile.stFire_drops (b := s.lat_ t) rfl hk hready (if_neg (by simp [hcond]))⟩

/-- DLY passes its oldest token. -/
theorem stDly_passes {q : Nat × Nat × Tok} (hop : (s.lat_ t).lat.cfg.op? u = some o) (hdly : o.op = 5)
    (hhead : ((s.lat_ t).unit u).head (s.ctx t) 0 = some q) (hphase : q.2.2.phase = (s.lat_ t).lat.cfg.phase)
    (hroom : ((s.lat_ t).unit u).pipe.length < o.count) (hfree : (s.lat_ t).holding (s.ctx t) u = false)
    (hfire : ((s.lat_ t).unit u).lastFire ≠ some s.cycle) (hlive : (s.lat_ t).latLive (s.ctx t) = true) :
    ∃ x : Tile, exec (.stDly t u) s = .next (s.withTile t x []) ∧
      x.unit u = { (s.lat_ t).unit u with
        inq := ((s.lat_ t).unit u).inq.erase q, lastFire := some s.cycle
        pipe := ((s.lat_ t).unit u).pipe ++ [(0, s.cycle + o.count, q.2.2)] } ∧
      (s.lat_ t).CountsFiring x (s.ctx t) u ∧ (∀ v, v ≠ u → x.unit v = (s.lat_ t).unit v) ∧ x.spad = (s.lat_ t).spad := by
  have hx := Tile.stDelay_eq (b := s.lat_ t) rfl hk hlive hop hdly hhead hphase hroom hfree hfire
  obtain ⟨hunit, hcount, hother, hframe⟩ := Tile.setUnit_counted (s.lat_ t) (s.ctx t) u _
  exact ⟨_, exec_clocked ht hg rfl (Prod.ext hx rfl), hunit, hcount, hother, hframe.spad⟩

end

section
variable {u : Nat} (hk : uKind u = .sq)
include hk

/-- An SQ takes its control token (R131, R144). -/
theorem sqLoop_takes (hready : (s.lat_ t).ready (s.ctx t) u 1 true = some (o, e)) (hloop : ((s.lat_ t).unit u).sqLoop = none) :
    ∃ x : Tile, exec (.sqLoop t u) s = .next (s.withTile t x []) ∧
      x.unit u = { (s.lat_ t).unit u with
        table := ((s.lat_ t).unit u).table.erase e, expTag := ((s.lat_ t).unit u).expTag + 1, lastFire := some s.cycle
        sqLoop := if (s.lat_ t).lat.stopped = false ∧ condOf (s.lat_ t).lat.cfg o e = true then some ⟨0, s.cycle + 1⟩ else none } ∧
      ((s.lat_ t).lat.stopped = true → x.rd F.TIL_LAT_STATUS.discard 0 = 1) ∧
      (∀ v, v ≠ u → x.unit v = (s.lat_ t).unit v) ∧ x.spad = (s.lat_ t).spad :=
  ⟨_, exec_clocked_silent ht hg rfl, Tile.sqFire_spec rfl hk hready hloop⟩

omit e in
/-- An SQ makes the iteration of its loop that is due (R131, R121). -/
theorem sqIteration_emits {l : SqLoop} (hop : (s.lat_ t).lat.cfg.op? u = some o) (hloop : ((s.lat_ t).unit u).sqLoop = some l)
    (hdue : l.next ≤ s.cycle) (hlive : (s.lat_ t).latLive (s.ctx t) = true) (hfree : (s.lat_ t).holding (s.ctx t) u = false)
    (hq : (s.lat_ t).PipeQuiet (s.ctx t) u) {toks : List (Nat × Tok)}
    (htoks : toks = genToks (s.lat_ t) ((s.lat_ t).unit u).genTag (o.loopOuts l)) :
    ∃ x : Tile, exec (.sqIteration t u) s = .next (s.withTile t x []) ∧ (x.unit u).genTag = ((s.lat_ t).unit u).genTag + 1 ∧
      (s.lat_ t).CountsFiring x (s.ctx t) u ∧ x.spad = (s.lat_ t).spad ∧
      ((s.lat_ t).HasRoom u toks → (s.lat_ t).Passes x (s.ctx t) u toks ∧
        (x.unit u).sqLoop = (if o.count ≠ 0 ∧ l.i + 1 = o.count then none else some ⟨l.i + 1, s.cycle + o.rate + 1⟩)) ∧
      (¬ (s.lat_ t).HasRoom u toks → (s.lat_ t).Holds x (s.ctx t) u toks ∧
        (x.unit u).sqLoop = (if o.count ≠ 0 ∧ l.i + 1 = o.count then none else some ⟨l.i + 1, s.cycle + o.rate + 2⟩)) := by
  subst htoks
  obtain ⟨htag, hcount, hspad, hpass, hhold⟩ := Tile.sqIterate_spec (b := s.lat_ t) rfl hk hop hloop hdue hlive hfree hq
  refine ⟨_, exec_clocked_silent ht hg rfl, htag, hcount, hspad, hpass, fun hroom => ?_⟩
  obtain ⟨hholds, hloop'⟩ := hhold hroom
  refine ⟨hholds, hloop'.trans ?_⟩
  unfold OpBlk.loopAfter
  split <;> rfl

end
end

/-- Settles O22: each firing is one of the lemmas above. -/
theorem latticeFirings : Obligations.LatticeFirings := by
  unfold Obligations.LatticeFirings
  refine ⟨⟨fun s t u o e ht hg hk => ⟨?vx, ?compare⟩, ?int⟩, ?xf, fun s t u o e ht hg hk => ⟨?st, ?flt, ?dly⟩,
    fun s t u o ht hg hk => ⟨?take, ?iterate⟩⟩
  case vx =>
    intro r hr hready
    obtain ⟨x, hexec, hfires, hflags⟩ := vxRows_fire ht hg hk r hr hready
    exact ⟨x, _, hexec, rfl, hfires, hflags⟩
  case compare => exact fun i op less hi hready => vxCompares_fire ht hg hk hi hready
  case int =>
    intro r hr s t u o e a b c ht hg hk
    exact vxIntRows_fire ht hg hk r hr a b c
  case xf => exact fun r hr s t o e ht hg hready => xfRows_fire ht hg r hr hready
  case st => exact fun i op out inp hi hready v hv => stRows_fire ht hg hk hi hready hv
  case flt => exact stFlt_drops ht hg hk
  case dly =>
    intro q hop hdly hhead hphase hroom hfree hfire hlive
    exact stDly_passes ht hg hk hop hdly hhead hphase hroom hfree hfire hlive
  case take => exact fun e hready hloop => sqLoop_takes ht hg hk hready hloop
  case iterate =>
    intro l hop hloop hdue hlive hfree hq toks htoks
    exact sqIteration_emits ht hg hk hop hloop hdue hlive hfree hq htoks

end Sys2Proof.Proofs
end

section
/-! LD and SV at their stream slots (R132, R133). -/
namespace Sys2Proof.Machine

/-! ### Stream slots -/

theorem Tile.slot_setSlot_same (tl : Tile) (i : Nat) (sl : Slot) : (tl.setSlot i sl).slot i = sl := Tab.get_set_same _ _ _ _

theorem Tile.slot_setSlot_ne (tl : Tile) {i j : Nat} (sl : Slot) (h : i ≠ j) : (tl.setSlot i sl).slot j = tl.slot j := Tab.get_set_ne _ _ _ h

theorem Tile.slot_of_slots {a b : Tile} (h : a.slots = b.slots) (i : Nat) : a.slot i = b.slot i := by
  unfold Tile.slot
  rw [h]

theorem Tile.slots_numFlagIf (tl : Tile) (c : Ctx) (z : Bool) (f : Fld) : (tl.numFlagIf c z f).slots = tl.slots := by
  unfold Tile.numFlagIf
  split
  · rw [Tile.numFlag_same]
  · rfl

theorem Tile.slots_draw (b : Tile) (c : Ctx) (o : OpBlk) (k : Nat) : (b.draw c o k).2.slots = b.slots := by
  unfold Tile.draw
  dsimp only
  repeat' split
  all_goals rfl

/-- Numeric status bits of a conversion (R64). -/
def Tile.convFlags (c : Ctx) (ovf nan : Bool) (tl : Tile) : Tile :=
  (tl.numFlagIf c ovf F.TIL_NUM_STATUS.cvt_overflow).numFlagIf c nan F.TIL_NUM_STATUS.cvt_nan

theorem Tile.beside_convFlags (c : Ctx) (ovf nan : Bool) (tl : Tile) : tl.Beside (tl.convFlags c ovf nan) :=
  (tl.beside_numFlagIf c ovf (by decide)).trans (Tile.beside_numFlagIf _ c nan (by decide))

theorem Tile.slots_convFlags (c : Ctx) (ovf nan : Bool) (tl : Tile) : (tl.convFlags c ovf nan).slots = tl.slots :=
  (Tile.slots_numFlagIf _ c nan _).trans (Tile.slots_numFlagIf tl c ovf _)

/-! ### Tokens generated with a latency -/

/-- A unit that changes and generates tokens with a latency: they stand in its pipeline, and its firing is counted. -/
theorem Tile.generated_later (b : Tile) (c : Ctx) (u k : Nat) (y : LUnit) (tag : BitVec 8) (outs : List (Nat × Nat × Nat)) (hk : k ≠ 0) :
    ((b.setUnit u y).generate c u k tag outs).unit u = y.loaded (c.cycle + k) (genToks b tag outs) ∧
    b.CountsFiring ((b.setUnit u y).generate c u k tag outs) c u ∧
    (∀ v, v ≠ u → ((b.setUnit u y).generate c u k tag outs).unit v = b.unit v) ∧
    b.OnlyLattice ((b.setUnit u y).generate c u k tag outs) := by
  rw [Tile.generate_later _ c u k tag outs hk, Tile.unit_setUnit_same]
  obtain ⟨hunit, hcount, hother, hframe⟩ := Tile.setUnit_counted (b.setUnit u y) c u (y.loaded (c.cycle + k) (genToks (b.setUnit u y) tag outs))
  generalize ((b.setUnit u y).setUnit u _).countFiring c u = x at hunit hcount hother hframe ⊢
  refine ⟨hunit, hcount, fun v hv => (hother v hv).trans ?_, (b.onlyLattice_setUnit u y).trans hframe⟩
  rw [Tile.unit_setUnit, if_neg (Ne.symm hv)]

/-! ### LD -/

/-- The tag of an LD's next token, and what its links and its own counter are after it: its own tag, or that of the control token that it
takes where ctl is connected (R132). -/
def Tile.LdTag (b : Tile) (c : Ctx) (u : Nat) (tag : BitVec 8) (inq : List (Nat × Nat × Tok)) (gen : BitVec 8) : Prop :=
  b.lat.cfg.on u 3 = false ∧ tag = (b.unit u).genTag ∧ inq = (b.unit u).inq ∧ gen = (b.unit u).genTag + 1 ∨
  b.lat.cfg.on u 3 = true ∧ gen = (b.unit u).genTag ∧
    ∃ q, (b.unit u).head c 3 = some q ∧ q.2.2.phase = b.lat.cfg.phase ∧ tag = q.2.2.tag ∧ inq = (b.unit u).inq.erase q

/-- What an LD emits from `n` bytes of its slot (R132). -/
def Slot.ldOuts (n : Nat) (sl : Slot) : List (Nat × Nat × Nat) :=
  [(0, (if n = 4 then 0 else 1), leNat (sl.buf.take n)),
   (2, 2, 1 + (if sl.first then 2 else 0) + (if sl.buf.length = n ∧ sl.moreComes = false then 4 else 0))]

/-! ### What an SV sends -/

theorem packBytes_length (w : Nat) (xs : List Nat) : (packBytes w xs).length = (w * xs.length + 7) / 8 := leBytes_length _ _

theorem unpackElems_length (w k v : Nat) : (unpackElems w k v).length = k := by
  rw [unpackElems_eq, List.length_map, List.length_range]

theorem convAll_length (o : OpBlk) (ws xs : List Nat) : (convAll o ws xs).1.length = xs.length := by
  unfold convAll
  rw [List.length_map, List.length_map, List.length_zipIdx]

/-- A slot to which an SV has sent bytes, which come two cycles later (R133). -/
def Slot.sent (k : Nat) (l : List Byte) (sl : Slot) : Slot := { sl with incoming := sl.incoming ++ [(k + 2, false, l)] }

section
variable {tl0 b : Tile} {c : Ctx} {u n : Nat} {o : OpBlk} {sl : Slot} (hb : tl0.pumpAll c = b)
include hb

section
variable (hk : uKind u = .ld) (hlive : b.latLive c = true) (hop : b.lat.cfg.op? u = some o) (hn : n = if o.mode % 2 = 1 then 4 else 64)
  (hstop : b.lat.stopped = false) (hfree : b.holding c u = false) (hfire : (b.unit u).lastFire ≠ some c.cycle)
  (hsl : sl = (b.slot o.slot).absorb c) (hfill : n ≤ sl.buf.length)
include hk hlive hop hn hstop hfree hfire hsl hfill

theorem Tile.ldFire_eq {tag gen : BitVec 8} {inq : List (Nat × Nat × Tok)} (htag : b.LdTag c u tag inq gen) :
    tl0.ldFire c u = ((b.setSlot o.slot { sl.takeBuf n with first := false }).setUnit u
      { b.unit u with inq := inq, lastFire := some c.cycle, genTag := gen }).generate c u 1 tag (sl.ldOuts n) := by
  have hgo : ¬(uKind u ≠ .ld ∨ b.latLive c = false ∨ b.holding c u = true ∨ (b.unit u).lastFire = some c.cycle) := by
    simp [hk, hlive, hfree, hfire]
  have hrest : (sl.buf.drop n).isEmpty = decide (sl.buf.length = n) := by
    rw [Bool.eq_iff_iff, List.isEmpty_iff, List.drop_eq_nil_iff, decide_eq_true_eq]
    omega
  have hlast : ((sl.buf.drop n).isEmpty && !sl.moreComes).toNat * 4 = if sl.buf.length = n ∧ sl.moreComes = false then 4 else 0 := by
    rw [hrest, ← toNat_decide_mul]
    simp
  have hfirst : sl.first.toNat * 2 = if sl.first = true then 2 else 0 := by
    rw [← toNat_decide_mul, Bool.decide_eq_true]
  unfold Tile.ldFire Slot.ldOuts
  obtain ⟨hctl, rfl, rfl, rfl⟩ | ⟨hctl, rfl, q, hhead, hphase, rfl, rfl⟩ := htag
  · simp only [hb, if_neg hgo, hop, hctl, hstop, ← hn, ← hsl, if_neg (Nat.not_lt.2 hfill), hfirst, hlast, Bool.false_eq_true, false_and,
      if_false]
  · simp only [hb, if_neg hgo, hop, hctl, hstop, hhead, hphase, ← hn, ← hsl, if_neg (Nat.not_lt.2 hfill), hfirst, hlast,
      Bool.false_eq_true, if_false, if_true, Option.any_some, beq_self_eq_true, Bool.true_eq_false, and_false]

/-- The LD's slot has given its bytes, and its tokens stand in its pipeline (R132). -/
theorem Tile.ldFire_spec {tag gen : BitVec 8} {inq : List (Nat × Nat × Tok)} (htag : b.LdTag c u tag inq gen) :
    (tl0.ldFire c u).slot o.slot = { sl.takeBuf n with first := false } ∧
    (tl0.ldFire c u).unit u = LUnit.loaded (c.cycle + 1) (genToks b tag (sl.ldOuts n))
      { b.unit u with inq := inq, lastFire := some c.cycle, genTag := gen } ∧
    b.CountsFiring (tl0.ldFire c u) c u ∧ (∀ v, v ≠ u → (tl0.ldFire c u).unit v = b.unit v) ∧ (tl0.ldFire c u).spad = b.spad := by
  rw [Tile.ldFire_eq hb hk hlive hop hn hstop hfree hfire hsl hfill htag]
  obtain ⟨hunit, hcount, hother, hframe⟩ := Tile.generated_later (b.setSlot o.slot { sl.takeBuf n with first := false }) c u 1
    { b.unit u with inq := inq, lastFire := some c.cycle, genTag := gen } tag (sl.ldOuts n) (by decide)
  exact ⟨(Tile.slot_of_slots hframe.slots _).trans (Tile.slot_setSlot_same _ _ _), hunit, hcount, hother, hframe.spad⟩

end

/-! ### SV -/

section
variable {e : MEntry} (hk : uKind u = .sv)
include hk

section
variable (hready : b.ready c u 1 true = some (o, e))
include hready

/-- With cond = 0 an SV WRITE fires and sends nothing (R128). -/
theorem Tile.svWrite_suppressed (hcond : condOf b.lat.cfg o e = false) : tl0.svWrite c u = b.fired c u e [] := by
  unfold Tile.svWrite
  simp only [hb, hk, hready, hcond, ne_eq, not_true, if_false, if_true]

/-- With room in its slot an SV WRITE sends its token's converted elements. -/
theorem Tile.svWrite_eq {a : Tok} {k : Nat} {r : List Nat × Bool × Bool} (hcond : condOf b.lat.cfg o e = true)
    (ha : operand b.lat.cfg o e 0 = some a) (hkk : k = if a.net = 0 then 1 else fmtPerToken o.fmtIn)
    (hr : r = convAll o (b.draw c o (if o.fmtIn = 14 ∧ o.fmtOut = 14 then 0 else k)).1 (unpackElems (fmtWidth o.fmtIn) k a.val.toNat))
    (hroom : ((b.slot o.slot).absorb c).fill + (fmtWidth o.fmtOut * k + 7) / 8 ≤ 1024) :
    tl0.svWrite c u = (((b.draw c o (if o.fmtIn = 14 ∧ o.fmtOut = 14 then 0 else k)).2.setSlot o.slot
      (((b.slot o.slot).absorb c).sent c.cycle (packBytes (fmtWidth o.fmtOut) r.1))).convFlags c r.2.1 r.2.2).fired c u e [] := by
  unfold Tile.svWrite
  simp only [hb, hk, hready, hcond, ha, ne_eq, not_true, Option.any_some, beq_iff_eq, ← hkk, ← hr, if_neg (Nat.not_lt.2 hroom), if_false,
    Bool.true_eq_false]
  rfl

/-- So the slot has the converted elements on their way, and the firing is what `Tile.Fires` says. -/
theorem Tile.svWrite_spec {a : Tok} {k : Nat} {r : List Nat × Bool × Bool} (hcond : condOf b.lat.cfg o e = true)
    (ha : operand b.lat.cfg o e 0 = some a) (hkk : k = if a.net = 0 then 1 else fmtPerToken o.fmtIn)
    (hr : r = convAll o (b.draw c o (if o.fmtIn = 14 ∧ o.fmtOut = 14 then 0 else k)).1 (unpackElems (fmtWidth o.fmtIn) k a.val.toNat))
    (hroom : ((b.slot o.slot).absorb c).fill + (fmtWidth o.fmtOut * k + 7) / 8 ≤ 1024) :
    (tl0.svWrite c u).slot o.slot = ((b.slot o.slot).absorb c).sent c.cycle (packBytes (fmtWidth o.fmtOut) r.1) ∧
    b.Fires (tl0.svWrite c u) c u e [] := by
  rw [Tile.svWrite_eq hb hk hready hcond ha hkk hr hroom]
  constructor
  · rw [Tile.slot_of_slots (Tile.onlyLattice_fired _ c u e []).slots, Tile.slot_of_slots (Tile.slots_convFlags c _ _ _),
      Tile.slot_setSlot_same]
  · exact (((b.beside_draw c o _).trans (Tile.beside_setSlot _ _ _)).trans (Tile.beside_convFlags c _ _ _)).fires c u e []

end

section
variable (hready : b.ready c u 2 true = some (o, e))
include hready

/-- With cond = 0 an SV QMX fires and sends nothing (R128). -/
theorem Tile.svQmx_suppressed (hcond : condOf b.lat.cfg o e = false) : tl0.svQmx c u = b.fired c u e [] := by
  unfold Tile.svQmx
  simp only [hb, hk, hready, hcond, ne_eq, not_true, if_false, if_true]

/-- With room in its two slots an SV QMX sends its elements to the one and their scale to the other (R50, R133). -/
theorem Tile.svQmx_eq {i j : Nat} {r : List Nat × Nat × Bool × Bool} (hi : i = o.slot % 8) (hj : j = o.slot / 8 % 8) (hij : i ≠ j)
    (hcond : condOf b.lat.cfg o e = true)
    (hr : r = quantise o.fmtOut o.rmode (b.draw c o 32).1
      ((lanes (operand b.lat.cfg o e 0) ++ lanes (operand b.lat.cfg o e 1)).map (floatVal 0)))
    (hroom : ((b.slot i).absorb c).fill + fmtWidth o.fmtOut * 4 ≤ 1024) (hscale : ((b.slot j).absorb c).fill + 1 ≤ 1024) :
    tl0.svQmx c u = ((((b.draw c o 32).2.setSlot i (((b.slot i).absorb c).sent c.cycle (packBytes (fmtWidth o.fmtOut) r.1))).setSlot j
      (((b.slot j).absorb c).sent c.cycle [BitVec.ofNat 8 r.2.1])).convFlags c r.2.2.1 r.2.2.2).fired c u e [] := by
  have hfits : ¬(1024 < ((b.slot i).absorb c).fill + fmtWidth o.fmtOut * 32 / 8 ∨ 1024 < ((b.slot j).absorb c).fill + 1) := by omega
  have hother : ((b.draw c o 32).2.setSlot i (((b.slot i).absorb c).sent c.cycle (packBytes (fmtWidth o.fmtOut) r.1))).slot j = b.slot j := by
    rw [Tile.slot_setSlot_ne _ _ hij, Tile.slot_of_slots (Tile.slots_draw b c o 32)]
  rw [← hother]
  unfold Tile.svQmx
  simp only [hb, hk, hready, hcond, ne_eq, not_true, ← hi, ← hj, if_neg hij, if_neg hfits, if_false, Bool.true_eq_false]
  subst hr
  rfl

/-- So each of the two slots has its bytes on their way, and the firing is what `Tile.Fires` says. -/
theorem Tile.svQmx_spec {i j : Nat} {r : List Nat × Nat × Bool × Bool} (hi : i = o.slot % 8) (hj : j = o.slot / 8 % 8) (hij : i ≠ j)
    (hcond : condOf b.lat.cfg o e = true)
    (hr : r = quantise o.fmtOut o.rmode (b.draw c o 32).1
      ((lanes (operand b.lat.cfg o e 0) ++ lanes (operand b.lat.cfg o e 1)).map (floatVal 0)))
    (hroom : ((b.slot i).absorb c).fill + fmtWidth o.fmtOut * 4 ≤ 1024) (hscale : ((b.slot j).absorb c).fill + 1 ≤ 1024) :
    (tl0.svQmx c u).slot i = ((b.slot i).absorb c).sent c.cycle (packBytes (fmtWidth o.fmtOut) r.1) ∧
    (tl0.svQmx c u).slot j = ((b.slot j).absorb c).sent c.cycle [BitVec.ofNat 8 r.2.1] ∧ b.Fires (tl0.svQmx c u) c u e [] := by
  rw [Tile.svQmx_eq hb hk hready hi hj hij hcond hr hroom hscale]
  refine ⟨?_, ?_, ?_⟩
  · rw [Tile.slot_of_slots (Tile.onlyLattice_fired _ c u e []).slots, Tile.slot_of_slots (Tile.slots_convFlags c _ _ _),
      Tile.slot_setSlot_ne _ _ hij.symm, Tile.slot_setSlot_same]
  · rw [Tile.slot_of_slots (Tile.onlyLattice_fired _ c u e []).slots, Tile.slot_of_slots (Tile.slots_convFlags c _ _ _),
      Tile.slot_setSlot_same]
  · exact ((((b.beside_draw c o _).trans (Tile.beside_setSlot _ _ _)).trans (Tile.beside_setSlot _ _ _)).trans
      (Tile.beside_convFlags c _ _ _)).fires c u e []

end
end
end

end Sys2Proof.Machine
end

section
/-! CP between its channel queue, its channel table entry and the lattice (R134). -/
namespace Sys2Proof.Machine

/-- A CP that has emitted a token of the message it had begun, of which `left` is still to come. -/
def LUnit.cpEmitted (k q : Nat) (left : List Byte) (x : LUnit) : LUnit :=
  { x with genTag := x.genTag + 1, cpIn := if left.isEmpty then none else some (left, q, k + 1) }

/-- What CP emits next of the bytes that are left of a message: one token of 64 bytes on out0. -/
def cpOuts (rest : List Byte) : List (Nat × Nat × Nat) := [(0, 1, leNat (rest.take 64))]

/-- The tile with the oldest message of queue `q` taken, its slot to be freed in the next cycle (R251 to R253). -/
def Tile.cpFreed (c : Ctx) (q : Nat) (tl : Tile) : Tile :=
  match tl.takeMsg q with
  | (t, some m) => t.hand (c.cycle + 1) q true m.credit
  | (t, none) => t

theorem Tile.lat_cpFreed (c : Ctx) (q : Nat) (tl : Tile) : (tl.cpFreed c q).lat = tl.lat := by
  unfold Tile.cpFreed Tile.takeMsg
  cases tl.queue q <;> rfl

theorem Tile.cpFreed_cons (c : Ctx) {q : Nat} {tl : Tile} {m : Msg} {l : List Msg} (h : tl.queue q = m :: l) :
    (tl.cpFreed c q).queue q = l ∧ (tl.cpFreed c q).outbox = tl.outbox ++ [⟨c.cycle + 1, q, true, m.credit⟩] := by
  unfold Tile.cpFreed Tile.takeMsg
  rw [h]
  exact ⟨Tab.get_set_same _ _ _ _, rfl⟩

section
variable {tl0 b : Tile} {c : Ctx} (hb : tl0.pumpAll c = b)
include hb

section
variable {q q' : Nat} (hlive : b.latLive c = true) (hstop : b.lat.stopped = false)
include hlive hstop

/-- CP begins the oldest message of its queue. -/
theorem Tile.cpIn_begins {m : Msg} {l : List Msg} (hq : b.cpInbound = some q) (hidle : (b.unit 3).cpIn = none) (hqueue : b.queue q = m :: l) :
    tl0.cpIn c = (b.setUnit 3 { b.unit 3 with cpIn := some (m.bytes, q, c.cycle + 3) }, []) := by
  unfold Tile.cpIn
  simp only [hb, hq, hlive, hstop, hidle, hqueue, Bool.true_eq_false, Bool.false_eq_true, or_self, if_false]

section
variable {rest : List Byte} {next : Nat} (hin : b.cpInbound = some q') (hbegun : (b.unit 3).cpIn = some (rest, q, next)) (hnext : next ≤ c.cycle)
  (hfree : b.holding c 3 = false)
include hin hbegun hnext hfree

/-- CP emits a token of the message that it has begun, and with the last frees its slot. -/
theorem Tile.cpIn_eq {x : Tile} (hx : x = (b.setUnit 3 ((b.unit 3).cpEmitted c.cycle q (rest.drop 64))).generate c 3 0 (b.unit 3).genTag
      (cpOuts rest)) :
    tl0.cpIn c = (if (rest.drop 64).isEmpty then x.cpFreed c q else x, []) := by
  have hgo : ¬(c.cycle < next ∨ b.holding c 3 = true) := by simp [hfree, hnext]
  have hmodel : tl0.cpIn c = if (rest.drop 64).isEmpty then
      match x.takeMsg q with
      | (t3, some m) => (t3.hand (c.cycle + 1) q true m.credit, [])
      | (t3, none) => (t3, [])
    else (x, []) := by
    subst hx
    unfold Tile.cpIn
    simp only [hb, hin, hlive, hstop, hbegun, if_neg hgo, Bool.true_eq_false, Bool.false_eq_true, or_self, if_false]
    rfl
  rw [hmodel]
  unfold Tile.cpFreed
  split
  · cases x.takeMsg q with
    | mk t m => cases m <;> rfl
  · rfl

/-- The token passes or is held, and with the last of its message the slot is freed (R134, R253). -/
theorem Tile.cpIn_spec (hq : b.PipeQuiet c 3) {toks : List (Nat × Tok)}
    (htoks : toks = genToks b (b.unit 3).genTag (cpOuts rest)) : ∃ x : Tile, tl0.cpIn c = (x, []) ∧
      (x.unit 3).genTag = (b.unit 3).genTag + 1 ∧
      (b.HasRoom 3 toks → b.Passes x c 3 toks) ∧ (¬ b.HasRoom 3 toks → b.Holds x c 3 toks) ∧
      (64 < rest.length → b.HasRoom 3 toks → (x.unit 3).cpIn = some (rest.drop 64, q, c.cycle + 1)) ∧
      (64 < rest.length → x.queues = b.queues ∧ x.outbox = b.outbox) ∧
      (∀ m l, rest.length ≤ 64 → b.queue q = m :: l → (x.unit 3).cpIn = none ∧ x.queue q = l ∧
        x.outbox = b.outbox ++ [⟨c.cycle + 1, q, true, m.credit⟩]) := by
  have hflow : b.SameFlow (b.setUnit 3 ((b.unit 3).cpEmitted c.cycle q (rest.drop 64))) 3 := Tile.sameFlow_setUnit rfl rfl
  obtain ⟨htag, -, hframe⟩ := Tile.generated_always b c 3 ((b.unit 3).cpEmitted c.cycle q (rest.drop 64)) (b.unit 3).genTag
    (cpOuts rest)
  have hroom := Tile.generated_room hflow hq (tag := (b.unit 3).genTag) (outs := cpOuts rest)
  have hfull := Tile.generated_full hflow hq (tag := (b.unit 3).genTag) (outs := cpOuts rest)
  have heq := Tile.cpIn_eq hb hlive hstop hin hbegun hnext hfree rfl
  rw [← htoks] at hroom hfull
  generalize (b.setUnit 3 ((b.unit 3).cpEmitted c.cycle q (rest.drop 64))).generate c 3 0 (b.unit 3).genTag
    (cpOuts rest) = x at htag hframe hroom hfull heq
  have hlat : (if (rest.drop 64).isEmpty then x.cpFreed c q else x).lat = x.lat := by
    split
    · exact Tile.lat_cpFreed c q x
    · rfl
  have hunit := Tile.unit_of_lat hlat
  refine ⟨_, heq, ?_⟩
  simp only [Tile.Passes, Tile.Holds, hunit] at hroom hfull ⊢
  refine ⟨htag, fun h => ?_, fun h => ?_, fun hlen h => ?_, fun hlen => ?_, fun m l hlen hqueue => ?_⟩
  · obtain ⟨hpass, -⟩ := hroom h
    exact hpass
  · obtain ⟨hholds, -⟩ := hfull h
    exact hholds
  · have hleft : (rest.drop 64).isEmpty = false := by simpa using hlen
    obtain ⟨-, -, hin⟩ := hroom h
    rw [hin, LUnit.cpEmitted, hleft]
    rfl
  · have hleft : (rest.drop 64).isEmpty = false := by simpa using hlen
    rw [hleft]
    exact ⟨hframe.queues, hframe.outbox⟩
  · have hleft : (rest.drop 64).isEmpty = true := by simpa using hlen
    have hdone : ((b.unit 3).cpEmitted c.cycle q (rest.drop 64)).cpIn = none := if_pos hleft
    have hin : (x.unit 3).cpIn = none := by
      by_cases h : b.HasRoom 3 toks
      · obtain ⟨-, -, hkeeps⟩ := hroom h
        rw [hkeeps, hdone]
      · obtain ⟨-, -, hkeeps⟩ := hfull h
        exact hkeeps hdone
    have hx : x.queue q = m :: l := by rwa [Tile.queue, hframe.queues]
    obtain ⟨hrest, hbox⟩ := Tile.cpFreed_cons c hx
    rw [if_pos hleft, hbox, hframe.outbox]
    exact ⟨hin, hrest, rfl⟩

end
end

/-- CP collects a token of a message that is not yet complete (R134, R248). -/
theorem Tile.cpOutbound_collects {o : OpBlk} {e : MEntry} {a : Tok} (hready : b.ready c 3 1 true = some (o, e))
    (hidle : (b.unit 3).cpSending = false) (ha : operand b.lat.cfg o e 0 = some a) (hshort : (b.unit 3).cpOut.length + 1 < o.count) :
    tl0.cpOutbound c = ((b.fired c 3 e []).setUnit 3 { (b.fired c 3 e []).unit 3 with cpOut := (b.unit 3).cpOut ++ [a.val] }, []) := by
  have hlen : ((b.unit 3).cpOut ++ [a.val]).length < o.count := by simpa using hshort
  unfold Tile.cpOutbound
  simp only [hb, hready, hidle, ha, if_pos hlen, Bool.false_eq_true, if_false]

end
end Sys2Proof.Machine

namespace Sys2Proof.Proofs
open Sys2Proof.Machine

section
variable {s : State} {t u n : Nat} {o : OpBlk} (ht : t < 2304) (hg : s.gatedNow = false)
include ht hg

section
variable (hlive : (s.lat_ t).latLive (s.ctx t) = true)
include hlive

/-- An LD reads its slot (R132). -/
theorem ldRead_emits {sl : Slot} (hk : uKind u = .ld) (hop : (s.lat_ t).lat.cfg.op? u = some o) (hn : n = if o.mode % 2 = 1 then 4 else 64)
    (hstop : (s.lat_ t).lat.stopped = false) (hfree : (s.lat_ t).holding (s.ctx t) u = false)
    (hfire : ((s.lat_ t).unit u).lastFire ≠ some s.cycle) (hsl : sl = ((s.lat_ t).slot o.slot).absorb (s.ctx t)) (hfill : n ≤ sl.buf.length)
    {tag gen : BitVec 8} {inq : List (Nat × Nat × Tok)} (htag : (s.lat_ t).LdTag (s.ctx t) u tag inq gen) :
    ∃ x : Tile, exec (.ldRead t u) s = .next (s.withTile t x []) ∧ x.slot o.slot = { sl.takeBuf n with first := false } ∧
      (x.slot o.slot).buf = sl.buf.drop n ∧
      x.unit u = LUnit.loaded (s.cycle + 1) (genToks (s.lat_ t) tag (sl.ldOuts n))
        { (s.lat_ t).unit u with inq := inq, lastFire := some s.cycle, genTag := gen } ∧
      (s.lat_ t).CountsFiring x (s.ctx t) u ∧ (∀ v, v ≠ u → x.unit v = (s.lat_ t).unit v) ∧ x.spad = (s.lat_ t).spad := by
  obtain ⟨hslot, hrest⟩ := Tile.ldFire_spec (b := s.lat_ t) rfl hk hlive hop hn hstop hfree hfire hsl hfill htag
  exact ⟨_, exec_clocked_silent ht hg rfl, hslot, congrArg Slot.buf hslot, hrest⟩

end

end

/-- Settles O23: LD, SV and CP are each one of the lemmas above. -/
theorem streamAndChannelUnits : Obligations.StreamAndChannelUnits := by
  unfold Obligations.StreamAndChannelUnits
  intro s t u o ht hg hlive
  refine ⟨?ld, fun e hk hready => ⟨?writeNone, ?write⟩, fun e hk hready => ⟨?qmxNone, ?qmx⟩, ?begin_, ?emit, ?collect⟩
  case ld =>
    intro n sl hk hop hn hstop hfree hfire hsl hfill tag inq gen htag
    exact ldRead_emits ht hg hlive hk hop hn hstop hfree hfire hsl hfill htag
  case writeNone =>
    intro hcond
    have hx := Tile.svWrite_suppressed (b := s.lat_ t) rfl hk hready hcond
    exact ⟨_, exec_clocked ht hg rfl (Prod.ext hx rfl), (Tile.Beside.refl _).fires _ u e [], (Tile.onlyLattice_fired _ _ u e []).slots⟩
  case write =>
    intro a k l hcond ha hk' hl hroom
    obtain ⟨hslot, hfires⟩ := Tile.svWrite_spec (b := s.lat_ t) rfl hk hready hcond ha hk' rfl hroom
    refine ⟨_, exec_clocked_silent ht hg rfl, ?_, ?_, hfires⟩
    · rw [hl, packBytes_length, convAll_length, unpackElems_length]
    · rw [hslot, hl]
      rfl
  case qmxNone =>
    intro hcond
    have hx := Tile.svQmx_suppressed (b := s.lat_ t) rfl hk hready hcond
    exact ⟨_, exec_clocked ht hg rfl (Prod.ext hx rfl), (Tile.Beside.refl _).fires _ u e [], (Tile.onlyLattice_fired _ _ u e []).slots⟩
  case qmx =>
    intro r hcond hij hr hroom hscale
    obtain ⟨hslot, hscaled, hfires⟩ := Tile.svQmx_spec (b := s.lat_ t) rfl hk hready rfl rfl hij hcond hr hroom hscale
    exact ⟨_, exec_clocked_silent ht hg rfl, congrArg Slot.incoming hslot, congrArg Slot.incoming hscaled, hfires⟩
  case begin_ =>
    intro q m l hq hstop hidle hqueue
    exact exec_clocked ht hg rfl (Tile.cpIn_begins rfl hlive hstop hq hidle hqueue)
  case emit =>
    intro rest q next q' toks hin hstop hbegun hnext hfree hq _ htoks
    obtain ⟨x, hx, hspec⟩ := Tile.cpIn_spec (b := s.lat_ t) rfl hlive hstop hin hbegun hnext hfree hq htoks
    exact ⟨x, exec_clocked ht hg rfl hx, hspec⟩
  case collect =>
    intro e a hready hidle ha hshort
    obtain ⟨hunit, hcount, hother, -, hspad, -⟩ := (Tile.Beside.refl (s.lat_ t)).fires (s.ctx t) 3 e []
    refine ⟨_, exec_clocked ht hg rfl (Tile.cpOutbound_collects rfl hready hidle ha hshort), ?_, ?_, ?_, hcount, fun v hv => ?_, hspad⟩
    · rw [Tile.unit_setUnit_same]
      rfl
    · rw [Tile.unit_setUnit_same]
      exact congrArg LUnit.table hunit
    · rw [Tile.unit_setUnit_same]
      exact congrArg LUnit.expTag hunit
    · rw [Tile.unit_setUnit, if_neg hv.symm]
      exact hother v hv

end Sys2Proof.Proofs
end

section
/-! How a lattice load ends (R143 to R149). -/
namespace Sys2Proof.Machine

/-! ### Stopping an inbound CP (R134) -/

theorem Tile.spad_cpFreed (c : Ctx) (q : Nat) (tl : Tile) : (tl.cpFreed c q).spad = tl.spad := by
  unfold Tile.cpFreed Tile.takeMsg
  cases tl.queue q <;> rfl

theorem Tile.rd_cpFreed_ne (c : Ctx) (q : Nat) (tl : Tile) {g : Fld} (j : Nat) (h : F.TIL_CHQ_STATE.taken.id ≠ g.id) :
    (tl.cpFreed c q).rd g j = tl.rd g j := by
  unfold Tile.cpFreed Tile.takeMsg
  cases tl.queue q with
  | nil => rfl
  | cons m l => exact RegFile.rd_addSat_ne _ _ (by simp [h])

/-- A CP that is stopped drops the message it has begun; where a token of it has left, the others are counted and its slot is freed. -/
theorem Tile.cpCut_cases (c : Ctx) (tl : Tile) : tl.cpCut c = tl ∨ tl.cpCut c = tl.setUnit 3 { tl.unit 3 with cpIn := none } ∨
    ∃ n q, tl.cpCut c = ((tl.setUnit 3 { tl.unit 3 with cpIn := none }).phaseDiscard c n).cpFreed c q := by
  unfold Tile.cpCut Tile.cpFreed
  dsimp only
  cases (tl.unit 3).cpIn with
  | none => exact .inl rfl
  | some m =>
    obtain ⟨rest, q, next⟩ := m
    refine .inr ?_
    dsimp only
    split
    · exact .inl rfl
    · exact .inr ⟨_, _, rfl⟩

/-- The fields that stopping a CP may change. -/
def cutFields : List Fld := F.TIL_CHQ_STATE.taken :: discardFields

/-- What stopping a CP leaves: the configuration, the load, the scratchpad, the loops of the SQs, and all other fields. -/
structure Tile.Cut (b x : Tile) : Prop where
  lat : x.lat = { b.lat with units := x.lat.units }
  spad : x.spad = b.spad
  sqLoop : ∀ u, (x.unit u).sqLoop = (b.unit u).sqLoop
  rd : ∀ (f : Fld) (j : Nat), (∀ g ∈ cutFields, g.id ≠ f.id) → x.rd f j = b.rd f j

theorem Tile.cut_setUnit {b : Tile} {u : Nat} {y : LUnit} (h : y.sqLoop = (b.unit u).sqLoop) : b.Cut (b.setUnit u y) := by
  refine ⟨rfl, rfl, fun v => ?_, fun _ _ _ => rfl⟩
  rw [Tile.unit_setUnit]
  split
  · next hv => rw [h, hv]
  · rfl

theorem Tile.cut_cpCut (c : Ctx) (b : Tile) : b.Cut (b.cpCut c) := by
  have hset : b.Cut (b.setUnit 3 { b.unit 3 with cpIn := none }) := Tile.cut_setUnit rfl
  obtain h | h | ⟨n, q, h⟩ := b.cpCut_cases c <;> rw [h]
  · exact ⟨rfl, rfl, fun _ => rfl, fun _ _ _ => rfl⟩
  · exact hset
  · obtain ⟨hlat, hspad, hloop, hrd⟩ := hset
    generalize b.setUnit 3 { b.unit 3 with cpIn := none } = y at hlat hspad hloop hrd ⊢
    have hkeep : ((y.phaseDiscard c n).cpFreed c q).lat = y.lat := (Tile.lat_cpFreed c q _).trans (Tile.lat_phaseDiscard c n y)
    refine ⟨by rw [hkeep, hlat], ?_, fun u => by rw [Tile.unit_of_lat hkeep, hloop], fun f j hf => ?_⟩
    · rw [Tile.spad_cpFreed, (Tile.onlyLattice_phaseDiscard c n y).spad, hspad]
    · rw [Tile.rd_cpFreed_ne c q _ j (hf _ (by simp [cutFields])),
        Tile.rd_phaseDiscard_ne c n y j fun g hg => hf g (List.mem_cons_of_mem _ hg), hrd f j hf]

/-! ### Commit and drain (R144 to R147) -/

/-- A commit puts the bundle in force from `d + 5` on; but for the units' tokens, the phase, and the fields that count what is discarded,
nothing changes (R147). -/
theorem Tile.commitLoad_spec (c : Ctx) (d : Nat) (ld : LatLoad) (b : Tile) :
    (b.commitLoad c d ld).lat.cfg = ld.bundle ∧
    (b.commitLoad c d ld).lat.load = some { ld with st := .committing, inForce := d + 5 } ∧
    (b.commitLoad c d ld).rd F.TIL_LAT_PHASE.phase 0 = ld.bundle.phase.toNat ∧ (b.commitLoad c d ld).spad = b.spad ∧
    ∀ (f : Fld) (j : Nat), (∀ g ∈ F.TIL_LAT_PHASE.phase :: cutFields, g.id ≠ f.id) → (b.commitLoad c d ld).rd f j = b.rd f j := by
  obtain ⟨x, n, hx, hcfg, hspad, hrd⟩ : ∃ (x : Tile) (n : Nat), b.commitLoad c d ld =
      ((x.wr F.TIL_LAT_PHASE.phase 0 ld.bundle.phase.toNat).phaseDiscard c n).setLoad (some { ld with st := .committing, inForce := d + 5 }) ∧
      x.lat.cfg = ld.bundle ∧ x.spad = (b.cpCut c).spad ∧ ∀ f j, x.rd f j = (b.cpCut c).rd f j := by
    exact ⟨_, _, rfl, rfl, rfl, fun _ _ => rfl⟩
  have hcut := b.cut_cpCut c
  have hlat := Tile.lat_phaseDiscard c n (x.wr F.TIL_LAT_PHASE.phase 0 ld.bundle.phase.toNat)
  rw [hx]
  refine ⟨?_, rfl, ?_, ?_, fun f j hf => ?_⟩
  · show ((x.wr _ 0 _).phaseDiscard c n).lat.cfg = _
    rw [hlat]
    exact hcfg
  · show ((x.wr _ 0 _).phaseDiscard c n).rd _ 0 = _
    rw [Tile.rd_phaseDiscard_ne c n _ 0 (by decide), Tile.rd_wr, if_pos ⟨rfl, rfl⟩]
    exact Nat.mod_eq_of_lt ld.bundle.phase.isLt
  · show ((x.wr _ 0 _).phaseDiscard c n).spad = _
    rw [(Tile.onlyLattice_phaseDiscard c n _).spad]
    exact hspad.trans hcut.spad
  · show ((x.wr _ 0 _).phaseDiscard c n).rd f j = _
    have hphase := hf _ (List.mem_cons_self ..)
    have hcutf (g : Fld) (hg : g ∈ cutFields) := hf g (List.mem_cons_of_mem _ hg)
    rw [Tile.rd_phaseDiscard_ne c n _ j fun g hg => hcutf g (List.mem_cons_of_mem _ hg), Tile.rd_wr, if_neg (by simp [hphase]), hrd,
      hcut.rd f j hcutf]

/-- The sources of a phase that begins to drain have stopped; a loop that is cut is noted (R144). -/
theorem Tile.startDrain_spec (c : Ctx) (ld : LatLoad) (b : Tile) :
    (b.startDrain c ld).lat.cfg = b.lat.cfg ∧ (b.startDrain c ld).lat.stopped = true ∧
    (b.startDrain c ld).lat.load = some { ld with st := .draining } ∧ (∀ u, ((b.startDrain c ld).unit u).sqLoop = none) ∧
    ((∃ u, u < 16 ∧ uKind u = .sq ∧ ((b.unit u).sqLoop).isSome = true) → (b.startDrain c ld).rd F.TIL_LAT_STATUS.sources_cut 0 = 1) ∧
    (b.startDrain c ld).spad = b.spad := by
  obtain ⟨x, hx, hlat, hspad, hflag⟩ : ∃ x : Tile, b.startDrain c ld = x.cpCut c ∧
      x.lat = { b.lat with stopped := true, load := some { ld with st := .draining },
                           units := b.lat.units.mapVals (fun _ y => { y with sqLoop := none }) } ∧
      x.spad = b.spad ∧ ((List.range 16).any (fun u => uKind u == .sq && (b.unit u).sqLoop.isSome) = true →
        x.rd F.TIL_LAT_STATUS.sources_cut 0 = 1) := by
    refine ⟨_, rfl, ?_, ?_, fun h => ?_⟩
    · split <;> rfl
    · split <;> rfl
    · rw [if_pos h]
      exact Tile.rd_latFlag_same _ c (by decide) rfl
  obtain ⟨hcut, hcutpad, hloop, hrd⟩ := x.cut_cpCut c
  rw [hx]
  refine ⟨?_, ?_, ?_, fun u => ?_, fun ⟨u, hu, hk, hl⟩ => ?_, hcutpad.trans hspad⟩
  · rw [hcut, hlat]
  · rw [hcut, hlat]
  · rw [hcut, hlat]
  · rw [hloop, Tile.unit, hlat, Tab.get_mapVals _ _ _ _ rfl]
  · rw [hrd _ 0 (by decide)]
    exact hflag (List.any_eq_true.2 ⟨u, List.mem_range.2 hu, by simp [hk, hl]⟩)

end Sys2Proof.Machine
end

section
/-! The progress of a lattice load as commands (R143 to R149). -/
namespace Sys2Proof.Machine

section
variable {b : Tile} {c : Ctx} {ld : LatLoad} (hload : b.lat.load = some ld)
include hload

/-- The tile with the result of its load recorded (Table 4-8). -/
def Tile.recorded (ld : LatLoad) (r : Bundle × Nat × Nat) (tl : Tile) : Tile :=
  ((tl.wr F.TIL_LAT_LOAD.status 0 r.2.1).wr F.TIL_LAT_LOAD.err_offset 0 r.2.2).setLoad
    (some { ld with told := true, status := r.2.1, errOff := r.2.2, bundle := r.1 })

/-- The result of a load: recorded, and a refusal noted and told of (R143). -/
theorem Tile.loadResult_eq (hhear : b.deaf = false) (hst : ld.st = .loading) (htold : ld.told = false) (hgot : 64 * ld.lines ≤ ld.got.length)
    (hdue : ld.issued + ld.lines + 3 ≤ c.cycle) {r : Bundle × Nat × Nat} (hr : validateBundle b.lat.cfg.phase ld.got ld.lines = r) :
    ∃ w, b.loadResult c = if r.2.1 = 0 then (b.recorded ld r, [])
      else ((b.recorded ld r).latFlag c F.TIL_LAT_STATUS.load_refused, [.record 0x04 2 0 0 w 0 0 0]) := by
  have hgo : ¬(b.deaf = true ∨ ld.st ≠ .loading ∨ ld.told = true ∨ ld.got.length < 64 * ld.lines ∨ c.cycle < ld.issued + ld.lines + 3) := by
    simp [hhear, hst, htold, hgot, hdue]
  unfold Tile.loadResult
  simp only [hload, if_neg hgo, hr]
  exact ⟨_, rfl⟩

theorem Tile.drainEnd_eq (hhear : b.deaf = false) (hst : ld.st = .draining) (hfrom : ld.issued + ld.lines + 4 ≤ c.cycle)
    (hto : c.cycle ≤ ld.issued + 7995) (hempty : b.latticeEmpty = true) : b.drainEnd c = (b.commitLoad c c.cycle ld, []) := by
  unfold Tile.drainEnd
  simp only [hload]
  rw [if_pos ⟨hhear, hst, hfrom, hto, hempty⟩]

theorem Tile.drainForced_eq (hhear : b.deaf = false) (hst : ld.st = .draining) (hdue : ld.issued + 7995 ≤ c.cycle) :
    b.drainForced c = (((b.latFlag c F.TIL_LAT_STATUS.drain_forced).wr F.TIL_LAT_LOAD.drain_forced 0 1).commitLoad c (ld.issued + 7995)
      { ld with cut := false }, []) := by
  unfold Tile.drainForced
  simp only [hload]
  rw [if_pos ⟨hhear, hst, hdue⟩]

theorem Tile.flushEnd_eq (hhear : b.deaf = false) (hst : ld.st = .flushing) (hdue : ld.inForce + 64 ≤ c.cycle) :
    b.flushEnd c = (b.setLoad none, []) := by
  unfold Tile.flushEnd
  simp only [hload]
  rw [if_pos ⟨hhear, hst, hdue⟩]

/-- In the cycle after its result a load ends, begins its commit, or begins to drain (R143, R144, R146). -/
theorem Tile.loadRun_loaded (hst : ld.st = .loading) (hgot : 64 * ld.lines ≤ ld.got.length) : b.loadRun c =
    if ld.status ≠ 0 then (b.setLoad none, []) else
    if ld.cut then (b.commitLoad c (ld.issued + ld.lines + 3) ld, []) else (b.startDrain c ld, []) := by
  unfold Tile.loadRun
  simp only [hload, hst, if_neg (Nat.not_lt.2 hgot)]

theorem Tile.loadNext_loaded (hst : ld.st = .loading) (htold : ld.told = true) (hgot : 64 * ld.lines ≤ ld.got.length) :
    b.lat.loadNext = some (ld.issued + ld.lines + 4) := by
  unfold Lattice.loadNext
  simp only [hload, hst, htold, if_neg (Nat.not_lt.2 hgot), if_true]

/-- In the cycle from which its phase is in force a DRAIN load ends, and a CUT load begins to flush (R147, R149). -/
theorem Tile.loadRun_committing (hst : ld.st = .committing) :
    b.lat.loadNext = some ld.inForce ∧ b.loadRun c = (b.setLoad (if ld.cut then some { ld with st := .flushing } else none), []) := by
  unfold Tile.loadRun Lattice.loadNext
  simp only [hload, hst, and_self]

end

/-- The fields of a load that is recorded. -/
theorem Tile.recorded_spec (ld : LatLoad) (r : Bundle × Nat × Nat) (b : Tile) :
    (b.recorded ld r).rd F.TIL_LAT_LOAD.status 0 = r.2.1 % 2 ^ F.TIL_LAT_LOAD.status.width ∧
    (b.recorded ld r).rd F.TIL_LAT_LOAD.err_offset 0 = r.2.2 % 2 ^ 16 ∧
    ∀ (f : Fld) (j : Nat), F.TIL_LAT_LOAD.status.id ≠ f.id → F.TIL_LAT_LOAD.err_offset.id ≠ f.id → (b.recorded ld r).rd f j = b.rd f j := by
  have hrd (f : Fld) (j : Nat) : (b.recorded ld r).rd f j =
      ((b.wr F.TIL_LAT_LOAD.status 0 r.2.1).wr F.TIL_LAT_LOAD.err_offset 0 r.2.2).rd f j := rfl
  refine ⟨?_, ?_, fun f j hs he => ?_⟩
  · rw [hrd, Tile.rd_wr, if_neg (by decide), Tile.rd_wr, if_pos ⟨rfl, rfl⟩]
  · rw [hrd, Tile.rd_wr, if_pos ⟨rfl, rfl⟩]
    rfl
  · rw [hrd, Tile.rd_wr, if_neg (by simp [he]), Tile.rd_wr, if_neg (by simp [hs])]

end Sys2Proof.Machine

namespace Sys2Proof.Proofs
open Sys2Proof.Machine

section
variable {s : State} {t : Nat} {ld : LatLoad} (ht : t < 2304) (hg : s.gatedNow = false) (hhear : (s.seen t).deaf = false)
  (hload : (s.seen t).lat.load = some ld)
include ht hg hhear hload

/-- The result of a load (R143, Table 4-8). -/
theorem latticeLoadResult_records (hst : ld.st = .loading) (htold : ld.told = false) (hgot : 64 * ld.lines ≤ ld.got.length)
    (hdue : ld.issued + ld.lines + 3 ≤ s.cycle) {b : Bundle} {status off : Nat}
    (hr : validateBundle (s.seen t).lat.cfg.phase ld.got ld.lines = (b, status, off)) :
    ∃ (x : Tile) (w : Word),
      exec (.latticeLoadResult t) s = .next (s.withTile t x (if status = 0 then [] else [.record 0x04 2 0 0 w 0 0 0])) ∧
      x = { s.seen t with regs := x.regs, lat := { (s.seen t).lat with
              load := some { ld with told := true, status := status, errOff := off, bundle := b } } } ∧
      x.rd F.TIL_LAT_LOAD.status 0 = status % 2 ^ F.TIL_LAT_LOAD.status.width ∧ x.rd F.TIL_LAT_LOAD.err_offset 0 = off % 2 ^ 16 ∧
      (status ≠ 0 → x.rd F.TIL_LAT_STATUS.load_refused 0 = 1) ∧
      (status = 0 → x.rd F.TIL_LAT_STATUS.load_refused 0 = (s.seen t).rd F.TIL_LAT_STATUS.load_refused 0) ∧
      x.rd F.TIL_LAT_PHASE.phase 0 = (s.seen t).rd F.TIL_LAT_PHASE.phase 0 := by
  obtain ⟨w, hx⟩ := Tile.loadResult_eq (c := s.ctx t) hload hhear hst htold hgot hdue hr
  obtain ⟨hstatus, hoff, hrd⟩ := Tile.recorded_spec ld (b, status, off) (s.seen t)
  by_cases h : status = 0
  · rw [if_pos h] at hx
    refine ⟨_, w, (exec_clocked ht hg rfl hx).trans (by rw [if_pos h]), rfl, hstatus, hoff, fun hne => absurd h hne,
      fun _ => hrd _ 0 (by decide) (by decide), hrd _ 0 (by decide) (by decide)⟩
  · rw [if_neg h] at hx
    refine ⟨_, w, (exec_clocked ht hg rfl hx).trans (by rw [if_neg h]), rfl, ?_, ?_, fun _ => ?_, fun h0 => absurd h0 h, ?_⟩
    · rw [Tile.rd_latFlag_ne _ _ 0 (by decide) (by decide), hstatus]
    · rw [Tile.rd_latFlag_ne _ _ 0 (by decide) (by decide), hoff]
    · exact Tile.rd_latFlag_same _ _ (by decide) rfl
    · rw [Tile.rd_latFlag_ne _ _ 0 (by decide) (by decide)]
      exact hrd _ 0 (by decide) (by decide)

/-- A drain ends when the lattice is empty (R144). -/
theorem drainEnd_commits (hst : ld.st = .draining) (hfrom : ld.issued + ld.lines + 4 ≤ s.cycle) (hto : s.cycle ≤ ld.issued + 7995)
    (hempty : (s.seen t).latticeEmpty = true) : ∃ x : Tile, exec (.drainEnd t) s = .next (s.withTile t x []) ∧ x.lat.cfg = ld.bundle ∧
      x.lat.load = some { ld with st := .committing, inForce := s.cycle + 5 } ∧ x.rd F.TIL_LAT_PHASE.phase 0 = ld.bundle.phase.toNat ∧
      x.spad = (s.seen t).spad := by
  obtain ⟨hcfg, hnext, hphase, hspad, -⟩ := Tile.commitLoad_spec (s.ctx t) s.cycle ld (s.seen t)
  exact ⟨_, exec_clocked ht hg rfl (Tile.drainEnd_eq hload hhear hst hfrom hto hempty), hcfg, hnext, hphase, hspad⟩

/-- Or it is forced (R145). -/
theorem drainForced_commits (hst : ld.st = .draining) (hdue : ld.issued + 7995 ≤ s.cycle) :
    ∃ x : Tile, exec (.drainForced t) s = .next (s.withTile t x []) ∧ x.lat.cfg = ld.bundle ∧
      x.lat.load = some { ld with cut := false, st := .committing, inForce := ld.issued + 8000 } ∧
      x.rd F.TIL_LAT_LOAD.drain_forced 0 = 1 ∧ x.rd F.TIL_LAT_STATUS.drain_forced 0 = 1 ∧
      x.rd F.TIL_LAT_PHASE.phase 0 = ld.bundle.phase.toNat ∧ x.spad = (s.seen t).spad := by
  obtain ⟨hcfg, hnext, hphase, hspad, hrd⟩ := Tile.commitLoad_spec (s.ctx t) (ld.issued + 7995) { ld with cut := false }
    (((s.seen t).latFlag (s.ctx t) F.TIL_LAT_STATUS.drain_forced).wr F.TIL_LAT_LOAD.drain_forced 0 1)
  refine ⟨_, exec_clocked ht hg rfl (Tile.drainForced_eq hload hhear hst hdue), hcfg, hnext, ?_, ?_, hphase, hspad⟩
  · rw [hrd _ 0 (by decide), Tile.rd_wr, if_pos ⟨rfl, rfl⟩]
    rfl
  · rw [hrd _ 0 (by decide), Tile.rd_wr, if_neg (by decide)]
    exact Tile.rd_latFlag_same _ _ (by decide) rfl

end

/-- What a load does of itself in the cycle after its result (R143, R144, R146). -/
theorem loadRun_after_result {c : Ctx} {b : Tile} {ld : LatLoad} (hload : b.lat.load = some ld) (hst : ld.st = .loading)
    (hgot : 64 * ld.lines ≤ ld.got.length) :
    (ld.status ≠ 0 → b.loadRun c = ({ b with lat := { b.lat with load := none } }, [])) ∧
    (ld.status = 0 → ld.cut = true →
      (b.loadRun c).2 = [] ∧ (b.loadRun c).1.lat.cfg = ld.bundle ∧
      (b.loadRun c).1.lat.load = some { ld with st := .committing, inForce := ld.issued + ld.lines + 8 } ∧
      (b.loadRun c).1.rd F.TIL_LAT_PHASE.phase 0 = ld.bundle.phase.toNat ∧ (b.loadRun c).1.spad = b.spad) ∧
    (ld.status = 0 → ld.cut = false →
      (b.loadRun c).2 = [] ∧ (b.loadRun c).1.lat.cfg = b.lat.cfg ∧ (b.loadRun c).1.lat.stopped = true ∧
      (b.loadRun c).1.lat.load = some { ld with st := .draining } ∧ (∀ u, ((b.loadRun c).1.unit u).sqLoop = none) ∧
      ((∃ u, u < 16 ∧ uKind u = .sq ∧ ((b.unit u).sqLoop).isSome = true) →
        (b.loadRun c).1.rd F.TIL_LAT_STATUS.sources_cut 0 = 1) ∧ (b.loadRun c).1.spad = b.spad) := by
  rw [Tile.loadRun_loaded hload hst hgot]
  refine ⟨fun h => ?_, fun h hcut => ?_, fun h hcut => ?_⟩
  · rw [if_pos h]
    rfl
  · rw [if_neg (not_not.2 h), if_pos hcut]
    obtain ⟨hcfg, hnext, hphase, hspad, -⟩ := Tile.commitLoad_spec c (ld.issued + ld.lines + 3) ld b
    exact ⟨rfl, hcfg, hnext, hphase, hspad⟩
  · rw [if_neg (not_not.2 h), if_neg (by simp [hcut])]
    exact ⟨rfl, Tile.startDrain_spec c ld b⟩

end Sys2Proof.Proofs
end

section
/-! How tokens enter the match tables (R122, R123, R148), and tag deadlock (R154). -/
namespace Sys2Proof.Machine

theorem LUnit.head_input {c : Ctx} {x : LUnit} {i : Nat} {q : Nat × Nat × Tok} (h : x.head c i = some q) : q.1 = i := by
  unfold LUnit.head at h
  split at h
  · next p hp =>
    have hi := List.find?_some hp
    split at h
    · cases h
      simpa using hi
    · cases h
  · cases h

theorem Tile.latLive_state {c : Ctx} {tl : Tile} (h : tl.latLive c = true) : tl.st = .running ∨ tl.st = .idle := by
  unfold Tile.latLive at h
  obtain ⟨hst, -⟩ := Bool.and_eq_true_iff.1 h
  simpa using hst

/-- The completion of an entry with these operands by the token on input `i`, in cycle `k` (R123). -/
def Bundle.completed (b : Bundle) (o : OpBlk) (x : LUnit) (tag : BitVec 8) (k i : Nat) (ops : List (Nat × Tok)) : Option (Nat × Nat) :=
  if entryFull b o (firstOfStep x o tag) ops then some (k, i) else none

/-- A unit into whose match table the token `q` of input `i` has gone. -/
def LUnit.entered (k i : Nat) (q : Nat × Nat × Tok) (table : List MEntry) (x : LUnit) : LUnit :=
  { x with inq := x.inq.erase q, table := table, moved := x.moved.set i (k + 1) }

/-- A unit that changes, and a token of it that is discarded and counted. -/
theorem Tile.setUnit_discards {b x : Tile} {c : Ctx} {u : Nat} {y : LUnit} (hx : x = (b.setUnit u y).phaseDiscard c 1) :
    x.unit u = y ∧ (∀ v, v ≠ u → x.unit v = b.unit v) ∧ x.rd F.TIL_LAT_STATUS.discard 0 = 1 ∧
    x.rd F.TIL_PHASE_DISCARD.count 0 = min (b.rd F.TIL_PHASE_DISCARD.count 0 + 1) (2 ^ F.TIL_PHASE_DISCARD.count.width - 1) ∧
    x.spad = b.spad := by
  have hunit := Tile.unit_of_lat (Tile.lat_phaseDiscard c 1 (b.setUnit u y))
  obtain ⟨hflag, hcount⟩ := Tile.phaseDiscard_one c (b.setUnit u y)
  rw [hx]
  refine ⟨?_, fun v hv => ?_, hflag, hcount, (Tile.onlyLattice_phaseDiscard c 1 _).spad⟩
  · rw [hunit, Tile.unit_setUnit_same]
  · rw [hunit, Tile.unit_setUnit, if_neg hv.symm]

section
variable {tl0 b : Tile} {c : Ctx} {u i : Nat} {q : Nat × Nat × Tok} (hb : tl0.pumpAll c = b) (hlive : b.latLive c = true)
  (hhead : (b.unit u).head c i = some q)
include hb hlive hhead

/-- A token of another phase is discarded (R148). -/
theorem Tile.tokenArrives_discards (hphase : q.2.2.phase ≠ b.lat.cfg.phase) :
    tl0.tokenArrives c u i = (b.setUnit u { b.unit u with inq := (b.unit u).inq.erase q }).phaseDiscard c 1 := by
  unfold Tile.tokenArrives
  simp only [hb, hhead, if_neg (not_not.2 (Tile.latLive_state hlive)), if_pos (Or.inl hphase)]

section
variable {o : OpBlk} (hphase : q.2.2.phase = b.lat.cfg.phase) (hop : b.lat.cfg.op? u = some o) (hld : uKind u ≠ .ld)
  (hdly : ¬(uKind u = .st ∧ o.op = 5)) (hmoved : (b.unit u).moved.get i 0 ≠ c.cycle + 1)
include hphase hop hld hdly hmoved

/-- A token whose tag no entry holds takes a free entry (R122). -/
theorem Tile.tokenArrives_new (hfree : (b.unit u).table.length < 16) (hnew : ∀ e ∈ (b.unit u).table, e.tag ≠ q.2.2.tag) :
    tl0.tokenArrives c u i = (b.setUnit u (((b.unit u).entered c.cycle i q ((b.unit u).table ++ [⟨q.2.2.tag, [(i, q.2.2)], c.cycle,
      b.lat.cfg.completed o (b.unit u) q.2.2.tag c.cycle i [(i, q.2.2)]⟩])).noteExhaust c)).noteOcc c u := by
  have hfind : (b.unit u).table.find? (fun e => e.tag == q.2.2.tag) = none := List.find?_eq_none.2 fun e he => by simpa using hnew e he
  have hown : (uKind u == .ld || (uKind u == .st && o.op == 5)) = false := by simpa [hld] using hdly
  have hgo : ¬((b.unit u).moved.get i 0 = c.cycle + 1 ∨ (b.unit u).canEnter q = false) := by
    simp [hmoved, LUnit.canEnter, hfind, hfree]
  unfold Tile.tokenArrives
  simp only [hb, hhead, if_neg (not_not.2 (Tile.latLive_state hlive)), hphase, hlive, hop, hown, if_neg hgo, hfind, ne_eq, not_true,
    Bool.true_eq_false, or_self, Bool.false_eq_true, if_false]
  rfl

/-- A token whose tag an entry holds takes its slot in that entry (R122). -/
theorem Tile.tokenArrives_joins {l r : List MEntry} {e : MEntry} (htable : (b.unit u).table = l ++ e :: r) (htag : e.tag = q.2.2.tag)
    (hother : ∀ f ∈ l ++ r, f.tag ≠ q.2.2.tag) (hslot : ∀ p ∈ e.ops, p.1 ≠ i) (hopen : e.complete = none) :
    tl0.tokenArrives c u i = (b.setUnit u (((b.unit u).entered c.cycle i q (l ++ { e with
      ops := e.ops ++ [(i, q.2.2)]
      complete := b.lat.cfg.completed o (b.unit u) q.2.2.tag c.cycle i (e.ops ++ [(i, q.2.2)]) } :: r)).noteExhaust c)).noteOcc c u := by
  have hl (f : MEntry) (hf : f ∈ l) := hother f (List.mem_append_left r hf)
  have hr (f : MEntry) (hf : f ∈ r) := hother f (List.mem_append_right l hf)
  have hfind : (b.unit u).table.find? (fun e => e.tag == q.2.2.tag) = some e := by
    rw [htable, List.find?_append, List.find?_eq_none.2 fun f hf => by simpa using hl f hf, List.find?_cons_of_pos (by simpa using htag)]
    rfl
  have hown : (uKind u == .ld || (uKind u == .st && o.op == 5)) = false := by simpa [hld] using hdly
  have hgo : ¬((b.unit u).moved.get i 0 = c.cycle + 1 ∨ (b.unit u).canEnter q = false) := by
    have hempty (v : Tok) : (i, v) ∉ e.ops := fun hv => hslot _ hv rfl
    simp [hmoved, LUnit.canEnter, hfind, LUnit.head_input hhead, hempty]
  have hkeep {m : List MEntry} (hm : ∀ f ∈ m, f.tag ≠ q.2.2.tag) (g : MEntry → MEntry) :
      m.map (fun f => if f.tag = q.2.2.tag then g f else f) = m :=
    (List.map_congr_left fun f hf => if_neg (hm f hf)).trans (List.map_id m)
  unfold Tile.tokenArrives
  simp only [hb, hhead, if_neg (not_not.2 (Tile.latLive_state hlive)), hphase, hlive, hop, hown, if_neg hgo, hfind, ne_eq, not_true,
    Bool.true_eq_false, or_self, Bool.false_eq_true, if_false]
  rw [htable, List.map_append, List.map_cons, hkeep hl, hkeep hr, if_pos htag, hopen]
  rfl

end
end

/-! ### What entering changes -/

theorem LUnit.noteExhaust_keeps (c : Ctx) (x : LUnit) : (x.noteExhaust c).inq = x.inq ∧ (x.noteExhaust c).table = x.table ∧
    (x.noteExhaust c).pipe = x.pipe ∧ (x.noteExhaust c).moved = x.moved := by
  unfold LUnit.noteExhaust
  split <;> exact ⟨rfl, rfl, rfl, rfl⟩

/-- A unit that changes and notes its occupancy: nothing else but the occupancy has changed (Table 4-18). -/
theorem Tile.setUnit_noteOcc (b : Tile) (c : Ctx) (u : Nat) (y : LUnit) :
    ((b.setUnit u y).noteOcc c u).unit u = y ∧ (∀ v, v ≠ u → ((b.setUnit u y).noteOcc c u).unit v = b.unit v) ∧
    b.LatRegs ((b.setUnit u y).noteOcc c u) [.TIL_LAT_OCC] ∧ ((b.setUnit u y).noteOcc c u).spad = b.spad := by
  have hlat : ((b.setUnit u y).noteOcc c u).lat = (b.setUnit u y).lat := Tile.latCount_keeps Tile.lat c _ _ rfl
  refine ⟨?_, fun v hv => ?_, fun f j hf => ?_, Tile.latCount_keeps Tile.spad c _ _ rfl⟩
  · rw [Tile.unit_of_lat hlat, Tile.unit_setUnit_same]
  · rw [Tile.unit_of_lat hlat, Tile.unit_setUnit, if_neg hv.symm]
  · refine Tile.latCount_keeps (fun t : Tile => t.rd f j) c _ _ ?_
    have hocc := hf .TIL_LAT_OCC (by simp) F.TIL_LAT_OCC.max (by decide)
    rw [Tile.rd_wr, if_neg (by simp [hocc.symm])]

/-- A token that has gone into the match table has left its input; pipelines, other units and the scratchpad are as before (R122). -/
theorem Tile.entered_spec (b : Tile) (c : Ctx) (u i : Nat) (q : Nat × Nat × Tok) (table : List MEntry) {x : Tile}
    (hx : x = (b.setUnit u (((b.unit u).entered c.cycle i q table).noteExhaust c)).noteOcc c u) :
    (x.unit u).inq = (b.unit u).inq.erase q ∧ (x.unit u).table = table ∧ (x.unit u).pipe = (b.unit u).pipe ∧
    (x.unit u).moved.get i 0 = c.cycle + 1 ∧ (∀ v, v ≠ u → x.unit v = b.unit v) ∧ b.LatRegs x [.TIL_LAT_OCC] ∧ x.spad = b.spad := by
  obtain ⟨hunit, hframe⟩ := b.setUnit_noteOcc c u (((b.unit u).entered c.cycle i q table).noteExhaust c)
  obtain ⟨hinq, htable, hpipe, hmoved⟩ := LUnit.noteExhaust_keeps c ((b.unit u).entered c.cycle i q table)
  rw [hx, hunit, hinq, htable, hpipe, hmoved]
  exact ⟨rfl, rfl, rfl, Tab.get_set_same _ _ _ _, hframe⟩

/-! ### Tag deadlock -/

/-- The tile with the deadlock of unit `u` recorded (Table 4-17, R154). -/
def Tile.deadlocked (u sid : Nat) (q : Nat × Nat × Tok) (tl : Tile) : Tile :=
  (((tl.wr F.TIL_LAT_DEADLOCK.since_lo 0 sid).wr F.TIL_LAT_DEADLOCK.head_tag 0 q.2.2.tag.toNat).wr F.TIL_LAT_DEADLOCK.input 0 q.1).wr
    F.TIL_LAT_DEADLOCK.unit 0 u

theorem Tile.rd_deadlocked (u sid : Nat) (q : Nat × Nat × Tok) (tl : Tile) (hu : u < 16) (hq : q.1 < 4) :
    (tl.deadlocked u sid q).rd F.TIL_LAT_DEADLOCK.unit 0 = u ∧ (tl.deadlocked u sid q).rd F.TIL_LAT_DEADLOCK.input 0 = q.1 ∧
    (tl.deadlocked u sid q).rd F.TIL_LAT_DEADLOCK.head_tag 0 = q.2.2.tag.toNat ∧
    (tl.deadlocked u sid q).rd F.TIL_LAT_DEADLOCK.since_lo 0 = sid % 2 ^ F.TIL_LAT_DEADLOCK.since_lo.width := by
  unfold Tile.deadlocked
  refine ⟨?_, ?_, ?_, ?_⟩
  · rw [Tile.rd_wr, if_pos ⟨rfl, rfl⟩]
    exact Nat.mod_eq_of_lt hu
  · rw [Tile.rd_wr, if_neg (by decide), Tile.rd_wr, if_pos ⟨rfl, rfl⟩]
    exact Nat.mod_eq_of_lt hq
  · rw [Tile.rd_wr, if_neg (by decide), Tile.rd_wr, if_neg (by decide), Tile.rd_wr, if_pos ⟨rfl, rfl⟩]
    exact Nat.mod_eq_of_lt q.2.2.tag.isLt
  · rw [Tile.rd_wr, if_neg (by decide), Tile.rd_wr, if_neg (by decide), Tile.rd_wr, if_neg (by decide), Tile.rd_wr, if_pos ⟨rfl, rfl⟩]

/-- A unit that is in tag exhaustion for long enough is reported (R154). -/
theorem Tile.tagDeadlock_eq {tl0 b : Tile} {c : Ctx} {u : Nat} (hb : tl0.pumpAll c = b) {since : Nat × Nat} {q : Nat × Nat × Tok}
    (hlive : b.latLive c = true) (hsince : (b.unit u).exhaustSince = some since) (hq : (b.unit u).exhausted c = some q)
    (hlong : since.1 + 4096 ≤ c.cycle) (hnew : (b.unit u).exhaustTold = false) :
    ∃ (w : Word) (x : Tile), tl0.tagDeadlock c u = (x.latFlag c F.TIL_LAT_STATUS.tag_deadlock, [.record 0x05 2 u 0 w 0 0 0]) ∧
      x.lat = { ((b.setUnit u { b.unit u with exhaustTold := true }).lat) with hang := true } ∧ x.regs = (b.deadlocked u since.2 q).regs := by
  unfold Tile.tagDeadlock
  simp only [hb, hsince, hq, hlong, hnew, hlive, and_self, if_true]
  exact ⟨_, _, rfl, rfl, rfl⟩

end Sys2Proof.Machine

namespace Sys2Proof.Proofs
open Sys2Proof.Machine

section
variable {s : State} {t u i : Nat} (ht : t < 2304) (hg : s.gatedNow = false) (hlive : (s.lat_ t).latLive (s.ctx t) = true)
include ht hg hlive

/-- TOKEN_ARRIVAL (R122, R148). -/
theorem tokenArrival_spec {q : Nat × Nat × Tok} (hhead : ((s.lat_ t).unit u).head (s.ctx t) i = some q) :
    (q.2.2.phase ≠ (s.lat_ t).lat.cfg.phase →
      ∃ x : Tile, exec (.tokenArrival t u i) s = .next (s.withTile t x []) ∧
        x.unit u = { (s.lat_ t).unit u with inq := ((s.lat_ t).unit u).inq.erase q } ∧ (∀ v, v ≠ u → x.unit v = (s.lat_ t).unit v) ∧
        x.rd F.TIL_LAT_STATUS.discard 0 = 1 ∧
        x.rd F.TIL_PHASE_DISCARD.count 0 = min ((s.lat_ t).rd F.TIL_PHASE_DISCARD.count 0 + 1) (2 ^ F.TIL_PHASE_DISCARD.count.width - 1) ∧
        x.spad = (s.lat_ t).spad) ∧
    (∀ o, q.2.2.phase = (s.lat_ t).lat.cfg.phase → (s.lat_ t).lat.cfg.op? u = some o → uKind u ≠ .ld → ¬(uKind u = .st ∧ o.op = 5) →
      ((s.lat_ t).unit u).moved.get i 0 ≠ s.cycle + 1 →
      (((s.lat_ t).unit u).table.length < 16 → (∀ e ∈ ((s.lat_ t).unit u).table, e.tag ≠ q.2.2.tag) →
        ∃ x : Tile, exec (.tokenArrival t u i) s = .next (s.withTile t x []) ∧
          (x.unit u).inq = ((s.lat_ t).unit u).inq.erase q ∧
          (x.unit u).table = ((s.lat_ t).unit u).table ++ [⟨q.2.2.tag, [(i, q.2.2)], s.cycle,
            (s.lat_ t).lat.cfg.completed o ((s.lat_ t).unit u) q.2.2.tag s.cycle i [(i, q.2.2)]⟩] ∧
          (x.unit u).pipe = ((s.lat_ t).unit u).pipe ∧ (x.unit u).moved.get i 0 = s.cycle + 1 ∧
          (∀ v, v ≠ u → x.unit v = (s.lat_ t).unit v) ∧ (s.lat_ t).LatRegs x [.TIL_LAT_OCC] ∧ x.spad = (s.lat_ t).spad) ∧
      (∀ l e r, ((s.lat_ t).unit u).table = l ++ e :: r → e.tag = q.2.2.tag → (∀ f ∈ l ++ r, f.tag ≠ q.2.2.tag) →
        (∀ p ∈ e.ops, p.1 ≠ i) → e.complete = none →
        ∃ x : Tile, exec (.tokenArrival t u i) s = .next (s.withTile t x []) ∧
          (x.unit u).inq = ((s.lat_ t).unit u).inq.erase q ∧
          (x.unit u).table = l ++ { e with
            ops := e.ops ++ [(i, q.2.2)]
            complete := (s.lat_ t).lat.cfg.completed o ((s.lat_ t).unit u) q.2.2.tag s.cycle i (e.ops ++ [(i, q.2.2)]) } :: r ∧
          (x.unit u).pipe = ((s.lat_ t).unit u).pipe ∧ (∀ v, v ≠ u → x.unit v = (s.lat_ t).unit v) ∧
          (s.lat_ t).LatRegs x [.TIL_LAT_OCC] ∧ x.spad = (s.lat_ t).spad)) := by
  refine ⟨fun hphase => ?_, fun o hphase hop hld hdly hmoved => ⟨fun hfree hnew => ?_, fun l e r htable htag hother hslot hopen => ?_⟩⟩
  · exact ⟨_, exec_clocked_silent ht hg rfl, Tile.setUnit_discards (Tile.tokenArrives_discards rfl hlive hhead hphase)⟩
  · exact ⟨_, exec_clocked_silent ht hg rfl,
      Tile.entered_spec _ _ u i q _ (Tile.tokenArrives_new rfl hlive hhead hphase hop hld hdly hmoved hfree hnew)⟩
  · obtain ⟨hinq, hentry, hpipe, -, hrest⟩ := Tile.entered_spec _ _ u i q _
      (Tile.tokenArrives_joins rfl hlive hhead hphase hop hld hdly hmoved htable htag hother hslot hopen)
    exact ⟨_, exec_clocked_silent ht hg rfl, hinq, hentry, hpipe, hrest⟩

/-- TAG_DEADLOCK (R154). -/
theorem tagDeadlock_reports {since : Nat × Nat} {q : Nat × Nat × Tok} (hsince : ((s.lat_ t).unit u).exhaustSince = some since)
    (hq : ((s.lat_ t).unit u).exhausted (s.ctx t) = some q) (hlong : since.1 + 4096 ≤ s.cycle)
    (hnew : ((s.lat_ t).unit u).exhaustTold = false) (hu : u < 16) (hinput : q.1 < 4) :
    ∃ (x : Tile) (w : Word), exec (.tagDeadlock t u) s = .next (s.withTile t x [.record 0x05 2 u 0 w 0 0 0]) ∧ x.lat.hang = true ∧
      x.rd F.TIL_LAT_DEADLOCK.unit 0 = u ∧ x.rd F.TIL_LAT_DEADLOCK.input 0 = q.1 ∧
      x.rd F.TIL_LAT_DEADLOCK.head_tag 0 = q.2.2.tag.toNat ∧
      x.rd F.TIL_LAT_DEADLOCK.since_lo 0 = since.2 % 2 ^ F.TIL_LAT_DEADLOCK.since_lo.width ∧ x.rd F.TIL_LAT_STATUS.tag_deadlock 0 = 1 ∧
      x.unit u = { (s.lat_ t).unit u with exhaustTold := true } ∧ (∀ v, v ≠ u → x.unit v = (s.lat_ t).unit v) := by
  obtain ⟨w, x, hx, hlat, hregs⟩ := Tile.tagDeadlock_eq (b := s.lat_ t) rfl hlive hsince hq hlong hnew
  obtain ⟨hunit, hinp, htag, hlo⟩ := Tile.rd_deadlocked u since.2 q (s.lat_ t) hu hinput
  have hrd {f : Fld} (hf : F.TIL_LAT_STATUS.tag_deadlock.id ≠ f.id) (ha : F.TIL_LAT_STATUS.again_count.id ≠ f.id) :
      (x.latFlag (s.ctx t) F.TIL_LAT_STATUS.tag_deadlock).rd f 0 = ((s.lat_ t).deadlocked u since.2 q).rd f 0 := by
    rw [Tile.rd_latFlag_ne _ _ 0 hf ha, Tile.rd, hregs, Tile.rd]
  have hunits (v : Nat) : (x.latFlag (s.ctx t) F.TIL_LAT_STATUS.tag_deadlock).unit v =
      ((s.lat_ t).setUnit u { (s.lat_ t).unit u with exhaustTold := true }).unit v := by
    show x.lat.units.get v _ = _
    rw [hlat]
    rfl
  refine ⟨_, w, exec_clocked ht hg rfl hx, congrArg Lattice.hang hlat, (hrd (by decide) (by decide)).trans hunit,
    (hrd (by decide) (by decide)).trans hinp, (hrd (by decide) (by decide)).trans htag, (hrd (by decide) (by decide)).trans hlo,
    Tile.rd_latFlag_same _ _ (by decide) rfl, ?_, fun v hv => ?_⟩
  · rw [hunits, Tile.unit_setUnit_same]
  · rw [hunits, Tile.unit_setUnit, if_neg hv.symm]

end

/-- Settles O21: the steps of a load, then the arrival of tokens and tag deadlock. -/
theorem loadProgressAndTokens : Obligations.LoadProgressAndTokens := by
  unfold Obligations.LoadProgressAndTokens
  refine ⟨⟨fun s t ld ht hg hhear hload => ⟨?result, fun hst => ⟨?drained, ?forced⟩, ?flushed⟩, fun c b ld hload => ⟨?after, ?committing⟩⟩,
    fun s t u i ht hg hlive => ⟨?arrives, ?deadlock⟩⟩
  case result =>
    intro hst htold hgot hdue b status off hr
    exact latticeLoadResult_records ht hg hhear hload hst htold hgot hdue hr
  case drained => exact fun hfrom hto hempty => drainEnd_commits ht hg hhear hload hst hfrom hto hempty
  case forced => exact fun hdue => drainForced_commits ht hg hhear hload hst hdue
  case flushed => exact fun hst hdue => exec_clocked ht hg rfl (Tile.flushEnd_eq hload hhear hst hdue)
  case after =>
    exact fun hst htold hgot => ⟨Tile.loadNext_loaded hload hst htold hgot, loadRun_after_result hload hst hgot⟩
  case committing => exact fun hst => Tile.loadRun_committing hload hst
  case arrives => exact fun q hhead => tokenArrival_spec ht hg hlive hhead
  case deadlock =>
    intro since q hsince hq hlong hnew hu hinput
    exact tagDeadlock_reports ht hg hlive hsince hq hlong hnew hu hinput

end Sys2Proof.Proofs
end

section
/-! LLOAD at a free bank port, and LWAIT (R141, R143, R147, R159). -/
namespace Sys2Proof.Machine

/-! ### An access whose ports are free (R159) -/

/-- The tile whose port has taken one grant more. -/
def Tile.granted (g : Grant) (tl : Tile) : Tile := tl.setBank { tl.bank with grants := tl.bank.grants ++ [g] }

section
variable {tl : Tile} {c : Ctx} {k : Nat} {u : BankUnit} {timed write : Bool} {a : Nat} {l : List Byte}

/-- A free port is granted, and nothing gives way. -/
theorem Tile.takePort_free {b : Nat} (h : tl.grant? k b write = none) :
    tl.takePort c k u timed write a l b = (tl.granted ⟨b, write, k, u, timed, a, l⟩, []) := by
  unfold Tile.takePort
  rw [h]
  rfl

/-- A grant of a bank's port leaves the other banks' ports as they are. -/
theorem Tile.grant?_granted_ne {b b' : Nat} (h : b ≠ b') :
    (tl.granted ⟨b, write, k, u, timed, a, l⟩).grant? k b' write = tl.grant? k b' write := by
  unfold Tile.grant? Tile.granted
  rw [Tile.setBank_bank, List.find?_append]
  simp [h]

/-- Free ports are granted one after another. -/
theorem Tile.takePorts_free {bs : List Nat} (hnodup : bs.Nodup) (hfree : ∀ b ∈ bs, tl.grant? k b write = none) :
    ∃ K, bs.foldl (fun p b => andThen p (Tile.takePort c k u timed write a l b)) (tl, []) = (tl.setBank K, []) := by
  induction bs generalizing tl with
  | nil => exact ⟨tl.bank, rfl⟩
  | cons b bs ih =>
    obtain ⟨hb, hbs⟩ := List.nodup_cons.1 hnodup
    obtain ⟨K, hK⟩ := ih (tl := tl.granted ⟨b, write, k, u, timed, a, l⟩) hbs fun b' hb' => by
      rw [Tile.grant?_granted_ne (ne_of_mem_of_not_mem hb' hb).symm]
      exact hfree b' (List.mem_cons_of_mem _ hb')
    refine ⟨K, ?_⟩
    have hfirst : andThen (tl, []) (Tile.takePort c k u timed write a l b) =
        (tl.granted ⟨b, write, k, u, timed, a, l⟩, []) := by
      unfold andThen
      rw [Tile.takePort_free (hfree b (List.mem_cons_self ..))]
      rfl
    rw [List.foldl_cons, hfirst, hK]
    rfl

/-- An access whose ports are free in this cycle is granted in it, and only the bank's record changes. -/
theorem Tile.ask_free {n : Nat} (h : tl.PortFree c write a n) : ∃ K, tl.ask c c.cycle u timed write a n l = .ok (tl.setBank K, []) := by
  have hfree (b : Nat) (hb : b ∈ tl.banksOf a n) : (tl.setBank { tl.bank with
      grants := tl.bank.grants.filter (fun g => decide (c.cycle ≤ g.at_)) }).grant? c.cycle b write = none := by
    rw [Tile.grant?_present tl c.cycle c.cycle b write (Nat.le_refl _), h b hb]
  obtain ⟨K, hK⟩ := Tile.takePorts_free (c := c) (u := u) (timed := timed) (a := a) (l := l) (List.nodup_dedup _) hfree
  refine ⟨K, ?_⟩
  unfold Tile.ask Tile.askBanks
  dsimp only
  rw [if_pos (List.filter_eq_nil_iff.2 fun b hb => by rw [Tile.grants, hfree b hb]; simp)]
  exact congrArg Except.ok hK

end

/-! ### LLOAD and LWAIT -/

theorem State.Fetches.running {s : State} {t : Nat} {w : BitVec 32} (h : s.Fetches t w) : (s.at_ t).st = .running := by
  obtain ⟨-, -, -, -, hst⟩ := h
  exact hst

/-- What an instruction does whose access makes nothing give way. -/
theorem withPort_done {f : Tile → Act} {t x : Tile} (hst : t.st = .running) (h : f t = .done x []) :
    withPort (.ok (t, [])) f = .done x [] := by
  unfold withPort
  dsimp only
  rw [if_pos hst, h]
  rfl

/-- The load that LLOAD begins in cycle `k` (R141). -/
def Tile.newLoad (b : Tile) (k : Nat) (cut : Bool) (a : Word) : LatLoad :=
  { st := .loading, issued := k, addr := a.toNat, lines := Mem.num 0 b.spad (a.toNat + 4) 2, got := Mem.bytes 0 b.spad a.toNat 64
    told := false, cut := cut, shadow := BitVec.ofNat 8 (b.load (a.toNat + 2) 1), status := 0, errOff := 0xFFFF, bundle := ⟨0, [], []⟩
    inForce := 0 }

/-- The tile with a load begun. -/
def Tile.loads (ld : LatLoad) (a : Word) (b : Tile) : Tile :=
  (((b.setLoad (some ld)).wr F.TIL_LAT_LOAD.addr 0 (a.toNat / 64)).wr F.TIL_LAT_LOAD.drain_forced 0 0).wr F.TIL_LAT_PHASE.mode 0 ld.cut.toNat

/-- An instruction that begins a load and has result 0. -/
theorem Tile.loads_result (b : Tile) (K : BankSt) (ld : LatLoad) (a : Word) (rd : BitVec 5) {x : Tile}
    (hx : x = ((b.setBank K).loads ld a).result rd 0) :
    x.lat = { b.lat with load := some ld } ∧ x.rd F.TIL_LAT_PHASE.mode 0 = ld.cut.toNat ∧ x.gr rd = 0 ∧ (∀ r, r ≠ rd → x.gr r = b.gr r) ∧
    x.seq.pc = b.seq.pc + 4 ∧ x.spad = b.spad := by
  obtain ⟨hrd, hother, hpc, -, -⟩ := Tile.result_writes ((b.setBank K).loads ld a) rd 0
  rw [← hx] at hrd hother hpc
  refine ⟨by rw [hx]; rfl, ?_, hrd.trans (ite_self 0), hother, hpc, by rw [hx]; rfl⟩
  have hmode : x.rd F.TIL_LAT_PHASE.mode 0 = ((b.setBank K).loads ld a).rd F.TIL_LAT_PHASE.mode 0 := by rw [hx]; rfl
  rw [hmode, Tile.loads, Tile.rd_wr, if_pos ⟨rfl, rfl⟩]
  cases ld.cut <;> rfl

section
variable {b : Tile} {c : Ctx} {cut : Bool} {rd ra : BitVec 5} {w : BitVec 32}

/-- LLOAD of a bundle that lies in the scratchpad, with its bank's port free: BUSY while a load is in progress, else a new load (R141). -/
theorem lloadOp_eq (hst : b.st = .running) (hpad : b.InPad (b.gr ra) 64 64) (hmin : 3 ≤ Mem.num 0 b.spad ((b.gr ra).toNat + 4) 2)
    (hmax : Mem.num 0 b.spad ((b.gr ra).toNat + 4) 2 ≤ 256)
    (hend : (b.gr ra).toNat + 64 * Mem.num 0 b.spad ((b.gr ra).toNat + 4) 2 ≤ b.size)
    (hport : b.PortFree c false (b.gr ra).toNat 64) :
    ∃ K, lloadOp c w cut rd ra 0 0 b = .done (if b.lat.load.isSome then (b.setBank K).result rd 2
      else ((b.setBank K).loads (b.newLoad c.cycle cut (b.gr ra)) (b.gr ra)).result rd 0) [] := by
  obtain ⟨halign, hlen⟩ := hpad
  obtain ⟨K, hK⟩ := Tile.ask_free (u := .load) (timed := false) (l := []) hport
  have haddr : ¬¬b.addrOk (b.gr ra) 64 64 = true := by simp [Tile.addrOk, halign, hlen]
  have hlines : ¬(Mem.num 0 b.spad ((b.gr ra).toNat + 4) 2 < 3 ∨ 256 < Mem.num 0 b.spad ((b.gr ra).toNat + 4) 2 ∨
      b.size < (b.gr ra).toNat + 64 * Mem.num 0 b.spad ((b.gr ra).toNat + 4) 2) := by omega
  refine ⟨K, ?_⟩
  unfold lloadOp
  dsimp only
  rw [if_neg (by simp), if_neg haddr, hK]
  refine withPort_done hst ?_
  refine (if_neg hlines).trans ?_
  cases h : b.lat.load with
  | none => exact if_neg (by simp [Tile.setBank, h])
  | some ld => exact if_pos (by simp [Tile.setBank, h])

/-- LWAIT completes, or blocks (R143, R147). -/
theorem lwaitOp_eq : lwaitOp c w rd 0 0 0 b = .done (if b.lat.loadDone c then b.result rd 0 else b.block c rd .lattice) [] := by
  unfold lwaitOp waitCmd
  rw [if_neg (by simp)]
  exact (apply_ite (fun x => Act.done x []) _ _ _).symm

end

theorem Tile.waitWord_lattice (b : Tile) (c : Ctx) (rd : BitVec 5) (hst : b.st = .running) : (b.block c rd .lattice).waitWord = 0x7 := by
  unfold Tile.waitWord Tile.block
  simp only [hst]

/-- The phase of the last load is in force, or there is none. -/
theorem Lattice.loadDone_iff (c : Ctx) (l : Lattice) : l.loadDone c = true ↔
    l.load = none ∨ ∃ ld, l.load = some ld ∧ (ld.st = .flushing ∨ ld.st = .committing ∧ ld.inForce ≤ c.cycle) := by
  unfold Lattice.loadDone
  cases l.load with
  | none => simp
  | some ld => cases h : ld.st <;> simp [h]

/-- It is not yet. -/
theorem Lattice.loadDone_eq_false (c : Ctx) (l : Lattice) (h : ∃ ld, l.load = some ld ∧
    (ld.st = .loading ∨ ld.st = .draining ∨ ld.st = .committing ∧ c.cycle < ld.inForce)) : l.loadDone c = false := by
  obtain ⟨ld, hld, hst | hst | ⟨hst, hlater⟩⟩ := h <;> simp [Lattice.loadDone, hld, hst]
  exact hlater

end Sys2Proof.Machine

namespace Sys2Proof.Proofs
open Sys2Proof.Machine

section
variable {s : State} {t : Nat} {rd ra : BitVec 5} (hquiet : s.Quiet t)
include hquiet

/-- LLOAD as an instruction: BUSY while a load is in progress, else a new load (R141). -/
theorem lload_ran {cut : Bool} {i : Instr} {w : BitVec 32} (hi : i = .lloadDrain t rd ra 0 0 ∧ w = encCmd 0x04 rd ra 0 0 ∧ cut = false ∨
      i = .lloadCut t rd ra 0 0 ∧ w = encCmd 0x04 rd ra 0 1 ∧ cut = true)
    (hfetch : s.Fetches t w) (hpad : (s.at_ t).InPad ((s.at_ t).gr ra) 64 64)
    (hmin : 3 ≤ Mem.num 0 (s.at_ t).spad (((s.at_ t).gr ra).toNat + 4) 2) (hmax : Mem.num 0 (s.at_ t).spad (((s.at_ t).gr ra).toNat + 4) 2 ≤ 256)
    (hend : ((s.at_ t).gr ra).toNat + 64 * Mem.num 0 (s.at_ t).spad (((s.at_ t).gr ra).toNat + 4) 2 ≤ (s.at_ t).size)
    (hport : (s.at_ t).PortFree (s.ctx t) false ((s.at_ t).gr ra).toNat 64) :
    ∃ K, exec i s = .next (s.ran t (if (s.at_ t).lat.load.isSome then ((s.at_ t).setBank K).result rd 2
      else (((s.at_ t).setBank K).loads ((s.at_ t).newLoad s.cycle cut ((s.at_ t).gr ra)) ((s.at_ t).gr ra)).result rd 0) []) := by
  have hexec : exec i s = .next (s.onClocked t fun c tl => tl.issue c w fun tl => lloadOp c w cut rd ra 0 0 tl) := by
    obtain ⟨rfl, rfl, rfl⟩ | ⟨rfl, rfl, rfl⟩ := hi
    · rfl
    · rfl
  obtain ⟨K, hact⟩ := lloadOp_eq (c := s.ctx t) (cut := cut) (rd := rd) (w := w) hfetch.running hpad hmin hmax hend hport
  exact ⟨K, hexec.trans (congrArg _ (State.onClocked_issue_done s t w _ _ _ hfetch hquiet hact))⟩

/-- LWAIT as an instruction (R147). -/
theorem lwait_ran (hfetch : s.Fetches t (encCmd 0x05 rd 0 0 0)) : exec (.lwait t rd 0 0 0) s =
    .next (s.ran t (if (s.at_ t).lat.loadDone (s.ctx t) then (s.at_ t).result rd 0 else (s.at_ t).block (s.ctx t) rd .lattice) []) :=
  congrArg _ (State.onClocked_issue_done s t _ (fun c tl => lwaitOp c (encCmd 0x05 rd 0 0 0) rd 0 0 0 tl) _ _ hfetch hquiet lwaitOp_eq)

end

/-- Settles O14: LLOAD on an idle lattice and on one that loads, LWAIT by the state of the load. -/
theorem latticeLoadCommands : Obligations.LatticeLoadCommands := by
  unfold Obligations.LatticeLoadCommands
  intro s t rd ra hquiet
  refine ⟨fun cut i w hi hfetch hpad hmin hmax hend hport => ?_, fun hfetch => ⟨fun hdone => ?_, fun hwaits => ?_⟩⟩
  · obtain ⟨K, hexec⟩ := lload_ran hquiet hi hfetch hpad hmin hmax hend hport
    refine ⟨fun hidle => ?_, fun hbusy => ?_⟩
    · rw [if_neg (by simp [hidle])] at hexec
      obtain ⟨hlat, hmode, hregs⟩ := Tile.loads_result (s.at_ t) K ((s.at_ t).newLoad s.cycle cut ((s.at_ t).gr ra)) ((s.at_ t).gr ra) rd rfl
      exact ⟨_, _, hexec, hlat, rfl, rfl, rfl, rfl, rfl, rfl, hmode, hregs⟩
    · have hsome : (s.at_ t).lat.load.isSome = true := Option.isSome_iff_ne_none.2 hbusy
      rw [if_pos hsome] at hexec
      exact ⟨_, (s.at_ t).result rd 2, hexec, rfl, Tile.result_writes _ rd 2⟩
  · have h : (s.at_ t).lat.loadDone (s.ctx t) = true := (Lattice.loadDone_iff _ _).2 hdone
    refine ⟨_, lwait_ran hquiet hfetch, ?_⟩
    rw [if_pos h]
    exact Tile.result_writes _ rd 0
  · have h : (s.at_ t).lat.loadDone (s.ctx t) = false := Lattice.loadDone_eq_false _ _ hwaits
    refine ⟨_, lwait_ran hquiet hfetch, ?_⟩
    rw [h, if_neg Bool.false_ne_true]
    exact ⟨rfl, Tile.waitWord_lattice _ _ rd hfetch.running⟩

end Sys2Proof.Proofs
end

section
/-! The order of a bank's ports, and what an access that is granted, waits or gives way leaves behind (R159, R160, R165). -/
namespace Sys2Proof.Machine

/-! ### The order of the units (R159) -/

/-- Along a list that a rank makes strictly rising, the rank and the place order its members alike. -/
theorem rank_lt_iff_idxOf_lt {α : Type} [DecidableEq α] {rank : α → Nat} {l : List α} (hl : l.Pairwise (fun x y => rank x < rank y))
    {u v : α} (hu : u ∈ l) (hv : v ∈ l) : rank u < rank v ↔ l.idxOf u < l.idxOf v := by
  have hbefore {x y : α} (hx : x ∈ l) (hy : y ∈ l) (h : l.idxOf x < l.idxOf y) : rank x < rank y := by
    have := List.pairwise_iff_getElem.1 hl _ _ (List.idxOf_lt_length_of_mem hx) (List.idxOf_lt_length_of_mem hy) h
    simpa using this
  refine ⟨fun h => ?_, hbefore hu hv⟩
  by_contra hle
  obtain heq | hlt := Nat.eq_or_lt_of_le (Nat.le_of_not_lt hle)
  · rw [(List.idxOf_inj hv).1 heq] at h
    exact Nat.lt_irrefl _ h
  · exact Nat.lt_asymm h (hbefore hv hu hlt)

/-- The rank of a unit at a bank of owner class `o`. -/
def BankUnit.rank (o : Nat) (u : BankUnit) : Nat :=
  match u.cls with
  | .lnd => u.sub
  | .str => (if o = 1 then 16 else 32) + u.sub
  | .lat => (if o = 2 then 16 else 64) + u.sub
  | .seq => (if o = 0 then 16 else 96) + u.sub

theorem Tile.prio_eq_rank (k b : Nat) (u : BankUnit) (tl : Tile) : tl.prio k b u = u.rank (tl.owner k b) := rfl

/-- A class code that is no owner's orders the units as code 3 does. -/
theorem BankUnit.rank_unowned (n : Nat) (u : BankUnit) : u.rank (n + 3) = u.rank 3 := by
  unfold BankUnit.rank
  cases u.cls <;> simp

theorem bankOrder_unowned (n : Nat) : bankOrder (n + 3) = bankOrder 3 := by
  simp [bankOrder, bankClasses]

theorem bankOrder_rises (o : Nat) : (bankOrder o).Pairwise (fun u v => u.rank o < v.rank o) :=
  match o with
  | 0 => by decide
  | 1 => by decide
  | 2 => by decide
  | n + 3 => by
    simp only [bankOrder_unowned, BankUnit.rank_unowned]
    decide

/-! ### The grants of a bank -/

/-- What a port that was free grants after one grant more: that grant, where it is of the port and the cycle. -/
theorem Tile.grant?_granted_same {tl : Tile} {g : Grant} {k b : Nat} {write : Bool} (h : tl.grant? k b write = none) (hk : g.at_ = k)
    (hb : g.bank = b) (hw : g.write = write) : (tl.granted g).grant? k b write = some g := by
  unfold Tile.grant? at h ⊢
  rw [Tile.granted, Tile.setBank_bank, List.find?_append, h]
  simp [hk, hb, hw]

/-- A grant of another cycle leaves the port as it is. -/
theorem Tile.grant?_granted_other {tl : Tile} {g : Grant} {k b : Nat} {write : Bool} (h : g.at_ ≠ k) :
    (tl.granted g).grant? k b write = tl.grant? k b write := by
  unfold Tile.grant?
  rw [Tile.granted, Tile.setBank_bank, List.find?_append]
  simp [h]

theorem Tile.grant?_spec {tl : Tile} {k b : Nat} {write : Bool} {g : Grant} (h : tl.grant? k b write = some g) :
    g ∈ tl.bank.grants ∧ g.at_ = k ∧ g.bank = b ∧ g.write = write := by
  have hp := List.find?_some h
  simp only [Bool.and_eq_true, beq_iff_eq] at hp
  obtain ⟨⟨hk, hb⟩, hw⟩ := hp
  exact ⟨List.mem_of_find?_eq_some h, hk, hb, hw⟩

/-- The tile with the grants of cycles that are over forgotten, as an access finds it. -/
def Tile.present (c : Ctx) (tl : Tile) : Tile :=
  tl.setBank { tl.bank with grants := tl.bank.grants.filter (fun g => decide (c.cycle ≤ g.at_)) }

theorem Tile.grant?_of_present (c : Ctx) (tl : Tile) {k : Nat} (b : Nat) (write : Bool) (h : c.cycle ≤ k) :
    (tl.present c).grant? k b write = tl.grant? k b write := Tile.grant?_present tl c.cycle k b write h

theorem Tile.OneGrant.present {tl : Tile} (h : tl.OneGrant) (c : Ctx) : (tl.present c).OneGrant := h.filter _

/-- Without its one grant a port is free. -/
theorem Tile.OneGrant.erase {tl : Tile} (h : tl.OneGrant) {k b : Nat} {write : Bool} {g : Grant} (hg : tl.grant? k b write = some g) :
    (tl.bank.grants.erase g).find? (fun g => g.at_ == k && g.bank == b && g.write == write) = none := by
  obtain ⟨hmem, rfl, rfl, rfl⟩ := Tile.grant?_spec hg
  have hfirst := ((List.perm_cons_erase hmem).pairwise_iff fun hxy => Ne.symm hxy).1 h
  refine List.find?_eq_none.2 fun x hx => ?_
  have hne := List.rel_of_pairwise_cons hfirst hx
  intro hp
  simp only [Bool.and_eq_true, beq_iff_eq] at hp
  obtain ⟨⟨hk, hb⟩, hw⟩ := hp
  exact hne (by rw [hk, hb, hw])

/-! ### Waiting (R160) -/

theorem Tile.Waits.refl (b : Tile) : b.Waits b := ⟨rfl, fun _ _ _ => rfl⟩

theorem Tile.Waits.trans {a b x : Tile} (h : a.Waits b) (h' : b.Waits x) : a.Waits x := by
  obtain ⟨hab, hrd⟩ := h
  obtain ⟨hbx, hrd'⟩ := h'
  exact ⟨by rw [hbx, hab], fun f j hf => (hrd' f j hf).trans (hrd f j hf)⟩

theorem Tile.waits_setBank (b : Tile) (K : BankSt) : b.Waits (b.setBank K) := ⟨rfl, fun _ _ _ => rfl⟩

theorem Tile.waits_bankWaits (k : Nat) (write : Bool) (u : BankUnit) (bs : List Nat) (b : Tile) :
    b.Waits (bs.foldl (fun t n => t.bankWait k n write u) b) := by
  induction bs generalizing b with
  | nil => exact .refl b
  | cons n bs ih => exact (Tile.bankWait_waits k n write u b).trans (ih _)

section
variable {tl : Tile} {c : Ctx} {u : BankUnit} {timed write : Bool} {a len : Nat} {l : List Byte}

/-- An access that one of its ports does not serve waits. -/
theorem Tile.askBanks_waits {bs : List Nat} (h : ∃ n ∈ bs, tl.grants c.cycle n write u = false) :
    ∃ x, tl.askBanks c c.cycle u timed write a l bs = .error x ∧ tl.Waits x := by
  obtain ⟨n, hn, hno⟩ := h
  have hgrants : (tl.present c).grants c.cycle n write u = false := by
    rw [← hno]
    unfold Tile.grants
    rw [Tile.grant?_of_present c tl n write (Nat.le_refl _)]
    rfl
  refine ⟨_, if_neg ?_, (Tile.waits_setBank tl _).trans (Tile.waits_bankWaits ..)⟩
  exact List.ne_nil_of_mem (List.mem_filter.2 ⟨hn, (congrArg not hgrants).trans rfl⟩)

/-- What an access of one bank that its port serves comes to. -/
theorem Tile.ask_served {n : Nat} (hbank : tl.banksOf a len = [n]) (hserves : (tl.present c).grants c.cycle n write u = true) :
    tl.ask c c.cycle u timed write a len l = .ok ((tl.present c).takePort c c.cycle u timed write a l n) := by
  unfold Tile.ask Tile.askBanks
  dsimp only
  rw [hbank, if_pos (List.filter_eq_nil_iff.2 fun b hb => ?_)]
  · rfl
  · rw [List.mem_singleton.1 hb]
    exact fun h => Bool.false_ne_true ((congrArg not hserves).symm.trans h)

/-- The tile, and what it hands out, after a grant has been taken away: the wait is counted, and what its unit does later has moved (R160). -/
def Tile.displaced (c : Ctx) (g : Grant) (tl : Tile) : Tile × List Out :=
  let t1 := tl.bankWait g.at_ g.bank g.write g.by_
  (t1.setBank { t1.bank with atoms := t1.bank.atoms.map (Atom.moved t1 g), grants := t1.bank.grants.erase g }).delayed c g.at_ g.by_ g.write g.timed

theorem Tile.displaced_grants (c : Ctx) {g : Grant} (tl : Tile) (h : g.timed = false) :
    (tl.displaced c g).1.bank.grants = tl.bank.grants.erase g := by
  unfold Tile.displaced
  simp [h]

/-- A grant that gives way has the port in the next cycle where it is free then. -/
theorem Tile.giveWay_once {c : Ctx} {g : Grant} {tl : Tile} (n : Nat) (h : (tl.displaced c g).1.grant? (g.at_ + 1) g.bank g.write = none) :
    tl.giveWay c (n + 1) g = ((tl.displaced c g).1.granted { g with at_ := g.at_ + 1 }, (tl.displaced c g).2) := by
  unfold Tile.displaced at h
  unfold Tile.giveWay
  dsimp only at h ⊢
  rw [h]
  rfl

/-- An access that comes first takes the port; the one that it served is offered in the next cycle. -/
theorem Tile.takePort_givesWay {k n : Nat} {g : Grant} (hg : tl.grant? k n write = some g) (hone : tl.OneGrant) (htimed : g.timed = false)
    (hnext : tl.grant? (k + 1) n write = none) : ∃ (x : Tile) (o : List Out), tl.takePort c k u timed write a l n = (x, o) ∧
      x.grant? k n write = some ⟨n, write, k, u, timed, a, l⟩ ∧ x.grant? (k + 1) n write = some { g with at_ := k + 1 } := by
  have hfree := hone.erase hg
  obtain ⟨-, rfl, rfl, rfl⟩ := Tile.grant?_spec hg
  have hgrants := tl.displaced_grants c htimed
  have hstay : (tl.displaced c g).1.grant? (g.at_ + 1) g.bank g.write = none := by
    unfold Tile.grant?
    rw [hgrants]
    exact List.find?_eq_none.2 fun x hx => List.find?_eq_none.1 hnext x (List.mem_of_mem_erase hx)
  have hway := Tile.giveWay_once 7 hstay
  refine ⟨((tl.displaced c g).1.granted { g with at_ := g.at_ + 1 }).granted ⟨g.bank, g.write, g.at_, u, timed, a, l⟩, (tl.displaced c g).2,
    ?_, ?_, ?_⟩
  · unfold Tile.takePort
    rw [hg]
    dsimp only
    rw [hway]
    rfl
  · refine Tile.grant?_granted_same ?_ rfl rfl rfl
    rw [Tile.grant?_granted_other (Nat.succ_ne_self g.at_)]
    unfold Tile.grant?
    rw [hgrants, hfree]
  · rw [Tile.grant?_granted_other (by exact (Nat.succ_ne_self g.at_).symm)]
    exact Tile.grant?_granted_same hstay rfl rfl rfl

/-- A plain write waits while an atomic is in progress on its bytes (R165). -/
theorem Tile.plainWrite_held (hcls : u.cls ≠ .lnd) (h : tl.inAtomic c.cycle a l.length = true) :
    ∃ x, tl.plainWrite c c.cycle u timed a l = .error x ∧ tl.Waits x :=
  ⟨_, if_pos ⟨hcls, h⟩, Tile.waits_bankWaits ..⟩

/-- A landing's write is never refused (R160). -/
theorem Tile.plainWrite_landing (hcls : u.cls = .lnd) : ∃ p, tl.plainWrite c c.cycle u timed a l = .ok p := by
  unfold Tile.plainWrite
  rw [if_neg fun h => h.1 hcls]
  split
  · exact ⟨_, rfl⟩
  · exact ⟨_, if_pos hcls⟩

end

end Sys2Proof.Machine

namespace Sys2Proof.Proofs
open Sys2Proof.Machine

section
variable {b : Tile} {c : Ctx} {u : BankUnit} {timed write : Bool} {a len n : Nat} {l : List Byte} (hbank : b.banksOf a len = [n])
include hbank

/-- A free port is granted. -/
theorem ask_grants_free (hfree : b.grant? c.cycle n write = none) : ∃ x : Tile, b.ask c c.cycle u timed write a len l = .ok (x, []) ∧
    b.SameButBank x ∧ x.grant? c.cycle n write = some ⟨n, write, c.cycle, u, timed, a, l⟩ := by
  have hpresent : (b.present c).grant? c.cycle n write = none := (Tile.grant?_of_present c b n write (Nat.le_refl _)).trans hfree
  refine ⟨(b.present c).granted ⟨n, write, c.cycle, u, timed, a, l⟩, ?_, rfl, Tile.grant?_granted_same hpresent rfl rfl rfl⟩
  rw [Tile.ask_served hbank (by rw [Tile.grants, hpresent]), Tile.takePort_free hpresent]

variable {g : Grant} (hg : b.grant? c.cycle n write = some g)
include hg

/-- An access that does not come before the one that the port serves waits. -/
theorem ask_waits_for_earlier (hlater : ¬ b.prio c.cycle n u < b.prio c.cycle n g.by_) :
    ∃ x : Tile, b.ask c c.cycle u timed write a len l = .error x ∧ b.Waits x := by
  have hno : b.grants c.cycle n write u = false := by
    rw [Tile.grants, hg]
    exact decide_eq_false hlater
  exact Tile.askBanks_waits ⟨n, hbank ▸ List.mem_singleton_self n, hno⟩

/-- An access that comes before the one that the port serves makes it give way. -/
theorem ask_makes_later_give_way (hearlier : b.prio c.cycle n u < b.prio c.cycle n g.by_) (hone : b.OneGrant) (htimed : g.timed = false)
    (hnext : b.grant? (c.cycle + 1) n write = none) : ∃ (x : Tile) (o : List Out), b.ask c c.cycle u timed write a len l = .ok (x, o) ∧
      x.grant? c.cycle n write = some ⟨n, write, c.cycle, u, timed, a, l⟩ ∧
      x.grant? (c.cycle + 1) n write = some { g with at_ := c.cycle + 1 } := by
  have hpresent : (b.present c).grant? c.cycle n write = some g := (Tile.grant?_of_present c b n write (Nat.le_refl _)).trans hg
  have hpresent' := (Tile.grant?_of_present c b n write (Nat.le_succ _)).trans hnext
  obtain ⟨x, o, htake, hx⟩ := Tile.takePort_givesWay (c := c) (u := u) (timed := timed) (a := a) (l := l) hpresent (hone.present c) htimed hpresent'
  refine ⟨x, o, ?_, hx⟩
  rw [Tile.ask_served hbank ?_, htake]
  rw [Tile.grants, hpresent]
  exact decide_eq_true hearlier

end

/-- Settles O32: the order is that of the ranks, and each access is one of the lemmas above. -/
theorem bankPortOrder : Obligations.BankPortOrder := by
  unfold Obligations.BankPortOrder
  refine ⟨fun b k n u v hu hv => ?_, fun b c u timed write a len n l hbank => ⟨fun hfree => ?_, fun g hg => ⟨fun hlater => ?_, ?_⟩⟩,
    fun b c u timed a l => ⟨fun hcls hatom => ?_, fun hcls => ?_⟩⟩
  · exact rank_lt_iff_idxOf_lt (bankOrder_rises (b.owner k n)) hu hv
  · exact ask_grants_free hbank hfree
  · exact ask_waits_for_earlier hbank hg hlater
  · exact fun hearlier hone htimed hnext => ask_makes_later_give_way hbank hg hearlier hone htimed hnext
  · exact Tile.plainWrite_held hcls hatom
  · exact Tile.plainWrite_landing hcls

end Sys2Proof.Proofs
end

section
/-! FUSE and FWAIT (R190), and what their proofs share with the other commands of Table 3-8: an address operand that passes its check, a
command that waits. -/
namespace Sys2Proof.Machine

theorem Tile.InPad.addrOk {b : Tile} {v : Word} {al len : Nat} (h : b.InPad v al len) : b.addrOk v al len = true := by
  obtain ⟨halign, hlen⟩ := h
  simp [Tile.addrOk, halign, hlen]

theorem waitCmd_over {c : Ctx} {b : Tile} {x : Wait} (rd : BitVec 5) (h : b.waitOver c x = true) : waitCmd c rd x b = .done (b.result rd 0) [] :=
  if_pos h

theorem waitCmd_blocks {c : Ctx} {b : Tile} {x : Wait} (rd : BitVec 5) (h : b.waitOver c x = false) :
    waitCmd c rd x b = .done (b.block c rd x) [] :=
  if_neg (by simp [h])

theorem Tile.block_blocks (b : Tile) (c : Ctx) (rd : BitVec 5) (w : Wait) : b.Blocks (b.block c rd w) c rd w := rfl

/-! ### Fused slots -/

theorem Tile.fslot_setFslot_same (tl : Tile) (i : Nat) (x : Fused) : (tl.setFslot i x).fslot i = x := Tab.get_set_same _ _ _ _

theorem Tile.fslot_setFslot_ne (tl : Tile) {i j : Nat} (x : Fused) (h : i ≠ j) : (tl.setFslot i x).fslot j = tl.fslot j := Tab.get_set_ne _ _ _ h

/-- A fused slot taken to the descriptor at `a`, which it reads in the next cycle (R190). -/
def Fused.taken (k a : Nat) (x : Fused) : Fused :=
  { x with busy := true, step := 0, addr := a, desc := none, line := none, due := k + 2, sent := false }

section
variable {b : Tile} {c : Ctx} {w : BitVec 32} {rd ra imm : BitVec 5} (himm : imm.toNat < 4)
include himm

theorem fuseOp_eq (hpad : b.InPad (b.gr ra) 64 64) : fuseOp c w rd ra 0 imm b = .done (if (b.fslot imm.toNat).busy then b.result rd 2
    else (b.setFslot imm.toNat ((b.fslot imm.toNat).taken c.cycle (b.gr ra).toNat)).result rd 0) [] := by
  unfold fuseOp
  dsimp only
  rw [if_neg (by simp [himm]), if_neg (by simp [hpad.addrOk]), Nat.mod_eq_of_lt himm]
  exact (apply_ite (fun x => Act.done x []) _ _ _).symm

theorem fwaitOp_eq : fwaitOp c w rd 0 0 imm b = waitCmd c rd (.fused imm.toNat) b := by
  unfold fwaitOp
  rw [if_neg (by simp [himm]), Nat.mod_eq_of_lt himm]

end

end Sys2Proof.Machine

namespace Sys2Proof.Proofs
open Sys2Proof.Machine

section
variable {s : State} {t : Nat} {rd ra imm : BitVec 5} (himm : imm.toNat < 4) (hquiet : s.Quiet t)
include himm hquiet

/-- FUSE as an instruction: BUSY on a busy slot, else the slot is taken to its descriptor. -/
theorem fuse_ran (hfetch : s.Fetches t (encCmd 0x08 rd ra 0 imm)) (hpad : (s.at_ t).InPad ((s.at_ t).gr ra) 64 64) :
    exec (.fuse t rd ra 0 imm) s = .next (s.ran t (if ((s.at_ t).fslot imm.toNat).busy then (s.at_ t).result rd 2
      else ((s.at_ t).setFslot imm.toNat (((s.at_ t).fslot imm.toNat).taken s.cycle ((s.at_ t).gr ra).toNat)).result rd 0) []) :=
  congrArg _ (State.onClocked_issue_done s t _ (fun c tl => fuseOp c (encCmd 8 rd ra 0 imm) rd ra 0 imm tl) _ _ hfetch hquiet
    (fuseOp_eq himm hpad))

/-- FWAIT as an instruction. -/
theorem fwait_ran {x : Tile} (hfetch : s.Fetches t (encCmd 0x09 rd 0 0 imm))
    (hact : waitCmd (s.ctx t) rd (.fused imm.toNat) (s.at_ t) = .done x []) : exec (.fwait t rd 0 0 imm) s = .next (s.ran t x []) :=
  congrArg _ (State.onClocked_issue_done s t _ (fun c tl => fwaitOp c (encCmd 9 rd 0 0 imm) rd 0 0 imm tl) _ _ hfetch hquiet
    ((fwaitOp_eq himm).trans hact))

end

/-- Settles O13: FUSE on an idle and on a busy slot, FWAIT on an idle and on a busy slot. -/
theorem fusedSlotCommands : Obligations.FusedSlotCommands := by
  unfold Obligations.FusedSlotCommands
  intro s t rd ra imm himm hquiet
  refine ⟨fun hfetch hpad => ⟨fun hidle => ?_, fun hbusy => ?_⟩, fun hfetch => ⟨fun hidle => ?_, fun hbusy => ?_⟩⟩
  · have hran := fuse_ran himm hquiet hfetch hpad
    rw [hidle, if_neg Bool.false_ne_true] at hran
    refine ⟨_, _, hran, Tile.result_writes _ rd 0, rfl, fun k hk => Tile.fslot_setFslot_ne _ _ hk.symm, ?_⟩
    rw [Tile.fslot_setFslot_same]
    exact ⟨rfl, rfl, rfl, rfl⟩
  · have hran := fuse_ran himm hquiet hfetch hpad
    rw [hbusy, if_pos rfl] at hran
    exact ⟨_, hran, Tile.result_writes _ rd 2⟩
  · exact ⟨_, fwait_ran himm hquiet hfetch (waitCmd_over rd (by simp [Tile.waitOver, hidle])), Tile.result_writes _ rd 0⟩
  · refine ⟨_, fwait_ran himm hquiet hfetch (waitCmd_blocks rd (by simp [Tile.waitOver, hbusy])), Tile.block_blocks _ _ rd _, ?_⟩
    simp [Tile.waitWord, Tile.block, hfetch.running]

end Sys2Proof.Proofs
end

section
/-! Aborts of stream and fused slots (R100, R188, R193), and the wait of a sequencer that a change of the tile ends (R94). -/
namespace Sys2Proof.Machine

/-! ### The end of a wait -/

theorem Tile.settle_unblocked (c : Ctx) {tl : Tile} (h : tl.seq.blk = none) : tl.settle c = tl := by
  unfold Tile.settle
  rw [h]
  exact ite_self tl

/-- What ends with a wait is the sequencer's. -/
theorem Tile.settle_same (c : Ctx) (tl : Tile) : tl.settle c = { tl with seq := (tl.settle c).seq } := by
  unfold Tile.settle Tile.complete
  split
  · split
    · split <;> rfl
    · rfl
  · rfl

/-- A view of the tile that the sequencer does not enter is as before. -/
theorem Tile.settle_keeps {α : Type} (view : Tile → α) (h : ∀ (t : Tile) (q : Seq), view { t with seq := q } = view t) (c : Ctx) (tl : Tile) :
    view (tl.settle c) = view tl := by
  rw [Tile.settle_same]
  exact h tl _

@[simp] theorem Tile.settle_slots (c : Ctx) (tl : Tile) : (tl.settle c).slots = tl.slots := tl.settle_keeps Tile.slots (fun _ _ => rfl) c
@[simp] theorem Tile.settle_fused (c : Ctx) (tl : Tile) : (tl.settle c).fused = tl.fused := tl.settle_keeps Tile.fused (fun _ _ => rfl) c
@[simp] theorem Tile.settle_spad (c : Ctx) (tl : Tile) : (tl.settle c).spad = tl.spad := tl.settle_keeps Tile.spad (fun _ _ => rfl) c
@[simp] theorem Tile.settle_regs (c : Ctx) (tl : Tile) : (tl.settle c).regs = tl.regs := tl.settle_keeps Tile.regs (fun _ _ => rfl) c
@[simp] theorem Tile.settle_slot (c : Ctx) (tl : Tile) (k : Nat) : (tl.settle c).slot k = tl.slot k :=
  tl.settle_keeps (fun t => t.slot k) (fun _ _ => rfl) c
@[simp] theorem Tile.settle_fslot (c : Ctx) (tl : Tile) (f : Nat) : (tl.settle c).fslot f = tl.fslot f :=
  tl.settle_keeps (fun t => t.fslot f) (fun _ _ => rfl) c
@[simp] theorem Tile.settle_rd (c : Ctx) (tl : Tile) (f : Fld) (j : Nat) : (tl.settle c).rd f j = tl.rd f j :=
  tl.settle_keeps (fun t => t.rd f j) (fun _ _ => rfl) c

/-! ### The record of an abort (R188) -/

/-- The cause that an abort leaves pending (Table 3-11). -/
def abortCause (c : Ctx) (slot reason : Nat) : Pend := ⟨0x12, BitVec.ofNat 64 (slot + reason * 256), c.cycle⟩

/-- The status bits and TIL_STREAM_ABORT after an abort. -/
def RegFile.abortRecorded (c : Ctx) (slot reason ip : Nat) (r : RegFile) : RegFile :=
  let r1 := if slot < 8 then r.hwSet F.TIL_STREAM_STATUS.again_count F.TIL_STREAM_STATUS.slot_abort 0 0 c.cycle (2 ^ slot)
    else r.hwSet F.TIL_STREAM_STATUS.again_count F.TIL_STREAM_STATUS.fused_abort 0 0 c.cycle (2 ^ (slot - 8))
  ((((r1.wr F.TIL_STREAM_ABORT.since_lo 0 0 c.sidereal).wr F.TIL_STREAM_ABORT.reason 0 0 reason).wr F.TIL_STREAM_ABORT.ip 0 0 ip).wr
    F.TIL_STREAM_ABORT.slot 0 0 slot).hwSet F.TIL_SEQ_STATUS.again_count F.TIL_SEQ_STATUS.stream_abort 0 0 c.cycle 1

section
variable (c : Ctx) (slot reason ip : Nat)

theorem Tile.recordAbort_eq (tl : Tile) : tl.recordAbort c slot reason ip = ({ tl with
    regs := tl.regs.abortRecorded c slot reason ip, seq := { tl.seq with pend := tl.seq.pend ++ [abortCause c slot reason] } },
    [.record 0x06 3 slot 0 (streamAbortWord c slot reason ip) 0 0 0]) := by
  by_cases h : slot < 8 <;> simp only [Tile.recordAbort, RegFile.abortRecorded, h, if_true, if_false, Tile.flag, Tile.wr, Tile.seqFlag, Tile.raise,
    abortCause]

theorem RegFile.rd_abortRecorded_reason (r : RegFile) (h : reason < 256) :
    (r.abortRecorded c slot reason ip).rd F.TIL_STREAM_ABORT.reason 0 0 = reason := by
  unfold RegFile.abortRecorded
  rw [RegFile.rd_hwSet_ne _ _ _ (by decide) (by decide), RegFile.rd_wr_ne _ _ (by decide), RegFile.rd_wr_ne _ _ (by decide),
    RegFile.rd_wr_same]
  exact Nat.mod_eq_of_lt h

theorem RegFile.rd_abortRecorded_slot (r : RegFile) (h : slot < 16) :
    (r.abortRecorded c slot reason ip).rd F.TIL_STREAM_ABORT.slot 0 0 = slot := by
  unfold RegFile.abortRecorded
  rw [RegFile.rd_hwSet_ne _ _ _ (by decide) (by decide), RegFile.rd_wr_same]
  exact Nat.mod_eq_of_lt h

theorem RegFile.rd_abortRecorded_status (r : RegFile) :
    (r.abortRecorded c slot reason ip).rd F.TIL_SEQ_STATUS.stream_abort 0 0 = 1 := by
  unfold RegFile.abortRecorded
  rw [RegFile.rd_hwSet_same _ _ _ _ _ (by decide)]
  exact Nat.or_mod_two_eq_one.2 (.inr rfl)

theorem RegFile.rd_abortRecorded_bit (r : RegFile) (h : slot < 8) :
    bitOf ((r.abortRecorded c slot reason ip).rd F.TIL_STREAM_STATUS.slot_abort 0 0) slot = true := by
  unfold RegFile.abortRecorded
  rw [RegFile.rd_hwSet_ne _ _ _ (by decide) (by decide), RegFile.rd_wr_ne _ _ (by decide), RegFile.rd_wr_ne _ _ (by decide),
    RegFile.rd_wr_ne _ _ (by decide), RegFile.rd_wr_ne _ _ (by decide), if_pos h, RegFile.rd_hwSet_same _ _ _ _ _ (by decide)]
  have hbit : ((r.rd F.TIL_STREAM_STATUS.slot_abort 0 0 ||| 2 ^ slot) % 2 ^ 8).testBit slot = true := by
    rw [Nat.testBit_mod_two_pow, decide_eq_true h, Nat.testBit_or, Nat.testBit_two_pow_self, Bool.or_true]
    rfl
  rw [Nat.testBit_eq_decide_div_mod_eq, decide_eq_true_eq] at hbit
  exact beq_iff_eq.2 hbit

end

/-! ### Aborts of a stream slot that no fused slot holds (R188) -/

theorem Tile.onlySlot_setSlot (b : Tile) (k : Nat) (sl : Slot) : b.OnlySlot (b.setSlot k sl) k sl :=
  ⟨Tile.slot_setSlot_same b k sl, fun _ hj => Tile.slot_setSlot_ne b sl hj.symm, rfl⟩

theorem Tile.OnlySlot.refl (b : Tile) (k : Nat) : b.OnlySlot b k (b.slot k) := ⟨rfl, fun _ _ => rfl, rfl⟩

theorem Tile.OnlySlot.trans {a b x : Tile} {k : Nat} {sl sl' : Slot} (h : a.OnlySlot b k sl) (h' : b.OnlySlot x k sl') : a.OnlySlot x k sl' := by
  obtain ⟨-, hother, hsame⟩ := h
  obtain ⟨hslot, hother', hsame'⟩ := h'
  exact ⟨hslot, fun j hj => (hother' j hj).trans (hother j hj), by rw [hsame', hsame]⟩

theorem Tile.OnlySlot.aborts {c : Ctx} {b z x : Tile} {k reason : Nat} {sl : Slot} {outs : List Out} (hz : b.OnlySlot z k sl) (hk : k < 8)
    (hreason : reason < 256) (hheld : sl.heldBy = none) (hx : z.abortSlot c k reason = (x, outs)) : b.Aborts x c k reason outs := by
  unfold Tile.abortSlot at hx
  dsimp only at hx
  obtain ⟨hslot, hother, hsame⟩ := hz.trans (Tile.onlySlot_setSlot z k (z.slot k).dropped)
  generalize hy : z.setSlot k (z.slot k).dropped = y at hx hslot hother hsame
  rw [hz.1, hheld, Tile.recordAbort_eq] at hx
  obtain ⟨rfl, rfl⟩ := Prod.mk.inj hx
  refine ⟨_, rfl, ?_, congrArg Slot.st hslot, congrArg Slot.prog hslot, congrArg Slot.buf hslot, hother,
    RegFile.rd_abortRecorded_reason _ _ _ _ _ hreason, RegFile.rd_abortRecorded_slot _ _ _ _ _ (by omega),
    RegFile.rd_abortRecorded_status .., RegFile.rd_abortRecorded_bit _ _ _ _ _ hk, _, rfl⟩
  rw [hsame]
  rfl

/-! ### Aborts of a fused slot (R193) -/

/-- A slot that fused slot `f` has released. -/
def Slot.released (f : Nat) (sl : Slot) : Slot := if sl.heldBy = some f then { sl with heldBy := none } else sl

theorem Tile.slot_unhold (f k : Nat) (tl : Tile) : (tl.unhold f).slot k = (tl.slot k).released f :=
  Tab.get_mapVals tl.slots (fun _ => Slot.released f) k .reset rfl

theorem Slot.heldBy_released_ne (f : Nat) (sl : Slot) : (sl.released f).heldBy ≠ some f := by
  unfold Slot.released
  split
  · exact nofun
  · next h => exact h

theorem Slot.st_released (f : Nat) (sl : Slot) : (sl.released f).st = sl.st := by
  unfold Slot.released
  split <;> rfl

theorem Slot.prog_released (f : Nat) (sl : Slot) : (sl.released f).prog = sl.prog := by
  unfold Slot.released
  split <;> rfl

theorem Slot.released_of_free {f : Nat} {sl : Slot} (h : sl.heldBy = none) : sl.released f = sl := if_neg (by simp [h])

/-- The tile whose fused slot `f` has aborted, before a wait for that ends. -/
def Tile.fusedAborted (c : Ctx) (f reason : Nat) (tl : Tile) : Tile :=
  { (tl.setFslot f (tl.fslot f).idleNow).unhold f with
    sends := tl.sends.filter (fun y => y.who != Sender.fused f)
    refusing := tl.refusing.filter (fun y => y.2.1 != Sender.fused f)
    regs := tl.regs.abortRecorded c (8 + f) reason (tl.fslot f).step
    seq := { tl.seq with pend := tl.seq.pend ++ [abortCause c (8 + f) reason] } }

theorem Tile.abortFused_eq (c : Ctx) (f reason : Nat) (tl : Tile) : tl.abortFused c f reason =
    ((tl.fusedAborted c f reason).settle c, [.record 0x06 3 (8 + f) 0 (streamAbortWord c (8 + f) reason (tl.fslot f).step) 0 0 0]) := by
  unfold Tile.abortFused
  dsimp only
  rw [Tile.recordAbort_eq]
  rfl

section
variable (c : Ctx) (f reason : Nat) (tl : Tile)

theorem Tile.fusedAborted_slot (k : Nat) : (tl.fusedAborted c f reason).slot k = (tl.slot k).released f := Tile.slot_unhold f k _

theorem Tile.fusedAborted_fslot : (tl.fusedAborted c f reason).fslot f = (tl.fslot f).idleNow := tl.fslot_setFslot_same f _

theorem Tile.rd_fusedAborted (hf : f < 4) (hreason : reason < 256) :
    (tl.fusedAborted c f reason).rd F.TIL_STREAM_ABORT.reason 0 = reason ∧
    (tl.fusedAborted c f reason).rd F.TIL_STREAM_ABORT.slot 0 = 8 + f :=
  ⟨RegFile.rd_abortRecorded_reason _ _ _ _ _ hreason, RegFile.rd_abortRecorded_slot _ _ _ _ _ (by omega)⟩

end

end Sys2Proof.Machine
end

section
/-! SARM, SREARM, SSTOP and SWAIT (R171 to R175, R192, R193). -/
namespace Sys2Proof.Machine

/-! ### A sequencer at its boundary waits for nothing, whatever its fetch makes give way -/

theorem Tile.delayed_unblocked (c : Ctx) (k : Nat) (u : BankUnit) (write timed : Bool) {tl : Tile} (h : tl.seq.blk = none) :
    (tl.delayed c k u write timed).1.seq.blk = none := by
  cases u with
  | slot s =>
    unfold Tile.delayed
    dsimp only
    split
    · rfl
    · exact h
  | load =>
    unfold Tile.delayed
    dsimp only
    split <;> exact h
  | _ => exact h

theorem Tile.bankWait_seq (k b : Nat) (w : Bool) (u : BankUnit) (tl : Tile) : (tl.bankWait k b w u).seq = tl.seq := by
  rw [(Tile.bankWait_waits k b w u tl).1]

theorem Tile.giveWay_unblocked (c : Ctx) (n : Nat) (g : Grant) {tl : Tile} (h : tl.seq.blk = none) : (tl.giveWay c n g).1.seq.blk = none := by
  induction n generalizing g tl with
  | zero => exact h
  | succ n ih =>
    unfold Tile.giveWay
    dsimp only
    have hmoved := fun K : BankSt => Tile.delayed_unblocked c g.at_ g.by_ g.write g.timed
      (tl := (tl.bankWait g.at_ g.bank g.write g.by_).setBank K) (by rw [Tile.setBank, Tile.bankWait_seq, h])
    split
    · exact hmoved _
    · split
      · exact ih _ (hmoved _)
      · exact ih _ (hmoved _)

theorem Tile.takePort_unblocked (c : Ctx) (k : Nat) (u : BankUnit) (timed write : Bool) (a : Nat) (l : List Byte) (b : Nat) {tl : Tile}
    (h : tl.seq.blk = none) : (tl.takePort c k u timed write a l b).1.seq.blk = none := by
  unfold Tile.takePort
  split
  · exact Tile.giveWay_unblocked c 8 _ h
  · exact h

theorem Tile.ask_unblocked {c : Ctx} {k : Nat} {u : BankUnit} {timed write : Bool} {a n : Nat} {l : List Byte} {tl : Tile}
    {p : Tile × List Out} (h : tl.seq.blk = none) (hask : tl.ask c k u timed write a n l = .ok p) : p.1.seq.blk = none := by
  unfold Tile.ask Tile.askBanks at hask
  dsimp only at hask
  split at hask
  · rw [← Except.ok.inj hask]
    exact List.foldlRecOn (motive := fun q : Tile × List Out => q.1.seq.blk = none) _ _ h fun q hq b _ =>
      Tile.takePort_unblocked c k u timed write a l b hq
  · cases hask

theorem Tile.fetchLine_unblocked {c : Ctx} {tl : Tile} {p : Tile × List Out} (h : tl.seq.blk = none) (hfetch : tl.fetchLine c = .ok p) :
    p.1.seq.blk = none := by
  unfold Tile.fetchLine at hfetch
  dsimp only at hfetch
  split at hfetch
  · rw [← Except.ok.inj hfetch]
    exact h
  · split at hfetch
    · rw [← Except.ok.inj hfetch]
      exact h
    · split at hfetch
      · next hask =>
        rw [← Except.ok.inj hfetch]
        exact (Tile.ask_unblocked h hask :)
      · cases hfetch

/-- An instruction that is fetched finds its sequencer waiting for nothing. -/
theorem State.Fetches.unblocked {s : State} {t : Nat} {w : BitVec 32} (h : s.Fetches t w) : (s.at_ t).seq.blk = none := by
  obtain ⟨⟨-, -, hboundary⟩, -, -, hok, -⟩ := h
  simp only [Tile.atBoundary, Bool.and_eq_true, beq_iff_eq] at hboundary
  obtain ⟨⟨-, hblk⟩, -⟩ := hboundary
  cases hfetch : s.fetched t with
  | error y =>
    rw [hfetch] at hok
    cases hok
  | ok p =>
    rw [State.at_, hfetch]
    exact Tile.fetchLine_unblocked hblk hfetch

/-! ### Arming (R171, R173, R192) -/

/-- A slot that a fused step armed, given back to the sequencer. -/
def Slot.givenBack (sl : Slot) : Slot := { sl with st := .idle, heldBy := none, baseAt := none }

/-- The tile in which a fused slot's arm step comes after the sequencer's (R192). -/
def Tile.passedOver (k f step : Nat) (b : Tile) : Tile := (b.setSlot k (b.slot k).givenBack).setFslot f { b.fslot f with step := step }

theorem Tile.slot_passedOver (k f step : Nat) (b : Tile) : (b.passedOver k f step).slot k = (b.slot k).givenBack := Tile.slot_setSlot_same b k _

section
variable {c : Ctx} {k f : Nat} {b : Tile}

/-- A slot that no fused step has armed in this cycle is as the sequencer finds it. -/
theorem Tile.yieldArm_armed_before (h : ¬ (b.slot k).justArmed c.cycle) : b.yieldArm c k false = (b, []) := by
  unfold Tile.yieldArm
  dsimp only
  split
  · rfl
  · next f hheld =>
    refine if_neg fun hnow => h ⟨by simp [hheld], ?_⟩
    simpa [and_assoc] using hnow

theorem Tile.yieldArm_rearmed_before (h : ¬ (b.slot k).justRearmed c.cycle) : b.yieldArm c k true = (b, []) := by
  unfold Tile.yieldArm
  dsimp only
  split
  · rfl
  · next f hheld =>
    refine if_neg fun hnow => h ⟨by simp [hheld], ?_⟩
    simpa using hnow

theorem Slot.not_justArmed_of_free {sl : Slot} (k : Nat) (h : sl.heldBy = none) : ¬ sl.justArmed k := fun ⟨hheld, _⟩ => hheld h

theorem Slot.not_justRearmed_of_free {sl : Slot} (k : Nat) (h : sl.heldBy = none) : ¬ sl.justRearmed k := fun ⟨hheld, _⟩ => hheld h

/-- A fused arm step of this very cycle comes after the sequencer's SARM, and finds the slot taken (R192). -/
theorem Tile.yieldArm_now (hjust : (b.slot k).justArmed c.cycle) (hheld : (b.slot k).heldBy = some f) :
    ∃ step, b.yieldArm c k false = (b.passedOver k f step).abortFused c f 7 := by
  obtain ⟨-, hst, hgot, hdue⟩ := hjust
  unfold Tile.yieldArm
  dsimp only
  rw [hheld]
  exact ⟨_, if_pos (by simp [hst, hgot, hdue])⟩

end

section
variable {b y : Tile} {o : List Out} {c : Ctx} {w : BitVec 32} {rd ra rb imm : BitVec 5} (himm : imm.toNat < 8)
include himm

theorem sarmOp_eq (hprog : b.InPad (b.gr ra) 64 64) (hbase : b.InPad (b.gr rb) 64 64) (hyield : b.yieldArm c imm.toNat false = (y, o)) :
    sarmOp c w rd ra rb imm b = .done (if (y.slot imm.toNat).st.armed ∨ (y.slot imm.toNat).heldBy.isSome then y.result rd 2
      else (y.arm c imm.toNat (b.gr ra).toNat (b.gr rb).toNat none).result rd 0) o := by
  unfold sarmOp
  dsimp only
  rw [if_neg (by omega), if_neg (by simp [hprog.addrOk]), if_neg (by simp [hbase.addrOk]), Nat.mod_eq_of_lt himm, hyield]
  exact (apply_ite (fun x => Act.done x o) _ _ _).symm

theorem srearmOp_eq (hbase : b.InPad (b.gr rb) 64 64) (hyield : b.yieldArm c imm.toNat true = (y, o)) :
    srearmOp c w rd 0 rb imm b = .done (if (y.slot imm.toNat).st ≠ .parked ∨ (y.slot imm.toNat).heldBy.isSome then y.result rd 2
      else (y.rearm c imm.toNat (b.gr rb).toNat none).result rd 0) o := by
  unfold srearmOp
  dsimp only
  rw [if_neg (by simp [himm]), if_neg (by simp [hbase.addrOk]), Nat.mod_eq_of_lt himm, hyield]
  exact (apply_ite (fun x => Act.done x o) _ _ _).symm

theorem sstopOp_eq : sstopOp c w rd 0 0 imm b = .done (if (b.slot imm.toNat).st = .idle then b.result rd 0
    else (b.stopSlot c imm.toNat).block c rd (.streamStop imm.toNat)) [] := by
  unfold sstopOp
  dsimp only
  rw [if_neg (by simp [himm]), Nat.mod_eq_of_lt himm]
  exact (apply_ite (fun x => Act.done x []) _ _ _).symm

theorem swaitOp_eq : swaitOp c w rd 0 0 imm b = waitCmd c rd (.stream imm.toNat) b := by
  unfold swaitOp
  rw [if_neg (by simp [himm]), Nat.mod_eq_of_lt himm]

end

/-! ### Stopping (R174, R193) -/

/-- A slot that SSTOP stops in cycle `k`. -/
def Slot.stopsAt (k : Nat) (sl : Slot) : Slot := { sl.stopped .stopping with due := k + 1 }

theorem Tile.stopSlot_free {c : Ctx} {k : Nat} {b : Tile} (h : (b.slot k).heldBy = none) :
    b.stopSlot c k = b.setSlot k ((b.slot k).stopsAt c.cycle) := by
  unfold Tile.stopSlot
  dsimp only
  rw [h]
  rfl

/-- SSTOP of a slot that a fused slot holds ends the fused slot (R193). -/
theorem Tile.stopSlot_held {c : Ctx} {k f : Nat} {b x : Tile} (h : (b.slot k).heldBy = some f) (hx : b.stopSlot c k = x) :
    x.seq = b.seq ∧ x.spad = b.spad ∧ (x.slot k).st = .stopping ∧ (x.fslot f).busy = false ∧ x.rd F.TIL_STREAM_STATUS.fused_stopped 0 = 1 ∧
    ∀ j, (x.slot j).heldBy ≠ some f := by
  unfold Tile.stopSlot at hx
  dsimp only at hx
  rw [h] at hx
  rw [← hx]
  refine ⟨rfl, rfl, ?_, ?_, ?_, fun j hj => ?_⟩
  · refine (congrArg Slot.st (Tile.slot_unhold f k _)).trans ((Slot.st_released f _).trans ?_)
    exact congrArg Slot.st (Tile.slot_setSlot_same ..)
  · exact congrArg Fused.busy (Tile.fslot_setFslot_same ..)
  · refine (RegFile.rd_hwSet_same _ _ _ _ _ (by decide)).trans ?_
    exact Nat.or_mod_two_eq_one.2 (.inr rfl)
  · exact Slot.heldBy_released_ne f _ ((congrArg Slot.heldBy (Tile.slot_unhold f j _)).symm.trans hj)

/-- What the completion of the instruction in progress leaves of the sequencer. -/
theorem Tile.complete_spec (c : Ctx) (rd : BitVec 5) (v : Word) (tl : Tile) : (tl.complete c rd v).seq.blk = none ∧
    (tl.complete c rd v).seq.pc = tl.seq.pc + 4 ∧ (tl.complete c rd v).gr rd = (if rd = 0 then 0 else v) ∧
    ∀ r, r ≠ rd → (tl.complete c rd v).gr r = tl.gr r := by
  have hgr (r : BitVec 5) : (tl.complete c rd v).gr r = ((tl.seq.endWait c).put rd v).get r := rfl
  have hother := Seq.put_other (tl.seq.endWait c) rd v
  refine ⟨?_, ?_, ?_, fun r hr => ?_⟩
  · show ((tl.seq.endWait c).put rd v).blk = none
    rw [hother]
    rfl
  · show ((tl.seq.endWait c).put rd v).pc + 4 = tl.seq.pc + 4
    rw [hother]
    rfl
  · rw [hgr, Seq.get_put, if_pos rfl]
  · rw [hgr, Seq.get_put, if_neg hr]
    show _ = tl.seq.get r
    split
    · next h => rw [Seq.get, if_pos h]
    · rfl

/-- A stopping slot in which no write is in progress enters IDLE, and the SSTOP that waits for it completes (R174 step 4). -/
theorem Tile.stopEnds_eq {c : Ctx} {k : Nat} {b : Tile} (hrun : b.st = .running) (hst : (b.slot k).st = .stopping)
    (hdue : (b.slot k).due ≤ c.cycle) (hwrites : (b.slot k).writes = []) (hreqs : ∀ r ∈ (b.slot k).reqs, r.write = false)
    (hatoms : ∀ a ∈ b.bank.atoms, a.by_ ≠ .slot k) :
    ∃ q : Seq, b.stopEnds c k = ({ b.setSlot k (b.slot k).dropped with seq := q }, []) ∧
      ∀ rd, b.seq.blk = some ⟨.streamStop k, rd⟩ → q = (b.complete c rd 0).seq := by
  unfold Tile.stopEnds
  dsimp only
  rw [if_pos ⟨by simp [Tile.deaf, hrun], hst, hdue, hwrites, by simpa using hreqs, by simpa using hatoms⟩]
  have hblk : (b.setSlot k (b.slot k).dropped).seq.blk = b.seq.blk := rfl
  rw [hblk]
  split
  · next j rd hj =>
    split
    · next hjk =>
      refine ⟨_, rfl, fun rd' h => ?_⟩
      rw [hj] at h
      injection h with h
      injection h with _ h
      rw [h]
      rfl
    · next hjk =>
      refine ⟨_, congrArg (·, []) (Tile.settle_same c _), fun rd' h => absurd ?_ hjk⟩
      rw [hj] at h
      injection h with h
      injection h with h _
      injection h with h
      exact ⟨h, hrun⟩
  · next hnot => exact ⟨_, congrArg (·, []) (Tile.settle_same c _), fun rd h => absurd h (hnot k rd)⟩

end Sys2Proof.Machine

namespace Sys2Proof.Proofs
open Sys2Proof.Machine

section
variable {s : State} {t : Nat} {rd ra rb imm : BitVec 5} {y : Tile} {o : List Out} (himm : imm.toNat < 8) (hquiet : s.Quiet t)
include himm hquiet

section
variable (hfetch : s.Fetches t (encCmd 0x00 rd ra rb imm)) (hprog : (s.at_ t).InPad ((s.at_ t).gr ra) 64 64)
  (hbase : (s.at_ t).InPad ((s.at_ t).gr rb) 64 64)
include hfetch hprog hbase

/-- SARM as an instruction, on the tile that a fused arm step of this cycle leaves to it. -/
theorem sarm_ran (hyield : (s.at_ t).yieldArm (s.ctx t) imm.toNat false = (y, o)) : exec (.sarm t rd ra rb imm) s =
    .next (s.ran t (if (y.slot imm.toNat).st.armed ∨ (y.slot imm.toNat).heldBy.isSome then y.result rd 2
      else (y.arm (s.ctx t) imm.toNat ((s.at_ t).gr ra).toNat ((s.at_ t).gr rb).toNat none).result rd 0) o) :=
  congrArg _ (State.onClocked_issue_done s t _ (fun c tl => sarmOp c (encCmd 0 rd ra rb imm) rd ra rb imm tl) _ _ hfetch hquiet
    (sarmOp_eq himm hprog hbase hyield))

/-- SARM of a slot that is free and not armed. -/
theorem sarm_arms (hyield : (s.at_ t).yieldArm (s.ctx t) imm.toNat false = (y, o)) (hst : (y.slot imm.toNat).st.armed = false)
    (hheld : (y.slot imm.toNat).heldBy = none) : exec (.sarm t rd ra rb imm) s =
    .next (s.ran t ((y.arm (s.ctx t) imm.toNat ((s.at_ t).gr ra).toNat ((s.at_ t).gr rb).toNat none).result rd 0) o) := by
  rw [sarm_ran himm hquiet hfetch hprog hbase hyield, if_neg (by simp [hst, hheld])]

theorem sarm_spec :
    ((((s.at_ t).slot imm.toNat).st = .idle ∨ ((s.at_ t).slot imm.toNat).st = .stopping) → ((s.at_ t).slot imm.toNat).heldBy = none →
      ∃ x y : Tile, exec (.sarm t rd ra rb imm) s = .next (s.ran t x []) ∧ y.Writes x rd 0 ∧
        y = { s.at_ t with slots := y.slots } ∧ (∀ k, k ≠ imm.toNat → y.slot k = (s.at_ t).slot k) ∧
        (y.slot imm.toNat).st = .arming ∧ (y.slot imm.toNat).progAddr = ((s.at_ t).gr ra).toNat ∧
        (y.slot imm.toNat).baseAddr = ((s.at_ t).gr rb).toNat) ∧
    ((((s.at_ t).slot imm.toNat).st.armed = true ∨ ((s.at_ t).slot imm.toNat).heldBy ≠ none) →
      ¬ ((s.at_ t).slot imm.toNat).justArmed s.cycle →
      ∃ x : Tile, exec (.sarm t rd ra rb imm) s = .next (s.ran t x []) ∧ (s.at_ t).Writes x rd 2) ∧
    (∀ f, ((s.at_ t).slot imm.toNat).justArmed s.cycle → ((s.at_ t).slot imm.toNat).heldBy = some f → f < 4 →
      ∃ (x : Tile) (o : List Out), exec (.sarm t rd ra rb imm) s = .next (s.ran t x o) ∧ (x.slot imm.toNat).st = .arming ∧
        (x.slot imm.toNat).progAddr = ((s.at_ t).gr ra).toNat ∧ (x.slot imm.toNat).heldBy = none ∧ (x.fslot f).busy = false ∧
        x.rd F.TIL_STREAM_ABORT.reason 0 = 7 ∧ x.rd F.TIL_STREAM_ABORT.slot 0 = 8 + f ∧ x.gr rd = 0 ∧ x.seq.pc = (s.at_ t).seq.pc + 4) := by
  refine ⟨fun hst hheld => ?_, fun hbusy hbefore => ?_, fun f hjust hheld hf => ?_⟩
  · have harmed : ((s.at_ t).slot imm.toNat).st.armed = false := by
      obtain hst | hst := hst <;> rw [hst] <;> rfl
    obtain ⟨hslot, hother, honly⟩ := Tile.onlySlot_setSlot (s.at_ t) imm.toNat _
    refine ⟨_, _, sarm_arms himm hquiet hfetch hprog hbase (Tile.yieldArm_armed_before (Slot.not_justArmed_of_free _ hheld)) harmed hheld,
      Tile.result_writes _ rd 0, honly, hother, ?_⟩
    rw [Tile.arm, hslot]
    exact ⟨rfl, rfl, rfl⟩
  · have hran := sarm_ran himm hquiet hfetch hprog hbase (Tile.yieldArm_armed_before hbefore)
    rw [if_pos (hbusy.imp_right Option.isSome_iff_ne_none.2)] at hran
    exact ⟨_, hran, Tile.result_writes _ rd 2⟩
  · obtain ⟨step, hyield⟩ := Tile.yieldArm_now (c := s.ctx t) hjust hheld
    have hblk : (((s.at_ t).passedOver imm.toNat f step).fusedAborted (s.ctx t) f 7).seq.blk = none := hfetch.unblocked
    rw [Tile.abortFused_eq, Tile.settle_unblocked (s.ctx t) hblk] at hyield
    have hpc' : ((s.at_ t).passedOver imm.toNat f step).seq.pc = (s.at_ t).seq.pc := rfl
    have hslot := Tile.slot_passedOver imm.toNat f step (s.at_ t)
    generalize (s.at_ t).passedOver imm.toNat f step = z at hyield hslot hpc'
    have hidle : (z.fusedAborted (s.ctx t) f 7).slot imm.toNat = ((s.at_ t).slot imm.toNat).givenBack := by
      rw [Tile.fusedAborted_slot, hslot, Slot.released_of_free rfl]
    obtain ⟨hreason, habort⟩ := Tile.rd_fusedAborted (s.ctx t) f 7 z hf (by decide)
    obtain ⟨hrd, -, hpc, -, -⟩ := Tile.result_writes ((z.fusedAborted (s.ctx t) f 7).arm (s.ctx t) imm.toNat ((s.at_ t).gr ra).toNat
      ((s.at_ t).gr rb).toNat none) rd 0
    have harmed := Tile.slot_setSlot_same (z.fusedAborted (s.ctx t) f 7) imm.toNat
    refine ⟨_, _, sarm_arms himm hquiet hfetch hprog hbase hyield (by rw [hidle]; rfl) (by rw [hidle]; rfl), ?_, ?_, ?_, ?_,
      hreason, habort, hrd.trans (ite_self 0), hpc.trans (congrArg (· + 4) hpc')⟩
    · exact congrArg Slot.st (harmed _)
    · exact congrArg Slot.progAddr (harmed _)
    · exact congrArg Slot.heldBy (harmed _)
    · exact congrArg Fused.busy (Tile.fusedAborted_fslot (s.ctx t) f 7 z)

end

/-- SREARM as an instruction, on the tile that a fused arm step of this cycle leaves to it. -/
theorem srearm_ran (hfetch : s.Fetches t (encCmd 0x01 rd 0 rb imm)) (hbase : (s.at_ t).InPad ((s.at_ t).gr rb) 64 64)
    (hyield : (s.at_ t).yieldArm (s.ctx t) imm.toNat true = (y, o)) : exec (.srearm t rd 0 rb imm) s =
    .next (s.ran t (if (y.slot imm.toNat).st ≠ .parked ∨ (y.slot imm.toNat).heldBy.isSome then y.result rd 2
      else (y.rearm (s.ctx t) imm.toNat ((s.at_ t).gr rb).toNat none).result rd 0) o) :=
  congrArg _ (State.onClocked_issue_done s t _ (fun c tl => srearmOp c (encCmd 1 rd 0 rb imm) rd 0 rb imm tl) _ _ hfetch hquiet
    (srearmOp_eq himm hbase hyield))

/-- SSTOP as an instruction. -/
theorem sstop_ran (hfetch : s.Fetches t (encCmd 0x02 rd 0 0 imm)) : exec (.sstop t rd 0 0 imm) s =
    .next (s.ran t (if ((s.at_ t).slot imm.toNat).st = .idle then (s.at_ t).result rd 0
      else ((s.at_ t).stopSlot (s.ctx t) imm.toNat).block (s.ctx t) rd (.streamStop imm.toNat)) []) :=
  congrArg _ (State.onClocked_issue_done s t _ (fun c tl => sstopOp c (encCmd 2 rd 0 0 imm) rd 0 0 imm tl) _ _ hfetch hquiet (sstopOp_eq himm))

/-- SWAIT as an instruction. -/
theorem swait_ran {x : Tile} (hfetch : s.Fetches t (encCmd 0x03 rd 0 0 imm))
    (hact : waitCmd (s.ctx t) rd (.stream imm.toNat) (s.at_ t) = .done x []) : exec (.swait t rd 0 0 imm) s = .next (s.ran t x []) :=
  congrArg _ (State.onClocked_issue_done s t _ (fun c tl => swaitOp c (encCmd 3 rd 0 0 imm) rd 0 0 imm tl) _ _ hfetch hquiet
    ((swaitOp_eq himm).trans hact))

/-- SSTOP of a slot that no fused slot holds. -/
theorem sstop_free_spec (hfetch : s.Fetches t (encCmd 0x02 rd 0 0 imm)) (hbusy : ((s.at_ t).slot imm.toNat).st ≠ .idle)
    (hheld : ((s.at_ t).slot imm.toNat).heldBy = none) :
    ∃ x y : Tile, exec (.sstop t rd 0 0 imm) s = .next (s.ran t x []) ∧ y.Blocks x (s.ctx t) rd (.streamStop imm.toNat) ∧
      x.waitWord = 0x6 + imm.toNat * 2 ^ 4 ∧ y = { s.at_ t with slots := y.slots } ∧
      (∀ k, k ≠ imm.toNat → y.slot k = (s.at_ t).slot k) ∧ (y.slot imm.toNat).st = .stopping ∧
      (y.slot imm.toNat).buf = [] ∧ (y.slot imm.toNat).reqs.all (fun r => r.live = false) = true := by
  have hran := sstop_ran himm hquiet hfetch
  rw [if_neg hbusy, Tile.stopSlot_free hheld] at hran
  obtain ⟨hslot, hother, honly⟩ := Tile.onlySlot_setSlot (s.at_ t) imm.toNat (((s.at_ t).slot imm.toNat).stopsAt s.cycle)
  refine ⟨_, _, hran, Tile.block_blocks _ _ rd _, ?_, honly, hother, ?_⟩
  · simp [Tile.waitWord, Tile.block, Tile.setSlot, hfetch.running]
  · have hslot' : ((s.at_ t).setSlot imm.toNat (((s.at_ t).slot imm.toNat).stopsAt (s.ctx t).cycle)).slot imm.toNat = _ := hslot
    rw [hslot']
    exact ⟨rfl, rfl, by simp [Slot.stopsAt, Slot.stopped]⟩

/-- SSTOP of a slot that a fused slot holds ends the fused slot (R193). -/
theorem sstop_held_spec {f : Nat} (hfetch : s.Fetches t (encCmd 0x02 rd 0 0 imm)) (hbusy : ((s.at_ t).slot imm.toNat).st ≠ .idle)
    (hheld : ((s.at_ t).slot imm.toNat).heldBy = some f) :
    ∃ x : Tile, exec (.sstop t rd 0 0 imm) s = .next (s.ran t x []) ∧ x.seq.blk = some ⟨.streamStop imm.toNat, rd⟩ ∧
      (x.slot imm.toNat).st = .stopping ∧ (x.fslot f).busy = false ∧ x.rd F.TIL_STREAM_STATUS.fused_stopped 0 = 1 ∧
      (∀ k, (x.slot k).heldBy ≠ some f) ∧ x.seq.g = (s.at_ t).seq.g ∧ x.seq.pc = (s.at_ t).seq.pc ∧ x.spad = (s.at_ t).spad := by
  have hran := sstop_ran himm hquiet hfetch
  rw [if_neg hbusy] at hran
  generalize hx : (s.at_ t).stopSlot (s.ctx t) imm.toNat = y at hran
  obtain ⟨hseq, hspad, hst, hfused, hflag, hreleased⟩ := Tile.stopSlot_held hheld hx
  exact ⟨_, hran, rfl, hst, hfused, hflag, hreleased, (congrArg Seq.g hseq :), (congrArg Seq.pc hseq :), hspad⟩

end

/-- SSTOP_IDLE of a stopping slot in which no write is in progress (R174 step 4). -/
theorem sstopIdle_spec {s : State} {t k : Nat} (ht : t < 2304) (hg : s.gatedNow = false) (hst : ((s.seen t).slot k).st = .stopping)
    (hdue : ((s.seen t).slot k).due ≤ s.cycle) (hwrites : ((s.seen t).slot k).writes = []) (hreqs : ∀ r ∈ ((s.seen t).slot k).reqs, r.write = false)
    (hatoms : ∀ a ∈ (s.seen t).bank.atoms, a.by_ ≠ .slot k) (hrun : (s.seen t).st = .running) :
    ∃ x : Tile, exec (.sstopIdle t k) s = .next (s.withTile t x []) ∧ (x.slot k).st = .idle ∧ (x.slot k).prog = [] ∧
      (x.slot k).base = [] ∧ (∀ j, j ≠ k → x.slot j = (s.seen t).slot j) ∧ x.spad = (s.seen t).spad ∧
      (∀ rd, (s.seen t).seq.blk = some ⟨.streamStop k, rd⟩ →
        x.seq.blk = none ∧ x.seq.pc = (s.seen t).seq.pc + 4 ∧ x.gr rd = 0 ∧ ∀ r, r ≠ rd → x.gr r = (s.seen t).gr r) := by
  obtain ⟨q, hends, hdone⟩ := Tile.stopEnds_eq (c := s.ctx t) hrun hst hdue hwrites hreqs hatoms
  obtain ⟨hslot, hother, -⟩ := Tile.onlySlot_setSlot (s.seen t) k ((s.seen t).slot k).dropped
  refine ⟨_, exec_clocked ht hg rfl hends, congrArg Slot.st hslot, congrArg Slot.prog hslot, congrArg Slot.base hslot, hother, rfl,
    fun rd hblk => ?_⟩
  rw [hdone rd hblk]
  obtain ⟨hblk, hpc, hrd, hgr⟩ := Tile.complete_spec (s.ctx t) rd 0 (s.seen t)
  exact ⟨hblk, hpc, hrd.trans (ite_self 0), hgr⟩

/-- Settles O12: SARM, SREARM, SSTOP and SWAIT on each state of their slot, and the end of a stop. -/
theorem streamSlotCommands : Obligations.StreamSlotCommands := by
  unfold Obligations.StreamSlotCommands
  refine ⟨fun s t rd ra rb imm himm hquiet => ⟨fun hfetch hprog hbase => sarm_spec himm hquiet hfetch hprog hbase, ?rearm, ?stop, ?wait⟩,
    fun s t k ht hg hst hdue hwrites hreqs hatoms hrun => sstopIdle_spec ht hg hst hdue hwrites hreqs hatoms hrun⟩
  case rearm =>
    refine fun hfetch hbase => ⟨fun hst hheld => ?_, fun hbusy hbefore => ?_⟩
    · have hran := srearm_ran himm hquiet hfetch hbase (Tile.yieldArm_rearmed_before (Slot.not_justRearmed_of_free _ hheld))
      rw [if_neg (by simp [hst, hheld])] at hran
      obtain ⟨hslot, hother, honly⟩ := Tile.onlySlot_setSlot (s.at_ t) imm.toNat _
      refine ⟨_, _, hran, Tile.result_writes _ rd 0, honly, hother, ?_⟩
      rw [Tile.rearm, hslot]
      exact ⟨rfl, rfl, rfl, rfl, rfl⟩
    · have hran := srearm_ran himm hquiet hfetch hbase (Tile.yieldArm_rearmed_before hbefore)
      rw [if_pos (hbusy.imp_right Option.isSome_iff_ne_none.2)] at hran
      exact ⟨_, hran, Tile.result_writes _ rd 2⟩
  case stop =>
    refine fun hfetch => ⟨fun hidle => ?_, fun hbusy hheld => sstop_free_spec himm hquiet hfetch hbusy hheld,
      fun f hbusy hheld => sstop_held_spec himm hquiet hfetch hbusy hheld⟩
    have hran := sstop_ran himm hquiet hfetch
    rw [if_pos hidle] at hran
    exact ⟨_, hran, Tile.result_writes _ rd 0⟩
  case wait =>
    refine fun hfetch => ⟨fun hrest => ?_, fun hbusy => ?_⟩
    · have hover : (s.at_ t).waitOver (s.ctx t) (.stream imm.toNat) = true := by
        obtain hst | hst := hrest <;> simp [Tile.waitOver, hst, SlotState.atRest]
      exact ⟨_, swait_ran himm hquiet hfetch (waitCmd_over rd hover), Tile.result_writes _ rd 0⟩
    · have hwaits : (s.at_ t).waitOver (s.ctx t) (.stream imm.toNat) = false := by
        obtain ⟨hidle, hparked⟩ := hbusy
        cases hst : ((s.at_ t).slot imm.toNat).st <;> simp_all [Tile.waitOver, SlotState.atRest]
      refine ⟨_, swait_ran himm hquiet hfetch (waitCmd_blocks rd hwaits), Tile.block_blocks _ _ rd _, ?_⟩
      simp [Tile.waitWord, Tile.block, hfetch.running]

end Sys2Proof.Proofs
end

section
/-! Stream programs: their validation, and each instruction at work (R171, R172, R178, R182 to R188). -/
namespace Sys2Proof.Machine

/-! ### A slot at an instruction -/

section
variable {b : Tile} {c : Ctx} {k : Nat} {i : SInstr} (hat : b.SlotAt c k i)
include hat

theorem Tile.SlotAt.running : b.st = .running := hat.1

theorem Tile.SlotAt.ready : (b.slot k).ready c = true := by
  obtain ⟨-, hrun, hended, hdue, -, -⟩ := hat
  simp [Slot.ready, hrun, hended, hdue]

theorem Tile.SlotAt.instr : (b.slot k).prog[(b.slot k).ip]? = some i := by
  obtain ⟨-, -, -, -, -, hinstr⟩ := hat
  exact hinstr

/-- In a timed section the instruction is not late. -/
theorem Tile.SlotAt.in_time : ¬((b.slot k).timed = true ∧ (b.slot k).due < c.cycle) := by
  obtain ⟨-, -, -, -, htimed, -⟩ := hat
  exact fun ⟨ht, hlate⟩ => Nat.lt_irrefl _ ((htimed ht) ▸ hlate)

theorem Tile.SlotAt.acts : ¬(b.st ≠ .running ∨ (b.slot k).ready c = false) := by
  simp [hat.running, hat.ready]

/-- An instruction in time has its effect. -/
theorem Tile.streamStep_at {f : Slot → SInstr → Option (Tile × List Out)} {r : Tile × List Out} (h : f (b.slot k) i = some r) :
    b.streamStep c k f = r := by
  unfold Tile.streamStep
  dsimp only
  rw [if_neg hat.acts, hat.instr]
  dsimp only
  rw [h]
  exact if_neg hat.in_time

end

/-! ### Counters (R166, R186) -/

theorem Tile.rd_ctrAdd (c : Ctx) (j n : Nat) (tl : Tile) (i : Nat) : (tl.ctrAdd c j n).rd F.TIL_ARRIVAL.count i =
    if j = i then (tl.rd F.TIL_ARRIVAL.count j + n) % 2 ^ 32 else tl.rd F.TIL_ARRIVAL.count i := by
  refine (Tile.rd_wr tl F.TIL_ARRIVAL.count F.TIL_ARRIVAL.count j i _).trans ?_
  simp only [true_and]
  rfl

/-- A counter has reached a target where it is less than half its range ahead (R92). -/
theorem reached_iff (c v : Nat) : reached c (v % 2 ^ 32) = true ↔ ((c : Int) - (v : Int) % 2 ^ 32) % 2 ^ 32 < 2 ^ 31 := by
  unfold reached
  rw [decide_eq_true_iff]
  omega

/-! ### Arming (R171, R172, R187) -/

section
variable {b x : Tile} {c : Ctx} {k : Nat} {sl : Slot} {o : List Out} (hst : sl.st = .arming) (hrun : b.st = .running) (hbase : sl.base ≠ [])
  (hdue : sl.due ≤ c.cycle) (hsl : sl = b.slot k)
include hst hrun hbase hdue hsl

/-- An accepted program begins its pass in the cycle after its validation (R171, R179). -/
theorem Tile.streamValidate_ok {p : List SInstr} (h : validateProg sl.progWords 0 false none none = .ok p) :
    b.streamValidate c k = (b.setSlot k ({ sl with prog := p, got := [] }.startPass (sl.due + 1)), []) := by
  unfold Tile.streamValidate
  dsimp only
  rw [← hsl, if_neg (by simp [hst, hrun, hbase, hdue]), h]

/-- A refused program aborts its slot with BAD_PROGRAM (R187). -/
theorem Tile.streamValidate_error (hk : k < 8) (hheld : sl.heldBy = none) {n : Nat}
    (h : validateProg sl.progWords 0 false none none = .error n) (hx : b.streamValidate c k = (x, o)) : b.Aborts x c k 1 o := by
  unfold Tile.streamValidate at hx
  dsimp only at hx
  rw [← hsl, if_neg (by simp [hst, hrun, hbase, hdue]), h] at hx
  exact (Tile.onlySlot_setSlot b k { sl with ip := n }).aborts hk (by decide) hheld hx

end

section
variable {b : Tile} {c : Ctx} {k : Nat} {sl : Slot} (hsl : sl = b.slot k)
include hsl

/-- A program line is read where its port is free (R171). -/
theorem Tile.armRead_line (hmore : sl.haveProg = false) (hpad : sl.progAddr + sl.got.length + 64 ≤ b.size)
    (hport : b.PortFree c false (sl.progAddr + sl.got.length) 64) : ∃ K, b.armRead c k = ((b.setBank K).setSlot k { sl with
      got := sl.got ++ Mem.bytes 0 b.spad (sl.progAddr + sl.got.length) 64, due := c.cycle + 1 }, []) := by
  obtain ⟨K, hK⟩ := Tile.ask_free (u := .slot k) (timed := false) (l := []) hport
  refine ⟨K, ?_⟩
  unfold Tile.armRead
  dsimp only
  rw [← hsl, if_neg (by simp [hmore]), if_neg (by omega), hK, hsl]
  rfl

/-- The base table is read where its port is free (R172). -/
theorem Tile.armRead_base (hall : sl.haveProg = true) (hport : b.PortFree c false sl.baseAddr 64) : ∃ K, b.armRead c k =
    ((b.setBank K).setSlot k { sl with
      base := (List.range 8).map (fun j => BitVec.ofNat 64 (Mem.num 0 b.spad (sl.baseAddr + 8 * j) 8)), due := c.cycle + 1 }, []) := by
  obtain ⟨K, hK⟩ := Tile.ask_free (u := .slot k) (timed := false) (l := []) hport
  refine ⟨K, ?_⟩
  unfold Tile.armRead
  dsimp only
  rw [← hsl, if_pos hall, hK, hsl]
  rfl

end

end Sys2Proof.Machine

namespace Sys2Proof.Proofs
open Sys2Proof.Machine

section
variable {s : State} {t k : Nat} (ht : t < 2304) (hg : s.gatedNow = false)
include ht hg

/-- An instruction that changes its slot alone. -/
theorem slot_changes {i : Instr} {f : Ctx → Tile → Tile × List Out} (y : Slot) (hi : exec i s = .next (s.onClocked t f))
    (h : f (s.ctx t) (s.seen t) = ((s.seen t).setSlot k y, [])) :
    ∃ (x : Tile) (y' : Slot), exec i s = .next (s.withTile t x []) ∧ (s.seen t).OnlySlot x k y' ∧ y' = y :=
  ⟨_, y, exec_clocked ht hg hi h, Tile.onlySlot_setSlot _ _ _, rfl⟩

/-- The validation of an arming slot. -/
theorem streamValidate_spec {sl : Slot} (hk : k < 8) (hrun : (s.seen t).st = .running) (hsl : sl = (s.seen t).slot k) (hst : sl.st = .arming)
    (hbase : sl.base ≠ []) (hdue : sl.due ≤ s.cycle) (hheld : sl.heldBy = none) :
    (∀ p, validateProg sl.progWords 0 false none none = .ok p →
      ∃ (x : Tile) (y : Slot), exec (.streamValidate t k) s = .next (s.withTile t x []) ∧ (s.seen t).OnlySlot x k y ∧ y.st = .running ∧
        y.prog = p ∧ y.ip = 0 ∧ y.due = sl.due + 1 ∧ y.loops = List.replicate 6 ⟨1, 0, 0⟩ ∧ y.srcI = none ∧ y.dstI = none ∧
        y.base = sl.base) ∧
    (∀ n, validateProg sl.progWords 0 false none none = .error n →
      ∃ (x : Tile) (o : List Out), exec (.streamValidate t k) s = .next (s.withTile t x o) ∧ (s.seen t).Aborts x (s.ctx t) k 1 o) := by
  refine ⟨fun p hp => ?_, fun n hn => ?_⟩
  · exact ⟨_, _, exec_clocked ht hg rfl (Tile.streamValidate_ok hst hrun hbase hdue hsl hp), Tile.onlySlot_setSlot _ _ _,
      rfl, rfl, rfl, rfl, rfl, rfl, rfl, rfl⟩
  · exact ⟨_, _, exec_clocked ht hg rfl rfl, Tile.streamValidate_error hst hrun hbase hdue hsl hk hheld hn rfl⟩

section
variable {i : SInstr} (hat : (s.seen t).SlotAt (s.ctx t) k i)
include hat

/-- AT begins the timed section and goes on at its target, or at once where it is late and no deadline (R183). -/
theorem streamAt_spec {b : Nat} {dl : Bool} {off : Word} (hi : i = .at_ b dl off)
    (h : s.sidereal < (((s.seen t).slot k).base.getD b 0 + off).toNat ∨ dl = false) :
    ∃ (x : Tile) (y : Slot), exec (.streamAt t k) s = .next (s.withTile t x []) ∧ (s.seen t).OnlySlot x k y ∧ y.timed = true ∧
      y.ip = ((s.seen t).slot k).ip + 1 ∧
      y.due = s.cycle + max 1 ((((s.seen t).slot k).base.getD b 0 + off).toNat - s.sidereal) := by
  subst hi
  by_cases hearly : s.sidereal < (((s.seen t).slot k).base.getD b 0 + off).toNat
  · refine ⟨_, _, exec_clocked ht hg rfl (Tile.streamStep_at hat (if_pos hearly)), Tile.onlySlot_setSlot _ _ _, rfl, rfl, ?_⟩
    exact congrArg (s.cycle + ·) (max_eq_right (Nat.sub_pos_of_lt hearly)).symm
  · have hdl : ¬dl = true := by simp [h.resolve_left hearly]
    refine ⟨_, _, exec_clocked ht hg rfl (Tile.streamStep_at hat ((if_neg hearly).trans (if_neg hdl))), Tile.onlySlot_setSlot _ _ _, rfl, rfl, ?_⟩
    exact congrArg (s.cycle + ·) (max_eq_left ((Nat.sub_eq_zero_of_le (Nat.le_of_not_lt hearly)).trans_le (Nat.zero_le 1))).symm

/-- WAITC ends the timed section, and goes on when its counter has reached its target (R186). -/
theorem streamWaitc_spec {b ctr : Nat} {off : Word} (hi : i = .waitc b ctr off) :
    ((((s.seen t).rd F.TIL_ARRIVAL.count ctr : Int) - (((s.seen t).slot k).base.getD b 0 + off).toNat % 2 ^ 32) % 2 ^ 32 < 2 ^ 31 →
      ∃ (x : Tile) (y : Slot), exec (.streamWaitc t k) s = .next (s.withTile t x []) ∧ (s.seen t).OnlySlot x k y ∧
        y = { (s.seen t).slot k with timed := false, ip := ((s.seen t).slot k).ip + 1, due := s.cycle + 1 }) ∧
    (¬ (((s.seen t).rd F.TIL_ARRIVAL.count ctr : Int) - (((s.seen t).slot k).base.getD b 0 + off).toNat % 2 ^ 32) % 2 ^ 32 < 2 ^ 31 →
      ∃ (x : Tile) (y : Slot), exec (.streamWaitc t k) s = .next (s.withTile t x []) ∧ (s.seen t).OnlySlot x k y ∧
        y = { (s.seen t).slot k with timed := false }) := by
  subst hi
  have hwaitc : (s.seen t).streamWaitc (s.ctx t) k =
      if reached ((s.seen t).rd F.TIL_ARRIVAL.count ctr) ((((s.seen t).slot k).addr b off).toNat % 2 ^ 32) then
        ((s.seen t).setSlot k ({ (s.seen t).slot k with timed := false }.goOn (s.cycle + 1)), [])
      else ((s.seen t).setSlot k { (s.seen t).slot k with timed := false }, []) := by
    unfold Tile.streamWaitc
    dsimp only
    rw [if_neg hat.acts, hat.instr]
    rfl
  rw [← reached_iff]
  exact ⟨fun h => slot_changes ht hg _ rfl (hwaitc.trans (if_pos h)), fun h => slot_changes ht hg _ rfl (hwaitc.trans (if_neg h))⟩

/-- A LOCAL SIGNAL adds to its counter (R186). -/
theorem streamSignal_local {b ctr n : Nat} {off : Word} (hi : i = .signal b 0 ctr off n) :
    ∃ x : Tile, exec (.streamSignal t k) s = .next (s.withTile t x []) ∧
      x.rd F.TIL_ARRIVAL.count ctr = ((s.seen t).rd F.TIL_ARRIVAL.count ctr + n) % 2 ^ 32 ∧
      (∀ j, j ≠ ctr → x.rd F.TIL_ARRIVAL.count j = (s.seen t).rd F.TIL_ARRIVAL.count j) ∧
      (x.slot k).ip = ((s.seen t).slot k).ip + 1 ∧ x.spad = (s.seen t).spad := by
  subst hi
  refine ⟨_, exec_clocked ht hg rfl (Tile.streamStep_at hat (if_pos rfl)), ?_, fun j hj => ?_, ?_, ?_⟩
  · rw [Tile.settle_rd, Tile.rd_ctrAdd, if_pos rfl]
    rfl
  · rw [Tile.settle_rd, Tile.rd_ctrAdd, if_neg hj.symm]
    rfl
  · rw [Tile.settle_slot]
    exact congrArg Slot.ip (Tile.slot_setSlot_same ..)
  · rw [Tile.settle_spad]
    rfl

/-- A SIGNAL to another tile is handed to the injection stage in this cycle; where its address names no tile it aborts the slot (R186). -/
theorem streamSignal_far {b ctr n : Nat} {off : Word} (hk : k < 8) (hi : i = .signal b 1 ctr off n) :
    (streamRange (s.ctx t) (s.seen t) 1 (((s.seen t).slot k).base.getD b 0 + off) false 0 = false →
      exec (.streamSignal t k) s = .next (s.withTile t { s.seen t with
        slots := (s.seen t).slots.set k { (s.seen t).slot k with ip := ((s.seen t).slot k).ip + 1, due := s.cycle + 1 }
        inj := (s.seen t).inj ++ [⟨s.cycle, k, ((s.seen t).slot k).timed,
          hdrSignal ((((s.seen t).slot k).base.getD b 0 + off).toNat / 2 ^ 32 % 2 ^ 12) ctr n t, 0, none⟩] } [])) ∧
    (streamRange (s.ctx t) (s.seen t) 1 (((s.seen t).slot k).base.getD b 0 + off) false 0 = true → ((s.seen t).slot k).heldBy = none →
      ∃ (x : Tile) (o : List Out), exec (.streamSignal t k) s = .next (s.withTile t x o) ∧ (s.seen t).Aborts x (s.ctx t) k 2 o) := by
  subst hi
  refine ⟨fun hin => ?_, fun hout hheld => ?_⟩
  · refine exec_clocked ht hg rfl (Tile.streamStep_at hat ((if_neg (by decide)).trans ((if_neg ?_).trans rfl)))
    exact fun h => Bool.false_ne_true (hin.symm.trans h)
  · exact ⟨_, _, exec_clocked ht hg rfl (Tile.streamStep_at hat ((if_neg (by decide)).trans (if_pos hout))),
      (Tile.OnlySlot.refl _ k).aborts hk (by decide) hheld rfl⟩

end

end

/-- Settles O27: the validation, the reads that come before it, and each instruction. -/
theorem streamProgramsRun : Obligations.StreamProgramsRun := by
  unfold Obligations.StreamProgramsRun
  refine ⟨⟨?validate, ?read⟩, ?instr⟩
  case validate =>
    intro s t k sl ht hk hg hrun hsl hst hbase hdue hheld
    exact streamValidate_spec ht hg hk hrun hsl hst hbase hdue hheld
  case read =>
    intro c b k sl hk hsl
    refine ⟨fun hmore hpad hport => ?_, fun hall hport => ?_⟩
    · obtain ⟨K, hK⟩ := Tile.armRead_line hsl hmore hpad hport
      rw [hK]
      exact ⟨rfl, rfl⟩
    · obtain ⟨K, hK⟩ := Tile.armRead_base hsl hall hport
      rw [hK]
      exact ⟨rfl, rfl⟩
  case instr =>
    intro s t k i ht hk hg hat
    refine ⟨?_, ?_, ?_, fun b dl off hi h => streamAt_spec ht hg hat hi h, fun b ctr off hi => streamWaitc_spec ht hg hat hi,
      fun b ctr off n hi => streamSignal_local ht hg hat hi, fun b ctr off n hi => streamSignal_far ht hg hat hk hi, ?_⟩
    · rintro b sp m w off p rfl
      exact slot_changes ht hg _ rfl (Tile.streamStep_at hat rfl)
    · rintro b sp a ce off ctr cast rfl
      exact slot_changes ht hg _ rfl (Tile.streamStep_at hat rfl)
    · rintro l n ss ds rfl
      exact slot_changes ht hg _ rfl (Tile.streamStep_at hat rfl)
    · rintro persist rfl
      exact slot_changes ht hg _ rfl (Tile.streamStep_at hat rfl)

end Sys2Proof.Proofs
end

section
/-! Beats of a MOVE with a linear LOCAL source, the end of a pass, and the time-out of an open request (R170, R180 to R182, R286). -/
namespace Sys2Proof.Machine

/-! ### A beat on its way (R200, R273, R280) -/

/-- What handing a beat of slot `k` to its sink leaves as it is: `x` is `b` but for the slot's writes, requests and buffer, what is handed to
the injection stage, and the next tag. -/
def Tile.Sunk (b x : Tile) (k : Nat) : Prop :=
  x.slot k = { b.slot k with writes := (x.slot k).writes, reqs := (x.slot k).reqs, incoming := (x.slot k).incoming } ∧
  (∀ j, j ≠ k → x.slot j = b.slot j) ∧ x = { b with slots := x.slots, inj := x.inj, nextTag := x.nextTag }

theorem Tile.sunk_injected (b : Tile) (k : Nat) (l : List Inj) : b.Sunk { b with inj := l } k := ⟨rfl, fun _ _ => rfl, rfl⟩

theorem Tile.sunk_setSlot {b : Tile} {k : Nat} {y : Slot}
    (h : y = { b.slot k with writes := y.writes, reqs := y.reqs, incoming := y.incoming }) : b.Sunk (b.setSlot k y) k := by
  refine ⟨?_, fun j hj => Tile.slot_setSlot_ne b y hj.symm, rfl⟩
  rw [Tile.slot_setSlot_same]
  exact h

theorem Tile.Sunk.tagged {b x : Tile} {k : Nat} (h : b.Sunk x k) (n : Nat) : b.Sunk { x with nextTag := n } k := by
  obtain ⟨hslot, hother, hsame⟩ := h
  exact ⟨hslot, hother, congrArg (fun t : Tile => { t with nextTag := n }) hsame⟩

theorem Tile.sink_sunk (c : Ctx) (k : Nat) (timed : Bool) (w db dp am ctr cast : Nat) (cen : Bool) (doff a : Word) (l : List Byte) (b : Tile) :
    b.Sunk (b.sink c k timed w (.dst db dp am cen doff ctr cast) a l).1 k :=
  match dp with
  | 0 => Tile.sunk_setSlot rfl
  | 1 => Tile.sunk_injected ..
  | 2 => Tile.sunk_injected ..
  | 3 => (Tile.sunk_setSlot rfl).tagged _
  | 4 => Tile.sunk_injected ..
  | _ + 5 => Tile.sunk_setSlot rfl

/-! ### A linear beat (R162, R180) -/

/-- The beat of `n` bytes at `sa` of a MOVE whose source is linear and LOCAL. -/
def Slot.linearBeat (len gap n : Nat) (mv : MoveSt) (dst : SInstr) (dp : Nat) (sa da : Word) (sl : Slot) : Beat where
  sp := 0
  mode := 0
  width := 1
  pieces := [(sa, n)]
  n := n
  dst := dst
  dp := dp
  dest := da
  far := farSpace dp
  gap := gap
  here := mv
  next := if mv.off + 64 < len then some ⟨mv.idx, mv.off + 64⟩ else (loopNext mv.idx sl.loops).map (fun i => ⟨i, 0⟩)

section
variable {sl : Slot} {c : Ctx} {len gap n dp : Nat} {mv : MoveSt} {dst : SInstr} {sa da : Word}

theorem Slot.afterBeat_linear_moved : (sl.afterBeat (sl.linearBeat len gap n mv dst dp sa da) c.cycle).Moved sl c len gap mv := by
  unfold Slot.Moved Slot.afterBeat Slot.linearBeat
  by_cases hmore : mv.off + 64 < len
  · simp [hmore, Nat.not_le.2 hmore]
  · cases hloop : loopNext mv.idx sl.loops <;> simp [hmore, Slot.goOn]

/-- A beat leaves the slot's writes, requests and buffer as they are. -/
theorem Slot.afterBeat_keeps (B : Beat) (last : Nat) : (sl.afterBeat B last).writes = sl.writes ∧ (sl.afterBeat B last).reqs = sl.reqs ∧
    (sl.afterBeat B last).incoming = sl.incoming := by
  unfold Slot.afterBeat
  cases B.next <;> exact ⟨rfl, rfl, rfl⟩

theorem Slot.beat_linear {sb db am ctr cast : Nat} {soff doff : Word} {cen : Bool} (hinstr : sl.prog[sl.ip]? = some (.move len gap))
    (hsrc : sl.srcI = some (.src sb 0 0 0 soff 0)) (hdst : sl.dstI = some (.dst db dp am cen doff ctr cast))
    (hmv : mv = sl.move.getD ⟨List.replicate 6 0, 0⟩) (hn : n = min 64 (len - mv.off))
    (hsa : sa = loopAddr (sl.base.getD sb 0 + soff) mv.idx (sl.loops.map (·.ss)) + BitVec.ofNat 64 mv.off)
    (hda : da = loopAddr (sl.base.getD db 0 + doff) mv.idx (sl.loops.map (·.ds)) + BitVec.ofNat 64 mv.off) :
    sl.beat = some (sl.linearBeat len gap n mv (.dst db dp am cen doff ctr cast) dp sa da) := by
  subst hsa hda hn hmv
  unfold Slot.beat Slot.linearBeat
  rw [hinstr, hsrc, hdst]
  simp [farSpace, elemBytes, Slot.addr]

end

/-! ### The ports of a beat -/

/-- Where its ports are free an access of several banks is granted, and nothing but the banks changes. -/
theorem Tile.askBanks_free {tl : Tile} {c : Ctx} {u : BankUnit} {timed write : Bool} {a : Nat} {l : List Byte} {bs : List Nat} (hnodup : bs.Nodup)
    (hfree : ∀ b ∈ bs, tl.grant? c.cycle b write = none) :
    ∃ K, tl.askBanks c c.cycle u timed write a l bs = .ok (tl.setBank K, []) := by
  have hpresent (b : Nat) (hb : b ∈ bs) : (tl.present c).grant? c.cycle b write = none :=
    (Tile.grant?_of_present c tl b write (Nat.le_refl _)).trans (hfree b hb)
  obtain ⟨K, hK⟩ := Tile.takePorts_free (c := c) (u := u) (timed := timed) (a := a) (l := l) hnodup hpresent
  refine ⟨K, (if_pos (List.filter_eq_nil_iff.2 fun b hb => ?_)).trans (congrArg Except.ok hK)⟩
  have hserves : (tl.present c).grants c.cycle b write u = true := by rw [Tile.grants, hpresent b hb]
  exact fun h => Bool.false_ne_true ((congrArg not hserves).symm.trans h)

/-- The banks of a beat's one piece. -/
theorem Tile.banksOf_piece (tl : Tile) (a n : Nat) : ([(a, n)].flatMap (fun p => tl.banksOf p.1 p.2)).dedup = tl.banksOf a n := by
  rw [List.flatMap_singleton]
  exact (List.nodup_dedup _).dedup

/-! ### STREAM_MOVE of a linear LOCAL source -/

/-- What the ports of its banks make of the beat `B` of slot `k`, of `n` bytes at `a`: it waits, or is read and goes to its sink. -/
def Tile.localBeat (c : Ctx) (k : Nat) (timed : Bool) (B : Beat) (a n : Nat) (tl : Tile) : Tile × List Out :=
  match tl.askBanks c c.cycle (.slot k) timed false 0 [] (tl.banksOf a n) with
  | .error t =>
    let q := t.delayed c c.cycle (.slot k) false timed
    (q.1.setSlot k { (q.1.slot k) with move := some B.here, due := c.cycle + 1 }, q.2)
  | .ok (t, o) => if t.st ≠ .running then (t, o) else
    andThen (t.setSlot k (((t.slot k).absorb c).afterBeat B c.cycle), o) (fun t => t.sink c k timed (c.cycle + 2) B.dst B.dest (tl.bytes a n))

section
variable {b : Tile} {c : Ctx} {k n : Nat} {y : Slot} {B : Beat} {sa : Word}

/-- A beat in time, with no fault and with room, comes to its ports. -/
theorem Tile.streamMove_localBeat (hy : (b.slot k).absorb c = y) (hrun : b.st = .running) (hready : y.ready c = true) (hbeat : y.beat = some B)
    (hsp : B.sp = 0) (hmode : B.mode = 0) (hpieces : B.pieces = [(sa, n)]) (htime : ¬(y.timed = true ∧ y.due < c.cycle))
    (hsrc : addrFault c b 0 sa n (if B.far then 64 else 4) false 0 = 0) (hdst : b.destFault c B.far B.dst B.dest B.n = 0)
    (hroom : B.dp = 5 → y.timed = false → y.roomFor B = true) : b.streamMove c k = b.localBeat c k y.timed B sa.toNat n := by
  have hfull : ¬(B.dp = 5 ∧ y.timed = false ∧ y.roomFor B = false) := fun ⟨hdp, htimed, hno⟩ => by simp [hroom hdp htimed] at hno
  unfold Tile.streamMove Tile.localBeat
  dsimp only
  rw [hy, if_neg (by simp [hrun, hready]), hbeat]
  dsimp only
  simp only [hsp, hmode, hpieces, List.map_cons, List.map_nil, hsrc, hdst, Tile.banksOf_piece]
  cases b.askBanks c c.cycle (.slot k) y.timed false 0 [] (b.banksOf sa.toNat n) <;> simp [htime, hfull, Tile.readCycles]

/-- Where its ports are free the beat is read and goes to its sink. -/
theorem Tile.localBeat_free {a : Nat} {timed : Bool} (hrun : b.st = .running) (hfree : b.PortFree c false a n) : ∃ K,
    b.localBeat c k timed B a n = ((b.setBank K).setSlot k (((b.slot k).absorb c).afterBeat B c.cycle)).sink c k timed (c.cycle + 2) B.dst B.dest
      (Mem.bytes 0 b.spad a n) := by
  obtain ⟨K, hK⟩ := Tile.askBanks_free (c := c) (u := .slot k) (timed := timed) (a := 0) (l := []) (List.nodup_dedup _) hfree
  refine ⟨K, ?_⟩
  have hrun' : ¬(b.setBank K).st ≠ .running := not_not.2 hrun
  unfold Tile.localBeat
  rw [Tile.banksOf, hK]
  exact if_neg hrun'

/-- Outside a timed section what a slot's wait delays is its events and its flits at the injection stage. -/
theorem Tile.delayed_untimed (c : Ctx) (j k : Nat) (write : Bool) (w : Tile) : ∃ l, w.delayed c j (.slot k) write false =
    ({ w.setSlot k ((w.slot k).later j write) with inj := l }, []) := by
  refine ⟨w.inj.map (fun i => if i.slot = k ∧ j + 1 < i.h then { i with h := i.h + 1 } else i), ?_⟩
  unfold Tile.delayed
  exact if_neg (by simp)

/-- Outside a timed section a beat that waits is offered again in the next cycle. -/
theorem Tile.localBeat_waits {a : Nat} (hbusy : ∃ j ∈ b.banksOf a n, b.grants c.cycle j false (.slot k) = false) :
    ∃ x : Tile, b.localBeat c k false B a n = (x, []) ∧ (x.slot k).move = some B.here ∧ (x.slot k).due = c.cycle + 1 ∧
      (x.slot k).ip = (b.slot k).ip ∧ (x.slot k).beats = (b.slot k).beats ∧ (∀ j, j ≠ k → x.slot j = b.slot j) ∧ x.spad = b.spad ∧
      x.seq = b.seq := by
  obtain ⟨w, hw, hsame, -⟩ := Tile.askBanks_waits (c := c) (timed := false) (a := 0) (l := []) hbusy
  obtain ⟨l, hdelayed⟩ := Tile.delayed_untimed c c.cycle k false w
  have hlater : ({ w.setSlot k ((w.slot k).later c.cycle false) with inj := l } : Tile).slot k = (w.slot k).later c.cycle false :=
    Tile.slot_setSlot_same w k _
  have hx := Tile.slot_setSlot_same { w.setSlot k ((w.slot k).later c.cycle false) with inj := l } k
    { (w.slot k).later c.cycle false with move := some B.here, due := c.cycle + 1 }
  refine ⟨({ w.setSlot k ((w.slot k).later c.cycle false) with inj := l } : Tile).setSlot k
    { (w.slot k).later c.cycle false with move := some B.here, due := c.cycle + 1 }, ?_, ?_, ?_, ?_, ?_, fun j hj => ?_, ?_, ?_⟩
  · unfold Tile.localBeat
    rw [hw]
    dsimp only
    rw [hdelayed]
    dsimp only
    rw [hlater]
  · rw [hx]
  · rw [hx]
  · rw [hx, hsame]
    rfl
  · rw [hx, hsame]
    rfl
  · rw [Tile.slot_setSlot_ne _ _ hj.symm]
    refine (Tile.slot_setSlot_ne w _ hj.symm).trans ?_
    rw [hsame]
    rfl
  · exact (congrArg Tile.spad hsame :)
  · exact (congrArg Tile.seq hsame :)

end

section
variable {b : Tile} {c : Ctx} {k len gap sb db ctr cast am n dp : Nat} {soff doff : Word} {cen : Bool} {mv : MoveSt} {sa da : Word} {sl : Slot}

/-- The destination of a beat is in range and aligned (R176, R181). -/
theorem Tile.destFault_none (h : dp = 5 ∨ (da.toNat % (if farSpace dp then 64 else if am = 0 then 4 else atomicWidth am) = 0 ∧
    streamRange c b dp da cen ctr = false ∧ (dp = 0 → da.toNat + n ≤ b.size))) :
    b.destFault c (farSpace dp) (.dst db dp am cen doff ctr cast) da n = 0 := by
  unfold Tile.destFault addrFault
  dsimp only
  obtain hlat | ⟨halign, hrange, hsize⟩ := h
  · exact if_pos hlat
  · have hin : (dp == 0 && decide (b.size < da.toNat + n)) = false := by
      simpa using hsize
    rw [hrange, hin, halign]
    exact ite_self 0

/-- A LOCAL source of bytes inside the scratchpad is in range; with its alignment it has no fault (R176, R181). -/
theorem addrFault_local {al : Nat} (hn : 0 < n) (hsize : sa.toNat + n ≤ b.size) (halign : sa.toNat % al = 0) :
    addrFault c b 0 sa n al false 0 = 0 := by
  have hrange : streamRange c b 0 sa false 0 = false := decide_eq_false (by omega)
  unfold addrFault
  simp [hrange, halign, Nat.not_lt.2 hsize]

/-- A MOVE of a linear LOCAL source comes to the ports of its beat. -/
theorem Tile.streamMove_linear (hat : b.SlotAt c k (.move len gap)) (hsl : sl = b.slot k) (hsrc : sl.srcI = some (.src sb 0 0 0 soff 0))
    (hdst : sl.dstI = some (.dst db dp am cen doff ctr cast)) (hmv : mv = sl.move.getD ⟨List.replicate 6 0, 0⟩) (hmore : mv.off < len)
    (hn : n = min 64 (len - mv.off)) (hsa : sa = loopAddr (sl.base.getD sb 0 + soff) mv.idx (sl.loops.map (·.ss)) + BitVec.ofNat 64 mv.off)
    (hda : da = loopAddr (sl.base.getD db 0 + doff) mv.idx (sl.loops.map (·.ds)) + BitVec.ofNat 64 mv.off) (hsize : sa.toNat + n ≤ b.size)
    (halign : sa.toNat % (if farSpace dp then 64 else 4) = 0) (hdstOk : b.destFault c (farSpace dp) (.dst db dp am cen doff ctr cast) da n = 0)
    (hroom : dp = 5 → sl.timed = false → (sl.absorb c).rows = none ∧ (sl.absorb c).out = [] ∧
      (sl.absorb c).fill + (sl.absorb c).expected + n ≤ 1024) :
    b.streamMove c k = b.localBeat c k sl.timed (sl.linearBeat len gap n mv (.dst db dp am cen doff ctr cast) dp sa da) sa.toNat n := by
  subst hsl
  refine Tile.streamMove_localBeat (y := (b.slot k).absorb c) rfl hat.running hat.ready
    (Slot.beat_linear (sl := (b.slot k).absorb c) hat.instr hsrc hdst hmv hn hsa hda) rfl rfl rfl hat.in_time (addrFault_local (by omega) hsize halign) hdstOk fun hdp htimed => ?_
  obtain ⟨hrows, hout, hfill⟩ := hroom hdp htimed
  unfold Slot.roomFor
  rw [if_neg (by exact nofun), hrows, hout]
  exact decide_eq_true hfill

end

end Sys2Proof.Machine

namespace Sys2Proof.Proofs
open Sys2Proof.Machine

section
variable {b : Tile} {c : Ctx} {k len gap db ctr cast am n dp : Nat} {doff : Word} {cen : Bool} {mv : MoveSt} {sa da : Word} {sl : Slot}

/-- What a beat that its ports serve comes to, for each destination. -/
theorem localBeat_sinks (hrun : b.st = .running) (hsl : sl = b.slot k) (hfree : b.PortFree c false sa.toNat n) {l : List Byte}
    (hl : l = Mem.bytes 0 b.spad sa.toNat n) : ∃ (x : Tile) (o : List Out),
      b.localBeat c k sl.timed (sl.linearBeat len gap n mv (.dst db dp am cen doff ctr cast) dp sa da) sa.toNat n = (x, o) ∧
      (x.slot k).Moved sl c len gap mv ∧ (∀ j, j ≠ k → x.slot j = b.slot j) ∧ x.spad = b.spad ∧ x.seq = b.seq ∧ x.regs = b.regs ∧
      (dp = 0 → x.inj = b.inj ∧ o = [] ∧
        (x.slot k).writes = sl.writes ++ [⟨c.cycle + 2, da.toNat, l, am, if cen then some ctr else none, sl.timed⟩]) ∧
      (dp = 1 → o = [] ∧ x.inj = b.inj ++ [⟨c.cycle + 2, k, sl.timed,
        hdrData (da.toNat / 2 ^ 32 % 2 ^ 12) (da.toNat / 2 ^ 6 % 2 ^ 15) ctr cast am c.tile cen, lineOf l, none⟩]) ∧
      (dp = 2 → o = [] ∧ x.inj = b.inj ++ [⟨c.cycle + 2, k, sl.timed,
        hdrMemWrite (lpddrMap c.chans da.toNat).1 (lpddrMap c.chans da.toNat).2 c.tile k, lineOf l, none⟩]) ∧
      (dp = 3 → x.inj = b.inj ∧ o = [.memReq true (lpddrMap c.chans da.toNat).1 (lpddrMap c.chans da.toNat).2 k 255 l b.nextTag] ∧
        (x.slot k).reqs = sl.reqs ++ [⟨b.nextTag, c.cycle, true, true, none, 0, none⟩]) ∧
      (dp = 4 → o = [] ∧ x.inj = b.inj ++ [⟨c.cycle + 2, k, sl.timed,
        hdrEdgeOut c.tile (da.toNat / 2 ^ 33 % 2 ^ 14) (da.toNat / 2 ^ 21 % 2 ^ 12) (da.toNat / 2 ^ 6 % 2 ^ 15) am
          (if cen then ctr + 1 else 0), lineOf l, none⟩]) ∧
      (dp = 5 → x.inj = b.inj ∧ o = [] ∧ (x.slot k).incoming = (sl.absorb c).incoming ++ [(c.cycle + 2, sl.timed, l)]) := by
  subst hsl hl
  obtain ⟨K, hK⟩ := Tile.localBeat_free (k := k) (B := (b.slot k).linearBeat len gap n mv (.dst db dp am cen doff ctr cast) dp sa da)
    (timed := (b.slot k).timed) hrun hfree
  have hmoved : (((b.slot k).absorb c).afterBeat ((b.slot k).linearBeat len gap n mv (.dst db dp am cen doff ctr cast) dp sa da) c.cycle).Moved
    (b.slot k) c len gap mv := Slot.afterBeat_linear_moved (sl := (b.slot k).absorb c)
  obtain ⟨hwrites, hreqs, hincoming⟩ := Slot.afterBeat_keeps (sl := (b.slot k).absorb c)
    ((b.slot k).linearBeat len gap n mv (.dst db dp am cen doff ctr cast) dp sa da) c.cycle
  generalize ((b.slot k).absorb c).afterBeat ((b.slot k).linearBeat len gap n mv (.dst db dp am cen doff ctr cast) dp sa da) c.cycle = y
    at hK hmoved hwrites hreqs hincoming
  have hz := Tile.slot_setSlot_same (b.setBank K) k y
  have hzother (j : Nat) (hj : j ≠ k) := Tile.slot_setSlot_ne (b.setBank K) y hj.symm
  have hzsame : (b.setBank K).setSlot k y = { b with bank := K, slots := ((b.setBank K).setSlot k y).slots } := rfl
  generalize (b.setBank K).setSlot k y = z at hK hz hzother hzsame
  obtain ⟨hslot, hother, hsame⟩ := Tile.sink_sunk c k (b.slot k).timed (c.cycle + 2) db dp am ctr cast cen doff da (Mem.bytes 0 b.spad sa.toNat n) z
  refine ⟨(z.sink c k (b.slot k).timed (c.cycle + 2) (.dst db dp am cen doff ctr cast) da (Mem.bytes 0 b.spad sa.toNat n)).1,
    (z.sink c k (b.slot k).timed (c.cycle + 2) (.dst db dp am cen doff ctr cast) da (Mem.bytes 0 b.spad sa.toNat n)).2,
    hK, ?_, ?_, ?_, ?_, ?_, ?_, ?_, ?_, ?_, ?_, ?_⟩
  · rw [hslot, hz]
    exact hmoved
  · exact fun j hj => (hother j hj).trans (hzother j hj)
  · exact (congrArg Tile.spad hsame).trans (congrArg Tile.spad hzsame :)
  · exact (congrArg Tile.seq hsame).trans (congrArg Tile.seq hzsame :)
  · exact (congrArg Tile.regs hsame).trans (congrArg Tile.regs hzsame :)
  · rintro rfl
    refine ⟨(congrArg Tile.inj hzsame :), rfl, (congrArg Slot.writes (Tile.slot_setSlot_same z k _)).trans ?_⟩
    rw [hz, hwrites]
    rfl
  · rintro rfl
    rw [hzsame]
    exact ⟨rfl, rfl⟩
  · rintro rfl
    rw [hzsame]
    exact ⟨rfl, rfl⟩
  · rintro rfl
    refine ⟨(congrArg Tile.inj hzsame :), ?_, (congrArg Slot.reqs (Tile.slot_setSlot_same z k _)).trans ?_⟩
    · rw [hzsame]
      rfl
    · rw [hz, hreqs, hzsame]
      rfl
  · rintro rfl
    rw [hzsame]
    exact ⟨rfl, rfl⟩
  · rintro rfl
    refine ⟨(congrArg Tile.inj hzsame :), rfl, (congrArg Slot.incoming (Tile.slot_setSlot_same z k _)).trans ?_⟩
    rw [hz, hincoming]

end

section
variable {s : State} {t k : Nat} (ht : t < 2304) (hrun : (s.seen t).st = .running)
include ht hrun

/-- A pass with nothing outstanding ends (R170). -/
theorem streamPassEnd_spec {persist : Bool} (hg : s.gatedNow = false) (hslot : ((s.seen t).slot k).st = .running)
    (hended : ((s.seen t).slot k).ended = some persist) (hreqs : ∀ r ∈ ((s.seen t).slot k).reqs, r.live = false)
    (hcal : ((s.seen t).slot k).calOut = 0) (hwrites : ((s.seen t).slot k).writes = []) (hrows : ((s.seen t).slot k).rows = none)
    (hout : ((s.seen t).slot k).out = []) (hatoms : ∀ z ∈ (s.seen t).bank.atoms, z.by_ ≠ .slot k) (hinj : ∀ j ∈ (s.seen t).inj, j.slot ≠ k)
    (hlat : ((s.seen t).slot k).toLat = false ∨ ((s.seen t).slot k).buf = [] ∧ ((s.seen t).slot k).incoming = []) :
    ∃ x : Tile, exec (.streamPassEnd t k) s = .next (s.withTile t x []) ∧
      (x.slot k).st = (if persist then .parked else .idle) ∧ (x.slot k).passes = (((s.seen t).slot k).passes + 1) % 2 ^ 32 ∧
      (x.slot k).prog = (if persist then ((s.seen t).slot k).prog else []) ∧ (∀ j, j ≠ k → x.slot j = (s.seen t).slot j) ∧
      x.spad = (s.seen t).spad ∧ x.regs = (s.seen t).regs := by
  have hend : (s.seen t).passEnd (s.ctx t) k = (((s.seen t).setSlot k { (s.seen t).slot k with
      passes := (((s.seen t).slot k).passes + 1) % 2 ^ 32, ended := none, st := (if persist then .parked else .idle),
      prog := (if persist then ((s.seen t).slot k).prog else []), base := (if persist then ((s.seen t).slot k).base else []) }).settle (s.ctx t),
      []) := by
    unfold Tile.passEnd
    dsimp only
    rw [hended]
    refine if_pos ⟨hrun, hslot, ?_, hcal, hwrites, hrows, hout, ?_, ?_, hlat⟩
    · simpa using hreqs
    · simpa using hatoms
    · simpa using hinj
  refine ⟨_, exec_clocked ht hg rfl hend, ?_, ?_, ?_, fun j hj => ?_, ?_, ?_⟩
  · rw [Tile.settle_slot, Tile.slot_setSlot_same]
  · rw [Tile.settle_slot, Tile.slot_setSlot_same]
  · rw [Tile.settle_slot, Tile.slot_setSlot_same]
  · rw [Tile.settle_slot, Tile.slot_setSlot_ne _ _ hj.symm]
  · rw [Tile.settle_spad]
    rfl
  · rw [Tile.settle_regs]
    rfl

/-- A live request that is too old aborts its slot (R286). -/
theorem streamRequestTimeout_spec (hk : k < 8) (hheld : ((s.seen t).slot k).heldBy = none)
    (hold : ∃ r ∈ ((s.seen t).slot k).reqs, r.live = true ∧ r.at_ + 400000 ≤ s.cycle) :
    ∃ (x : Tile) (o : List Out), exec (.streamRequestTimeout t k) s = .next (s.withTile t x o) ∧ (s.seen t).Aborts x (s.ctx t) k 5 o := by
  have htimeout : (s.seen t).streamTimeout (s.ctx t) k = ((s.seen t).setSlot k { (s.seen t).slot k with
      reqs := ((s.seen t).slot k).reqs.filter (fun r => !(decide (r.at_ + 400000 ≤ s.cycle))) }).abortSlot (s.ctx t) k 5 := by
    unfold Tile.streamTimeout
    dsimp only
    rw [if_neg (by simp [Tile.deaf, hrun]), if_pos]
    · rfl
    obtain ⟨r, hr, hlive, hage⟩ := hold
    exact List.any_eq_true.2 ⟨r, hr, Bool.and_eq_true_iff.2 ⟨decide_eq_true hage, hlive⟩⟩
  refine ⟨_, _, congrArg _ (State.onTile_eq s t _ ht), (Tile.onlySlot_setSlot ..).aborts hk (by decide) ?_ htimeout.symm⟩
  exact hheld

end

/-- Settles O29: the beat by what its ports answer, the end of the pass, and the time-out. -/
theorem streamBeatsAndPasses : Obligations.StreamBeatsAndPasses := by
  unfold Obligations.StreamBeatsAndPasses
  refine ⟨?beat, fun s t k ht hk hrun hheld => ⟨?passEnd, ?timeout⟩⟩
  case beat =>
    intro s t k len gap sb db ctr cast am soff doff cen dp mv sa da n sl l ht hk hg hat hsl hsrc hdst hmv hmore hn hsa hda hsize halign hdstOk
      hroom hl
    have hmove := Tile.streamMove_linear hat hsl hsrc hdst hmv hmore hn hsa hda hsize halign (Tile.destFault_none hdstOk) hroom
    refine ⟨fun hfree => ?_, fun hbusy htimed => ?_⟩
    · obtain ⟨x, o, hx, hspec⟩ := localBeat_sinks hat.running hsl hfree hl
      exact ⟨x, o, exec_clocked ht hg rfl (hmove.trans hx), hspec⟩
    · rw [htimed] at hmove
      obtain ⟨x, hx, hmv', hdue, hip, hbeats, hspec⟩ := Tile.localBeat_waits (c := s.ctx t) hbusy
      exact ⟨x, exec_clocked ht hg rfl (hmove.trans hx), hmv', hdue, hip.trans (hsl ▸ rfl), hbeats.trans (hsl ▸ rfl), hspec⟩
  case passEnd =>
    intro persist hg hslot hended hreqs hcal hwrites hrows hout hatoms hinj hlat
    exact streamPassEnd_spec ht hrun hg hslot hended hreqs hcal hwrites hrows hout hatoms hinj hlat
  case timeout => exact streamRequestTimeout_spec ht hrun hk hheld

end Sys2Proof.Proofs
end

section
/-! The steps of a fused command, and the copy of a message where no port is taken (R190, R192, R193, R248, R251, R253). -/
namespace Sys2Proof.Machine

/-! ### Bytes in pieces -/

theorem Mem.putBytes_take_drop (d : Byte) (n : Nat) (l : List Byte) (m : Mem) (a : Nat) :
    Mem.putBytes d (Mem.putBytes d m a (l.take n)) (a + n) (l.drop n) = Mem.putBytes d m a l := by
  induction n generalizing l m a with
  | zero => rfl
  | succ n ih =>
    cases l with
    | nil => rfl
    | cons v r =>
      rw [← Nat.add_assoc, Nat.add_right_comm]
      exact ih r (Mem.put d m a v) (a + 1)

/-! ### Ports of cycles to come -/

section
variable {tl : Tile} {c : Ctx} {k a n : Nat} {u : BankUnit} {timed write : Bool} {l : List Byte}

/-- The tile after a grant of each of the banks `bs`. -/
def Tile.grantedAll (k : Nat) (u : BankUnit) (timed write : Bool) (a : Nat) (l : List Byte) (bs : List Nat) (tl : Tile) : Tile :=
  tl.setBank { tl.bank with grants := tl.bank.grants ++ bs.map (fun b => ⟨b, write, k, u, timed, a, l⟩) }

theorem Tile.takePorts_grantedAll {bs : List Nat} (hnodup : bs.Nodup) (hfree : ∀ b ∈ bs, tl.grant? k b write = none) :
    bs.foldl (fun p b => andThen p (Tile.takePort c k u timed write a l b)) (tl, []) = (tl.grantedAll k u timed write a l bs, []) := by
  induction bs generalizing tl with
  | nil =>
    unfold Tile.grantedAll
    rw [List.map_nil, List.append_nil]
    rfl
  | cons b bs ih =>
    obtain ⟨hb, hbs⟩ := List.nodup_cons.1 hnodup
    have hfirst : andThen (tl, []) (Tile.takePort c k u timed write a l b) = (tl.granted ⟨b, write, k, u, timed, a, l⟩, []) := by
      unfold andThen
      rw [Tile.takePort_free (hfree b (List.mem_cons_self ..))]
      rfl
    rw [List.foldl_cons, hfirst, ih hbs fun b' hb' => ?_]
    · have happend := (List.append_assoc tl.bank.grants [⟨b, write, k, u, timed, a, l⟩] (bs.map fun b => ⟨b, write, k, u, timed, a, l⟩))
      exact congrArg (fun g => (tl.setBank { tl.bank with grants := g }, [])) happend
    · rw [Tile.grant?_granted_ne (ne_of_mem_of_not_mem hb' hb).symm]
      exact hfree b' (List.mem_cons_of_mem _ hb')

/-- The grants of a bank are of cycles before `k`. -/
def BankSt.Before (k : Nat) (K : BankSt) : Prop := ∀ g ∈ K.grants, g.at_ < k

theorem BankSt.Before.succ {K : BankSt} (h : K.Before k) : K.Before (k + 1) := fun g hg => Nat.lt_succ_of_lt (h g hg)

theorem Tile.grant?_of_before (h : tl.bank.Before k) (b : Nat) : tl.grant? k b write = none := by
  refine List.find?_eq_none.2 fun g hg => ?_
  simp [Nat.ne_of_lt (h g hg)]

/-- Where all grants are of earlier cycles an access is granted, and the banks know one cycle more. -/
theorem Tile.ask_ahead (hbefore : tl.bank.Before k) : ∃ K : BankSt, tl.ask c k u timed write a n l = .ok (tl.setBank K, []) ∧
    K.Before (k + 1) ∧ K.atoms = tl.bank.atoms := by
  have hpresent : (tl.present c).bank.Before k := fun g hg => hbefore g (List.mem_filter.1 hg).1
  have hfree (b : Nat) : (tl.present c).grant? k b write = none := Tile.grant?_of_before hpresent b
  have hask : tl.ask c k u timed write a n l = .ok ((tl.present c).grantedAll k u timed write a l (tl.banksOf a n), []) := by
    refine (if_pos (List.filter_eq_nil_iff.2 fun b _ => ?_)).trans
      (congrArg Except.ok (Tile.takePorts_grantedAll (c := c) (List.nodup_dedup _) fun b _ => hfree b))
    have hserves : (tl.present c).grants k b write u = true := by rw [Tile.grants, hfree b]
    exact fun h => Bool.false_ne_true ((congrArg not hserves).symm.trans h)
  refine ⟨_, hask, fun g hg => ?_, rfl⟩
  obtain hold | hnew := List.mem_append.1 hg
  · exact Nat.lt_succ_of_lt (hpresent g hold)
  · obtain ⟨b, -, rfl⟩ := List.mem_map.1 hnew
    exact Nat.lt_succ_self k

/-- Bytes put into the scratchpad change nothing else but the fetch buffer of the banks. -/
theorem Tile.put_eq (a : Nat) (l : List Byte) (tl : Tile) : ∃ K : BankSt, tl.put a l = { tl with spad := Mem.putBytes 0 tl.spad a l, bank := K } ∧
    K.grants = tl.bank.grants ∧ K.atoms = tl.bank.atoms := by
  unfold Tile.put
  dsimp only
  split
  · split
    · exact ⟨_, rfl, rfl, rfl⟩
    · exact ⟨_, rfl, rfl, rfl⟩
  · exact ⟨_, rfl, rfl, rfl⟩

/-- With no later grant no write stands after one of cycle `k`. -/
theorem Tile.writesAfter_of_before (h : tl.bank.Before (k + 1)) : tl.writesAfter k = tl := by
  have hnone (j : Nat) (hj : 0 < j) : tl.bank.grants.filter (fun g => g.write && g.at_ == k + j) = [] := by
    refine List.filter_eq_nil_iff.2 fun g hg => ?_
    have := h g hg
    simp; omega
  unfold Tile.writesAfter
  simp [hnone]

/-- Where all grants are of earlier cycles and no atomic is in progress a plain write is served. -/
theorem Tile.plainWrite_ahead (hbefore : tl.bank.Before k) (hatoms : tl.bank.atoms = []) : ∃ K : BankSt,
    tl.plainWrite c k u timed a l = .ok ({ tl with spad := Mem.putBytes 0 tl.spad a l, bank := K }, []) ∧ K.Before (k + 1) ∧ K.atoms = [] := by
  obtain ⟨K, hask, hbefore', hatoms'⟩ := Tile.ask_ahead (u := u) (timed := timed) (write := true) (a := a) (n := l.length) (l := l) hbefore
  obtain ⟨K', hput, hgrants, hatoms''⟩ := Tile.put_eq a l (tl.setBank K)
  have hlast : K'.Before (k + 1) := fun g hg => hbefore' g (hgrants ▸ hg)
  refine ⟨K', ?_, hlast, hatoms''.trans (hatoms'.trans hatoms)⟩
  have hatom : ¬(u.cls ≠ .lnd ∧ tl.inAtomic k a l.length = true) := by
    unfold Tile.inAtomic
    rw [hatoms]
    exact fun h => Bool.false_ne_true h.2
  unfold Tile.plainWrite
  rw [if_neg hatom, hask]
  dsimp only
  rw [hput, Tile.writesAfter_of_before (by exact hlast)]
  rfl

end

/-! ### Copies of messages (R251) -/

section
variable {c : Ctx} {u : BankUnit}

/-- A message is written 64 bytes a cycle where all grants are of earlier cycles. -/
theorem Tile.copyLines_write {fuel k a : Nat} {l : List Byte} {tl : Tile} (hbefore : tl.bank.Before k)
    (hatoms : tl.bank.atoms = []) (hfuel : l.length + 64 ≤ 64 * fuel) : ∃ K, tl.copyLines c u true fuel k a l =
      (({ tl with spad := Mem.putBytes 0 tl.spad a l, bank := K }, []), k + (l.length + 63) / 64 - 1) := by
  induction fuel generalizing k a l tl with
  | zero => omega
  | succ fuel ih =>
    cases l with
    | nil => exact ⟨tl.bank, rfl⟩
    | cons v r =>
      obtain ⟨K, hwrite, hbefore', hatoms'⟩ := Tile.plainWrite_ahead (u := u) (timed := false) (a := a) (l := (v :: r).take 64)
        hbefore hatoms
      have hlen : ((v :: r).drop 64).length = (v :: r).length - 64 := List.length_drop
      have hpos : 0 < (v :: r).length := Nat.succ_pos _
      obtain ⟨K', hrest⟩ := ih (a := a + 64) (l := (v :: r).drop 64) (tl := { tl with spad := Mem.putBytes 0 tl.spad a ((v :: r).take 64), bank := K })
        hbefore' hatoms' (by omega)
      refine ⟨K', ?_⟩
      unfold Tile.copyLines
      dsimp only
      rw [if_pos rfl, hwrite]
      dsimp only
      rw [hrest, Mem.putBytes_take_drop, hlen]
      exact congrArg (Prod.mk _) (by omega)

/-- A message is read where all grants are of earlier cycles, and nothing but the banks changes. -/
theorem Tile.copyLines_read {fuel k a : Nat} {l : List Byte} {tl : Tile} (hbefore : tl.bank.Before k) :
    ∃ K, (tl.copyLines c u false fuel k a l).1 = (tl.setBank K, []) := by
  induction fuel generalizing k a l tl with
  | zero => exact ⟨tl.bank, rfl⟩
  | succ fuel ih =>
    cases l with
    | nil => exact ⟨tl.bank, rfl⟩
    | cons v r =>
      obtain ⟨K, hask, hbefore', -⟩ := Tile.ask_ahead (u := u) (timed := false) (write := false) (a := a) (n := ((v :: r).take 64).length) (l := [])
        hbefore
      obtain ⟨K', hrest⟩ := ih (a := a + 64) (l := (v :: r).drop 64) (tl := tl.setBank K) hbefore'
      refine ⟨K', ?_⟩
      unfold Tile.copyLines
      dsimp only
      rw [if_neg Bool.false_ne_true, hask]
      dsimp only
      rw [hrest]
      rfl

theorem Tile.PortsIdle.before {tl : Tile} (h : tl.PortsIdle c) : tl.bank.Before (c.cycle + 1) := fun g hg => Nat.lt_succ_of_le (h g hg)

theorem Tile.writeMsg_idle {tl : Tile} {a : Nat} {l : List Byte} (hports : tl.PortsIdle c) (hatoms : tl.bank.atoms = []) (hlen : l.length ≤ 4096) :
    ∃ K, tl.writeMsg c a l = (({ tl with spad := Mem.putBytes 0 tl.spad a l, bank := K }, []), c.cycle + (l.length + 63) / 64) := by
  obtain ⟨K, hK⟩ := Tile.copyLines_write (u := .chan) (fuel := 256) (a := a) (l := l) hports.before hatoms (by omega)
  exact ⟨K, hK.trans (congrArg (Prod.mk _) (by omega))⟩

theorem Tile.readMsg_idle {tl : Tile} {a n : Nat} (hports : tl.PortsIdle c) : ∃ K, tl.readMsg c a n = (tl.setBank K, []) :=
  Tile.copyLines_read hports.before

/-- The tile after the rest `r` of a queue's messages has been left. -/
def Tile.took (q : Nat) (r : List Msg) (tl : Tile) : Tile := ({ tl with queues := tl.queues.set q r } : Tile).addSat F.TIL_CHQ_STATE.taken q 1

theorem Tile.takeMsg_cons {tl : Tile} {q : Nat} {m : Msg} {r : List Msg} (h : tl.queue q = m :: r) : tl.takeMsg q = (tl.took q r, some m) := by
  unfold Tile.takeMsg
  rw [h]
  rfl

/-- A message is delivered: its bytes stand in its buffer, and its credit goes out in the cycle after the last of them (R249). -/
theorem Tile.deliver_idle {tl : Tile} {q a : Nat} {m : Msg} (hports : tl.PortsIdle c) (hatoms : tl.bank.atoms = [])
    (hlen : m.bytes.length ≤ 4096) : ∃ K, tl.deliver c q a m = (({ tl with
      spad := Mem.putBytes 0 tl.spad a m.bytes, bank := K
      outbox := tl.outbox ++ [⟨c.cycle + (m.bytes.length + 63) / 64 + 1, q, true, m.credit⟩] }, []),
      c.cycle + (m.bytes.length + 63) / 64) := by
  obtain ⟨K, hK⟩ := Tile.writeMsg_idle (a := a) hports hatoms hlen
  refine ⟨K, ?_⟩
  unfold Tile.deliver
  rw [hK]
  rfl

theorem Tile.serveRecv_unblocked {tl : Tile} (q : Nat) (h : tl.seq.blk = none) : tl.serveRecv c q = (tl, []) := by
  unfold Tile.serveRecv
  rw [h]

end

/-! ### A fused slot at a step (R190) -/

section
variable {b : Tile} {c : Ctx} {f n : Nat} {d : FDesc}

theorem Fused.step_goOn {x : Fused} (h : x.desc = some d) (k due : Nat) : (x.goOn k due).step = d.after k := by
  unfold Fused.goOn
  rw [h]

theorem Fused.due_goOn {x : Fused} (h : x.desc = some d) (k due : Nat) : (x.goOn k due).due = due := by
  unfold Fused.goOn
  rw [h]

/-- FUSED_RECV of the oldest message, which no other wait is before. -/
theorem Tile.fusedRecv_eq {m : Msg} {r : List Msg} (hat : b.FusedAt c f 1 d) (halone : ∀ g, g ≠ f → (b.fslot g).busy = false)
    (hblk : b.seq.blk = none) (hopen : b.rd F.TIL_CHQ_STATE.state d.recvQueue = 1) (hcp : b.cpInbound ≠ some d.recvQueue)
    (hqueue : b.queue d.recvQueue = m :: r) (hlen : m.bytes.length ≤ 4096) (hports : b.PortsIdle c) (hatoms : b.bank.atoms = []) :
    ∃ K, b.fusedRecv c f = (({ b.took d.recvQueue r with
      spad := Mem.putBytes 0 b.spad d.recvBuf m.bytes, bank := K
      outbox := b.outbox ++ [⟨c.cycle + (m.bytes.length + 63) / 64 + 1, d.recvQueue, true, m.credit⟩] } : Tile).setFslot f
        ((b.fslot f).goOn 1 (c.cycle + (m.bytes.length + 63) / 64 + 1)), []) := by
  obtain ⟨hrun, hbusy, hstep, hdesc, hdue⟩ := hat
  have hfirst (g : Nat) : (g != f && (b.fslot g).busy) = false := by
    obtain rfl | hg := eq_or_ne g f
    · rw [bne_self_eq_false, Bool.false_and]
    · rw [halone g hg, Bool.and_false]
  obtain ⟨K, hK⟩ := Tile.deliver_idle (tl := b.took d.recvQueue r) (q := d.recvQueue) (a := d.recvBuf) hports hatoms hlen
  refine ⟨K, ?_⟩
  unfold Tile.fusedRecv
  dsimp only
  rw [hdesc, hblk]
  dsimp only
  rw [if_neg, Tile.takeMsg_cons hqueue]
  · dsimp only
    rw [hK, Tile.serveRecv_unblocked _ (by exact hblk)]
    rfl
  · simp [hrun, hbusy, hstep, Nat.not_lt.2 hdue, hfirst, hopen, hcp]

/-- FUSED_ARM arms or re-arms the step's slot, or aborts. -/
theorem Tile.fusedArm_eq {k : Nat} {re : Bool} (hn : n = 2 ∧ k = d.inSlot ∧ re = d.has 5 ∨ n = 3 ∧ k = d.outSlot ∧ re = d.has 6)
    (hat : b.FusedAt c f n d) : b.fusedArm c f =
    if (b.slot k).heldBy.isSome ∨ (re = true ∧ (b.slot k).st ≠ .parked) ∨ (¬re = true ∧ (b.slot k).st.armed = true) then b.abortFused c f 7
    else ((if re then b.rearm c k (if n = 2 then d.inBase else d.outBase) (some f)
      else b.arm c k (if n = 2 then d.inProg else d.outProg) (if n = 2 then d.inBase else d.outBase) (some f)).setFslot f
        ((b.fslot f).goOn n (c.cycle + 1)), []) := by
  obtain ⟨hrun, hbusy, hstep, hdesc, hdue⟩ := hat
  unfold Tile.fusedArm
  dsimp only
  rw [hdesc, hstep]
  obtain ⟨rfl, rfl, rfl⟩ | ⟨rfl, rfl, rfl⟩ := hn <;> exact if_neg (by simp [hrun, hbusy, Nat.not_lt.2 hdue])

theorem Tile.slot_arm_same (k prog base : Nat) (held : Option Nat) : ((b.arm c k prog base held).slot k).st = .arming ∧
    ((b.arm c k prog base held).slot k).heldBy = held ∧ ((b.arm c k prog base held).slot k).progAddr = prog ∧
    ((b.arm c k prog base held).slot k).baseAddr = base ∧ ((b.arm c k prog base held).slot k).due = c.cycle + 1 := by
  unfold Tile.arm
  rw [Tile.slot_setSlot_same]
  exact ⟨rfl, rfl, rfl, rfl, rfl⟩

theorem Tile.slot_rearm_same (k base : Nat) (held : Option Nat) : ((b.rearm c k base held).slot k).st = .running ∧
    ((b.rearm c k base held).slot k).heldBy = held ∧ ((b.rearm c k base held).slot k).prog = (b.slot k).prog ∧
    ((b.rearm c k base held).slot k).baseAddr = base ∧ ((b.rearm c k base held).slot k).baseAt = some (c.cycle + 1) ∧
    ((b.rearm c k base held).slot k).due = c.cycle + 2 := by
  unfold Tile.rearm
  rw [Tile.slot_setSlot_same]
  exact ⟨rfl, rfl, rfl, rfl, rfl, rfl⟩

/-- FUSED_WAIT ends where every slot that it holds is at rest. -/
theorem Tile.fusedWait_eq (hat : b.FusedAt c f 4 d)
    (hrest : ∀ k, k < 8 → (b.slot k).heldBy = some f → (b.slot k).st = .idle ∨ (b.slot k).st = .parked) :
    b.fusedWait c f = ((b.unhold f).setFslot f ((b.fslot f).goOn 4 (c.cycle + 1)), []) := by
  obtain ⟨hrun, hbusy, hstep, -, hdue⟩ := hat
  refine if_pos ⟨hrun, hbusy, hstep, hdue, List.all_eq_true.2 fun k hk => ?_⟩
  by_cases hheld : (b.slot k).heldBy = some f
  · obtain hst | hst := hrest k (List.mem_range.1 hk) hheld <;> simp [hst, SlotState.atRest]
  · simp [hheld]

/-- FUSED_SEND aborts with an entry that is DISABLED or too short, and begins its send with another (R248). -/
theorem Tile.fusedSend_eq (hat : b.FusedAt c f 5 d) (hsent : (b.fslot f).sent = false) : b.fusedSend c f =
    if b.rd F.TIL_CHS_STATE.state d.sendIndex = 0 ∨ b.rd F.TIL_CHS_CFG.max_len d.sendIndex * 16 < d.sendLen then b.abortFused c f 8
    else (b.setFslot f { b.fslot f with sent := true }).startSend c (.fused f) d.sendIndex d.sendMsg d.sendLen [] := by
  obtain ⟨hrun, hbusy, hstep, hdesc, hdue⟩ := hat
  unfold Tile.fusedSend
  dsimp only
  rw [hdesc]
  exact if_neg (by simp [hrun, hbusy, hstep, hsent, Nat.not_lt.2 hdue])

/-- The fused slot that has gone on to the descriptor at `next`, which it is to validate in cycle `due`. -/
def Fused.chained (next due : Nat) (line : Option (List Byte)) (x : Fused) : Fused :=
  { x with addr := next, desc := none, line := line, due := due, done := (x.done + 1) % 2 ^ 32 }

theorem Tile.fusedRead_free (hport : b.PortFree c false (b.fslot f).addr 64) : ∃ K, b.fusedRead c f =
    ((b.setBank K).setFslot f { b.fslot f with line := some (Mem.bytes 0 b.spad (b.fslot f).addr 64) }, []) := by
  obtain ⟨K, hK⟩ := Tile.ask_free (u := .fused f) (timed := false) (l := []) hport
  refine ⟨K, ?_⟩
  unfold Tile.fusedRead
  rw [hK]
  rfl

/-- FUSED_CHAIN reads the next descriptor (R190). -/
theorem Tile.fusedChain_eq (hat : b.FusedAt c f 7 d) (hport : b.PortFree c false d.next 64) :
    ∃ K, b.fusedChain c f = (((b.setFslot f ((b.fslot f).chained d.next (c.cycle + 1) none)).setBank K).setFslot f
      ((b.fslot f).chained d.next (c.cycle + 1) (some (Mem.bytes 0 b.spad d.next 64))), []) := by
  obtain ⟨hrun, hbusy, hstep, hdesc, hdue⟩ := hat
  have hsame := b.fslot_setFslot_same f ((b.fslot f).chained d.next (c.cycle + 1) none)
  have hchain : b.fusedChain c f = (b.setFslot f ((b.fslot f).chained d.next (c.cycle + 1) none)).fusedRead c f := by
    unfold Tile.fusedChain
    dsimp only
    rw [hdesc]
    exact if_pos ⟨hrun, hbusy, hstep, hdue⟩
  obtain ⟨K, hK⟩ := Tile.fusedRead_free (b := b.setFslot f ((b.fslot f).chained d.next (c.cycle + 1) none)) (by rw [hsame]; exact hport)
  rw [hsame] at hK
  exact ⟨K, hchain.trans hK⟩

end

/-! ### A send (R244, R248) -/

section
variable {b : Tile} {c : Ctx} {who : Sender} {e addr len : Nat}

/-- With a BROKEN entry a send is refused in the next cycle. -/
theorem Tile.startSend_broken (h : b.rd F.TIL_CHS_STATE.state e = 2) :
    b.startSend c who e addr len [] = ({ b with refusing := b.refusing ++ [(c.cycle + 1, who, e)] }, []) := if_pos h

/-- Where all sends of the entry have been handed over there is none to serve. -/
theorem Tile.serveSends_none (n : Nat) (h : b.sends.filter (fun x => x.entry == e && x.handed == none) = []) : b.serveSends c e n = (b, []) := by
  cases n with
  | zero => rfl
  | succ n =>
    unfold Tile.serveSends
    rw [h]
    rfl

/-- The one send of an entry with a credit is handed over for the cycle after next. -/
theorem Tile.serveSends_one {x : SendSt} (n : Nat) (hwho : x.who ≠ .cp) (hentry : x.entry = e) (hhanded : x.handed = none)
    (hsends : b.sends = [x]) (hopen : b.rd F.TIL_CHS_STATE.state e = 1) (hcredit : 1 ≤ b.rd F.TIL_CHS_STATE.credit e) (hports : b.PortsIdle c) :
    ∃ K : BankSt, b.serveSends c e (n + 1) =
      ({ (b.wr F.TIL_CHS_STATE.credit e (b.rd F.TIL_CHS_STATE.credit e - 1)).addSat F.TIL_CHS_STATE.stall e (c.cycle - x.began) with
        sends := [{ x with handed := some (c.cycle + 2) }], bank := K
        outbox := b.outbox ++ [⟨c.cycle + 2, 0, false, .chanMsg (b.rd F.TIL_CHS_CFG.remote e == 1) (b.rd F.TIL_CHS_CFG.eid e)
          (b.rd F.TIL_CHS_CFG.tile e) (b.rd F.TIL_CHS_CFG.queue e) e (Mem.bytes 0 b.spad x.addr x.len)⟩] }, []) := by
  obtain ⟨K, hK⟩ := Tile.readMsg_idle (c := c) (tl := { (b.wr F.TIL_CHS_STATE.credit e (b.rd F.TIL_CHS_STATE.credit e - 1)).addSat
    F.TIL_CHS_STATE.stall e (c.cycle - x.began) with sends := [{ x with handed := some (c.cycle + 2) }] }) (a := x.addr) (n := x.len) hports
  refine ⟨K, ?_⟩
  have hpick : pickSend (b.sends.filter (fun x => x.entry == e && x.handed == none)) = some x := by
    rw [hsends, List.filter_cons_of_pos (by simp [hentry, hhanded])]
    rfl
  have hserved : ¬(b.rd F.TIL_CHS_STATE.credit e = 0 ∨ b.rd F.TIL_CHS_STATE.state e ≠ 1) := by
    rw [hopen]
    omega
  have hrest : ((b.wr F.TIL_CHS_STATE.credit e (b.rd F.TIL_CHS_STATE.credit e - 1)).addSat F.TIL_CHS_STATE.stall e (c.cycle - x.began)).sends.erase x
      = [] := by
    refine (congrArg (List.erase · x) hsends).trans ?_
    exact List.erase_cons_head ..
  unfold Tile.serveSends
  rw [hpick]
  dsimp only
  rw [if_neg hserved, if_neg hwho, if_neg hwho, hrest, List.nil_append, hK]
  dsimp only
  rw [Tile.serveSends_none _ (by simp [Tile.hand, Tile.setBank])]
  rfl

/-- With a credit, and no send before it, a message of the scratchpad is handed over for the cycle after next. -/
theorem Tile.startSend_credit (hwho : who ≠ .cp) (hopen : b.rd F.TIL_CHS_STATE.state e = 1) (hcredit : 1 ≤ b.rd F.TIL_CHS_STATE.credit e)
    (hmax : b.rd F.TIL_CHS_STATE.credit e ≤ 16) (hsends : b.sends = []) (hports : b.PortsIdle c) :
    ∃ (r : RegFile) (l : List SendSt) (K : BankSt),
      b.startSend c who e addr len [] = ({ b with
        regs := r, sends := l, bank := K
        outbox := b.outbox ++ [⟨c.cycle + 2, 0, false, .chanMsg (b.rd F.TIL_CHS_CFG.remote e == 1) (b.rd F.TIL_CHS_CFG.eid e)
          (b.rd F.TIL_CHS_CFG.tile e) (b.rd F.TIL_CHS_CFG.queue e) e (Mem.bytes 0 b.spad addr len)⟩] }, []) ∧
      r.rd F.TIL_CHS_STATE.credit 0 e = b.rd F.TIL_CHS_STATE.credit e - 1 := by
  have hnot2 : b.rd F.TIL_CHS_STATE.state e ≠ 2 := by rw [hopen]; decide
  obtain ⟨K, hK⟩ := Tile.serveSends_one (e := e) (b := { b with sends := [⟨who, e, addr, len, [], none, c.cycle⟩] }) 5 hwho rfl rfl rfl hopen
    hcredit hports
  refine ⟨((b.wr F.TIL_CHS_STATE.credit e (b.rd F.TIL_CHS_STATE.credit e - 1)).addSat F.TIL_CHS_STATE.stall e (c.cycle - c.cycle)).regs,
    [⟨who, e, addr, len, [], some (c.cycle + 2), c.cycle⟩], K, ?_, ?_⟩
  · unfold Tile.startSend
    rw [if_neg hnot2, hsends]
    exact hK
  · refine (RegFile.rd_addSat_ne _ _ (by simp [F.TIL_CHS_STATE.stall, F.TIL_CHS_STATE.credit])).trans ((RegFile.rd_wr_same ..).trans ?_)
    exact Nat.mod_eq_of_lt (by change _ < 2 ^ 5; omega)

end

end Sys2Proof.Machine

namespace Sys2Proof.Proofs
open Sys2Proof.Machine

section
variable {s : State} {t f : Nat} {d : FDesc} (ht : t < 2304) (hg : s.gatedNow = false)
include ht hg

/-- FUSED_RECV (R190, R249, R253). -/
theorem fusedRecv_spec {m : Msg} {r : List Msg} (hat : (s.seen t).FusedAt (s.ctx t) f 1 d)
    (halone : ∀ g, g ≠ f → ((s.seen t).fslot g).busy = false) (hblk : (s.seen t).seq.blk = none)
    (hopen : (s.seen t).rd F.TIL_CHQ_STATE.state d.recvQueue = 1) (hcp : (s.seen t).cpInbound ≠ some d.recvQueue)
    (hqueue : (s.seen t).queue d.recvQueue = m :: r) (hlen : m.bytes.length ≤ 4096) (hports : (s.seen t).PortsIdle (s.ctx t))
    (hatoms : (s.seen t).bank.atoms = []) (hwf : Mem.wf 0 (s.seen t).spad = true) :
    ∃ x : Tile, exec (.fusedRecv t f) s = .next (s.withTile t x []) ∧
      x.outbox = (s.seen t).outbox ++ [⟨s.cycle + (m.bytes.length + 63) / 64 + 1, d.recvQueue, true,
        .chanReply m.remote m.srcEid m.src 3 m.sendIndex 1⟩] ∧
      x.queue d.recvQueue = r ∧ Mem.bytes 0 x.spad d.recvBuf m.bytes.length = m.bytes ∧
      (∀ a, a < d.recvBuf ∨ d.recvBuf + m.bytes.length ≤ a → Mem.get 0 x.spad a = Mem.get 0 (s.seen t).spad a) ∧
      (x.fslot f).step = d.after 1 ∧ (x.fslot f).due = s.cycle + (m.bytes.length + 63) / 64 + 1 := by
  obtain ⟨K, hrecv⟩ := Tile.fusedRecv_eq hat halone hblk hopen hcp hqueue hlen hports hatoms
  obtain ⟨-, -, -, hdesc, -⟩ := hat
  refine ⟨_, exec_clocked ht hg rfl hrecv, rfl, Tab.get_set_same .., Mem.bytes_putBytes 0 m.bytes _ _ hwf,
    fun a ha => Mem.get_putBytes_outside 0 m.bytes _ _ a hwf ha, ?_, ?_⟩
  · rw [Tile.fslot_setFslot_same, Fused.step_goOn hdesc]
  · rw [Tile.fslot_setFslot_same, Fused.due_goOn hdesc]
    rfl

section
variable {n k : Nat} {re : Bool} (hn : n = 2 ∧ k = d.inSlot ∧ re = d.has 5 ∨ n = 3 ∧ k = d.outSlot ∧ re = d.has 6)
  (hat : (s.seen t).FusedAt (s.ctx t) f n d)
include hn hat

/-- FUSED_ARM of a slot that is free and not armed (R192). -/
theorem fusedArm_arms (hre : re = false) (hst : ((s.seen t).slot k).st.armed = false) (hheld : ((s.seen t).slot k).heldBy = none) :
    ∃ x : Tile, exec (.fusedArm t f) s = .next (s.withTile t x []) ∧ (x.slot k).st = .arming ∧ (x.slot k).heldBy = some f ∧
      (x.slot k).progAddr = (if n = 2 then d.inProg else d.outProg) ∧ (x.slot k).baseAddr = (if n = 2 then d.inBase else d.outBase) ∧
      (x.slot k).due = s.cycle + 1 ∧ (x.fslot f).step = d.after n ∧ (x.fslot f).due = s.cycle + 1 ∧
      (∀ j, j ≠ k → x.slot j = (s.seen t).slot j) ∧ x.spad = (s.seen t).spad := by
  have harm := Tile.fusedArm_eq hn hat
  rw [if_neg (by simp [hre, hst, hheld]), if_neg (by simp [hre])] at harm
  obtain ⟨-, -, -, hdesc, -⟩ := hat
  obtain ⟨harming, hheldBy, hprog, hbase, hdue⟩ := Tile.slot_arm_same (b := s.seen t) (c := s.ctx t) k (if n = 2 then d.inProg else d.outProg)
    (if n = 2 then d.inBase else d.outBase) (some f)
  refine ⟨_, exec_clocked ht hg rfl harm, harming, hheldBy, hprog, hbase, hdue, ?_, ?_,
    fun j hj => Tile.slot_setSlot_ne (s.seen t) _ hj.symm, rfl⟩
  · rw [Tile.fslot_setFslot_same, Fused.step_goOn hdesc]
  · rw [Tile.fslot_setFslot_same, Fused.due_goOn hdesc]
    rfl

/-- FUSED_ARM that re-arms a parked slot (R192). -/
theorem fusedArm_rearms (hre : re = true) (hst : ((s.seen t).slot k).st = .parked) (hheld : ((s.seen t).slot k).heldBy = none) :
    ∃ x : Tile, exec (.fusedArm t f) s = .next (s.withTile t x []) ∧ (x.slot k).st = .running ∧ (x.slot k).heldBy = some f ∧
      (x.slot k).prog = ((s.seen t).slot k).prog ∧ (x.slot k).baseAddr = (if n = 2 then d.inBase else d.outBase) ∧
      (x.slot k).baseAt = some (s.cycle + 1) ∧ (x.slot k).due = s.cycle + 2 ∧ (x.fslot f).step = d.after n ∧
      (∀ j, j ≠ k → x.slot j = (s.seen t).slot j) ∧ x.spad = (s.seen t).spad := by
  have harm := Tile.fusedArm_eq hn hat
  rw [if_neg (by simp [hre, hst, hheld]), if_pos hre] at harm
  obtain ⟨-, -, -, hdesc, -⟩ := hat
  obtain ⟨hrunning, hheldBy, hprog, hbase, hbaseAt, hdue⟩ := Tile.slot_rearm_same (b := s.seen t) (c := s.ctx t) k
    (if n = 2 then d.inBase else d.outBase) (some f)
  refine ⟨_, exec_clocked ht hg rfl harm, hrunning, hheldBy, hprog, hbase, hbaseAt, hdue, ?_,
    fun j hj => Tile.slot_setSlot_ne (s.seen t) _ hj.symm, rfl⟩
  rw [Tile.fslot_setFslot_same, Fused.step_goOn hdesc]

/-- FUSED_ARM of a slot that is held, or not in the state that the step asks for (R192). -/
theorem fusedArm_aborts (hf : f < 4) (h : ((s.seen t).slot k).heldBy ≠ none ∨ (re = true ∧ ((s.seen t).slot k).st ≠ .parked) ∨
      (re = false ∧ ((s.seen t).slot k).st.armed = true)) :
    ∃ (x : Tile) (w : Word), exec (.fusedArm t f) s = .next (s.withTile t x [.record 0x06 3 (8 + f) 0 w 0 0 0]) ∧
      (x.fslot f).busy = false ∧ x.rd F.TIL_STREAM_ABORT.reason 0 = 7 ∧ x.rd F.TIL_STREAM_ABORT.slot 0 = 8 + f ∧
      (x.slot k).st = ((s.seen t).slot k).st ∧ (x.slot k).prog = ((s.seen t).slot k).prog := by
  have hcond : ((s.seen t).slot k).heldBy.isSome ∨ (re = true ∧ ((s.seen t).slot k).st ≠ .parked) ∨
      (¬re = true ∧ ((s.seen t).slot k).st.armed = true) := by
    simpa only [Bool.not_eq_true, ne_eq, Option.isSome_iff_ne_none] using h
  have habort := Tile.fusedArm_eq hn hat
  rw [if_pos hcond, Tile.abortFused_eq] at habort
  obtain ⟨hreason, hslot⟩ := Tile.rd_fusedAborted (s.ctx t) f 7 (s.seen t) hf (by decide)
  refine ⟨_, _, exec_clocked ht hg rfl habort, ?_, ?_, ?_, ?_, ?_⟩
  · rw [Tile.settle_fslot, Tile.fusedAborted_fslot]
    rfl
  · rw [Tile.settle_rd, hreason]
  · rw [Tile.settle_rd, hslot]
  · rw [Tile.settle_slot, Tile.fusedAborted_slot, Slot.st_released]
  · rw [Tile.settle_slot, Tile.fusedAborted_slot, Slot.prog_released]

end

/-- FUSED_WAIT (R190, R193). -/
theorem fusedWait_spec (hat : (s.seen t).FusedAt (s.ctx t) f 4 d) (hrest : ∀ k, k < 8 → ((s.seen t).slot k).heldBy = some f →
      ((s.seen t).slot k).st = .idle ∨ ((s.seen t).slot k).st = .parked) :
    ∃ x : Tile, exec (.fusedWait t f) s = .next (s.withTile t x []) ∧ (x.fslot f).step = d.after 4 ∧ (x.fslot f).due = s.cycle + 1 ∧
      ∀ k, ((x.slot k).heldBy ≠ some f ∧ (x.slot k).st = ((s.seen t).slot k).st) := by
  have hwait := Tile.fusedWait_eq hat hrest
  obtain ⟨-, -, -, hdesc, -⟩ := hat
  refine ⟨_, exec_clocked ht hg rfl hwait, ?_, ?_, fun k => ?_⟩
  · rw [Tile.fslot_setFslot_same, Fused.step_goOn hdesc]
  · rw [Tile.fslot_setFslot_same, Fused.due_goOn hdesc]
    rfl
  · have hslot : (((s.seen t).unhold f).setFslot f (((s.seen t).fslot f).goOn 4 ((s.ctx t).cycle + 1))).slot k = ((s.seen t).slot k).released f :=
      Tile.slot_unhold f k (s.seen t)
    rw [hslot]
    exact ⟨Slot.heldBy_released_ne f _, Slot.st_released f _⟩

section
variable (hat : (s.seen t).FusedAt (s.ctx t) f 5 d) (hsent : ((s.seen t).fslot f).sent = false)
include hat hsent

/-- FUSED_SEND with a credit and no other send (R190, R248). -/
theorem fusedSend_hands (hlen : d.sendLen ≤ (s.seen t).rd F.TIL_CHS_CFG.max_len d.sendIndex * 16)
    (hopen : (s.seen t).rd F.TIL_CHS_STATE.state d.sendIndex = 1) (hcredit : 1 ≤ (s.seen t).rd F.TIL_CHS_STATE.credit d.sendIndex)
    (hmax : (s.seen t).rd F.TIL_CHS_STATE.credit d.sendIndex ≤ 16) (hsends : (s.seen t).sends = []) (hports : (s.seen t).PortsIdle (s.ctx t)) :
    ∃ x : Tile, exec (.fusedSend t f) s = .next (s.withTile t x []) ∧
      x.outbox = (s.seen t).outbox ++ [⟨s.cycle + 2, 0, false,
        .chanMsg ((s.seen t).rd F.TIL_CHS_CFG.remote d.sendIndex == 1) ((s.seen t).rd F.TIL_CHS_CFG.eid d.sendIndex)
          ((s.seen t).rd F.TIL_CHS_CFG.tile d.sendIndex) ((s.seen t).rd F.TIL_CHS_CFG.queue d.sendIndex) d.sendIndex
          (Mem.bytes 0 (s.seen t).spad d.sendMsg d.sendLen)⟩] ∧
      (x.fslot f).sent = true ∧ (x.fslot f).step = 5 ∧
      x.rd F.TIL_CHS_STATE.credit d.sendIndex = (s.seen t).rd F.TIL_CHS_STATE.credit d.sendIndex - 1 ∧ x.spad = (s.seen t).spad := by
  have hsend := Tile.fusedSend_eq hat hsent
  rw [if_neg (by rw [hopen]; omega)] at hsend
  obtain ⟨-, -, hstep, -, -⟩ := hat
  have hfslot := (s.seen t).fslot_setFslot_same f { (s.seen t).fslot f with sent := true }
  obtain ⟨r, l, K, hstart, hrd⟩ := Tile.startSend_credit (b := (s.seen t).setFslot f { (s.seen t).fslot f with sent := true }) (c := s.ctx t)
    (who := .fused f) (addr := d.sendMsg) (len := d.sendLen) nofun hopen hcredit hmax hsends hports
  exact ⟨_, exec_clocked ht hg rfl (hsend.trans hstart), rfl, congrArg Fused.sent hfslot, (congrArg Fused.step hfslot).trans hstep, hrd, rfl⟩

/-- FUSED_SEND with a BROKEN entry (R248). -/
theorem fusedSend_refused (hlen : d.sendLen ≤ (s.seen t).rd F.TIL_CHS_CFG.max_len d.sendIndex * 16)
    (hbroken : (s.seen t).rd F.TIL_CHS_STATE.state d.sendIndex = 2) :
    ∃ x : Tile, exec (.fusedSend t f) s = .next (s.withTile t x []) ∧ (x.fslot f).step = 5 ∧ (x.fslot f).sent = true ∧
      x.refusing = (s.seen t).refusing ++ [(s.cycle + 1, .fused f, d.sendIndex)] ∧ x.sends = (s.seen t).sends ∧ x.spad = (s.seen t).spad := by
  have hsend := Tile.fusedSend_eq hat hsent
  rw [if_neg (by rw [hbroken]; omega)] at hsend
  obtain ⟨-, -, hstep, -, -⟩ := hat
  have hfslot := (s.seen t).fslot_setFslot_same f { (s.seen t).fslot f with sent := true }
  exact ⟨_, exec_clocked ht hg rfl (hsend.trans (Tile.startSend_broken hbroken)), (congrArg Fused.step hfslot).trans hstep,
    congrArg Fused.sent hfslot, rfl, rfl, rfl⟩

/-- FUSED_SEND with an entry that is DISABLED or too short (R190, R248). -/
theorem fusedSend_aborts (hf : f < 4) (h : (s.seen t).rd F.TIL_CHS_STATE.state d.sendIndex = 0 ∨
      (s.seen t).rd F.TIL_CHS_CFG.max_len d.sendIndex * 16 < d.sendLen) :
    ∃ (x : Tile) (w : Word), exec (.fusedSend t f) s = .next (s.withTile t x [.record 0x06 3 (8 + f) 0 w 0 0 0]) ∧
      (x.fslot f).busy = false ∧ x.rd F.TIL_STREAM_ABORT.reason 0 = 8 := by
  have hsend := Tile.fusedSend_eq hat hsent
  rw [if_pos h, Tile.abortFused_eq] at hsend
  obtain ⟨hreason, -⟩ := Tile.rd_fusedAborted (s.ctx t) f 8 (s.seen t) hf (by decide)
  refine ⟨_, _, exec_clocked ht hg rfl hsend, ?_, ?_⟩
  · rw [Tile.settle_fslot, Tile.fusedAborted_fslot]
    rfl
  · rw [Tile.settle_rd, hreason]

end

/-- FUSED_CHAIN (R190). -/
theorem fusedChain_spec (hat : (s.seen t).FusedAt (s.ctx t) f 7 d) (hport : (s.seen t).PortFree (s.ctx t) false d.next 64) :
    ∃ x : Tile, exec (.fusedChain t f) s = .next (s.withTile t x []) ∧
      x.fslot f = { (s.seen t).fslot f with addr := d.next, desc := none, line := some (Mem.bytes 0 (s.seen t).spad d.next 64)
                                            due := s.cycle + 1, done := (((s.seen t).fslot f).done + 1) % 2 ^ 32 } ∧
      (∀ g, g ≠ f → x.fslot g = (s.seen t).fslot g) ∧ x.slots = (s.seen t).slots ∧ x.spad = (s.seen t).spad := by
  obtain ⟨K, hchain⟩ := Tile.fusedChain_eq hat hport
  exact ⟨_, exec_clocked ht hg rfl hchain, Tile.fslot_setFslot_same .., fun g hgf =>
    (Tile.fslot_setFslot_ne _ _ hgf.symm).trans (Tile.fslot_setFslot_ne (s.seen t) _ hgf.symm), rfl, rfl⟩

end

/-- Settles O30: each step is one of the lemmas above. -/
theorem fusedSteps : Obligations.FusedSteps := by
  unfold Obligations.FusedSteps
  intro s t f d ht hf hg
  refine ⟨?recv, ?arm, fun hat hrest => fusedWait_spec ht hg hat hrest, fun hat hsent => ⟨fun hlen => ⟨?hands, ?refused⟩, ?aborts⟩,
    fun hat hport => fusedChain_spec ht hg hat hport⟩
  case recv =>
    intro m r hat halone hblk hopen hcp hqueue hlen hports hatoms hwf
    exact fusedRecv_spec ht hg hat halone hblk hopen hcp hqueue hlen hports hatoms hwf
  case arm =>
    intro n k re hn hat
    exact ⟨fusedArm_arms ht hg hn hat, fusedArm_rearms ht hg hn hat, fusedArm_aborts ht hg hn hat hf⟩
  case hands => exact fusedSend_hands ht hg hat hsent hlen
  case refused => exact fusedSend_refused ht hg hat hsent hlen
  case aborts => exact fusedSend_aborts ht hg hat hsent hf

end Sys2Proof.Proofs
end

section
/-! Transits: how a tile is served, enters its transit, is classified and leaves it (R195, R430, R435 to R440). -/
namespace Sys2Proof.Machine

/-! ### A command on one tile -/

/-- What a command on one tile leaves of the module: its own tile apart, nothing but mailbox locks, the note of its state, the mark of a
fenced job, and what it hands out. -/
def State.Around (s s' : State) : Prop :=
  s' = { s with fresh := s'.fresh, tiles := s'.tiles, regs := s'.regs, tileWas := s'.tileWas, jobFenced := s'.jobFenced, pkts := s'.pkts,
                flits := s'.flits, recs := s'.recs, faults := s'.faults, gbar := s'.gbar, chk := s'.chk }

theorem State.Around.trans {a b c : State} (h1 : a.Around b) (h2 : b.Around c) : a.Around c := by
  unfold State.Around at *
  rw [h2, h1]

theorem State.SameBeside.around {s s' : State} (h : s.SameBeside s') : s.Around s' := by
  unfold State.SameBeside State.Around at *
  rw [h]

theorem State.tileMoved_around (t : Nat) (a b : TileState) (s : State) : s.Around (s.tileMoved t a b) := by
  unfold State.Around
  rw [State.tileMoved_same]

theorem State.withTile_around (s : State) (t : Nat) (x : Tile) (o : List Out) : s.Around (s.withTile t x o) := by
  have hset : s.Around (({ s with fresh := s.fresh + 1 } : State).setTile t x) := rfl
  exact (hset.trans (State.tileMoved_around ..)).trans (State.emits_sameBeside ..).around

/-- The same where the index names no tile. -/
theorem State.onTile_around (s : State) (t : Nat) (f : Ctx → Tile → Tile × List Out) : s.Around (s.onTile t f) := by
  by_cases ht : t < 2304
  · rw [State.onTile_eq s t f ht]
    exact s.withTile_around ..
  · rw [State.onTile_out s t f (Nat.le_of_not_lt ht)]
    exact Eq.refl s

theorem State.tile_onTile_other (s : State) {t u : Nat} (f : Ctx → Tile → Tile × List Out) (h : u ≠ t) : (s.onTile t f).tile u = s.tile u := by
  by_cases ht : t < 2304
  · rw [State.onTile_eq s t f ht]
    obtain ⟨hother, -⟩ := s.withTile_onlyTile t (f (s.ctx t) (s.seen t)).1 (f (s.ctx t) (s.seen t)).2
    exact hother u h
  · rw [State.onTile_out s t f (Nat.le_of_not_lt ht)]

theorem State.rd_onTile (s : State) (t : Nat) (f : Ctx → Tile → Tile × List Out) {g : Fld} (i j : Nat) (h : F.MBX_LOCK.owner.id ≠ g.id) :
    (s.onTile t f).rd g i j = s.rd g i j := by
  by_cases ht : t < 2304
  · rw [State.onTile_eq s t f ht, State.rd_withTile _ _ _ _ _ _ h]
  · rw [State.onTile_out s t f (Nat.le_of_not_lt ht)]

/-! ### A transit begins (R195, R435, R437) -/

/-- The content comes into use: its slot and version are noted, and the module may no longer count as proven. -/
theorem State.useValid_cases (s : State) : ∃ slot version, s.useValid = (s.wr F.ERR_CONTENT.slot 0 0 slot).wr F.ERR_CONTENT.version 0 0 version ∨
    s.useValid = ((s.wr F.ERR_CONTENT.slot 0 0 slot).wr F.ERR_CONTENT.version 0 0 version).unproven :=
  ⟨_, _, ite_eq_or_eq ..⟩

theorem State.useValid_same (s : State) : s.useValid = { s with regs := s.useValid.regs } := by
  obtain ⟨slot, version, h | h⟩ := s.useValid_cases <;> rw [h] <;> rfl

theorem State.rd_useValid (s : State) {g : Fld} (i j : Nat)
    (h : ∀ f ∈ [F.ERR_CONTENT.slot, F.ERR_CONTENT.version, F.RTE_FLEET_STATUS.proven], f.id ≠ g.id) : s.useValid.rd g i j = s.rd g i j := by
  simp only [List.forall_mem_cons, List.not_mem_nil, false_implies, implies_true, and_true] at h
  obtain ⟨hslot, hversion, hproven⟩ := h
  obtain ⟨slot, version, hvalid | hvalid⟩ := s.useValid_cases <;> rw [hvalid]
  · rw [State.rd_wr_ne _ _ (by simp [hversion]), State.rd_wr_ne _ _ (by simp [hslot])]
  · rw [State.unproven, State.rd_wr_ne _ _ (by simp [hproven]), State.rd_wr_ne _ _ (by simp [hversion]), State.rd_wr_ne _ _ (by simp [hslot])]

theorem State.abandonTest_same (t : Nat) (s : State) :
    s.abandonTest t = { s with bg := (s.abandonTest t).bg, regs := (s.abandonTest t).regs } := by
  unfold State.abandonTest
  split
  · split <;> rfl
  · rfl

theorem State.rd_abandonTest (t : Nat) (s : State) {g : Fld} (i j : Nat) (h : F.ERR_BG_STATE.abandoned.id ≠ g.id) :
    (s.abandonTest t).rd g i j = s.rd g i j := by
  unfold State.abandonTest
  split
  · split
    · rfl
    · exact RegFile.rd_addSat_ne _ _ (by simp [h])
  · rfl

/-- The module as tile `t` enters its transit: the content is in use, and a region test of the tile is abandoned. -/
def State.transitReady (t : Nat) (s : State) : State :=
  { s.useValid.abandonTest t with fresh := (s.useValid.abandonTest t).fresh + 4096 }

theorem State.transitReady_same (t : Nat) (s : State) : s.transitReady t = { s with
    regs := (s.transitReady t).regs, bg := (s.transitReady t).bg, fresh := (s.transitReady t).fresh } := by
  unfold State.transitReady
  rw [State.abandonTest_same, State.useValid_same]

/-- The fields that a transit's start may write. -/
def transitFields : List Fld :=
  [F.ERR_CONTENT.slot, F.ERR_CONTENT.version, F.RTE_FLEET_STATUS.proven, F.ERR_BG_STATE.abandoned, F.MBX_LOCK.owner]

theorem State.rd_transitReady (t : Nat) (s : State) {g : Fld} (i j : Nat) (h : ∀ f ∈ transitFields, f.id ≠ g.id) :
    (s.transitReady t).rd g i j = s.rd g i j :=
  (State.rd_abandonTest t _ i j (h _ (by decide))).trans (s.rd_useValid i j fun f hf => h f (by
    simp only [transitFields, List.mem_cons, List.not_mem_nil, or_false] at hf ⊢
    tauto))

/-- The transit that a tile enters in this cycle. -/
theorem Tile.enterTransit_spec (c : Ctx) (urgent : Bool) (junk : List Byte) (tl : Tile) : ∃ (x : Tile) (r : TransitSt),
    tl.enterTransit c urgent junk = (x, []) ∧ x.st = .transit ∧ x.transit = some r ∧ r.began = c.cycle ∧ r.cls = 0 ∧ r.urgent = urgent :=
  ⟨_, _, rfl, rfl, rfl, rfl, rfl, rfl⟩

/-- The module after tile `t`'s own part of its entry to the transit. -/
def State.inTransit (t : Nat) (s : State) : State :=
  (s.transitReady t).onTile t fun c tl => tl.enterTransit c (s.urgent.contains t) (freeBytes (s.useValid.abandonTest t).fresh 4096)

theorem State.startTransit_eq (s : State) (t : Nat) : s.startTransit t = { s.inTransit t with
    windows := (s.inTransit t).windows.filter (· != t), due := (s.inTransit t).due.filter (· != t)
    urgent := (s.inTransit t).urgent.filter (· != t), saves := (s.inTransit t).saves ++ [t] } := rfl

/-- What waits for a transit is as it was when the tile's own part is done. -/
theorem State.inTransit_lists (s : State) (t : Nat) : (s.inTransit t).windows = s.windows ∧ (s.inTransit t).due = s.due ∧
    (s.inTransit t).urgent = s.urgent ∧ (s.inTransit t).saves = s.saves ∧ (s.inTransit t).dueAt = s.dueAt := by
  have hround : (s.transitReady t).Around (s.inTransit t) := State.onTile_around ..
  unfold State.Around at hround
  rw [hround, State.transitReady_same]
  exact ⟨rfl, rfl, rfl, rfl, rfl⟩

/-- A tile that starts its transit leaves the lists of those that wait, and takes a save slot. -/
theorem State.startTransit_lists (s : State) (t : Nat) : (s.startTransit t).windows = s.windows.filter (· != t) ∧
    (s.startTransit t).due = s.due.filter (· != t) ∧ (s.startTransit t).urgent = s.urgent.filter (· != t) ∧
    (s.startTransit t).saves = s.saves ++ [t] ∧ (s.startTransit t).dueAt = s.dueAt := by
  obtain ⟨hwindows, hdue, hurgent, hsaves, hdueAt⟩ := s.inTransit_lists t
  rw [State.startTransit_eq, hwindows, hdue, hurgent, hsaves]
  exact ⟨rfl, rfl, rfl, rfl, hdueAt⟩

theorem State.startTransit_tile (s : State) {t : Nat} (ht : t < 2304) : ∃ r : TransitSt, ((s.startTransit t).tile t).st = .transit ∧
    ((s.startTransit t).tile t).transit = some r ∧ r.began = s.cycle ∧ r.cls = 0 ∧ r.urgent = s.urgent.contains t := by
  obtain ⟨x, r, hx, hst, htransit, hbegan, hcls, hurgent⟩ := Tile.enterTransit_spec ((s.transitReady t).ctx t) (s.urgent.contains t)
    (freeBytes (s.useValid.abandonTest t).fresh 4096) ((s.transitReady t).seen t)
  have htile : (s.startTransit t).tile t = x := by
    rw [State.startTransit_eq]
    show (s.inTransit t).tile t = x
    rw [State.inTransit, State.onTile_eq _ _ _ ht, State.tile_withTile, hx]
  have hcycle : ((s.transitReady t).ctx t).cycle = s.cycle := (congrArg State.cycle (s.transitReady_same t) :)
  exact ⟨r, by rw [htile, hst], by rw [htile, htransit], hbegan.trans hcycle, hcls, hurgent⟩

theorem State.startTransit_other (s : State) {t u : Nat} (h : u ≠ t) : (s.startTransit t).tile u = s.tile u := by
  have hready : (s.transitReady t).tile u = s.tile u := (congrArg (State.tile · u) (s.transitReady_same t) :)
  rw [State.startTransit_eq]
  show (s.inTransit t).tile u = s.tile u
  rw [State.inTransit, State.tile_onTile_other _ _ h, hready]

theorem State.rd_startTransit (s : State) (t : Nat) {g : Fld} (i j : Nat) (h : ∀ f ∈ transitFields, f.id ≠ g.id) :
    (s.startTransit t).rd g i j = s.rd g i j := by
  rw [State.startTransit_eq]
  show (s.inTransit t).rd g i j = s.rd g i j
  rw [State.inTransit, State.rd_onTile _ t _ i j (h _ (by decide)), s.rd_transitReady t i j h]

/-! ### Serving those that are due (R429, R435) -/

/-- With nobody waiting nobody is served. -/
theorem State.serveDue_none (n : Nat) {s : State} (hurgent : s.urgent = []) (hdue : s.due = []) : s.serveDue n = s := by
  cases n with
  | zero => rfl
  | succ n =>
    unfold State.serveDue
    rw [hurgent, hdue]
    exact ite_self s

/-- Serving the others leaves a tile that does not wait as it is, outside the save slots, and the fields that no transit writes. -/
theorem State.serveDue_keeps (n : Nat) {s : State} {t : Nat} (hdue : t ∉ s.due) (hurgent : t ∉ s.urgent) (hsaves : t ∉ s.saves) :
    (s.serveDue n).tile t = s.tile t ∧ t ∉ (s.serveDue n).saves ∧
    ∀ (g : Fld) (i j : Nat), (∀ f ∈ transitFields, f.id ≠ g.id) → (s.serveDue n).rd g i j = s.rd g i j := by
  induction n generalizing s with
  | zero => exact ⟨rfl, hsaves, fun _ _ _ _ => rfl⟩
  | succ n ih =>
    unfold State.serveDue
    split
    · exact ⟨rfl, hsaves, fun _ _ _ _ => rfl⟩
    split
    · exact ⟨rfl, hsaves, fun _ _ _ _ => rfl⟩
    next u hfound =>
      have hu : u ≠ t := by
        rintro rfl
        obtain h | h := List.mem_append.1 (List.mem_of_find?_eq_some hfound)
        · exact hurgent h
        · exact hdue h
      split
      · exact ih (s := { s with windows := s.windows ++ [u], due := s.due.filter (· != u) }) (fun h => hdue (List.mem_filter.1 h).1) hurgent hsaves
      · obtain ⟨-, hdue', hurgent', hsaves', -⟩ := s.startTransit_lists u
        obtain ⟨htile, hkept, hrd⟩ := ih (s := s.startTransit u) (by rw [hdue']; exact fun h => hdue (List.mem_filter.1 h).1)
          (by rw [hurgent']; exact fun h => hurgent (List.mem_filter.1 h).1) (by rw [hsaves']; simp [hsaves, hu.symm])
        exact ⟨htile.trans (s.startTransit_other hu.symm), hkept, fun g i j h => (hrd g i j h).trans (s.rd_startTransit u i j h)⟩

/-- The one tile that waits, where it can be served and a save slot is free: RUNNING, it gets a window, else its transit starts. -/
theorem State.serveDue_one (n : Nat) {s : State} {t : Nat} (hopen : 1 ≤ s.rd F.ERR_TRANSIT_CFG.max_open 0 0) (hwindows : s.windows = [])
    (hsaves : s.saves = []) (hurgent : s.urgent = []) (hdue : s.due = [t]) (hserved : s.servable t = true) : s.serveDue (n + 1) =
    if (s.tile t).st = .running then State.serveDue n { s with windows := [t], due := [] } else State.serveDue n (s.startTransit t) := by
  have hroom : ¬s.rd F.ERR_TRANSIT_CFG.max_open 0 0 ≤ s.windows.length + s.saves.length := by
    rw [hwindows, hsaves, List.length_nil]
    omega
  have hfound : (s.urgent ++ s.due).find? s.servable = some t := by
    rw [hurgent, hdue]
    exact List.find?_cons_of_pos hserved
  have hdue' : s.due.filter (· != t) = [] := by simp [hdue]
  rw [State.serveDue, if_neg hroom, hfound]
  dsimp only
  rw [hwindows, hdue']
  rfl

theorem State.servable_running {s : State} {t : Nat} (hwindows : s.windows = []) (hsaves : s.saves = []) (hconj : s.conj = none)
    (hrun : (s.tile t).st = .running) : s.servable t = true := by
  unfold State.servable
  simp [hwindows, hsaves, hconj, hrun]

theorem State.servable_idle {s : State} {t : Nat} (hwindows : s.windows = []) (hsaves : s.saves = []) (hconj : s.conj = none)
    (hadopt : s.adopt = none) (hpending : s.startPending = false) (hidle : (s.tile t).st = .idle) : s.servable t = true := by
  unfold State.servable
  simp [hwindows, hsaves, hconj, hadopt, hpending, hidle]

/-- The module where tile `t` alone waits, since its time `d` has come. -/
def State.dueOnly (t d : Nat) (s : State) : State := { s with due := [t], dueAt := s.dueAt.set t d }

section
variable {s : State} {t d : Nat} (ht : t < 2304) (hvacant : (s.tile t).vacant = false) (hen : s.rd F.ERR_CTRL.transit_en 0 0 = 1)
  (hst : s.st ≠ .dark) (hlast : s.lastDue t = some d) (hdueAt : s.dueAt.find t = none) (hdue : s.due = []) (hwindows : s.windows = [])
include ht hvacant hen hst hlast hdueAt hdue hwindows

/-- A tile whose time has come waits, and those that wait are served. -/
theorem State.transitDue_eq : s.transitDue t = (s.dueOnly t d).serveDue 16 := by
  unfold State.transitDue State.dueOnly
  rw [if_neg (by simp [hvacant, hen, hst, Nat.not_le.2 ht]), hlast]
  dsimp only
  rw [if_neg (by simp [hdue, hwindows, hdueAt]), hdue]
  rfl

variable (hurgent : s.urgent = []) (hsaves : s.saves = []) (hopen : 1 ≤ s.rd F.ERR_TRANSIT_CFG.max_open 0 0) (hconj : s.conj = none)
include hurgent hsaves hopen hconj

/-- A RUNNING tile gets a window (R435). -/
theorem State.transitDue_running (hrun : (s.tile t).st = .running) : s.transitDue t = { s with windows := [t], dueAt := s.dueAt.set t d } := by
  have hserved : (s.dueOnly t d).servable t = true := State.servable_running hwindows hsaves hconj hrun
  rw [State.transitDue_eq ht hvacant hen hst hlast hdueAt hdue hwindows,
    State.serveDue_one 15 (s := s.dueOnly t d) hopen hwindows hsaves hurgent rfl hserved, if_pos (by exact hrun),
    State.serveDue_none 15 (s := { s.dueOnly t d with windows := [t], due := [] }) hurgent rfl]
  exact congrArg (fun l => { s with windows := [t], due := l, dueAt := s.dueAt.set t d }) hdue.symm

/-- An IDLE tile starts its transit at once (R435). -/
theorem State.transitDue_idle (hidle : (s.tile t).st = .idle) (hpending : s.startPending = false) (hadopt : s.adopt = none) :
    s.transitDue t = (s.dueOnly t d).startTransit t := by
  have hserved : (s.dueOnly t d).servable t = true := State.servable_idle hwindows hsaves hconj hadopt hpending hidle
  have hnot : ¬((s.dueOnly t d).tile t).st = .running := by
    show ¬(s.tile t).st = .running
    rw [hidle]
    decide
  obtain ⟨-, hdue', hurgent', -, -⟩ := (s.dueOnly t d).startTransit_lists t
  rw [State.transitDue_eq ht hvacant hen hst hlast hdueAt hdue hwindows,
    State.serveDue_one 15 (s := s.dueOnly t d) hopen hwindows hsaves hurgent rfl hserved, if_neg hnot,
    State.serveDue_none 15 (hurgent'.trans (congrArg (List.filter (· != t)) hurgent)) (hdue'.trans (by simp [State.dueOnly]))]

end

/-! ### Its end (R107, R438, R439) -/

theorem Tile.phaseDiscard_transit (c : Ctx) (n : Nat) (tl : Tile) : (tl.phaseDiscard c n).transit = tl.transit :=
  (congrArg Tile.transit (Tile.onlyLattice_phaseDiscard c n tl) :)

theorem Tile.cpCut_transit (c : Ctx) (tl : Tile) : (tl.cpCut c).transit = tl.transit := by
  have hfreed (q : Nat) (b : Tile) : (b.cpFreed c q).transit = b.transit := by
    unfold Tile.cpFreed Tile.takeMsg
    cases b.queue q <;> rfl
  obtain h | h | ⟨n, q, h⟩ := tl.cpCut_cases c <;> rw [h]
  · rfl
  · rw [hfreed, Tile.phaseDiscard_transit]
    rfl

theorem Tile.transitRestore_transit (c : Ctx) (x : TransitSt) (tl : Tile) : (tl.transitRestore c x).transit = none := by
  have hcommit (b : Tile) : (b.commit c x.cfg (x.began + 200000) false).transit = b.transit := by
    unfold Tile.commit
    dsimp only
    rw [Tile.phaseDiscard_transit]
    exact b.cpCut_transit c
  unfold Tile.transitRestore
  dsimp only
  split
  · split
    · exact hcommit _
    · exact hcommit _
  · exact hcommit _

theorem Tile.toFenced_transit (c : Ctx) (tl : Tile) : (tl.toFenced c).transit = tl.transit :=
  foldl_keeps (fun (t : Tile) (x : SendSt) => t.addSat F.TIL_CHS_STATE.stall x.entry (c.cycle - x.began)) Tile.transit _ (fun _ _ _ => rfl) _

/-- A tile leaves its transit FENCED after a permanent failure, else as it came. -/
theorem Tile.leaveTransit_spec (c : Ctx) (x : TransitSt) (tl : Tile) : (tl.leaveTransit c x).1.transit = none ∧
    (tl.leaveTransit c x).1.st = if x.cls = 3 then .fenced else if x.from_ = .running then .running else .idle := by
  have htransit : ((tl.transitRestore c x).endIdleTransit c x).transit = none := by
    unfold Tile.endIdleTransit
    split <;> exact Tile.transitRestore_transit c x tl
  unfold Tile.leaveTransit
  generalize (tl.transitRestore c x).endIdleTransit c x = y at htransit ⊢
  dsimp only
  split
  · exact ⟨(Tile.toFenced_transit c _).trans htransit, rfl⟩
  split
  · cases y.seq.blk <;> exact ⟨htransit, rfl⟩
  · exact ⟨htransit, rfl⟩

/-- The module whose tile `t` has left its transit `x`, before others are served. -/
def State.leftTransit (t : Nat) (x : TransitSt) (s : State) : State :=
  let s1 := s.onTile t fun c tl => tl.leaveTransit c x
  ((({ s1 with saves := s1.saves.filter (· != t) } : State).addWrap F.ERR_TRANSIT_STATE.completed 0 0 1).addWrap F.ERR_TILE_TEST.transits 0 t 1).wr
    F.ERR_TILE_TEST.since_lo 0 t s.sidereal

theorem State.transitEnd_eq {s : State} {t : Nat} {x : TransitSt} (ht : t < 2304) (hst : (s.tile t).st = .transit)
    (hx : (s.tile t).transit = some x) (hcls : x.cls ≠ 0) (htime : x.began + 200000 ≤ s.cycle) :
    s.transitEnd t = (s.leftTransit t x).serveDue 16 := by
  unfold State.transitEnd
  rw [hx]
  dsimp only
  rw [if_neg (by simp [hst, hcls, Nat.not_le.2 ht, Nat.not_lt.2 htime])]
  rfl

theorem State.leftTransit_lists (s : State) (t : Nat) (x : TransitSt) : (s.leftTransit t x).due = s.due ∧
    (s.leftTransit t x).urgent = s.urgent ∧ (s.leftTransit t x).saves = s.saves.filter (· != t) := by
  have hround : s.Around (s.onTile t fun c tl => tl.leaveTransit c x) := State.onTile_around ..
  unfold State.Around at hround
  unfold State.leftTransit
  rw [hround]
  exact ⟨rfl, rfl, rfl⟩

theorem State.leftTransit_tile (s : State) {t : Nat} (x : TransitSt) (ht : t < 2304) : ((s.leftTransit t x).tile t).transit = none ∧
    ((s.leftTransit t x).tile t).st = if x.cls = 3 then .fenced else if x.from_ = .running then .running else .idle := by
  have htile : (s.leftTransit t x).tile t = ((s.seen t).leaveTransit (s.ctx t) x).1 := by
    show (s.onTile t fun c tl => tl.leaveTransit c x).tile t = _
    rw [State.onTile_eq _ _ _ ht, State.tile_withTile]
  rw [htile]
  exact Tile.leaveTransit_spec ..

/-- The transit counts. -/
theorem State.rd_leftTransit_completed (s : State) (t : Nat) (x : TransitSt) : (s.leftTransit t x).rd F.ERR_TRANSIT_STATE.completed 0 0 =
    (s.rd F.ERR_TRANSIT_STATE.completed 0 0 + 1) % 2 ^ F.ERR_TRANSIT_STATE.completed.width := by
  unfold State.leftTransit
  dsimp only
  rw [State.rd_wr_ne _ _ (by simp [F.ERR_TILE_TEST.since_lo, F.ERR_TRANSIT_STATE.completed]), State.rd_addWrap,
    if_neg (by simp [F.ERR_TILE_TEST.transits, F.ERR_TRANSIT_STATE.completed]), State.rd_addWrap, if_pos rfl]
  have hrd := State.rd_onTile s t (fun c tl => tl.leaveTransit c x) (g := F.ERR_TRANSIT_STATE.completed) 0 0 (by decide)
  exact congrArg (fun n => (n + 1) % 2 ^ F.ERR_TRANSIT_STATE.completed.width) hrd

/-! ### Its classification (R430, R438) -/

theorem State.tileRec_reports (s : State) (t kind unitType unitIndex op : Nat) (s0 s1 s2 s3 : Word) (rept flags status : Nat) :
    s.Reports (s.tileRec t kind unitType unitIndex op s0 s1 s2 s3 rept flags status)
      (s.recOf kind unitType (tileDie t) unitIndex (t % 48) (t / 48) op (tileSensor t) s.coreMv s0 s1 s2 s3 rept flags status) :=
  ⟨_, rfl, rfl, rfl, rfl, rfl, rfl, rfl⟩

/-- What a record is reported by are the packets alone. -/
theorem State.Reports.of_pkts {a b a' b' : State} {r : Rec} (h : a.Reports b r) (ha : a'.pkts = a.pkts) (hb : b'.pkts = b.pkts) : a'.Reports b' r := by
  unfold State.Reports at *
  rw [ha, hb]
  exact h

theorem State.Reports.getLast {a b : State} {r : Rec} (h : a.Reports b r) : ∃ q : VPkt, b.pkts.getLast? = some q ∧ q.rec_ = some r := by
  obtain ⟨q, hpkts, hrec, -⟩ := h
  exact ⟨q, by rw [hpkts, List.getLast?_concat], hrec⟩

/-- The class of the transit of tile `t` is noted. -/
def State.classifyAs (t : Nat) (x : TransitSt) (cls : Nat) (s : State) : State :=
  (s.setTile t { (s.tile t) with transit := some { x with cls := cls } }).wr F.ERR_TILE_TEST.last 0 t cls

theorem State.classifyAs_spec (t : Nat) (x : TransitSt) {cls : Nat} (hcls : cls < 4) (s : State) :
    ((s.classifyAs t x cls).tile t).transit = some { x with cls := cls } ∧ (s.classifyAs t x cls).rd F.ERR_TILE_TEST.last 0 t = cls := by
  refine ⟨?_, (State.rd_wr_same ..).trans (Nat.mod_eq_of_lt hcls)⟩
  show ((s.setTile t { (s.tile t) with transit := some { x with cls := cls } }).tile t).transit = _
  rw [State.tile_setTile, if_pos rfl]

/-- The record of a checksum failure that an urgent transit classifies. -/
def State.checksumRec (t rept : Nat) (s : State) : State :=
  ({ s with fresh := s.fresh + 1 } : State).tileRec t 0x52 2 5 0 (BitVec.ofNat 64 (s.checksumSeq t)) 0 0 0 rept 0 0

theorem State.checksumRec_reports (s : State) (t rept : Nat) : ∃ r : Rec, s.Reports (s.checksumRec t rept) r ∧ r.kind = 0x52 ∧ r.rept = rept :=
  ⟨_, (State.tileRec_reports ..).of_pkts rfl rfl, rfl, rfl⟩

theorem State.rd_classifyAs_katFail (t : Nat) (x : TransitSt) (cls : Nat) (s : State) :
    (s.classifyAs t x cls).rd F.ERR_STATUS.kat_fail 0 0 = s.rd F.ERR_STATUS.kat_fail 0 0 :=
  State.rd_wr_ne _ _ (by simp [F.ERR_TILE_TEST.last, F.ERR_STATUS.kat_fail])

section
variable {s : State} {t k : Nat} {e g : Word} {x : TransitSt} {a b : Bool} (ht : t < 2304) (hst : (s.tile t).st = .transit)
  (hx : (s.tile t).transit = some x) (hcls : x.cls = 0) (htime : x.began + 128193 ≤ s.cycle)
include ht hst hx hcls htime

/-- What the three runs of a kernel come to: the record of its failure, that of the checksum failure, and the class. -/
theorem State.transitClassify_eq {f : Bool} : s.transitClassify t k e g [f, a, b] =
    (if x.urgent = true ∧ x.cls = 0 then (if f then s.katFail t x.urgent k e g [f, a, b] else s).checksumRec t (if f then 2 else 1)
      else if f then s.katFail t x.urgent k e g [f, a, b] else s).classifyAs t x
        (max 0 (if (f && (a || (b || false) || x.urgent)) = true then 3 else if f then 2 else 1)) := by
  unfold State.transitClassify
  rw [hx]
  dsimp only
  rw [if_neg (by simp [hst, Nat.not_le.2 ht, Nat.not_lt.2 htime]), hcls]
  rfl

variable (hurgent : x.urgent = true)
include hurgent

theorem State.transitClassify_urgent_ok : s.transitClassify t k e g [false, a, b] = (s.checksumRec t 1).classifyAs t x 1 := by
  rw [State.transitClassify_eq ht hst hx hcls htime]
  simp [hurgent, hcls]

theorem State.transitClassify_urgent_fails : s.transitClassify t k e g [true, a, b] =
    ((s.katFail t true k e g [true, a, b]).checksumRec t 2).classifyAs t x 3 := by
  rw [State.transitClassify_eq ht hst hx hcls htime]
  simp [hurgent, hcls]

omit hurgent
variable (hplain : x.urgent = false)
include hplain

theorem State.transitClassify_ok : s.transitClassify t k e g [false, a, b] = s.classifyAs t x 1 := by
  rw [State.transitClassify_eq ht hst hx hcls htime]
  simp [hplain]

theorem State.transitClassify_fails : s.transitClassify t k e g [true, a, b] =
    (s.katFail t false k e g [true, a, b]).classifyAs t x (if a || b then 3 else 2) := by
  rw [State.transitClassify_eq ht hst hx hcls htime]
  cases a <;> cases b <;> simp [hplain]

end

/-- The record of a kernel that has failed (R430). -/
theorem State.katFail_reports (s : State) (t k : Nat) (urgent a b : Bool) (e g : Word) : ∃ r : Rec, s.Reports (s.katFail t urgent k e g [true, a, b]) r ∧
    r.kind = 0x50 ∧ r.s0 = BitVec.ofNat 64 k ∧ r.s1 = e ∧ r.s2 = g ∧ r.rept = if a || b then 2 else 1 := by
  refine ⟨_, State.tileRec_reports .., rfl, rfl, rfl, rfl, ?_⟩
  cases a <;> cases b <;> rfl

theorem State.katFail_flags (s : State) (t k : Nat) (urgent : Bool) (e g : Word) (runs : List Bool) :
    (s.katFail t urgent k e g runs).rd F.ERR_STATUS.kat_fail 0 0 = 1 := s.rd_flag_one 0 0 rfl (by decide)

end Sys2Proof.Machine

namespace Sys2Proof.Proofs
open Sys2Proof.Machine

section
variable {s : State} {t d : Nat} (ht : t < 2304)
include ht

/-- An IDLE tile that is due starts its transit at once (R435). -/
theorem transitDue_starts (hvacant : (s.tile t).vacant = false) (hidle : (s.tile t).st = .idle) (hen : s.rd F.ERR_CTRL.transit_en 0 0 = 1)
    (hst : s.st ≠ .dark) (hlast : s.lastDue t = some d) (hdueAt : s.dueAt.find t = none) (hdue : s.due = []) (hurgent : s.urgent = [])
    (hwindows : s.windows = []) (hsaves : s.saves = []) (hpending : s.startPending = false) (hconj : s.conj = none) (hadopt : s.adopt = none)
    (hopen : 1 ≤ s.rd F.ERR_TRANSIT_CFG.max_open 0 0) : ∃ s', exec (.transitDue t) s = .next s' ∧
      (s'.tile t).st = .transit ∧ s'.saves = [t] ∧ s'.windows = [] ∧ s'.due = [] ∧ s'.dueAt = s.dueAt.set t d ∧
      ∀ u, u ≠ t → s'.tile u = s.tile u := by
  obtain ⟨hwindows', hdue', -, hsaves', hdueAt'⟩ := (s.dueOnly t d).startTransit_lists t
  obtain ⟨-, hst', -⟩ := (s.dueOnly t d).startTransit_tile ht
  refine ⟨_, congrArg Host.Outcome.next (State.transitDue_idle ht hvacant hen hst hlast hdueAt hdue hwindows hurgent hsaves hopen hconj hidle hpending hadopt),
    hst', ?_, ?_, ?_, hdueAt', fun u hu => (s.dueOnly t d).startTransit_other hu⟩
  · exact hsaves'.trans (congrArg (· ++ [t]) hsaves)
  · exact hwindows'.trans (congrArg (List.filter (· != t)) hwindows)
  · exact hdue'.trans (by simp [State.dueOnly])

/-- A RUNNING tile enters its transit from its TRNS (R195, R437). -/
theorem transitEnter_spec {rd : BitVec 5} (hrun : (s.tile t).st = .running) (hblk : (s.tile t).seq.blk = some ⟨.transit, rd⟩)
    (hsince : (s.tile t).seq.sinceCycle < s.cycle) (hwindow : t ∈ s.windows) (hslots : (s.tile t).slotsAll (fun x => x.st.atRest) = true)
    (hfused : (s.tile t).fusedAll (fun x => !x.busy) = true) : ∃ (s' : State) (x : TransitSt), exec (.transitEnter t) s = .next s' ∧
      (s'.tile t).st = .transit ∧ (s'.tile t).transit = some x ∧ x.began = s.cycle ∧ x.cls = 0 ∧ x.urgent = s.urgent.contains t ∧
      t ∈ s'.saves ∧ t ∉ s'.windows ∧ ∀ u, u ≠ t → s'.tile u = s.tile u := by
  have henter : s.transitEnter t = s.startTransit t := by
    unfold State.transitEnter
    dsimp only
    rw [hblk]
    exact if_pos ⟨ht, hrun, by simp [hsince], List.contains_iff_mem.2 hwindow, hslots, hfused⟩
  obtain ⟨hwindows, -, -, hsaves, -⟩ := s.startTransit_lists t
  obtain ⟨x, hst, hx, hbegan, hcls, hurgent⟩ := s.startTransit_tile ht
  refine ⟨_, x, congrArg Host.Outcome.next henter, hst, hx, hbegan, hcls, hurgent, ?_, ?_, fun u hu => s.startTransit_other hu⟩
  · simp [hsaves]
  · simp [hwindows]

/-- A transit is classified by its failing kernel (R430, R438). -/
theorem transitClassify_spec {k : Nat} {e g : Word} {x : TransitSt} {a b : Bool} (hst : (s.tile t).st = .transit)
    (hx : (s.tile t).transit = some x) (hcls : x.cls = 0) (htime : x.began + 128193 ≤ s.cycle) :
    (x.urgent = true → ∃ (s' : State) (r : Rec), exec (.transitClassify t k e g [false, a, b]) s = .next s' ∧
      (s'.tile t).transit = some { x with cls := 1 } ∧ s.Reports s' r ∧ r.kind = 0x52 ∧ r.rept = 1 ∧ s'.rd F.ERR_TILE_TEST.last 0 t = 1) ∧
    (x.urgent = true → ∃ (s' : State) (q : VPkt) (r : Rec), exec (.transitClassify t k e g [true, a, b]) s = .next s' ∧
      (s'.tile t).transit = some { x with cls := 3 } ∧ s'.pkts.getLast? = some q ∧ q.rec_ = some r ∧ r.kind = 0x52 ∧ r.rept = 2 ∧
      s'.rd F.ERR_TILE_TEST.last 0 t = 3 ∧ s'.rd F.ERR_STATUS.kat_fail 0 0 = 1) ∧
    (x.urgent = false → ∃ s', exec (.transitClassify t k e g [false, a, b]) s = .next s' ∧ (s'.tile t).transit = some { x with cls := 1 } ∧
      s'.recs = s.recs ∧ s'.pkts = s.pkts ∧ s'.rd F.ERR_TILE_TEST.last 0 t = 1) ∧
    (x.urgent = false → ∃ (s' : State) (r : Rec), exec (.transitClassify t k e g [true, a, b]) s = .next s' ∧ s.Reports s' r ∧ r.kind = 0x50 ∧ r.s1 = e ∧
      r.s0 = BitVec.ofNat 64 k ∧
      r.s2 = g ∧ r.rept = (if a || b then 2 else 1) ∧ s'.rd F.ERR_TILE_TEST.last 0 t = (if a || b then 3 else 2) ∧
      s'.rd F.ERR_STATUS.kat_fail 0 0 = 1 ∧ (s'.tile t).transit = some { x with cls := if a || b then 3 else 2 }) := by
  refine ⟨fun hurgent => ?_, fun hurgent => ?_, fun hplain => ?_, fun hplain => ?_⟩
  · obtain ⟨htransit, hlast⟩ := (s.checksumRec t 1).classifyAs_spec t x (cls := 1) (by decide)
    obtain ⟨r, hr, hkind, hrept⟩ := s.checksumRec_reports t 1
    exact ⟨_, r, congrArg Host.Outcome.next (State.transitClassify_urgent_ok ht hst hx hcls htime hurgent), htransit, hr.of_pkts rfl rfl, hkind,
      hrept, hlast⟩
  · obtain ⟨htransit, hlast⟩ := ((s.katFail t true k e g [true, a, b]).checksumRec t 2).classifyAs_spec t x (cls := 3) (by decide)
    obtain ⟨r, hr, hkind, hrept⟩ := (s.katFail t true k e g [true, a, b]).checksumRec_reports t 2
    obtain ⟨q, hq, hrec⟩ := hr.getLast
    exact ⟨_, q, r, congrArg Host.Outcome.next (State.transitClassify_urgent_fails ht hst hx hcls htime hurgent), htransit, hq, hrec, hkind, hrept,
      hlast, (State.rd_classifyAs_katFail ..).trans (s.katFail_flags t k true e g [true, a, b])⟩
  · obtain ⟨htransit, hlast⟩ := s.classifyAs_spec t x (cls := 1) (by decide)
    exact ⟨_, congrArg Host.Outcome.next (State.transitClassify_ok ht hst hx hcls htime hplain), htransit, rfl, rfl, hlast⟩
  · have hlt : (if a || b then 3 else 2) < 4 := by split <;> decide
    obtain ⟨htransit, hlast⟩ := (s.katFail t false k e g [true, a, b]).classifyAs_spec t x hlt
    obtain ⟨r, hr, hkind, hs0, hs1, hs2, hrept⟩ := s.katFail_reports t k false a b e g
    exact ⟨_, r, congrArg Host.Outcome.next (State.transitClassify_fails ht hst hx hcls htime hplain), hr.of_pkts rfl rfl, hkind, hs1, hs0, hs2, hrept, hlast,
      (State.rd_classifyAs_katFail ..).trans (s.katFail_flags t k false e g [true, a, b]), htransit⟩

/-- A classified transit ends 200,000 cycles after it began (R438, R439). -/
theorem transitEnd_spec {x : TransitSt} (hst : (s.tile t).st = .transit) (hx : (s.tile t).transit = some x) (hcls : x.cls ≠ 0)
    (htime : x.began + 200000 ≤ s.cycle) (hdue : t ∉ s.due) (hurgent : t ∉ s.urgent) : ∃ s', exec (.transitEnd t) s = .next s' ∧ t ∉ s'.saves ∧
      (s'.tile t).st = (if x.cls = 3 then .fenced else if x.from_ = .running then .running else .idle) ∧ (s'.tile t).transit = none ∧
      s'.rd F.ERR_TRANSIT_STATE.completed 0 0 = (s.rd F.ERR_TRANSIT_STATE.completed 0 0 + 1) % 2 ^ F.ERR_TRANSIT_STATE.completed.width := by
  obtain ⟨hdue', hurgent', hsaves'⟩ := s.leftTransit_lists t x
  obtain ⟨htransit, hst'⟩ := s.leftTransit_tile x ht
  obtain ⟨htile, hsaves, hrd⟩ := State.serveDue_keeps 16 (hdue'.symm ▸ hdue) (hurgent'.symm ▸ hurgent) (t := t) (by simp [hsaves'])
  refine ⟨_, congrArg Host.Outcome.next (State.transitEnd_eq ht hst hx hcls htime), hsaves, ?_, ?_, ?_⟩
  · rw [htile, hst']
  · rw [htile, htransit]
  · rw [hrd _ 0 0 (by decide), State.rd_leftTransit_completed]

end

end Sys2Proof.Proofs
end

section
/-! Region tests of scratchpads in the background, and SELF_TEST (R431, R443 to R449). -/
namespace Sys2Proof.Machine

/-! ### What a tile's own time rests on -/

theorem State.seen_congr {s s' : State} {t : Nat} (htile : s'.tile t = s.tile t) (hctx : s'.ctx t = s.ctx t) : s'.seen t = s.seen t := by
  unfold State.seen
  rw [htile, hctx]

/-- The registers that the context of a tile rests on. -/
def ctxFields : List Fld := [F.MEM_GLB_ENABLE_LO.enable, F.MEM_GLB_ENABLE_HI.enable, F.PWR_THROTTLE.level, F.GLB_JOB.job]

/-- Registers that the context does not rest on do not enter it. -/
theorem State.ctx_regs (s : State) {r : RegFile} (t : Nat) (h : ∀ f ∈ ctxFields, r.rd f 0 0 = s.rd f 0 0) :
    ({ s with regs := r } : State).ctx t = s.ctx t := by
  have hrd (f : Fld) (hf : f ∈ ctxFields) : ({ s with regs := r } : State).rd f 0 0 = s.rd f 0 0 := h f hf
  unfold State.ctx State.job State.chansIn State.gatedNow
  rw [hrd _ (by decide), hrd _ (by decide), hrd _ (by decide), hrd _ (by decide)]

theorem State.ctx_flag (s : State) {again f : Fld} (m t : Nat) (h : ∀ g ∈ ctxFields, f.id ≠ g.id ∧ again.id ≠ g.id) :
    (s.flag again f 0 0 m).ctx t = s.ctx t := by
  refine s.ctx_regs t fun g hg => ?_
  obtain ⟨hf, hagain⟩ := h g hg
  exact State.rd_flag_ne s m (by simp [hf]) (by simp [hagain])

/-! ### A tile with a permanent failure (R431) -/

theorem Tile.rd_toFenced (c : Ctx) (tl : Tile) {g : Fld} (j : Nat) (h : F.TIL_CHS_STATE.stall.id ≠ g.id) : (tl.toFenced c).rd g j = tl.rd g j :=
  foldl_keeps (fun (t : Tile) (x : SendSt) => t.addSat F.TIL_CHS_STATE.stall x.entry (c.cycle - x.began)) (Tile.rd · g j) _
    (fun _ _ _ => RegFile.rd_addSat_ne _ _ (by simp [h])) _

theorem Tile.rd_setStop_reason (reason cause pc : Nat) (tl : Tile) :
    (tl.setStop reason cause pc).rd F.TIL_STOP.stop_reason 0 = reason % 2 ^ F.TIL_STOP.stop_reason.width := by
  unfold Tile.setStop
  exact (RegFile.rd_wr_ne _ _ (by decide)).trans ((RegFile.rd_wr_ne _ _ (by decide)).trans (RegFile.rd_wr_same ..))

/-- An IDLE or RUNNING tile with a permanent failure is fenced. -/
theorem State.fenceTest_spec {s : State} {t : Nat} (ht : t < 2304) (hst : (s.seen t).st = .idle ∨ (s.seen t).st = .running) :
    ∃ x : Tile, s.fenceTest t = s.withTile t x [] ∧ x.st = .fenced ∧ x.rd F.TIL_STOP.stop_reason 0 = 5 := by
  unfold State.fenceTest
  rw [State.onTile_eq _ _ _ ht]
  obtain hst | hst := hst <;> rw [hst] <;> refine ⟨_, rfl, rfl, ?_⟩
  · exact (Tile.rd_toFenced _ _ 0 (by decide)).trans (Tile.rd_setStop_reason 5 0 _ _)
  · exact (Tile.rd_toFenced _ _ 0 (by decide)).trans (Tile.rd_setStop_reason 5 0 _ _)

/-- A tile that does not enter OFFLINE keeps the mailbox locks. -/
theorem State.tileMoved_regs (t : Nat) (a : TileState) {b : TileState} (h : b ≠ .offline) (s : State) : (s.tileMoved t a b).regs = s.regs := by
  unfold State.tileMoved
  dsimp only
  rw [if_neg (c := b = .offline ∧ a ≠ .offline) (fun h' => h h'.1)]
  split <;> split <;> rfl

theorem State.rd_withTile_online (s : State) (t : Nat) {x : Tile} (o : List Out) (h : x.st ≠ .offline) (g : Fld) (i j : Nat) :
    (s.withTile t x o).rd g i j = s.rd g i j := by
  have hregs : (s.withTile t x o).regs = s.regs := by
    unfold State.withTile
    rw [State.emits_sameBeside false t (s.seenOuts t ++ o)]
    exact State.tileMoved_regs t (s.tile t).st h (({ s with fresh := s.fresh + 1 } : State).setTile t x)
  exact congrArg (RegFile.rd · g i j) hregs

/-! ### Tables of tests -/

theorem find_filter_ne {α : Type} (m : Tab Nat α) (t : Nat) : (m.filter (fun u _ => u != t)).find t = none := by
  have hnone (l : List (Nat × α)) : Tab.lookupIn (l.filter (fun e => e.1 != t)) t = none := by
    induction l with
    | nil => rfl
    | cons e r ih =>
      by_cases h : e.1 = t
      · rw [List.filter_cons_of_neg (by simp [h]), ih]
      · rw [List.filter_cons_of_pos (by simp [h])]
        exact (if_neg h).trans ih
  exact hnone m.entries

theorem RegFile.rd_addSat_same (r : RegFile) (f : Fld) (i j n : Nat) : (r.addSat f i j n).rd f i j = min (r.rd f i j + n) (2 ^ f.width - 1) := by
  have hlt : min (r.rd f i j + n) (2 ^ f.width - 1) < 2 ^ f.width := by have := Nat.two_pow_pos f.width; omega
  have hwr : (r.wr f i j (min (r.rd f i j + n) (2 ^ f.width - 1))).rd f i j = min (r.rd f i j + n) (2 ^ f.width - 1) := by
    rw [RegFile.rd_wr_same, Nat.mod_eq_of_lt hlt]
  unfold RegFile.addSat
  dsimp only
  split <;> exact hwr

/-! ### Spare columns (R446, R451) -/

theorem State.almWait_same (a : Alm) (s : State) : s.almWait a = { s with regs := (s.almWait a).regs, almQ := (s.almWait a).almQ } := by
  unfold State.almWait
  split <;> rfl

theorem State.rd_almWait_repair (a : Alm) (s : State) : (s.almWait a).rd F.ERR_STATUS.repair 0 0 = s.rd F.ERR_STATUS.repair 0 0 := by
  unfold State.almWait
  split
  · exact State.rd_flag_ne _ _ (by decide) (by decide)
  · rfl

/-- The repairs that stand for the sub-bank `sub` of tile `t`. -/
def State.repairsOf (t sub : Nat) (s : State) : List (Nat × Nat × Nat) := (s.repairs ++ s.newRepairs).filter (fun r => r.1 == t && r.2.1 == sub)

/-- With a spare column left a failing column is replaced. -/
theorem State.softRepair_spare {s : State} {t : Nat} {w : Word} (h : (s.repairsOf t (bits w.toNat 8 6)).length < 4) : ∃ s' : State,
    s.softRepair t w = (s', true) ∧ s'.newRepairs = s.newRepairs ++ [(t, bits w.toNat 8 6, bits w.toNat 16 7)] ∧
    s'.rd F.ERR_STATUS.repair 0 0 = 1 ∧ s'.tiles = s.tiles ∧ s'.pkts = s.pkts := by
  unfold State.softRepair
  dsimp only
  rw [if_neg (by exact Nat.not_le.2 h)]
  refine ⟨_, rfl, ?_⟩
  unfold State.almRec
  refine ⟨(congrArg State.newRepairs (State.almWait_same ..) :), (State.rd_almWait_repair ..).trans ?_,
    (congrArg State.tiles (State.almWait_same ..) :), (congrArg State.pkts (State.almWait_same ..) :)⟩
  exact ({ s with newRepairs := s.newRepairs ++ [(t, bits w.toNat 8 6, bits w.toNat 16 7)] } : State).rd_flag_one 0 0 rfl (by decide)

/-- Without one it is not. -/
theorem State.softRepair_full {s : State} {t : Nat} {w : Word} (h : 4 ≤ (s.repairsOf t (bits w.toNat 8 6)).length) :
    s.softRepair t w = (s, false) := if_pos h

/-! ### Region tests (R444 to R447) -/

/-- The module after the report of a failing word: `rept` is the class of its repeats (R430, R443). -/
def State.badWord (t a bit : Nat) (e g : Word) (rept : Nat) (s : State) : State :=
  (s.flag F.ERR_STATUS.again_count F.ERR_STATUS.bg_fail 0 0 1).scratchFail t a bit e g rept

theorem State.badWord_reports (s : State) (t a bit : Nat) (e g : Word) (rept : Nat) : ∃ r : Rec, s.Reports (s.badWord t a bit e g rept) r ∧
    r.kind = 0x51 ∧ r.rept = rept ∧ r.s2 = e ∧ r.s3 = g :=
  ⟨_, (State.tileRec_reports (s.flag F.ERR_STATUS.again_count F.ERR_STATUS.bg_fail 0 0 1) ..).of_pkts (b' := s.badWord t a bit e g rept) rfl rfl,
    rfl, rfl, rfl, rfl⟩

/-- The report does not enter a tile's context. -/
theorem State.ctx_badWord (s : State) (t a bit u : Nat) (e g : Word) (rept : Nat) : (s.badWord t a bit e g rept).ctx u = s.ctx u :=
  s.ctx_flag (again := F.ERR_STATUS.again_count) (f := F.ERR_STATUS.bg_fail) 1 u (by decide)

section
variable {s : State} {t : Nat}

theorem State.bgStart_starts (ht : t < 2304) (hvacant : (s.tile t).vacant = false) (hst : (s.tile t).st = .idle ∨ (s.tile t).st = .running)
    (hen : s.rd F.ERR_CTRL.bg_enable 0 0 = 1) (hbg : s.bg.find t = none)
    (hpast : ∀ a, s.bgAt.find t = some a → a + s.rd F.ERR_BG_CFG.interval 0 0 ≤ s.cycle) : s.bgStart t =
    { s with bg := s.bg.set t ⟨s.bgNext.get t 0, s.cycle, 0, false, none, false⟩, bgAt := s.bgAt.set t s.cycle } := by
  unfold State.bgStart
  dsimp only
  cases hat : s.bgAt.find t with
  | none => exact if_pos (by simpa [ht, hvacant, hen, hbg] using hst)
  | some a => exact if_pos (by simpa [ht, hvacant, hen, hbg, hpast a hat] using hst)

theorem State.bgStart_early {a : Nat} (hat : s.bgAt.find t = some a) (h : s.cycle < a + s.rd F.ERR_BG_CFG.interval 0 0) : s.bgStart t = s := by
  unfold State.bgStart
  dsimp only
  rw [hat]
  exact if_neg (by simp [Nat.not_le.2 h])

variable {b : BgTest} (hb : s.bg.find t = some b)
include hb

theorem State.bgRedirect_eq : s.bgRedirect t = if b.redirected = true ∨ b.copied ≠ 64 ∨ s.atomicPending t b.region = true then s
    else { s with bg := s.bg.set t { b with redirected := true } } := by
  unfold State.bgRedirect
  rw [hb]

theorem State.bgAbandon_eq (hheld : b.held = false) (htime : b.began + s.rd F.ERR_BG_CFG.interval 0 0 ≤ s.cycle) : s.bgAbandon t =
    ({ s with bg := s.bg.filter (fun u _ => u != t) } : State).addSat F.ERR_BG_STATE.abandoned 0 0 1 := by
  unfold State.bgAbandon State.abandonTest
  rw [hb]
  dsimp only
  rw [if_pos htime, if_neg (by simp [hheld])]

variable (hred : b.redirected = true) (hrest : b.restored = none) (hheld : b.held = false)
include hred hrest hheld

theorem State.bgMarchEnd_clean : s.bgMarchEnd t none [] = s.bgRestore t b := by
  unfold State.bgMarchEnd
  rw [hb]
  exact if_neg (by simp [hred, hrest, hheld])

variable {a bit : Nat} {e g : Word} (hregion : a / 4096 = b.region) (halign : a % 4 = 0) (hbit : bit < 32)
include hregion halign hbit

/-- A mismatch that no repeat shows again is a transient failure. -/
theorem State.bgMarchEnd_transient : s.bgMarchEnd t (some (a, bit, e, g)) [false, false] = (s.badWord t a bit e g 1).bgRestore t b := by
  unfold State.bgMarchEnd
  rw [hb]
  dsimp only
  rw [if_neg (by simp [hred, hrest, hheld]), if_neg (by simp [hregion, halign, Nat.not_le.2 hbit])]
  rfl

/-- A mismatch that a repeat shows again is a permanent failure: its column is replaced, or the tile is fenced. -/
theorem State.bgMarchEnd_permanent {s' : State} {repaired : Bool}
    (hrepair : (s.badWord t a bit e g 2).softRepair t (scratchWord a bit) = (s', repaired)) : s.bgMarchEnd t (some (a, bit, e, g)) [true, false] =
    if repaired then { s' with bg := s'.bg.set t { b with held := true } } else (s'.bgDone t b).fenceTest t := by
  unfold State.badWord at hrepair
  unfold State.bgMarchEnd
  rw [hb]
  dsimp only
  rw [if_neg (by simp [hred, hrest, hheld]), if_neg (by simp [hregion, halign, Nat.not_le.2 hbit]), if_neg (by decide), hrepair]

end

/-- The end of a region test changes the tables of the tests alone. -/
theorem State.bgDone_same (t : Nat) (b : BgTest) (s : State) : s.bgDone t b = { s with
    bg := s.bg.filter (fun u _ => u != t), bgNext := (s.bgDone t b).bgNext, bgSweeps := (s.bgDone t b).bgSweeps } := by
  unfold State.bgDone
  dsimp only
  split <;> rfl

end Sys2Proof.Machine

namespace Sys2Proof.Proofs
open Sys2Proof.Machine

section
variable {s : State} {t : Nat} {b : BgTest} (hb : s.bg.find t = some b) (hred : b.redirected = true) (hrest : b.restored = none)
  (hheld : b.held = false) {a bit : Nat} {e g : Word} (hregion : a / 4096 = b.region) (halign : a % 4 = 0) (hbit : bit < 32)
include hb hred hrest hheld hregion halign hbit

/-- A transient failure is recorded, and the region restored (R446). -/
theorem bgMarchEnd_transient : ∃ (s' : State) (r : Rec), exec (.bgMarchEnd t (some (a, bit, e, g)) [false, false]) s = .next s' ∧
    s'.bg.find t = some { b with restored := some 0 } ∧ s.Reports s' r ∧ r.kind = 0x51 ∧ r.rept = 1 ∧ r.s2 = e ∧ r.s3 = g ∧
    s'.rd F.ERR_STATUS.bg_fail 0 0 = 1 ∧ s'.tiles = s.tiles := by
  obtain ⟨r, hr, hkind, hrept, hs2, hs3⟩ := s.badWord_reports t a bit e g 1
  exact ⟨_, r, congrArg Host.Outcome.next (State.bgMarchEnd_transient hb hred hrest hheld hregion halign hbit), Tab.find_set_same ..,
    hr.of_pkts rfl rfl, hkind, hrept, hs2, hs3, s.rd_flag_one 0 0 rfl (by decide), rfl⟩

/-- A permanent failure with a spare column left is recorded and repaired, and the region held (R446). -/
theorem bgMarchEnd_repaired (hspare : (s.repairsOf t (bits (scratchWord a bit).toNat 8 6)).length < 4) : ∃ (s' : State) (r : Rec),
    exec (.bgMarchEnd t (some (a, bit, e, g)) [true, false]) s = .next s' ∧ s'.bg.find t = some { b with held := true } ∧
    s'.newRepairs = s.newRepairs ++ [(t, bits (scratchWord a bit).toNat 8 6, bits (scratchWord a bit).toNat 16 7)] ∧ s.Reports s' r ∧
    r.kind = 0x51 ∧ r.rept = 2 ∧ s'.rd F.ERR_STATUS.repair 0 0 = 1 ∧ s'.tiles = s.tiles := by
  obtain ⟨r, hr, hkind, hrept, -⟩ := s.badWord_reports t a bit e g 2
  obtain ⟨s', hs', hnew, hrepair, htiles, hpkts⟩ := State.softRepair_spare (s := s.badWord t a bit e g 2) hspare
  exact ⟨_, r, congrArg Host.Outcome.next (State.bgMarchEnd_permanent hb hred hrest hheld hregion halign hbit hs'), Tab.find_set_same .., hnew,
    hr.of_pkts rfl hpkts, hkind, hrept, hrepair, htiles⟩

/-- A permanent failure without a spare column ends the test, and the tile is fenced (R431, R446). -/
theorem bgMarchEnd_fenced (hfull : 4 ≤ (s.repairsOf t (bits (scratchWord a bit).toNat 8 6)).length) (ht : t < 2304)
    (hst : (s.seen t).st = .idle ∨ (s.seen t).st = .running) : ∃ s', exec (.bgMarchEnd t (some (a, bit, e, g)) [true, false]) s = .next s' ∧
    s'.bg.find t = none ∧ s'.newRepairs = s.newRepairs ∧ (s'.tile t).st = .fenced ∧ (s'.tile t).rd F.TIL_STOP.stop_reason 0 = 5 ∧
    ∀ u, u ≠ t → s'.tile u = s.tile u := by
  have hdone := State.bgDone_same t b (s.badWord t a bit e g 2)
  have hseen : ((s.badWord t a bit e g 2).bgDone t b).seen t = s.seen t := by
    rw [hdone]
    exact State.seen_congr rfl (s.ctx_badWord t a bit t e g 2)
  obtain ⟨x, hx, hst', hreason⟩ := State.fenceTest_spec (s := (s.badWord t a bit e g 2).bgDone t b) ht (hseen.symm ▸ hst)
  have hround := ((s.badWord t a bit e g 2).bgDone t b).withTile_around t x []
  obtain ⟨hother, -⟩ := ((s.badWord t a bit e g 2).bgDone t b).withTile_onlyTile t x []
  have hend := State.bgMarchEnd_permanent hb hred hrest hheld hregion halign hbit (State.softRepair_full (s := s.badWord t a bit e g 2) hfull)
  refine ⟨_, congrArg Host.Outcome.next (hend.trans hx), ?_, ?_, ?_, ?_, fun u hu => (hother u hu).trans ?_⟩
  · have hbg : (((s.badWord t a bit e g 2).bgDone t b).withTile t x []).bg = s.bg.filter (fun u _ => u != t) :=
      (congrArg State.bg hround :).trans (congrArg State.bg hdone :)
    rw [hbg]
    exact find_filter_ne s.bg t
  · exact (congrArg State.newRepairs hround :).trans (congrArg State.newRepairs hdone :)
  · rw [State.tile_withTile, hst']
  · rw [State.tile_withTile, hreason]
  · exact (congrArg (State.tile · u) hdone :)

end

/-- A region test that takes longer than the interval is abandoned and counted (R446). -/
theorem bgRegionAbandon_spec {s : State} {t : Nat} {b : BgTest} (hb : s.bg.find t = some b) (hheld : b.held = false)
    (htime : b.began + s.rd F.ERR_BG_CFG.interval 0 0 ≤ s.cycle) : ∃ s', exec (.bgRegionAbandon t) s = .next s' ∧ s'.bg.find t = none ∧
    s'.rd F.ERR_BG_STATE.abandoned 0 0 = min (s.rd F.ERR_BG_STATE.abandoned 0 0 + 1) (2 ^ F.ERR_BG_STATE.abandoned.width - 1) :=
  ⟨_, congrArg Host.Outcome.next (State.bgAbandon_eq hb hheld htime), find_filter_ne s.bg t, RegFile.rd_addSat_same s.regs _ 0 0 1⟩

end Sys2Proof.Proofs
end

section
/-! SELF_TEST and its answer, and transits with the background tests as one statement (R430, R448, R449). -/
namespace Sys2Proof.Machine

/-! ### Counting in a list without repeats -/

theorem length_filter_ne_of_mem {l : List Nat} {t : Nat} (hnodup : l.Nodup) (h : t ∈ l) : (l.filter (fun u => !(t == u))).length = l.length - 1 := by
  have hfilter : l.filter (fun u => !(t == u)) = l.erase t := by
    rw [hnodup.erase_eq_filter]
    exact List.filter_congr fun u _ => by rw [Bool.beq_comm]; rfl
  rw [hfilter, List.length_erase_of_mem h]

theorem length_filter_eq_of_mem {l : List Nat} {t : Nat} (hnodup : l.Nodup) (h : t ∈ l) : (l.filter (fun u => t == u)).length = 1 := by
  rw [show (fun u => t == u) = (· == t) from funext fun u => Bool.beq_comm, ← List.countP_eq_length_filter]
  exact List.count_eq_one_of_mem hnodup h

/-- A scope that names a tile or a die of the module holds tiles of the module alone. -/
theorem lt_of_mem_selfScope {c : Cmd} {t : Nat} (hscope : c.num 2 2 < (match c.num 1 1 with | 0 => 1 | 1 => 4 | 2 => 2304 | _ => 0))
    (h : t ∈ selfScope c) : t < 2304 := by
  unfold selfScope at h
  split at h
  · exact List.mem_range.1 h
  · exact List.mem_range.1 (List.mem_filter.1 h).1
  · rw [List.mem_singleton.1 h]
    split at hscope
    · contradiction
    · contradiction
    · exact hscope
    · exact absurd hscope (Nat.not_lt_zero _)

theorem selfScope_nodup (c : Cmd) : (selfScope c).Nodup := by
  unfold selfScope
  split
  · exact List.nodup_range
  · exact List.nodup_range.filter _
  · exact List.nodup_singleton _

/-! ### SELF_TEST (R448) -/

/-- The tiles that SELF_TEST tests: those of its scope that are IDLE. -/
def State.selfTested (c : Cmd) (s : State) : List Nat := (selfScope c).filter (fun t => (s.tile t).st == .idle && !(s.tile t).vacant)

theorem State.selfTested_nodup (c : Cmd) (s : State) : (s.selfTested c).Nodup := (selfScope_nodup c).filter _

/-- The answer: the tiles tested, those without a fault, with a transient and with a permanent one, those not tested, and those repaired. -/
def selfAnswer (tested clean transient permanent untested : Nat) : List Byte :=
  leBytes 2 tested ++ leBytes 2 clean ++ leBytes 2 transient ++ leBytes 2 permanent ++ leBytes 2 untested ++ leBytes 2 0 ++ leBytes 4 0

theorem selfAnswer_length (a b c d e : Nat) : (selfAnswer a b c d e).length = 16 := by
  simp [selfAnswer, leBytes_length]

/-- Without a fault every tile is clean. -/
theorem State.selfTest_clean (c : Cmd) (s : State) : s.selfTest [] c = s.reply c 0
    (selfAnswer (s.selfTested c).length (s.selfTested c).length 0 0 ((selfScope c).length - (s.selfTested c).length)) := by
  unfold State.selfTest
  simp [selfAnswer, State.selfTested]

/-- A permanent fault of one tile's kernel counts as that tile's. -/
theorem State.selfTest_kernel {c : Cmd} {s : State} {t x : Nat} (ht : t ∈ s.selfTested c) (hkernels : bits (c.num 0 1) 1 1 = 1)
    (hnew : (s.found (t, 2, x)).newRepairs = []) : s.selfTest [(t, 2, x)] c = (s.found (t, 2, x)).reply c 0
    (selfAnswer (s.selfTested c).length ((s.selfTested c).length - 1) 0 1 ((selfScope c).length - (s.selfTested c).length)) := by
  have hfound : [(t, 2, x)].filter (selfFound c (s.selfTested c)) = [(t, 2, x)] := by
    refine List.filter_eq_self.2 fun p hp => ?_
    rw [List.mem_singleton.1 hp]
    unfold selfFound
    simp [ht, hkernels]
  have hclean := length_filter_ne_of_mem (s.selfTested_nodup c) ht
  have hfault := length_filter_eq_of_mem (s.selfTested_nodup c) ht
  unfold State.selfTest
  dsimp only
  rw [show (selfScope c).filter (fun t => (s.tile t).st == .idle && !(s.tile t).vacant) = s.selfTested c from rfl, hfound]
  simp [selfAnswer, hclean, hfault, hnew]

/-- A permanent fault of a kernel is reported, and the tile fenced (R431). -/
theorem State.found_kernel (s : State) (t x : Nat) : ∃ (e g : Word) (runs : List Bool),
    s.found (t, 2, x) = (({ s with fresh := s.fresh + 3 } : State).katFail t false x e g runs).fenceTest t :=
  ⟨_, _, _, rfl⟩

/-- What the fault leaves: the tile is fenced, the failure is noted, and the mailboxes are as they were. -/
theorem State.found_kernel_spec {s : State} {t x : Nat} (ht : t < 2304) (hidle : (({ s with fresh := s.fresh + 3 } : State).seen t).st = .idle) :
    ((s.found (t, 2, x)).tile t).st = .fenced ∧ (s.found (t, 2, x)).rd F.ERR_STATUS.kat_fail 0 0 = 1 ∧
    (s.found (t, 2, x)).newRepairs = s.newRepairs ∧ (s.found (t, 2, x)).mbx = s.mbx ∧
    ∀ f ∈ mbxFields, ∀ i j, (s.found (t, 2, x)).rd f i j = s.rd f i j := by
  obtain ⟨e, g, runs, hfound⟩ := s.found_kernel t x
  have hflag := ({ s with fresh := s.fresh + 3 } : State).katFail_flags t x false e g runs
  have hmail (f : Fld) (hf : f ∈ mbxFields) (i j : Nat) :
      (({ s with fresh := s.fresh + 3 } : State).katFail t false x e g runs).rd f i j = s.rd f i j := by
    obtain ⟨hkat, hagain⟩ := (by decide : ∀ f ∈ mbxFields, F.ERR_STATUS.kat_fail.id ≠ f.id ∧ F.ERR_STATUS.again_count.id ≠ f.id) f hf
    exact State.rd_flag_ne { s with fresh := s.fresh + 3 } 1 (by simp [hkat]) (by simp [hagain])
  have hseen : (({ s with fresh := s.fresh + 3 } : State).katFail t false x e g runs).seen t = ({ s with fresh := s.fresh + 3 } : State).seen t :=
    State.seen_congr rfl (State.ctx_flag (again := F.ERR_STATUS.again_count) (f := F.ERR_STATUS.kat_fail) { s with fresh := s.fresh + 3 } 1 t
      (by decide))
  have hkept : (({ s with fresh := s.fresh + 3 } : State).katFail t false x e g runs).newRepairs = s.newRepairs ∧
      (({ s with fresh := s.fresh + 3 } : State).katFail t false x e g runs).mbx = s.mbx := ⟨rfl, rfl⟩
  obtain ⟨hnew, hmbx⟩ := hkept
  generalize ({ s with fresh := s.fresh + 3 } : State).katFail t false x e g runs = z at hfound hflag hmail hseen hnew hmbx
  obtain ⟨y, hy, hst, -⟩ := State.fenceTest_spec (s := z) ht (.inl (hseen ▸ hidle))
  have hround := z.withTile_around t y []
  have hrd := z.rd_withTile_online t [] (x := y) (by simp [hst])
  rw [hfound, hy]
  refine ⟨by rw [State.tile_withTile, hst], (hrd _ 0 0).trans hflag, ?_, ?_, fun f hf i j => (hrd f i j).trans (hmail f hf i j)⟩
  · exact (congrArg State.newRepairs hround :).trans hnew
  · exact (congrArg State.mbx hround :).trans hmbx

end Sys2Proof.Machine

namespace Sys2Proof.Proofs
open Sys2Proof.Machine

section
variable {s : State} {k : Nat} {c : Cmd} (ho : s.Offers k c) (hl : s.Legal c) (hcode : c.code = 0x40) (hlen : c.len = 16) (hwhat : c.num 0 1 < 4)
  (hzero : c.zero 4 15 = true) (hscope : c.num 2 2 < (match c.num 1 1 with | 0 => 1 | 1 => 4 | 2 => 2304 | _ => 0)) (hpending : s.startPending = false)
include ho hl hcode hlen hwhat hzero hscope hpending

/-- A legal SELF_TEST with a valid payload acts at once (R387, R448). -/
theorem selfTest_acts (found : List (Nat × Nat × Nat)) : exec (.selfTest k found) s = .next ((s.takeFrom k).selfTest found c) := by
  have hargs : selfArgs c s = 0 := by
    unfold selfArgs
    exact if_pos ⟨hlen, hwhat, hscope, hzero⟩
  have hstate : selfState c s = 0 := by
    unfold selfState
    rw [hpending]
    rfl
  refine congrArg Host.Outcome.next ((State.firmware_legal _ selfArgs selfState (State.selfTest found) ho hl (by rw [hcode]; rfl)).trans ?_)
  rw [hargs, hstate]
  rfl

/-- Without a fault SELF_TEST answers with its counts. -/
theorem selfTest_clean : ∃ s', exec (.selfTest k []) s = .next s' ∧ s'.tiles = s.tiles ∧
    s'.Posts c 0 (selfAnswer (s.selfTested c).length (s.selfTested c).length 0 0 ((selfScope c).length - (s.selfTested c).length)) := by
  have hact := selfTest_acts ho hl hcode hlen hwhat hzero hscope hpending []
  rw [State.selfTest_clean] at hact
  obtain ⟨htiles, -⟩ := State.reply_frame c 0
    (selfAnswer (s.selfTested c).length (s.selfTested c).length 0 0 ((selfScope c).length - (s.selfTested c).length)) (s.takeFrom k)
  exact ⟨_, hact, htiles, (State.takeFrom_answerable ho).reply 0 (by rw [selfAnswer_length]; decide)⟩

/-- A tile with a permanent fault of a kernel is fenced, and counted (R431, R448). -/
theorem selfTest_fences {t x : Nat} (ht : t ∈ s.selfTested c) (hidle : (({ s with fresh := s.fresh + 3 } : State).seen t).st = .idle)
    (hkernels : bits (c.num 0 1) 1 1 = 1) (hnew : s.newRepairs = []) : ∃ s', exec (.selfTest k [(t, 2, x)]) s = .next s' ∧
    s'.rd F.ERR_STATUS.kat_fail 0 0 = 1 ∧ (s'.tile t).st = .fenced ∧
    s'.Posts c 0 (selfAnswer (s.selfTested c).length ((s.selfTested c).length - 1) 0 1 ((selfScope c).length - (s.selfTested c).length)) := by
  have htile : t < 2304 := lt_of_mem_selfScope hscope (List.mem_filter.1 ht).1
  have hseen : ({ s.takeFrom k with fresh := (s.takeFrom k).fresh + 3 } : State).seen t = ({ s with fresh := s.fresh + 3 } : State).seen t :=
    State.seen_congr rfl (State.ctx_regs ({ s with fresh := s.fresh + 3 } : State) t fun f hf => s.rd_takeFrom k 0 0
      ((by decide : ∀ f ∈ ctxFields, ∀ g ∈ mbxFields, g.id ≠ f.id) f hf))
  obtain ⟨hst, hkat, hkept, hmbx, hrd⟩ := State.found_kernel_spec (s := s.takeFrom k) (x := x) htile (by rw [hseen]; exact hidle)
  have hact := selfTest_acts ho hl hcode hlen hwhat hzero hscope hpending [(t, 2, x)]
  rw [State.selfTest_kernel (s := s.takeFrom k) ht hkernels (hkept.trans hnew)] at hact
  obtain ⟨htiles, -⟩ := State.reply_frame c 0 (selfAnswer (s.selfTested c).length ((s.selfTested c).length - 1) 0 1
    ((selfScope c).length - (s.selfTested c).length)) ((s.takeFrom k).found (t, 2, x))
  refine ⟨_, hact, ?_, ?_, ((State.takeFrom_answerable ho).of_mailboxes hmbx hrd).reply 0 (by rw [selfAnswer_length]; decide)⟩
  · exact (State.rd_reply _ _ _ _ 0 0 (by decide)).trans hkat
  · exact (congrArg (fun l : Tab Nat Tile => (l.get t .reset).st) htiles).trans hst

end

/-- Settles O52: each step on a tile's transit, on a region test and on SELF_TEST is the one its rule names, from what its premises say of the
tile, the lists of waiting tiles and the save slots. -/
theorem transitsAndSelfTest : Obligations.TransitsAndSelfTest := by
  unfold Obligations.TransitsAndSelfTest
  refine ⟨⟨?due, ?starts, ?enter, ?classify, ?ends⟩, ?bgStart, ?bgTest, ?self⟩
  case due =>
    intro s t d ht hvacant hrun hen hst hlast hdueAt hdue hurgent hwindows hsaves hconj hopen
    exact congrArg Host.Outcome.next
      (State.transitDue_running ht hvacant hen hst hlast hdueAt hdue hwindows hurgent hsaves hopen hconj hrun)
  case starts =>
    intro s t d ht
    exact transitDue_starts ht
  case enter =>
    intro s t rd ht
    exact transitEnter_spec ht
  case classify =>
    intro s t k e g x a b ht
    exact transitClassify_spec ht
  case ends =>
    intro s t x ht
    exact transitEnd_spec ht
  case bgStart =>
    intro s t ht hvacant hst hen hbg
    exact ⟨fun hpast => congrArg Host.Outcome.next (State.bgStart_starts ht hvacant hst hen hbg hpast),
      fun a hat h => congrArg Host.Outcome.next (State.bgStart_early hat h)⟩
  case bgTest =>
    intro s t b hb
    refine ⟨fun hred hcopied hatomic => ?_, fun h => ?_, fun hred hrest hheld => ⟨?_, ?_⟩, fun hheld htime => bgRegionAbandon_spec hb hheld htime⟩
    · exact congrArg Host.Outcome.next ((State.bgRedirect_eq hb).trans (if_neg (by simp [hred, hcopied, hatomic])))
    · exact congrArg Host.Outcome.next ((State.bgRedirect_eq hb).trans (if_pos h))
    · exact congrArg Host.Outcome.next (State.bgMarchEnd_clean hb hred hrest hheld)
    · rintro a bit e g _ hregion halign hbit rfl
      exact ⟨bgMarchEnd_transient hb hred hrest hheld hregion halign hbit, bgMarchEnd_repaired hb hred hrest hheld hregion halign hbit,
        bgMarchEnd_fenced hb hred hrest hheld hregion halign hbit⟩
  case self =>
    rintro s k c _ ho hl hcode hlen hwhat hzero hscope hpending rfl
    exact ⟨selfTest_clean ho hl hcode hlen hwhat hzero hscope hpending, fun t x ht _ hidle hkernels hnew =>
      selfTest_fences ho hl hcode hlen hwhat hzero hscope hpending ht hidle hkernels hnew⟩

end Sys2Proof.Proofs
end

section
/-! Vesper's endpoints: what a command takes from the inbox, the answers it sends, register accesses at their target, and scratchpad
accesses (R203, R224, R376, R539). -/
namespace Sys2Proof.Machine

/-! ### The inbox and the answers -/

/-- The first element of one kind is also the first of a narrower kind that it is of. -/
theorem find?_and_of_find? {α : Type} {l : List α} {p q : α → Bool} {a : α} (h : l.find? p = some a) (hq : q a = true) :
    l.find? (fun x => p x && q x) = some a := by
  obtain ⟨hp, before, after, rfl, hbefore⟩ := List.find?_eq_some_iff_append.1 h
  refine List.find?_eq_some_iff_append.2 ⟨by rw [hp, hq]; rfl, before, after, rfl, fun x hx => ?_⟩
  have hx' := hbefore x hx
  rw [Bool.not_eq_true'] at hx' ⊢
  rw [hx', Bool.false_and]

theorem State.takeInbox_found {s : State} {q : VPkt → Bool} {p : VPkt} (f : VPkt → State → State) (h : s.inbox.find? q = some p) :
    s.takeInbox q f = f p (s.took p) := by
  unfold State.takeInbox
  rw [h]
  rfl

/-- What a tile's command finds does not depend on the inbox. -/
theorem State.seen_took (s : State) (p : VPkt) (t : Nat) : (s.took p).seen t = s.seen t := State.seen_congr rfl rfl

/-- The packet `q` enters the mesh as the newest. -/
def State.sends (s : State) (q : VPkt) : State := { s with pkts := s.pkts ++ [q] }

@[simp] theorem State.tile_sends (s : State) (q : VPkt) (t : Nat) : (s.sends q).tile t = s.tile t := rfl

@[simp] theorem State.tile_took (s : State) (p : VPkt) (t : Nat) : (s.took p).tile t = s.tile t := rfl

theorem State.getLast?_pkts_sends (s : State) (q : VPkt) : (s.sends q).pkts.getLast? = some q := List.getLast?_concat

/-- The packet `q` answers the request `p` with an op (R224). -/
def VPkt.Answers (q p : VPkt) (op : Nat) : Prop := q.op = op ∧ q.dx = p.rx ∧ q.dy = p.ry ∧ q.rtag = p.rtag

/-- A response is the newest packet in the mesh, and nothing else has changed. -/
theorem State.respond_spec (x y from_ : Nat) (p : VPkt) (op : Nat) (w : Word) (data : List Byte) (s : State) : ∃ q : VPkt,
    s.respond x y from_ p op w data = s.sends q ∧ q.Answers p op ∧ q.w = w ∧ q.data = data ∧ q.sent = s.cycle :=
  ⟨_, rfl, ⟨rfl, rfl, rfl, rfl⟩, rfl, rfl, rfl⟩

theorem bits_lt (v lo w : Nat) : bits v lo w < 2 ^ w := Nat.mod_lt _ (Nat.two_pow_pos w)

/-- The status stands in the low bits of an ERROR's word (R281). -/
theorem bits_errWord_status (status reason slot : Nat) (h : status < 2 ^ 16) (hword : status + reason * 2 ^ 16 + slot * 2 ^ 24 < 2 ^ 64) :
    bits (errWord status reason slot).toNat 0 16 = status := by
  unfold errWord bits
  rw [BitVec.toNat_ofNat, Nat.mod_eq_of_lt hword]
  omega

/-! ### Register accesses -/

section
variable {s : State} {off size i j b : Nat} {r : Reg} (hreg : regAt off = some (r, i, j, b))
include hreg

theorem State.ctlRead_fab (clears : Bool) (hfab : inFab off = true) :
    s.ctlRead clears off size = (if clears then s.clearReg r i j b size else s, cutWord (s.word r i j) b size) := by
  simp only [inFab, Bool.and_eq_true, decide_eq_true_eq] at hfab
  have htil : inTil off = false := by
    simp only [inTil, Bool.and_eq_false_iff, decide_eq_false_iff_not]
    omega
  have hchan : inChan off = false := by
    simp only [inChan, Bool.and_eq_false_iff, decide_eq_false_iff_not]
    omega
  unfold State.ctlRead
  rw [if_neg (by omega), if_neg (by omega), hreg]
  dsimp only
  rw [htil, hchan]
  rfl

theorem State.ctlWrite_til (src : Nat) (v : Word) (htil : inTil off = true) :
    s.ctlWrite src off size v = s.onTile i fun c tl => tl.regWrite c r j ⟨b, size, v⟩ := by
  have hoff := htil
  simp only [inTil, Bool.and_eq_true, decide_eq_true_eq] at hoff
  unfold State.ctlWrite
  rw [if_neg (by omega), hreg]
  dsimp only
  rw [htil]
  rfl

end

theorem cutWord_lt (w : Word) (off4 : Nat) : cutWord w off4 8 < 2 ^ 64 := Nat.mod_lt _ (Nat.two_pow_pos _)

theorem State.clearReg_same (s : State) (r : Reg) (i j off4 size : Nat) :
    s.clearReg r i j off4 size = { s with regs := (s.clearReg r i j off4 size).regs } := (s.clearReg_onlyReg r i j off4 size).1

/-- A read of a FAB register is answered with the register's bits, and only registers change besides. -/
theorem State.serveReg_read_fab {s : State} {p : VPkt} {off i j b : Nat} {r : Reg} (hoff : off = bits p.w.toNat 0 28)
    (hctl : bits p.w.toNat 28 1 = 0) (hlong : bits p.w.toNat 29 1 = 0) (hreg : regAt off = some (r, i, j, b)) (hop : p.op = 0)
    (hfab : inFab off = true) : ∃ (g : RegFile) (q : VPkt), s.serveReg p = ({ s with regs := g } : State).sends q ∧ q.Answers p 4 ∧
      leNat (q.data.take 8) = cutWord (s.word r i j) b 8 := by
  obtain ⟨g, hg⟩ : ∃ g, (if (p.src != 2) = true then s.clearReg r i j b 8 else s) = { s with regs := g } := by
    split
    · exact ⟨_, s.clearReg_same r i j b 8⟩
    · exact ⟨_, rfl⟩
  obtain ⟨q, hq, hanswers, -, hdata, -⟩ := State.respond_spec p.dx p.dy p.ep p 4 0 (padTo 16 (leBytes 8 (cutWord (s.word r i j) b 8)))
    { s with regs := g }
  refine ⟨g, q, ?_, hanswers, ?_⟩
  · unfold State.serveReg
    rw [← hoff, hctl, hlong]
    dsimp only
    rw [if_pos hop, if_neg (by decide), if_neg (by decide), State.ctlRead_fab hreg _ hfab, hg]
    exact hq
  · have hword := leNat_wordData (BitVec.ofNat 64 (cutWord (s.word r i j) b 8))
    rw [BitVec.toNat_ofNat, Nat.mod_eq_of_lt (cutWord_lt _ _)] at hword
    rw [hdata, hword]

/-- A write of a host into a tile's register window is the tile's own write, answered ACK. -/
theorem State.serveReg_write_til {s : State} {p : VPkt} {off i j b : Nat} {r : Reg} (hoff : off = bits p.w.toNat 0 28)
    (hctl : bits p.w.toNat 28 1 = 0) (hlong : bits p.w.toNat 29 1 = 0) (hreg : regAt off = some (r, i, j, b)) (hop : p.op = 1)
    (htil : inTil off = true) (hsrc : p.src = 1) (hi : i < 2304) : ∃ (o : List Out) (q : VPkt),
      s.serveReg p =
        (s.withTile i ((s.seen i).regWrite (s.ctx i) r j ⟨b, 8, BitVec.ofNat 64 (leNat (p.data.take 8))⟩).1 o).sends q ∧ q.Answers p 5 := by
  obtain ⟨q, hq, hanswers, -, -, -⟩ := State.respond_spec p.dx p.dy p.ep p 5 0 []
    (s.onTile i fun c tl => tl.regWrite c r j ⟨b, 8, BitVec.ofNat 64 (leNat (p.data.take 8))⟩)
  refine ⟨((s.seen i).regWrite (s.ctx i) r j ⟨b, 8, BitVec.ofNat 64 (leNat (p.data.take 8))⟩).2, q, ?_, hanswers⟩
  rw [← State.onTile_eq s i (fun c tl => tl.regWrite c r j ⟨b, 8, BitVec.ofNat 64 (leNat (p.data.take 8))⟩) hi]
  unfold State.serveReg
  rw [← hoff, hctl, hlong]
  dsimp only
  rw [if_neg (by omega), if_neg (by omega), if_neg (by decide), if_neg (by decide), State.ctlWrite_til hreg _ _ htil]
  exact hq

/-! ### Scratchpad accesses (R376) -/

/-- A read of 64 bytes a cycle ends in the cycle of its last access where all grants are of earlier cycles. -/
theorem Tile.copyLines_read_cycle {c : Ctx} {u : BankUnit} {fuel k a : Nat} {l : List Byte} {tl : Tile} (hbefore : tl.bank.Before k)
    (hfuel : l.length + 64 ≤ 64 * fuel) : (tl.copyLines c u false fuel k a l).2 = k + (l.length + 63) / 64 - 1 := by
  induction fuel generalizing k a l tl with
  | zero => omega
  | succ fuel ih =>
    cases l with
    | nil => rfl
    | cons v r =>
      obtain ⟨K, hask, hbefore', -⟩ := Tile.ask_ahead (c := c) (u := u) (timed := false) (write := false) (a := a)
        (n := ((v :: r).take 64).length) (l := []) hbefore
      have hlen : ((v :: r).drop 64).length = (v :: r).length - 64 := List.length_drop
      have hpos : 0 < (v :: r).length := Nat.succ_pos _
      have hrest := ih (a := a + 64) (l := (v :: r).drop 64) (tl := tl.setBank K) hbefore' (by omega)
      unfold Tile.copyLines
      dsimp only
      rw [if_neg Bool.false_ne_true, hask]
      dsimp only
      rw [hrest, hlen]
      omega

theorem Mem.length_bytes (d : Byte) (m : Mem) (a n : Nat) : (Mem.bytes d m a n).length = n := by
  induction n generalizing a with
  | zero => rfl
  | succ n ih => exact congrArg Nat.succ (ih (a + 1))

/-- The whole read: of the tile only its bank has changed. -/
theorem Tile.copyLines_read_bytes {c : Ctx} {u : BankUnit} {k a n : Nat} {tl : Tile} (hbefore : tl.bank.Before k) (hn : n < 2 ^ 13) :
    ∃ K, tl.copyLines c u false 256 k a (Mem.bytes 0 tl.spad a n) = ((tl.setBank K, []), k + (n + 63) / 64 - 1) := by
  have hlength := Mem.length_bytes 0 tl.spad a n
  obtain ⟨K, hcopy⟩ := Tile.copyLines_read (c := c) (u := u) (fuel := 256) (a := a) (l := Mem.bytes 0 tl.spad a n) hbefore
  have hcycle := Tile.copyLines_read_cycle (c := c) (u := u) (fuel := 256) (a := a) (l := Mem.bytes 0 tl.spad a n) hbefore (by omega)
  exact ⟨K, Prod.ext hcopy (hcycle.trans (by rw [hlength]))⟩

section
variable {s : State} {p : VPkt} {t : Nat} (ht : t = p.dx + 48 * p.dy) (hin : t < 2304)
include ht hin

/-- A tile that takes part in nothing refuses the access with WRONG_STATE (R196, R224). -/
theorem State.serveScratch_refused (hout : (s.seen t).deaf = true ∨ (s.seen t).vacant = true) (hop : p.op = 2 ∨ p.op = 3) : ∃ q : VPkt,
    s.serveScratch p = (s.withTile t (s.seen t) []).sends q ∧ q.Answers p 6 ∧
      bits q.w.toNat 0 16 = 1 := by
  obtain ⟨q, hq, hanswers, hw, -, -⟩ := State.respond_spec p.dx p.dy 0 p 6 (errWord 1 0 0) [] (s.withTile t (s.seen t) [])
  refine ⟨q, ?_, hanswers, ?_⟩
  · unfold State.serveScratch
    dsimp only
    rw [← ht, State.onTile_eq s t _ hin, State.tile_withTile, if_pos hout]
    unfold State.refuseReq
    rw [if_neg (by omega)]
    exact hq
  · rw [hw, bits_errWord_status 1 0 0 (by decide) (by decide)]

/-- Another tile serves it: the copy leaves the tile, and the answer goes out in the cycle of the copy's last access. -/
theorem State.serveScratch_served (hdeaf : (s.seen t).deaf = false) (hvacant : (s.seen t).vacant = false) {s1 : State}
    (hs1 : s1 = s.withTile t (s.seen t) []) {data : List Byte}
    (hdata : data = if p.op = 2 then Mem.bytes 0 (s.seen t).spad (bits p.w.toNat 0 21) (bits p.w.toNat 21 13)
      else p.data.take (bits p.w.toNat 21 13)) {x : Tile} {k : Nat}
    (hcopy : (s.seen t).copyLines (s1.ctx t) .vesper (p.op == 3) 256 s.cycle (bits p.w.toNat 0 21) data = ((x, []), k)) :
    ∃ q : VPkt, s.serveScratch p = (s1.withTile t x []).sends q ∧ q.Answers p (if p.op = 2 then 4 else 5) ∧
      q.data = (if p.op = 2 then data else []) ∧ q.sent = k := by
  obtain ⟨q, hq, hanswers, -, hbytes, hsent⟩ := State.respond_spec p.dx p.dy 0 p (if p.op = 2 then 4 else 5) 0 (if p.op = 2 then data else [])
    { s1.withTile t x [] with cycle := k }
  refine ⟨q, ?_, hanswers, hbytes, hsent⟩
  have htile : s1.tile t = s.seen t := hs1 ▸ State.tile_withTile s t (s.seen t) []
  unfold State.serveScratch
  dsimp only
  rw [← ht, State.onTile_eq s t _ hin, ← hs1, htile, if_neg (by rw [hdeaf, hvacant]; decide)]
  unfold Tile.bytes
  rw [← hdata, hcopy, State.onTile_eq s1 t _ hin]
  unfold State.during
  rw [hq]
  rfl

end

/-! ### Errors of a memory port (R289) -/

/-- An ERROR that answers no request of its slot any more is discarded. -/
theorem Tile.memError_answered {c : Ctx} {k reason tag : Nat} {tl : Tile} (h : ∀ r ∈ (tl.slot k).reqs, r.tag ≠ tag) :
    tl.memError c k reason (some tag) = (tl, []) := by
  have hall : (tl.slot k).reqs.all (fun r => r.tag != tag) = true := List.all_eq_true.2 fun r hr => bne_iff_ne.2 (h r hr)
  unfold Tile.memError
  dsimp only
  rw [if_pos (.inr hall)]

/-- An ERROR for an open request of its slot, or one without tag, aborts the slot. -/
theorem Tile.memError_aborts {c : Ctx} {k reason : Nat} {tag : Option Nat} {tl : Tile} (hk : k < 8) (hreason : reason < 256)
    (hdeaf : tl.deaf = false) (hheld : (tl.slot k).heldBy = none) (h : ∀ t, tag = some t → ∃ r ∈ (tl.slot k).reqs, r.tag = t) :
    tl.Aborts (tl.memError c k reason tag).1 c k reason (tl.memError c k reason tag).2 := by
  have hopen : ¬(tl.deaf = true ∨ tag.any (fun t => (tl.slot k).reqs.all (fun r => r.tag != t)) = true) := by
    rintro (hd | hall)
    · exact Bool.false_ne_true (hdeaf.symm.trans hd)
    · obtain ⟨t, ht, hnone⟩ := (Option.any_eq_true _ _).1 hall
      obtain ⟨r, hr, hrt⟩ := h t ht
      exact bne_iff_ne.1 (List.all_eq_true.1 hnone r hr) hrt
  unfold Tile.memError
  dsimp only
  rw [if_neg hopen]
  have hslot := Tile.onlySlot_setSlot tl k { tl.slot k with reqs := (tl.slot k).reqs.filter (fun r => some r.tag != tag) }
  exact hslot.aborts hk hreason hheld rfl

/-- Commands of other units leave the inbox as it is. -/
theorem State.inbox_withTile (s : State) (t : Nat) (x : Tile) (o : List Out) : (s.withTile t x o).inbox = s.inbox := by
  have h := s.withTile_around t x o
  unfold State.Around at h
  rw [h]

theorem State.tile_withTile_ne (s : State) {t u : Nat} (x : Tile) (o : List Out) (h : u ≠ t) : (s.withTile t x o).tile u = s.tile u :=
  (s.withTile_onlyTile t x o).1 u h

/-- The register access that is found is served, where it does not go to a mailbox. -/
theorem exec_vesperRegAccess {s : State} {p : VPkt} (h : s.inbox.find? (fun p => p.op == 0 || p.op == 1) = some p)
    (hctl : bits p.w.toNat 28 1 = 0) : exec .vesperRegAccess s = .next ((s.took p).serveReg p) := by
  have hnow : (!s.regWaits p) = true := by
    unfold State.regWaits
    rw [hctl]
    rfl
  exact congrArg Host.Outcome.next (State.takeInbox_found State.serveReg (find?_and_of_find? (q := fun p => !s.regWaits p) h hnow))

end Sys2Proof.Machine
namespace Sys2Proof.Proofs
open Sys2Proof.Machine

/-- A scratchpad access that is served, with the copy's result `x` and the cycle `k` of its last access, leaves the other tiles as they are. -/
theorem vesperScratchAccess_served {s : State} {p : VPkt} {t : Nat}
    (hfind : s.inbox.find? (fun p => p.ep == 0 && (p.op == 2 || p.op == 3)) = some p) (ht : t = p.dx + 48 * p.dy) (hin : t < 2304)
    (hdeaf : (s.seen t).deaf = false) (hvacant : (s.seen t).vacant = false) {data : List Byte}
    (hdata : data = if p.op = 2 then Mem.bytes 0 (s.seen t).spad (bits p.w.toNat 0 21) (bits p.w.toNat 21 13)
      else p.data.take (bits p.w.toNat 21 13)) {P : Tile → Prop} {k : Nat}
    (hcopy : ∀ c : Ctx, ∃ x, (s.seen t).copyLines c .vesper (p.op == 3) 256 s.cycle (bits p.w.toNat 0 21) data = ((x, []), k) ∧ P x) :
    ∃ (s' : State) (q : VPkt), exec .vesperScratchAccess s = .next s' ∧ P (s'.tile t) ∧ (∀ u, u ≠ t → s'.tile u = s.tile u) ∧
      s'.pkts.getLast? = some q ∧ q.Answers p (if p.op = 2 then 4 else 5) ∧ q.data = (if p.op = 2 then data else []) ∧ q.sent = k := by
  obtain ⟨x, hx, hP⟩ := hcopy (((s.took p).withTile t (s.seen t) []).ctx t)
  have hseen : (s.took p).seen t = s.seen t := State.seen_took s p t
  obtain ⟨q, hq, hanswers, hbytes, hsent⟩ := State.serveScratch_served (s := s.took p) (p := p) ht hin (hseen ▸ hdeaf) (hseen ▸ hvacant) rfl
    (hseen ▸ hdata) (hseen ▸ hx)
  refine ⟨_, q, congrArg Host.Outcome.next ((State.takeInbox_found State.serveScratch hfind).trans hq), ?_, fun u hu => ?_,
    State.getLast?_pkts_sends _ q, hanswers, hbytes, hsent⟩
  · rwa [State.tile_sends, State.tile_withTile]
  · rw [State.tile_sends, State.tile_withTile_ne _ _ _ hu, State.tile_withTile_ne _ _ _ hu, State.tile_took]

/-- Settles O36, endpoint by endpoint: each command takes the packet it finds out of the inbox and serves it. -/
theorem vesperPackets : Obligations.VesperPackets := by
  unfold Obligations.VesperPackets
  refine ⟨fun s p off r i j b hfind hoff hctl hlong hreg => ⟨fun hop hfab => ?fabRead, fun hop htil hsrc hi => ?tileWrite⟩,
    fun s p t off len hfind ht hin hoff hlen => ⟨fun hdeaf hvacant _ hbefore =>
      ⟨fun hop => ?scratchRead, fun hop hlength hatoms hwf => ?scratchWrite⟩, fun hout => ?scratchRefused⟩,
    fun s t k p ht hfind hk => ⟨fun hdeaf hheld hopen => ?slotAborts, fun hrep hnone => ?discarded⟩⟩
  case fabRead =>
    obtain ⟨g, q, hserve, ⟨hq, hdx, hdy, hrtag⟩, hdata⟩ := State.serveReg_read_fab (s := s.took p) hoff hctl hlong hreg hop hfab
    exact ⟨_, q, (exec_vesperRegAccess hfind hctl).trans (congrArg Host.Outcome.next hserve), rfl, rfl, hq, hdx, hdy, hrtag, hdata⟩
  case tileWrite =>
    obtain ⟨o, q, hserve, hq, hdx, hdy, hrtag⟩ := State.serveReg_write_til (s := s.took p) hoff hctl hlong hreg hop htil hsrc hi
    rw [State.seen_took] at hserve
    exact ⟨_, q, (exec_vesperRegAccess hfind hctl).trans (congrArg Host.Outcome.next hserve), State.inbox_withTile (s.took p) i _ o,
      State.getLast?_pkts_sends _ q, hq, hdx, hdy, hrtag, State.tile_withTile (s.took p) i _ o,
      fun u hu => State.tile_withTile_ne (s.took p) _ o hu⟩
  case scratchRead =>
    have hdata : Mem.bytes 0 (s.seen t).spad off len = if p.op = 2 then
        Mem.bytes 0 (s.seen t).spad (bits p.w.toNat 0 21) (bits p.w.toNat 21 13) else p.data.take (bits p.w.toNat 21 13) := by
      rw [if_pos hop, hoff, hlen]
    have hshort : len < 2 ^ 13 := hlen ▸ bits_lt _ _ 13
    obtain ⟨s', q, hexec, hsame, hothers, hlast, ⟨hq, hdx, hdy, hrtag⟩, hbytes, hsent⟩ :=
      vesperScratchAccess_served hfind ht hin hdeaf hvacant hdata (P := (s.seen t).SameButBank) (k := s.cycle + (len + 63) / 64 - 1) fun c => by
        obtain ⟨K, hcopy⟩ := Tile.copyLines_read_bytes (c := c) (u := .vesper) (a := off) hbefore hshort
        rw [hop, ← hoff]
        exact ⟨_, hcopy, rfl⟩
    rw [hop] at hq hbytes
    exact ⟨s', q, hexec, hsame, hothers, hlast, hq, hdx, hdy, hrtag, hbytes, hsent⟩
  case scratchWrite =>
    have hdata : p.data = if p.op = 2 then
        Mem.bytes 0 (s.seen t).spad (bits p.w.toNat 0 21) (bits p.w.toNat 21 13) else p.data.take (bits p.w.toNat 21 13) := by
      rw [if_neg (by omega), ← hlen, ← hlength, List.take_length]
    have hshort : len < 2 ^ 13 := hlen ▸ bits_lt _ _ 13
    obtain ⟨s', q, hexec, ⟨hsame, hspad⟩, hothers, hlast, ⟨hq, hdx, hdy, hrtag⟩, -, hsent⟩ :=
      vesperScratchAccess_served hfind ht hin hdeaf hvacant hdata
        (P := fun x => (s.seen t).SameButSpad x ∧ x.spad = Mem.putBytes 0 (s.seen t).spad off p.data)
      (k := s.cycle + (len + 63) / 64 - 1) fun c => by
        rw [hop, ← hoff, ← hlength]
        obtain ⟨K, hcopy⟩ := Tile.copyLines_write (c := c) (u := .vesper) (fuel := 256) (a := off) (l := p.data) hbefore hatoms (by omega)
        exact ⟨_, hcopy, rfl, rfl⟩
    rw [hop] at hq
    refine ⟨s', q, hexec, hsame, hothers, ?_, fun a ha => ?_, hlast, hq, hdx, hdy, hrtag, hsent⟩
    · rw [hspad, ← hlength]
      exact Mem.bytes_putBytes 0 p.data _ off hwf
    · rw [hspad]
      exact Mem.get_putBytes_outside 0 p.data _ off a hwf (hlength ▸ ha)
  case scratchRefused =>
    have hop : p.op = 2 ∨ p.op = 3 := by
      have hfound := List.find?_some hfind
      simp only [Bool.and_eq_true, Bool.or_eq_true, beq_iff_eq] at hfound
      exact hfound.2
    obtain ⟨q, hserve, ⟨hq, hdx, hdy, hrtag⟩, hstatus⟩ :=
      State.serveScratch_refused (s := s.took p) ht hin (State.seen_took s p t ▸ hout) hop
    rw [State.seen_took] at hserve
    exact ⟨_, q, congrArg Host.Outcome.next ((State.takeInbox_found State.serveScratch hfind).trans hserve),
      State.tile_withTile (s.took p) t _ [], State.getLast?_pkts_sends _ q, hq, hdx, hdy, hrtag, hstatus⟩
  case slotAborts =>
    have htag (n : Nat) (hn : (if p.rep = 2 then none else some p.rtag) = some n) : ∃ r ∈ ((s.seen t).slot k).reqs, r.tag = n := by
      split at hn
      · exact nomatch hn
      · next hrep => exact Option.some.inj hn ▸ hopen.resolve_left hrep
    have haborts := Tile.memError_aborts (c := s.ctx t) (hk ▸ bits_lt _ _ 3 : k < 8) (bits_lt p.w.toNat 16 8) hdeaf hheld htag
    refine ⟨_, _, congrArg Host.Outcome.next ((State.takeInbox_found _ hfind).trans ((State.onTile_eq _ t _ ht).trans ?_)), haborts⟩
    rw [State.seen_took, ← hk]
    rfl
  case discarded =>
    refine congrArg Host.Outcome.next ((State.takeInbox_found _ hfind).trans ((State.onTile_eq _ t _ ht).trans ?_))
    rw [State.seen_took, ← hk, if_neg hrep, Tile.memError_answered hnone]

end Sys2Proof.Proofs
end

section
/-! Two packets at one output whose stored round-robin input is none of the eight (R219): the refutation of O35. -/
namespace Sys2Proof.Machine

/-- A packet for tile 10 on VC 0 whose head stands on an input of the router of tile 5. -/
def VPkt.onInput (inp : Nat) : VPkt :=
  { x := 5, y := 0, worm := [⟨5, 0, inp, [0]⟩], gone := 0, ready := 0, dx := 10, dy := 0, ep := 0, vc := 0, op := 0, len := 1, src := 0,
    rtag := 0, w := 0, data := [], rx := 5, ry := 0, sent := 0, rep := 0, rec_ := none }

/-- Packets on inputs 0 and 2 need output 3, whose last input on VC 0 is stored as 8. -/
def State.strayTurn : State :=
  { State.reset with pkts := [VPkt.onInput 0, VPkt.onInput 2], vout := Tab.empty.set (5, 3) ⟨none, 3, Tab.empty.set 0 8⟩ }

theorem State.strayTurn_premises : State.strayTurn.OutputIdle 5 0 3 ∧ State.strayTurn.neighbour 5 0 3 = some (6, 0, 1) ∧
    (VPkt.onInput 0).headAt 5 0 = true ∧ (VPkt.onInput 2).headAt 5 0 = true ∧
    State.strayTurn.turnOf (5 + 48 * 0) 3 0 0 < State.strayTurn.turnOf (5 + 48 * 0) 3 0 2 := by
  unfold State.OutputIdle
  decide

/-- The packet on input 2 goes, though input 0 has the lower turn. -/
theorem State.strayTurn_second_goes : VPkt.onInput 2 ∉ (State.strayTurn.vspRouter (5 + 48 * 0) []).pkts := by decide

end Sys2Proof.Machine
namespace Sys2Proof.Proofs
open Sys2Proof.Machine

/-- Refutes O35: `State.turnOf` subtracts the stored last input as a natural number, and agrees with the order of `inputOrder` only where that
input is below 8; the clause on two packets of one virtual channel allows any stored number, one that no run stores too. In
`State.strayTurn` it is 8: the turns of inputs 0 and 2 are 0 and 1, but the router's order is 1, 2, …, 7, 0, and the packet on input 2
goes first. -/
theorem not_vesperRouting : ¬ Obligations.VesperRouting := by
  unfold Obligations.VesperRouting
  rintro ⟨-, htwo, -⟩
  obtain ⟨hidle, hlink, hhead, hhead', hturn⟩ := State.strayTurn_premises
  obtain ⟨s', p', hexec, hpkts, -⟩ := htwo State.strayTurn (VPkt.onInput 0) (VPkt.onInput 2) 5 0 0 2 0 0 [] [] 3 6 0 1 (.refl _) rfl rfl
    (by decide) (by decide) (by decide) (by decide) (by decide) (by decide) (by decide) (by decide) hidle hlink (by decide) hhead hhead'
    (.inr ⟨rfl, hturn⟩)
  have hstays : VPkt.onInput 2 ∈ s'.pkts := hpkts.mem_iff.2 (by simp)
  rw [← Host.Outcome.next.inj hexec] at hstays
  exact State.strayTurn_second_goes hstays

end Sys2Proof.Proofs
end

section
/-! The local barrier of a conjunction whose last episode is over (R226, R227): the refutation of O39. -/
namespace Sys2Proof.Machine

/-- The root of barrier tree 31: RUNNING, alone in its tree, arrived in cycle 999999. -/
def Tile.soloRoot : Tile :=
  ({ Tile.reset with st := .running, arrived := Tab.empty.set 31 999999 }.wr F.TIL_PUL_BAR.enable 31 1).wr F.TIL_PUL_BAR.participant 31 1

/-- A conjunction at port 0 whose one episode is done and which has not been settled. -/
def Conj.complete : Conj :=
  { cmd := ⟨0, 0, 0, 0, 0, [], 0⟩, role := 0, port := 0, episodes := 1, peer := 0, start := 0, running := true, done := 1, gbar := 0, bars := [] }

/-- Tile 5 is the root, and the conjunction is in progress. -/
def State.soloConj : State :=
  { State.reset with st := .running, cycle := 1000000, sidereal := 5000000, tiles := Tab.empty.set 5 Tile.soloRoot, conj := some Conj.complete }

theorem State.soloConj_root :
    State.soloConj.node 5 31 F.TIL_PUL_BAR.enable = 1 ∧ State.soloConj.node 5 31 F.TIL_PUL_BAR.parent = 0 ∧
    State.soloConj.node 5 31 F.TIL_PUL_BAR.global ≠ 1 ∧ State.soloConj.treeOk 31 5 = true ∧ State.soloConj.barRel.find (5, 31) = none ∧
    (State.soloConj.gb 31).local_ = none ∧ (State.soloConj.gb 31).signal = none ∧ State.soloConj.rootArrival 31 5 = some 999999 := by
  decide

/-- The root's arrival ends the conjunction too. -/
theorem State.soloConj_ends : ((State.soloConj.rootArrives 5 31).conjSettle).conj.isSome = false := by decide +kernel

end Sys2Proof.Machine
namespace Sys2Proof.Proofs
open Sys2Proof.Machine

/-- Refutes O39: BARRIER_ROOT_ARRIVAL also settles a conjunction in progress, and the first clause does not ask for `s.conj = none`. In
`State.soloConj` the tree is consistent and has arrived, and the conjunction's last episode is done: the command ends the conjunction,
so that more than the root's release changes. -/
theorem not_pulsarAndGlobalBarriers : ¬ Obligations.PulsarAndGlobalBarriers := by
  unfold Obligations.PulsarAndGlobalBarriers
  rintro ⟨hpulsar, -⟩
  obtain ⟨hroot, -⟩ := hpulsar State.soloConj
  obtain ⟨henable, hparent, hglobal, htree, hrel, hlocal, hsignal, harrival⟩ := State.soloConj_root
  have hnext := hroot 5 31 999999 henable hparent hglobal htree hrel hlocal hsignal harrival (by decide)
  have hstate := Host.Outcome.next.inj hnext
  have hconj := congrArg (fun s : State => s.conj.isSome) hstate
  exact Bool.false_ne_true (State.soloConj_ends.symm.trans hconj)

end Sys2Proof.Proofs
end

section
/-! An atomic landing at a tile that is not yet up to date (R164, R207): the refutation of O31. -/
namespace Sys2Proof.Machine

/-- A RUNNING tile whose slot 0 is to write 1, 1, 1, 1 at 512 in cycle 999999. -/
def Tile.writesAt512 : Tile :=
  { Tile.reset with
    st := .running
    slots := Tab.empty.set 0 { Slot.reset with st := .running, due := 2000000, writes := [⟨999999, 512, List.replicate 4 1, 0, none, false⟩] } }

/-- An atomic addition of 77 to the line at 512 of tile 5, whose write cycle is 1000000. -/
def Landing.addsAt512 : Landing := ⟨5, 1000000, hdrData 5 8 0 0 1 2 false, 77, none⟩

/-- Tile 5 and the landing, in the landing's write cycle. -/
def State.lateAtomic : State :=
  { State.reset with
    st := .running, cycle := 1000000, sidereal := 5000000, tiles := Tab.empty.set 5 Tile.writesAt512, landings := [Landing.addsAt512] }

theorem State.lateAtomic_premises : (State.lateAtomic.seen 5).vacant = false ∧ (State.lateAtomic.seen 5).deaf = false ∧
    (State.lateAtomic.seen 5).calLive none = true ∧ 512 < (State.lateAtomic.seen 5).size ∧
    Mem.wf 0 (State.lateAtomic.seen 5).spad = true := by
  decide +kernel

/-- The tile as brought up to date has read four zero bytes for the landing in cycle 999998. -/
theorem State.lateAtomic_seen : ((State.lateAtomic.seen 5).landingAtom 1000000 512).map (·.bytes) = some (lineBytes 77) := by decide +kernel

/-- LANDING itself reads for it after the slot's write. -/
theorem State.lateAtomic_lands : Mem.bytes 0 ((State.lateAtomic.landNext 5).tile 5).spad 512 64 ≠ lineBytes 77 := by decide +kernel

end Sys2Proof.Machine
namespace Sys2Proof.Proofs
open Sys2Proof.Machine

/-- Refutes O31: LANDING takes the landing out of the list before its tile is brought up to date, so that an atomic landing whose read was due
in a cycle that the tile has not come to yet is read in its write cycle only. In `State.lateAtomic` that read was due in cycle 999998, and
slot 0 writes the same line in cycle 999999: the tile as brought up to date has the result 77, and LANDING stores another one. -/
theorem not_meridianFlits : ¬ Obligations.MeridianFlits := by
  unfold Obligations.MeridianFlits
  rintro ⟨-, -, hlanding⟩
  obtain ⟨hvacant, hdeaf, hlive, hsize, hwf⟩ := State.lateAtomic_premises
  obtain ⟨hplain, -⟩ := hlanding State.lateAtomic 5 Landing.addsAt512 512 (by decide) List.mem_cons_self rfl (by decide)
    (fun m hm _ _ => .inl (List.mem_singleton.1 hm)) (by decide) hvacant
  obtain ⟨-, hatomic⟩ := hplain hdeaf (by decide) hlive (by decide) hsize
  obtain ⟨z, hz, hbytes⟩ := Option.map_eq_some_iff.1 State.lateAtomic_seen
  obtain ⟨x, y, hexec, hsettled, hspad, -⟩ := hatomic z (by decide) hz hwf
  have htile : (State.lateAtomic.landNext 5).tile 5 = x :=
    (congrArg (fun s : State => s.tile 5) (Host.Outcome.next.inj hexec)).trans (State.tile_withTile _ 5 x [])
  have hlength : z.bytes.length = 64 := by
    rw [hbytes]
    decide
  refine State.lateAtomic_lands ?_
  rw [htile, hsettled, Tile.settle_spad, ← hbytes, ← hspad, hlength]

end Sys2Proof.Proofs
end

section
/-! CSEND: a send on an entry with no other send waiting, and the end of one on a BROKEN entry (R91, R243, R244). -/
namespace Sys2Proof.Machine

section
variable {b : Tile} {c : Ctx} {e : Nat}

/-- The tile whose send `x` of entry `e` has taken a credit and is handed over in the cycle after next (R244 steps 2 to 4), its message
read on the bank ports `K`. -/
def Tile.handedOver (c : Ctx) (e : Nat) (x : SendSt) (K : BankSt) (b : Tile) : Tile :=
  { (b.wr F.TIL_CHS_STATE.credit e (b.rd F.TIL_CHS_STATE.credit e - 1)).addSat F.TIL_CHS_STATE.stall e (c.cycle - x.began) with
    sends := b.sends.erase x ++ [{ x with handed := some (c.cycle + 2) }]
    bank := K
    outbox := b.outbox ++ [⟨c.cycle + 2, 0, false, .chanMsg (b.rd F.TIL_CHS_CFG.remote e == 1) (b.rd F.TIL_CHS_CFG.eid e)
      (b.rd F.TIL_CHS_CFG.tile e) (b.rd F.TIL_CHS_CFG.queue e) e (Mem.bytes 0 b.spad x.addr x.len)⟩] }

/-- The credit taken is gone from the entry. -/
theorem Tile.rd_handedOver_credit (x : SendSt) (K : BankSt) {n : Nat} (hcredit : b.rd F.TIL_CHS_STATE.credit e = n) (hmax : n ≤ 16) :
    (b.handedOver c e x K).rd F.TIL_CHS_STATE.credit e = n - 1 := by
  rw [← hcredit] at hmax ⊢
  refine (RegFile.rd_addSat_ne _ _ (by simp [F.TIL_CHS_STATE.stall, F.TIL_CHS_STATE.credit])).trans ((RegFile.rd_wr_same ..).trans ?_)
  exact Nat.mod_eq_of_lt (by change _ < 2 ^ 5; omega)

/-- With a credit the send that comes first is handed over, and those after it are served. -/
theorem Tile.serveSends_hands {x : SendSt} (n : Nat)
    (hpick : pickSend (b.sends.filter (fun x => x.entry == e && x.handed == none)) = some x) (hwho : x.who ≠ .cp)
    (hopen : b.rd F.TIL_CHS_STATE.state e = 1) (hcredit : 1 ≤ b.rd F.TIL_CHS_STATE.credit e) (hports : b.PortsIdle c) :
    ∃ K : BankSt, b.serveSends c e (n + 1) = (b.handedOver c e x K).serveSends c e n := by
  obtain ⟨K, hK⟩ := Tile.readMsg_idle (c := c) (a := x.addr) (n := x.len) (tl := { (b.wr F.TIL_CHS_STATE.credit e
    (b.rd F.TIL_CHS_STATE.credit e - 1)).addSat F.TIL_CHS_STATE.stall e (c.cycle - x.began) with
      sends := b.sends.erase x ++ [{ x with handed := some (c.cycle + 2) }] }) hports
  refine ⟨K, ?_⟩
  have hserved : ¬(b.rd F.TIL_CHS_STATE.credit e = 0 ∨ b.rd F.TIL_CHS_STATE.state e ≠ 1) := by
    rw [hopen]
    omega
  have hsends : ((b.wr F.TIL_CHS_STATE.credit e (b.rd F.TIL_CHS_STATE.credit e - 1)).addSat F.TIL_CHS_STATE.stall e (c.cycle - x.began)).sends
      = b.sends := rfl
  rw [Tile.serveSends, hpick]
  dsimp only
  rw [if_neg hserved, if_neg hwho, if_neg hwho, hsends, hK]
  rfl

/-- The tile with a send of CSEND waiting on entry `e`, for the `len` bytes at `addr`. -/
def Tile.sending (c : Ctx) (e addr len : Nat) (b : Tile) : Tile :=
  { b with sends := b.sends ++ [⟨.csend, e, addr, len, [], none, c.cycle⟩] }

section
variable {addr len : Nat} (hother : ∀ y ∈ b.sends, y.entry ≠ e)
include hother

/-- Of the sends that wait on an entry with no other, CSEND's comes first. -/
theorem Tile.pickSend_sending : pickSend ((b.sending c e addr len).sends.filter (fun x => x.entry == e && x.handed == none)) =
    some ⟨.csend, e, addr, len, [], none, c.cycle⟩ := by
  have hnone : b.sends.filter (fun x => x.entry == e && x.handed == none) = [] :=
    List.filter_eq_nil_iff.2 fun y hy => by simp [hother y hy]
  rw [Tile.sending, List.filter_append, hnone]
  simp [pickSend]

/-- With a credit its message is handed over, and nothing is left to serve. -/
theorem Tile.startSend_hands (hopen : b.rd F.TIL_CHS_STATE.state e = 1) (hcredit : 1 ≤ b.rd F.TIL_CHS_STATE.credit e)
    (hports : b.PortsIdle c) : ∃ K : BankSt, b.startSend c .csend e addr len [] =
      ((b.sending c e addr len).handedOver c e ⟨.csend, e, addr, len, [], none, c.cycle⟩ K, []) := by
  have hnot2 : b.rd F.TIL_CHS_STATE.state e ≠ 2 := by rw [hopen]; decide
  obtain ⟨K, hK⟩ := Tile.serveSends_hands 5 (Tile.pickSend_sending (c := c) (addr := addr) (len := len) hother) nofun hopen hcredit hports
  have hnew : (⟨.csend, e, addr, len, [], none, c.cycle⟩ : SendSt) ∉ b.sends := fun h => hother _ h rfl
  have hleft : (b.sending c e addr len).sends.erase ⟨.csend, e, addr, len, [], none, c.cycle⟩ = b.sends := by
    rw [Tile.sending, List.erase_append_right _ hnew, List.erase_cons_head, List.append_nil]
  refine ⟨K, (if_neg hnot2).trans (hK.trans (Tile.serveSends_none 5 ?_))⟩
  rw [Tile.handedOver, hleft]
  refine List.filter_eq_nil_iff.2 fun y hy => ?_
  obtain hold | hnew := List.mem_append.1 hy
  · simp [hother y hold]
  · simp [List.mem_singleton.1 hnew]

/-- Without a credit it waits. -/
theorem Tile.startSend_waits (hopen : b.rd F.TIL_CHS_STATE.state e = 1) (hcredit : b.rd F.TIL_CHS_STATE.credit e = 0) :
    b.startSend c .csend e addr len [] = (b.sending c e addr len, []) := by
  have hnot2 : b.rd F.TIL_CHS_STATE.state e ≠ 2 := by rw [hopen]; decide
  refine (if_neg hnot2).trans ?_
  change (b.sending c e addr len).serveSends c e 6 = _
  rw [Tile.serveSends, Tile.pickSend_sending hother]
  exact if_pos (.inl hcredit)

end

/-! ### A send that completes CLOSED (R91, R244 step 1) -/

/-- A send that completes CLOSED sets closed_send, and changes no other part of the tile than its registers and pending traps. -/
theorem Tile.closedSend_spec (c : Ctx) (e : Nat) (b : Tile) : ∃ (r : RegFile) (p : List Pend),
    b.closedSend c e = { b with regs := r, seq := { b.seq with pend := p } } ∧ r.rd F.TIL_SEQ_STATUS.closed_send 0 0 = 1 := by
  have hset : ((b.seqFlag c F.TIL_SEQ_STATUS.closed_send).addSat F.TIL_CHS_STATE.closed e 1).regs.rd F.TIL_SEQ_STATUS.closed_send 0 0 = 1 := by
    refine (RegFile.rd_addSat_ne _ _ (by simp [F.TIL_CHS_STATE.closed, F.TIL_SEQ_STATUS.closed_send])).trans ?_
    refine (RegFile.rd_hwSet_same _ _ _ _ _ (by decide)).trans ?_
    exact Nat.or_mod_two_eq_one.2 (.inr rfl)
  unfold Tile.closedSend
  dsimp only
  split
  · exact ⟨_, _, rfl, hset⟩
  · exact ⟨_, _, rfl, hset⟩

/-- A blocked CSEND whose send was refused completes CLOSED. -/
theorem Tile.endRefused_csend {k : Nat} {rd : BitVec 5} (hrefusing : b.refusing = [(k, .csend, e)]) (hdue : k ≤ c.cycle)
    (hblk : b.seq.blk = some ⟨.send e, rd⟩) : ∃ (r : RegFile) (p : List Pend),
    b.endRefused c = ({ b with refusing := [], regs := r, seq := { b.seq with pend := p } } : Tile).complete c rd 1 ∧
      r.rd F.TIL_SEQ_STATUS.closed_send 0 0 = 1 := by
  obtain ⟨r, p, hclosed, hset⟩ := Tile.closedSend_spec c e { b with refusing := [] }
  refine ⟨r, p, ?_, hset⟩
  have hends : b.refusing.filter (fun x => decide (x.1 ≤ c.cycle)) = [(k, .csend, e)] := by simp [hrefusing, hdue]
  have hrest : b.refusing.filter (fun x => decide (c.cycle < x.1)) = [] := by simp [hrefusing, hdue]
  unfold Tile.endRefused
  rw [hends, hrest, List.foldl_cons, List.foldl_nil, hclosed]
  unfold Tile.sendEnds
  dsimp only
  rw [hblk]
  rfl

/-! ### The instruction -/

section
variable {rd ra rb : BitVec 5} {len : Nat}

theorem csendOp_eq {w : BitVec 32} (hoperand : sendOperand (b.gr rb)) (he : e = (b.gr rb).toNat % 64) (hlen : len = (b.gr rb).toNat / 2 ^ 16)
    (hmax : len ≤ b.rd F.TIL_CHS_CFG.max_len e * 16) (hpad : b.InPad (b.gr ra) 16 len) (henabled : b.rd F.TIL_CHS_STATE.state e ≠ 0) {x : Tile}
    (hstart : (b.block c rd (.send e)).startSend c .csend e (b.gr ra).toNat len [] = (x, [])) :
    csendOp c w rd ra rb 0 b = .done x [] := by
  obtain ⟨hzero, hlow, hhigh, hsixteen⟩ := hoperand
  unfold csendOp
  dsimp only
  rw [← he, ← hlen, if_neg (by simp), if_neg (by unfold bits; omega), if_neg (by omega), if_neg (by simp [hpad.addrOk]), hstart]

/-- CSEND with a credit: the message is handed over, and the sequencer waits for its reply. -/
theorem Tile.csend_hands {addr : Nat} (hother : ∀ y ∈ b.sends, y.entry ≠ e) (hopen : b.rd F.TIL_CHS_STATE.state e = 1)
    (hcredit : 1 ≤ b.rd F.TIL_CHS_STATE.credit e) (hcount : b.rd F.TIL_CHS_STATE.credit e ≤ 16) (hports : b.PortsIdle c) :
    ∃ x : Tile, (b.block c rd (.send e)).startSend c .csend e addr len [] = (x, []) ∧
      x.outbox = b.outbox ++ [⟨c.cycle + 2, 0, false, .chanMsg (b.rd F.TIL_CHS_CFG.remote e == 1) (b.rd F.TIL_CHS_CFG.eid e)
        (b.rd F.TIL_CHS_CFG.tile e) (b.rd F.TIL_CHS_CFG.queue e) e (Mem.bytes 0 b.spad addr len)⟩] ∧
      x.rd F.TIL_CHS_STATE.credit e = b.rd F.TIL_CHS_STATE.credit e - 1 ∧ x.seq.blk = some ⟨.send e, rd⟩ ∧
      x.seq.g = b.seq.g ∧ x.seq.pc = b.seq.pc ∧ x.spad = b.spad := by
  obtain ⟨K, hstart⟩ := Tile.startSend_hands (b := b.block c rd (.send e)) (addr := addr) (len := len) hother hopen hcredit hports
  exact ⟨_, hstart, rfl, Tile.rd_handedOver_credit _ K rfl hcount, rfl, rfl, rfl, rfl⟩

end

end

end Sys2Proof.Machine

namespace Sys2Proof.Proofs
open Sys2Proof.Machine

/-- Settles O15: a send with a credit, one without, one on a BROKEN entry, and how that one completes. -/
theorem csendHandsMessageOver : Obligations.CsendHandsMessageOver := by
  unfold Obligations.CsendHandsMessageOver
  intro s t rd ra rb e len hfetch hquiet hoperand he hlen hmax hpad hother
  have hran {x : Tile} (henabled : (s.at_ t).rd F.TIL_CHS_STATE.state e ≠ 0)
      (hstart : ((s.at_ t).block (s.ctx t) rd (.send e)).startSend (s.ctx t) .csend e ((s.at_ t).gr ra).toNat len [] = (x, [])) :
      exec (.csend t rd ra rb 0) s = .next (s.ran t x []) :=
    congrArg _ (State.onClocked_issue_done s t _ (fun c tl => csendOp c (encCmd 12 rd ra rb 0) rd ra rb 0 tl) _ _ hfetch hquiet
      (csendOp_eq hoperand he hlen hmax hpad henabled hstart))
  refine ⟨?hands, ?waits, ?refused, ?closed⟩
  case hands =>
    intro hopen hcredit hcount hports
    obtain ⟨x, hstart, hx⟩ := Tile.csend_hands (rd := rd) (len := len) (addr := ((s.at_ t).gr ra).toNat) hother hopen hcredit hcount hports
    exact ⟨x, hran (by omega) hstart, hx⟩
  case waits =>
    intro hopen hcredit
    exact ⟨_, hran (by omega) (Tile.startSend_waits hother hopen hcredit), rfl, rfl, rfl, rfl⟩
  case refused =>
    intro hbroken
    exact ⟨_, hran (by omega) (Tile.startSend_broken hbroken), rfl, rfl, rfl, rfl, rfl, rfl, rfl⟩
  case closed =>
    intro c b x k hrefusing hdue hblk hx
    obtain ⟨r, p, hends, hset⟩ := Tile.endRefused_csend hrefusing hdue hblk
    rw [hx, hends]
    obtain ⟨hdone, hpc, hrd, hgr⟩ := Tile.complete_spec c rd 1 { b with refusing := [], regs := r, seq := { b.seq with pend := p } }
    exact ⟨rfl, hdone, hrd, hgr, hpc, hset, rfl⟩

end Sys2Proof.Proofs
end

section
/-! CRECV, CPOLL and CCLOSE on a receive queue (R250 to R254). -/
namespace Sys2Proof.Machine

/-! ### CRECV and CPOLL (R250 to R253) -/

/-- What CRECV and CPOLL share: the oldest message of queue `q` is written to `a` with its length the result in `rd`; with no message
the tile comes to `idle` (R251). -/
def Tile.recvOr (c : Ctx) (q a : Nat) (rd : BitVec 5) (b idle : Tile) : Act :=
  match b.takeMsg q with
  | (t, some m) => .done ((t.received c q a m).1.result rd (recvWord m.bytes.length)) (t.received c q a m).2
  | (_, none) => .done idle []

section
variable {b : Tile} {c : Ctx} {w : BitVec 32} {rd ra rb : BitVec 5}

section
variable (hindex : (b.gr rb).toNat < 64) (hopen : b.rd F.TIL_CHQ_STATE.state (b.gr rb).toNat = 1) (hcp : b.cpInbound ≠ some (b.gr rb).toNat)
  (hpad : b.InPad (b.gr ra) 16 4096)
include hindex hopen hcp hpad

/-- An OPEN queue that no CP takes from, with a buffer inside the scratchpad, passes the checks of R250. -/
theorem recvBad_eq_none : recvBad b (b.gr ra) (b.gr rb) = none := by
  unfold recvBad
  dsimp only
  rw [Nat.mod_eq_of_lt hindex, if_neg (by omega), if_neg (by simp [hopen, hcp]), if_neg (by simp [hpad.addrOk])]

variable (hahead : b.recvAhead (b.gr rb).toNat c.cycle = false)
include hahead

theorem crecvOp_eq : crecvOp c w rd ra rb 0 b = b.recvOr c (b.gr rb).toNat (b.gr ra).toNat rd
    (b.block c rd (.recv (b.gr rb).toNat (b.gr ra).toNat)) := by
  unfold crecvOp
  dsimp only
  rw [Nat.mod_eq_of_lt hindex, recvBad_eq_none hindex hopen hcp hpad, if_neg (by simp)]
  exact if_neg (by simp [hahead])

theorem cpollOp_eq : cpollOp c w rd ra rb 0 b = b.recvOr c (b.gr rb).toNat (b.gr ra).toNat rd (b.result rd 3) := by
  unfold cpollOp
  dsimp only
  rw [Nat.mod_eq_of_lt hindex, recvBad_eq_none hindex hopen hcp hpad, if_neg (by simp)]
  exact if_neg (by simp [hahead])

end

theorem Tile.recvOr_empty {q a : Nat} (idle : Tile) (hempty : b.queue q = []) : b.recvOr c q a rd idle = .done idle [] := by
  unfold Tile.recvOr Tile.takeMsg
  rw [hempty]

/-- The tile that has taken message `m` of queue `q`, which left the rest `r`, and written it to `a`: its slot is to be freed in the cycle
after the last bytes (R251, R252). -/
def Tile.holdsMsg (c : Ctx) (q a : Nat) (m : Msg) (r : List Msg) (K : BankSt) (b : Tile) : Tile :=
  { b.took q r with
    spad := Mem.putBytes 0 b.spad a m.bytes
    bank := K
    outbox := b.outbox ++ [⟨c.cycle + (m.bytes.length + 63) / 64 + 1, q, true, m.credit⟩] }

/-- A held message goes to its buffer, its slot is freed, and rd takes its length (R251, R252). -/
theorem Tile.recvOr_message {q a : Nat} {m : Msg} {r : List Msg} (idle : Tile) (hqueue : b.queue q = m :: r)
    (hlen : m.bytes.length ≤ 4096) (hports : b.PortsIdle c) (hatoms : b.bank.atoms = []) :
    ∃ K : BankSt, b.recvOr c q a rd idle = .done ((b.holdsMsg c q a m r K).result rd (recvWord m.bytes.length)) [] := by
  obtain ⟨K, hK⟩ := Tile.deliver_idle (c := c) (tl := b.took q r) (q := q) (a := a) hports hatoms hlen
  refine ⟨{ K with hold := max K.hold (c.cycle + (m.bytes.length + 63) / 64 + 1) }, ?_⟩
  unfold Tile.recvOr Tile.received
  rw [Tile.takeMsg_cons hqueue]
  dsimp only
  rw [hK]
  rfl

/-- What the tile holds after that. -/
theorem Tile.holdsMsg_result {q a : Nat} {m : Msg} {r : List Msg} {K : BankSt} {x : Tile} (hwf : Mem.wf 0 b.spad = true)
    (hblk : b.seq.blk = none) (hx : x = (b.holdsMsg c q a m r K).result rd (recvWord m.bytes.length)) :
    x.outbox = b.outbox ++ [⟨c.cycle + (m.bytes.length + 63) / 64 + 1, q, true, m.credit⟩] ∧ x.queue q = r ∧
    Mem.bytes 0 x.spad a m.bytes.length = m.bytes ∧
    (∀ k, k < a ∨ a + m.bytes.length ≤ k → Mem.get 0 x.spad k = Mem.get 0 b.spad k) ∧
    x.gr rd = (if rd = 0 then 0 else recvWord m.bytes.length) ∧ (∀ r, r ≠ rd → x.gr r = b.gr r) ∧
    x.seq.pc = b.seq.pc + 4 ∧ x.seq.blk = none := by
  obtain ⟨hrd, hother, hpc, -, hsame⟩ := Tile.result_writes (b.holdsMsg c q a m r K) rd (recvWord m.bytes.length)
  rw [← hx] at hrd hother hpc hsame
  rw [hsame] at hrd hother hpc ⊢
  exact ⟨rfl, Tab.get_set_same .., Mem.bytes_putBytes 0 m.bytes _ _ hwf, fun k hk => Mem.get_putBytes_outside 0 m.bytes _ _ k hwf hk,
    hrd, hother, hpc, hblk⟩

end

/-! ### CCLOSE (R254) -/

section
variable {b : Tile} {c : Ctx} {q : Nat}

/-- Answering a message of a queue that closes changes what the channel endpoint is to hand over, and nothing else. -/
theorem Tile.closeMsg_same (m : Msg) (b : Tile) : b.closeMsg c q m = { b with outbox := (b.closeMsg c q m).outbox } := by
  unfold Tile.closeMsg
  dsimp only
  split <;> rfl

theorem Tile.closeMsgs_same (l : List Msg) (b : Tile) :
    l.foldl (Tile.closeMsg c q) b = { b with outbox := (l.foldl (Tile.closeMsg c q) b).outbox } := by
  induction l generalizing b with
  | nil => rfl
  | cons m l ih =>
    rw [List.foldl_cons, ih, Tile.closeMsg_same]

/-- Messages of earlier cycles are answered with CREDIT, oldest first. -/
theorem Tile.outbox_closeMsgs {l : List Msg} (b : Tile) (hbefore : ∀ m ∈ l, m.at_ ≠ c.cycle) :
    (l.foldl (Tile.closeMsg c q) b).outbox = b.outbox ++ l.map fun m => ⟨c.cycle + 1, q, false, m.credit⟩ := by
  induction l generalizing b with
  | nil => exact (List.append_nil _).symm
  | cons m l ih =>
    have hcredit : b.closeMsg c q m = b.hand (c.cycle + 1) q false m.credit := if_neg fun ⟨hnow, _⟩ => hbefore m List.mem_cons_self hnow
    rw [List.foldl_cons, hcredit, ih _ fun x hx => hbefore x (List.mem_cons_of_mem _ hx), List.map_cons]
    exact List.append_assoc ..

/-- A message of this very cycle gets CLOSED in place of the ACCEPTED that was to go out. -/
theorem Tile.closeMsg_now {m : Msg} (b : Tile) (hnow : m.at_ = c.cycle) (hok : (⟨c.cycle + 1, q, false, m.answer 0⟩ : Later) ∈ b.outbox) :
    (b.closeMsg c q m).outbox = b.outbox.erase ⟨c.cycle + 1, q, false, m.answer 0⟩ ++ [⟨c.cycle + 1, q, false, m.answer 1⟩] :=
  congrArg Tile.outbox (if_pos ⟨hnow, List.contains_iff_mem.2 hok⟩)

/-- A queue that closes gives up its messages and is CLOSED; of the rest of the tile registers and answers alone change. -/
theorem Tile.closeQueue_spec (b : Tile) : ∃ r : RegFile, b.closeQueue c q = { b with
      regs := r, queues := b.queues.set q [], outbox := ((b.queue q).foldl (Tile.closeMsg c q) (b.setQueue q [])).outbox } ∧
    r.rd F.TIL_CHQ_STATE.state 0 q = 2 := by
  unfold Tile.closeQueue Tile.emptyQueue
  rw [Tile.closeMsgs_same]
  exact ⟨_, rfl, RegFile.rd_wr_same ..⟩

theorem ccloseOp_eq {w : BitVec 32} {rd rb : BitVec 5} (hindex : (b.gr rb).toNat < 64) (hfused : b.fusedWaits (b.gr rb).toNat = false)
    (henabled : b.rd F.TIL_CHQ_STATE.state (b.gr rb).toNat ≠ 0) : ccloseOp c w rd 0 rb 0 b =
    .done (if b.rd F.TIL_CHQ_STATE.state (b.gr rb).toNat = 2 then b.result rd 0 else (b.closeQueue c (b.gr rb).toNat).result rd 0) [] := by
  unfold ccloseOp
  dsimp only
  rw [Nat.mod_eq_of_lt hindex, if_neg (by simp), if_neg (by simp [hindex, hfused, henabled])]
  exact (apply_ite (fun x => Act.done x []) _ _ _).symm

/-- CCLOSE of an OPEN queue: its messages are answered, it is empty and CLOSED, and the other queues are as before. -/
theorem Tile.closeQueue_result {x : Tile} (rd : BitVec 5) (hx : x = (b.closeQueue c q).result rd 0) :
    ((∀ m ∈ b.queue q, m.at_ ≠ c.cycle) →
      x.outbox = b.outbox ++ (b.queue q).map fun m => ⟨c.cycle + 1, q, false, m.credit⟩) ∧
    (∀ m, b.queue q = [m] → m.at_ = c.cycle → (⟨c.cycle + 1, q, false, m.answer 0⟩ : Later) ∈ b.outbox →
      x.outbox = b.outbox.erase ⟨c.cycle + 1, q, false, m.answer 0⟩ ++ [⟨c.cycle + 1, q, false, m.answer 1⟩]) ∧
    x.queue q = [] ∧ x.rd F.TIL_CHQ_STATE.state q = 2 ∧ (∀ k, k ≠ q → x.queue k = b.queue k) ∧ x.gr rd = 0 ∧
    (∀ r, r ≠ rd → x.gr r = b.gr r) ∧ x.seq.pc = b.seq.pc + 4 ∧ x.spad = b.spad := by
  obtain ⟨r, hclose, hclosed⟩ := Tile.closeQueue_spec (c := c) (q := q) b
  generalize b.closeQueue c q = y at hclose hx
  obtain ⟨hrd, hother, hpc, -, hsame⟩ := Tile.result_writes y rd 0
  rw [← hx] at hrd hother hpc hsame
  rw [hclose] at hother hpc hsame
  rw [hsame] at hrd hother hpc ⊢
  refine ⟨fun hbefore => Tile.outbox_closeMsgs (b.setQueue q []) hbefore, fun m hone hnow hok => ?_, Tab.get_set_same .., hclosed,
    fun k hk => Tab.get_set_ne _ _ _ hk.symm, hrd.trans (ite_self 0), hother, hpc, rfl⟩
  rw [hone]
  exact Tile.closeMsg_now (b.setQueue q []) hnow hok

end

end Sys2Proof.Machine

namespace Sys2Proof.Proofs
open Sys2Proof.Machine

section
variable {s : State} {t : Nat} {rd ra rb : BitVec 5} {x : Tile} (hquiet : s.Quiet t) (hindex : ((s.at_ t).gr rb).toNat < 64)
include hquiet hindex

/-- CRECV and CPOLL as instructions, on a queue that passes their checks. -/
theorem receive_ran {i : Instr} {w : BitVec 32} {poll : Bool} (hi : i = .crecv t rd ra rb 0 ∧ w = encCmd 0x0D rd ra rb 0 ∧ poll = false ∨
      i = .cpoll t rd ra rb 0 ∧ w = encCmd 0x0E rd ra rb 0 ∧ poll = true)
    (hfetch : s.Fetches t w) (hopen : (s.at_ t).rd F.TIL_CHQ_STATE.state ((s.at_ t).gr rb).toNat = 1)
    (hcp : (s.at_ t).cpInbound ≠ some ((s.at_ t).gr rb).toNat) (hpad : (s.at_ t).InPad ((s.at_ t).gr ra) 16 4096)
    (hahead : (s.at_ t).recvAhead ((s.at_ t).gr rb).toNat s.cycle = false)
    (hact : (s.at_ t).recvOr (s.ctx t) ((s.at_ t).gr rb).toNat ((s.at_ t).gr ra).toNat rd (if poll then (s.at_ t).result rd 3
      else (s.at_ t).block (s.ctx t) rd (.recv ((s.at_ t).gr rb).toNat ((s.at_ t).gr ra).toNat)) = .done x []) :
    exec i s = .next (s.ran t x []) := by
  obtain ⟨rfl, rfl, rfl⟩ | ⟨rfl, rfl, rfl⟩ := hi
  · exact congrArg _ (State.onClocked_issue_done s t _ (fun c tl => crecvOp c (encCmd 13 rd ra rb 0) rd ra rb 0 tl) _ _ hfetch hquiet
      ((crecvOp_eq hindex hopen hcp hpad hahead).trans hact))
  · exact congrArg _ (State.onClocked_issue_done s t _ (fun c tl => cpollOp c (encCmd 14 rd ra rb 0) rd ra rb 0 tl) _ _ hfetch hquiet
      ((cpollOp_eq hindex hopen hcp hpad hahead).trans hact))

/-- CCLOSE as an instruction, on a queue for which no fused recv step waits. -/
theorem cclose_ran (hfetch : s.Fetches t (encCmd 0x0F rd 0 rb 0)) (hfused : (s.at_ t).fusedWaits ((s.at_ t).gr rb).toNat = false)
    (henabled : (s.at_ t).rd F.TIL_CHQ_STATE.state ((s.at_ t).gr rb).toNat ≠ 0) : exec (.cclose t rd 0 rb 0) s =
    .next (s.ran t (if (s.at_ t).rd F.TIL_CHQ_STATE.state ((s.at_ t).gr rb).toNat = 2 then (s.at_ t).result rd 0
      else ((s.at_ t).closeQueue (s.ctx t) ((s.at_ t).gr rb).toNat).result rd 0) []) :=
  congrArg _ (State.onClocked_issue_done s t _ (fun c tl => ccloseOp c (encCmd 15 rd 0 rb 0) rd 0 rb 0 tl) _ _ hfetch hquiet
    (ccloseOp_eq hindex hfused henabled))

end

/-- Settles O16: CRECV and CPOLL with a message and without one, CCLOSE on an OPEN and on a CLOSED queue. -/
theorem channelQueues : Obligations.ChannelQueues := by
  unfold Obligations.ChannelQueues
  refine ⟨?receive, ?close⟩
  case receive =>
    intro s t rd ra rb i w poll hi hfetch hquiet hindex hopen hcp hpad hwf hahead
    refine ⟨fun m r hqueue hlen hports hatoms => ?_, fun hempty => ?_⟩
    · obtain ⟨K, hact⟩ := Tile.recvOr_message _ hqueue hlen hports hatoms
      exact ⟨_, receive_ran hquiet hindex hi hfetch hopen hcp hpad hahead hact,
        Tile.holdsMsg_result (b := s.at_ t) (c := s.ctx t) (K := K) hwf hfetch.unblocked rfl⟩
    · refine ⟨_, receive_ran hquiet hindex hi hfetch hopen hcp hpad hahead (Tile.recvOr_empty _ hempty), ?_, ?_⟩
      · rintro rfl
        exact Tile.result_writes _ rd 3
      · rintro rfl
        exact Tile.block_blocks _ _ rd _
  case close =>
    intro s t rd rb hfetch hquiet hindex hfused
    refine ⟨fun hopen => ?_, fun hclosed => ?_⟩
    · have hran := cclose_ran hquiet hindex hfetch hfused (by omega)
      rw [if_neg (by omega)] at hran
      exact ⟨_, hran, Tile.closeQueue_result (b := s.at_ t) (c := s.ctx t) (q := ((s.at_ t).gr rb).toNat) rd rfl⟩
    · have hran := cclose_ran hquiet hindex hfetch hfused (by omega)
      rw [if_pos hclosed] at hran
      exact ⟨_, hran, Tile.result_writes _ rd 0⟩

end Sys2Proof.Proofs
end

section
/-! Memory channels: what a command on one comes to, and how its registers read after a store, a count or a status bit (R7, R10, R287). -/
namespace Sys2Proof.Machine

/-- A command on a memory channel is the channel's own change and what it hands out. -/
theorem State.onChan_eq {s : State} {ch : Nat} {x : Chan} {os : List Out} {f : Ctx → Chan → Chan × List Out} (hch : ch < 96)
    (hf : f (s.ctx ch) (s.chanSeen ch) = (x, os)) : s.onChan ch f = s.withChan ch x os := by
  unfold State.onChan
  rw [if_neg (by omega)]
  exact congrArg (fun r : Chan × List Out => s.withChan ch r.1 r.2) hf

@[simp] theorem State.chan_withChan (s : State) (ch : Nat) (x : Chan) : (s.withChan ch x []).chan ch = x :=
  (State.chan_setChan _ ch ch x).trans (if_pos rfl)

/-! ### Fields of a channel's registers -/

theorem Chan.rd_wr_same (h : Chan) (f : Fld) (j v : Nat) : (h.wr f j v).rd f j = v % 2 ^ f.width := RegFile.rd_wr_same ..

theorem Chan.rd_wr_ne (h : Chan) {f g : Fld} (j k v : Nat) (hid : f.id ≠ g.id) : (h.wr f j v).rd g k = h.rd g k :=
  RegFile.rd_wr_ne h.regs v (by simp [hid])

/-- A status bit of the channel that hardware sets reads 1 (R10). -/
theorem Chan.rd_flag_one (h : Chan) (c : Ctx) {f : Fld} (hw : f.width = 1) (hid : F.MEM_CH_STATUS.again_count.id ≠ f.id) :
    (h.flag c f).rd f 0 = 1 := by
  refine (RegFile.rd_hwSet_same h.regs 0 0 c.cycle 1 hid).trans ?_
  rw [hw, pow_one, Nat.or_mod_two_eq_one]
  exact .inr rfl

theorem Chan.rd_flag_ne (h : Chan) (c : Ctx) {f g : Fld} (j : Nat) (hid : f.id ≠ g.id) (hagain : F.MEM_CH_STATUS.again_count.id ≠ g.id) :
    (h.flag c f).rd g j = h.rd g j :=
  RegFile.rd_hwSet_ne h.regs c.cycle 1 (by simp [hid]) (by simp [hagain])

theorem Chan.rd_addSat_same (h : Chan) (f : Fld) (n : Nat) : (h.addSat f n).rd f 0 = min (h.rd f 0 + n) (2 ^ f.width - 1) :=
  RegFile.rd_addSat_same ..

theorem Chan.rd_addSat_ne (h : Chan) {f g : Fld} (j n : Nat) (hid : f.id ≠ g.id) : (h.addSat f n).rd g j = h.rd g j :=
  RegFile.rd_addSat_ne h.regs n (by simp [hid])

theorem Chan.rd_addWrap_same (h : Chan) (f : Fld) (n : Nat) : (h.addWrap f n).rd f 0 = (h.rd f 0 + n) % 2 ^ f.width :=
  RegFile.rd_wr_same ..

theorem Chan.rd_addWrap_ne (h : Chan) {f g : Fld} (j n : Nat) (hid : f.id ≠ g.id) : (h.addWrap f n).rd g j = h.rd g j :=
  RegFile.rd_wr_ne h.regs _ (by simp [hid])

end Sys2Proof.Machine
end

section
/-! The upkeep of a memory channel: maintenance, its calendar's registers, the channel map and the end of a reset (R271, R290 to R296, R513). -/
namespace Sys2Proof.Machine

/-! ### The maintenance slot and its thermal emergency (R271, R294, R513, R516) -/

/-- What the events that follow an MR4 read leave: tiles, memory channels, and the emergencies in force. -/
def State.unitsAndPower (s : State) : Tab Nat Tile × Tab Nat Chan × Power := (s.tiles, s.chans, s.pwr)

theorem State.novaOut_unitsAndPower (s : State) (but : Option Nat) (job eid reason start : Nat) :
    (s.novaOut but job eid reason start).unitsAndPower = s.unitsAndPower := by
  unfold State.novaOut
  refine foldl_keeps _ State.unitsAndPower allPorts (fun n _ c => ?_) s
  dsimp only
  split <;> rfl

theorem State.eclipse_unitsAndPower (s : State) (cause : Nat) : (s.eclipse cause).unitsAndPower = s.unitsAndPower := by
  have hnova : (s.eclipseNova cause).unitsAndPower = s.unitsAndPower := by
    have hout : (if decide (cause ≠ 7) && s.inJob then
        (s.novaRecord s.job s.eid cause s.sidereal).novaOut none s.job s.eid cause s.sidereal else s).unitsAndPower = s.unitsAndPower := by
      split
      · rw [State.novaOut_unitsAndPower, State.novaRecord, State.irq_same]
        rfl
      · rfl
    unfold State.eclipseNova
    dsimp only
    split <;> exact hout
  have henter : ((s.eclipseNova cause).eclipseRegs cause s.sidereal |>.eclipseEnter s.cycle).unitsAndPower = s.unitsAndPower := by
    rw [State.eclipseEnter, State.irq_same, State.setMod_same]
    exact hnova
  unfold State.eclipse
  split
  · rfl
  · exact henter

theorem State.fenceIfEmergency_unitsAndPower (s : State) : s.fenceIfEmergency.unitsAndPower = s.unitsAndPower := by
  unfold State.fenceIfEmergency
  split
  · exact s.eclipse_unitsAndPower 4
  · rfl

/-- An emergency that begins is in force from now on (R513). -/
theorem State.begins_unitsAndPower (s : State) (code unit : Nat) (reading : Int) :
    (s.begins code false true unit reading).unitsAndPower = (s.tiles, s.chans, { s.pwr with emerg := s.pwr.emerg ++ [(code, unit)] }) := by
  unfold State.begins
  dsimp only
  rw [State.irq_same]
  rfl

/-- The slot in which a cycle of slot 0 lies (R270). -/
theorem frameSlot_present {s : State} {ch : Nat} (h : s.sidereal % 3840 < 6) : frameSlot (s.ctx ch) s.cycle = 0 := by
  show (s.sidereal + s.cycle - s.cycle) % 3840 / 6 = 0
  omega

/-- The read itself sets the field, and hot where the rate asks for it (R271, R294). -/
theorem State.maintain_eq {s : State} {ch : Nat} (hst : (s.chanSeen ch).st = .active ∨ (s.chanSeen ch).st = .fenced)
    (hslot : s.sidereal % 3840 < 6) (mr4 : Nat) (hot : Bool) : (s.chanSeen ch).maintain (s.ctx ch) mr4 hot =
    if hot then ((s.chanSeen ch).wr F.MEM_CH_STATE.mr4 0 mr4).flag (s.ctx ch) F.MEM_CH_STATUS.hot
    else (s.chanSeen ch).wr F.MEM_CH_STATE.mr4 0 mr4 :=
  if_pos ⟨hst, frameSlot_present hslot⟩

section
variable {s : State} {ch : Nat} (hch : ch < 96) (hst : (s.chanSeen ch).st = .active ∨ (s.chanSeen ch).st = .fenced)
  (hslot : s.sidereal % 3840 < 6) (mr4 : Nat)
include hch hst hslot

/-- MR4 read in slot 0: the channel's own part, then its emergency begins, stays or ends (R271, R513). -/
theorem State.maintSlot_eq (hot : Bool) : s.maintSlot ch mr4 hot =
    (let s1 := s.withChan ch ((s.chanSeen ch).maintain (s.ctx ch) mr4 hot) []
     if hot then (if s.pwr.emerg.contains (5, ch) then s1 else (s1.begins 5 false true ch (mr4 : Int)).fenceIfEmergency) else s1.clears 5 ch) := by
  have hguard : ¬ (96 ≤ ch ∨ ((s.chan ch).st ≠ .active ∧ (s.chan ch).st ≠ .fenced) ∨ frameSlot (s.ctx ch) s.cycle ≠ 0) := by
    rintro (h | ⟨h1, h2⟩ | h)
    · omega
    · exact hst.elim h1 h2
    · exact h (frameSlot_present hslot)
  unfold State.maintSlot
  rw [if_neg hguard, State.onChan_eq hch rfl]

/-- A refresh rate of at most twice the base rate ends the port's emergency. -/
theorem State.maintSlot_cool : ((s.maintSlot ch mr4 false).chan ch).rd F.MEM_CH_STATE.mr4 0 = mr4 % 32 ∧
    ((s.maintSlot ch mr4 false).chan ch).mem = (s.chanSeen ch).mem ∧ (s.maintSlot ch mr4 false).tiles = s.tiles ∧
    (5, ch) ∉ (s.maintSlot ch mr4 false).pwr.emerg := by
  have hslot' := State.maintSlot_eq hch hst hslot mr4 false
  have hchan : (s.maintSlot ch mr4 false).chan ch = (s.chanSeen ch).wr F.MEM_CH_STATE.mr4 0 mr4 := by
    rw [hslot', State.maintain_eq hst hslot]
    exact s.chan_withChan ch _
  have hgone : (s.maintSlot ch mr4 false).pwr.emerg = s.pwr.emerg.filter (· != (5, ch)) := by
    rw [hslot']
    rfl
  rw [hchan, hgone]
  exact ⟨Chan.rd_wr_same .., rfl, by rw [hslot']; rfl, by simp⟩

/-- A higher one sets hot, and the port's emergency is in force. -/
theorem State.maintSlot_hot : ((s.maintSlot ch mr4 true).chan ch).rd F.MEM_CH_STATE.mr4 0 = mr4 % 32 ∧
    ((s.maintSlot ch mr4 true).chan ch).rd F.MEM_CH_STATUS.hot 0 = 1 ∧
    ((s.maintSlot ch mr4 true).chan ch).mem = (s.chanSeen ch).mem ∧ (s.maintSlot ch mr4 true).tiles = s.tiles ∧
    (5, ch) ∈ (s.maintSlot ch mr4 true).pwr.emerg := by
  obtain ⟨e, hview, hmem⟩ : ∃ e : Power, (s.maintSlot ch mr4 true).unitsAndPower =
      (s.tiles, (s.withChan ch ((s.chanSeen ch).maintain (s.ctx ch) mr4 true) []).chans, e) ∧ (5, ch) ∈ e.emerg := by
    rw [State.maintSlot_eq hch hst hslot]
    dsimp only
    rw [if_pos rfl]
    split
    · next hin => exact ⟨s.pwr, rfl, List.contains_iff_mem.1 hin⟩
    · exact ⟨_, (State.fenceIfEmergency_unitsAndPower _).trans (State.begins_unitsAndPower ..), by simp⟩
  simp only [State.unitsAndPower, Prod.mk.injEq] at hview
  obtain ⟨htiles, hchans, hpwr⟩ := hview
  have hchan : (s.maintSlot ch mr4 true).chan ch = ((s.chanSeen ch).wr F.MEM_CH_STATE.mr4 0 mr4).flag (s.ctx ch) F.MEM_CH_STATUS.hot := by
    rw [State.chan, hchans, State.maintain_eq hst hslot]
    exact s.chan_withChan ch _
  rw [hchan, hpwr]
  exact ⟨(Chan.rd_flag_ne _ _ _ (by decide) (by decide)).trans (Chan.rd_wr_same ..), Chan.rd_flag_one _ _ rfl (by decide), rfl, htiles, hmem⟩

end

/-! ### MEM_CAL_CTRL and MEM_CAL_TABLE (R296) -/

theorem Access.val_full (v : Word) (f : Fld) : (Access.full v).val f = bits v.toNat f.lo f.width := by rw [Access.val, Access.word_full]

theorem Chan.regWrite_calCtrl_enable {h : Chan} {c : Ctx} {v : Word} (hv : v.toNat % 2 = 1) : h.regWrite c .MEM_CAL_CTRL 0 (.full v) =
    if (c.mod = .ready ∨ c.mod = .joined) ∧ h.st = .active then
      if h.rd F.MEM_CAL_CTRL.enable 0 = 1 ∧ h.closing = false then h
      else { h.wr F.MEM_CAL_CTRL.enable 0 1 with calEcc := .empty, openEcc := [], closing := false }
    else h.flag c F.MEM_CH_STATUS.cal_off := by
  have hval : (Access.full v).val F.MEM_CAL_CTRL.enable = 1 := by
    rw [Access.val_full]
    show v.toNat / 2 ^ 0 % 2 ^ 1 = 1
    omega
  exact if_pos hval

theorem Chan.regWrite_calCtrl_disable {h : Chan} {c : Ctx} {v : Word} (hv : v.toNat % 2 = 0) : h.regWrite c .MEM_CAL_CTRL 0 (.full v) =
    if h.rd F.MEM_CAL_CTRL.enable 0 = 1 then { h with closing := true } else h := by
  have hval : (Access.full v).val F.MEM_CAL_CTRL.enable ≠ 1 := by
    rw [Access.val_full]
    show v.toNat / 2 ^ 0 % 2 ^ 1 ≠ 1
    omega
  exact if_neg hval

/-- A number of `k` fields of `w` bits, lowest first. -/
def packBits (w : Nat) (d : Nat → Nat) (k : Nat) : Nat := (List.range k).foldl (fun a i => a + d i * 2 ^ (w * i)) 0

theorem packBits_succ (w : Nat) (d : Nat → Nat) (k : Nat) : packBits w d (k + 1) = packBits w d k + d k * 2 ^ (w * k) := by
  simp [packBits, List.range_succ]

theorem packBits_lt {w : Nat} {d : Nat → Nat} (h : ∀ i, d i < 2 ^ w) (k : Nat) : packBits w d k < 2 ^ (w * k) := by
  induction k with
  | zero => simp [packBits]
  | succ k ih =>
    rw [packBits_succ, Nat.mul_succ, Nat.pow_add]
    nlinarith [h k]

/-- Multiples of a power of 2 above a field do not show in it. -/
theorem bits_add_high (v q : Nat) {lo w e : Nat} (h : lo + w ≤ e) : bits (v + q * 2 ^ e) lo w = bits v lo w := by
  obtain ⟨d, rfl⟩ := Nat.exists_eq_add_of_le h
  unfold bits
  rw [show q * 2 ^ (lo + w + d) = q * 2 ^ d * 2 ^ w * 2 ^ lo by ring, Nat.add_mul_div_right _ _ (Nat.two_pow_pos _), Nat.add_mul_mod_self_right]

/-- Each field reads back. -/
theorem bits_packBits {w : Nat} {d : Nat → Nat} (h : ∀ i, d i < 2 ^ w) {k n : Nat} (hn : n < k) : bits (packBits w d k) (w * n) w = d n := by
  induction k with
  | zero => omega
  | succ k ih =>
    rw [packBits_succ]
    rcases Nat.lt_succ_iff_lt_or_eq.1 hn with hlt | rfl
    · rw [bits_add_high _ _ (by rw [← Nat.mul_succ]; exact Nat.mul_le_mul_left w hlt), ih hlt]
    · unfold bits
      rw [Nat.add_mul_div_right _ _ (Nat.two_pow_pos _), Nat.div_eq_of_lt (packBits_lt h n), Nat.zero_add]
      exact Nat.mod_eq_of_lt (h n)

/-- What a write of `v` makes of a slot of the calendar's table (R9, Table 8-16). -/
def slotAfter (old new i : Nat) : Nat := if bits new (2 * i) 2 < 2 then bits new (2 * i) 2 else bits old (2 * i) 2

theorem slotAfter_lt (old new i : Nat) : slotAfter old new i < 2 ^ 2 := by
  unfold slotAfter
  split <;> exact bits_lt _ _ _

theorem mergeSlots_eq (old new : Nat) : mergeSlots old new = packBits 2 (slotAfter old new) 32 := rfl

/-- Bits of the written value above the table's do not count. -/
theorem mergeSlots_add_high (old v q : Nat) : mergeSlots old (v + q * 2 ^ 64) = mergeSlots old v := by
  rw [mergeSlots_eq, mergeSlots_eq]
  refine List.foldl_ext _ _ 0 fun a i hi => ?_
  have hi' : i < 32 := List.mem_range.1 hi
  have hslot : slotAfter old (v + q * 2 ^ 64) i = slotAfter old v i := by
    unfold slotAfter
    rw [bits_add_high v q (by omega)]
  rw [hslot]

/-- A write of the table while the calendar is off. -/
theorem Chan.regWrite_calTable_off {h : Chan} {c : Ctx} (j : Nat) (v : Word) (hoff : h.rd F.MEM_CAL_CTRL.enable 0 = 0) :
    h.regWrite c .MEM_CAL_TABLE j (.full v) = h.wr F.MEM_CAL_TABLE.slots j (mergeSlots (h.rd F.MEM_CAL_TABLE.slots j) v.toNat) := by
  have hword (old : Nat) : old - (old &&& (2 ^ 64 - 1)) + v.toNat = v.toNat + old / 2 ^ 64 * 2 ^ 64 := by
    rw [Nat.and_two_pow_sub_one_eq_mod]
    omega
  have hmask : (2 ^ (8 * (Access.full v).size) - 1) * 2 ^ (8 * (Access.full v).off4) = 2 ^ 64 - 1 := by simp [Access.full]
  unfold Chan.regWrite
  dsimp only
  rw [if_neg (by omega), Access.word_full, hmask, hword, mergeSlots_add_high]

theorem Chan.bits_calTable (h : Chan) (j v : Nat) {k : Nat} (hk : k < 32) :
    bits ((h.wr F.MEM_CAL_TABLE.slots j (mergeSlots (h.rd F.MEM_CAL_TABLE.slots j) v)).rd F.MEM_CAL_TABLE.slots j) (2 * k) 2 =
      slotAfter (h.rd F.MEM_CAL_TABLE.slots j) v k := by
  have hlt := packBits_lt (slotAfter_lt (h.rd F.MEM_CAL_TABLE.slots j) v) 32
  rw [Chan.rd_wr_same, mergeSlots_eq, show F.MEM_CAL_TABLE.slots.width = 2 * 32 from rfl, Nat.mod_eq_of_lt hlt, bits_packBits (slotAfter_lt _ _) hk]

/-! ### The map of channels (R290, R291) -/

theorem State.rd_refusedRec (s : State) (op : Nat) (g : Fld) (i j : Nat) : (s.refusedRec op).rd g i j = s.rd g i j := rfl
theorem State.chans_refusedRec (s : State) (op : Nat) : (s.refusedRec op).chans = s.chans := rfl

/-- The half of MEM_GLB_ENABLE that a write names, and its first channel. -/
def enableFld (hi : Bool) : Fld := if hi then F.MEM_GLB_ENABLE_HI.enable else F.MEM_GLB_ENABLE_LO.enable
def enableBase (hi : Bool) : Nat := if hi then 64 else 0

/-- The conditions of R291 for a write that sets one half of the map to `new`. -/
def State.mapOpen (hi : Bool) (new : Nat) (s : State) : Bool :=
  (s.st == .ready || s.st == .joined) &&
    allChans.all (fun ch => (s.chan ch).rd F.MEM_CAL_CTRL.enable 0 == 0 && (s.chan ch).queue.isEmpty) &&
    allChans.all (fun ch => ch < enableBase hi || bits new (ch - enableBase hi) 1 == 0 || (s.chan ch).st == .active)

theorem bits_one_eq_zero (v k : Nat) : bits v k 1 = 0 ↔ v.testBit k = false := by
  rw [Nat.testBit_eq_decide_div_mod_eq, bits, decide_eq_false_iff_not, pow_one]
  omega

theorem State.mapOpen_iff (s : State) (hi : Bool) (new : Nat) : s.mapOpen hi new = true ↔ (s.st = .ready ∨ s.st = .joined) ∧
    (∀ ch, ch < 96 → (s.chan ch).rd F.MEM_CAL_CTRL.enable 0 = 0 ∧ (s.chan ch).queue = []) ∧
    ∀ k, new.testBit k = true → k + enableBase hi < 96 → (s.chan (k + enableBase hi)).st = .active := by
  have hnamed : (∀ ch, ch < 96 → (ch < enableBase hi ∨ new.testBit (ch - enableBase hi) = false) ∨ (s.chan ch).st = .active) ↔
      ∀ k, new.testBit k = true → k + enableBase hi < 96 → (s.chan (k + enableBase hi)).st = .active := by
    refine ⟨fun h k hk hlt => ?_, fun h ch hlt => ?_⟩
    · rcases h _ hlt with (h | h) | h
      · omega
      · rw [Nat.add_sub_cancel, hk] at h
        cases h
      · exact h
    · rcases Nat.lt_or_ge ch (enableBase hi) with hlow | hhigh
      · exact .inl (.inl hlow)
      · cases hbit : new.testBit (ch - enableBase hi)
        · exact .inl (.inr rfl)
        · have := h _ hbit (by omega)
          rw [Nat.sub_add_cancel hhigh] at this
          exact .inr this
  rw [← hnamed]
  simp [State.mapOpen, allChans, bits_one_eq_zero, and_assoc]

theorem Access.val_enable (hi : Bool) (v : Word) : (Access.full v).val (enableFld hi) = v.toNat % 2 ^ (if hi then 32 else 64) := by
  rw [Access.val_full]
  cases hi
  · exact congrArg (· % 2 ^ 64) (Nat.div_one _)
  · exact congrArg (· % 2 ^ 32) (Nat.div_one _)

theorem Access.hits_enable (hi : Bool) (v : Word) : (Access.full v).hits (enableFld hi) ≠ false := by
  refine ne_false_of_eq_true ?_
  cases hi <;> rfl

section
variable {s : State} {hi : Bool} {v : Word} {new : Nat} (hnew : new = v.toNat % 2 ^ (if hi then 32 else 64))
include hnew

theorem State.writeEnable_ignored (hclosed : s.mapOpen hi new = false) : s.writeEnable hi (.full v) =
    (s.flag F.MEM_GLB_MAP.again_count F.MEM_GLB_MAP.cfg_ignored 0 0 1).refusedRec (if hi then 0x460008 else 0x460000) := by
  rw [hnew, ← Access.val_enable] at hclosed
  exact (if_neg (Access.hits_enable hi v)).trans (if_pos hclosed)

/-- The channels of a list become DISABLED. -/
def State.disableAll (l : List Nat) (s : State) : State := l.foldl (fun s ch => s.setChan ch { (s.chan ch) with st := .disabled }) s

/-- The channels that leave the map when it becomes that of `s1`. -/
def State.leavers (s s1 : State) : List Nat := allChans.filter (fun ch => bits s.enableMask ch 1 == 1 && bits s1.enableMask ch 1 == 0)

/-- What follows a change of the map: the channels of `l` leave, the generation goes up, and the module is no longer proven (R488). -/
def State.remapped (l : List Nat) (s : State) : State := ((s.disableAll l).addWrap F.MEM_GLB_MAP.gen 0 0 1).unproven

theorem State.writeEnable_changes (hopen : s.mapOpen hi new = true) (hmask : (s.wr (enableFld hi) 0 0 new).enableMask ≠ s.enableMask) :
    s.writeEnable hi (.full v) = (s.wr (enableFld hi) 0 0 new).remapped (s.leavers (s.wr (enableFld hi) 0 0 new)) := by
  rw [hnew, ← Access.val_enable] at *
  exact (if_neg (Access.hits_enable hi v)).trans <| (if_neg (ne_false_of_eq_true hopen)).trans (if_neg hmask)

end

theorem State.disableAll_frame (l : List Nat) (s : State) : (s.disableAll l).regs = s.regs ∧ (s.disableAll l).tiles = s.tiles := by
  induction l generalizing s with
  | nil => exact ⟨rfl, rfl⟩
  | cons ch r ih => exact ih _

theorem State.chan_disableAll (l : List Nat) (s : State) (ch : Nat) :
    (s.disableAll l).chan ch = if ch ∈ l then { s.chan ch with st := .disabled } else s.chan ch := by
  induction l generalizing s with
  | nil => rfl
  | cons d r ih =>
    refine (ih _).trans ?_
    rw [State.chan_setChan]
    by_cases hd : d = ch
    · subst hd
      simp
    · simp [hd, Ne.symm hd]

theorem State.chan_remapped (l : List Nat) (s : State) (ch : Nat) :
    (s.remapped l).chan ch = if ch ∈ l then { s.chan ch with st := .disabled } else s.chan ch := s.chan_disableAll l ch

theorem State.tiles_remapped (l : List Nat) (s : State) : (s.remapped l).tiles = s.tiles := (s.disableAll_frame l).2

theorem State.rd_remapped (l : List Nat) (s : State) {g : Fld} (hgen : F.MEM_GLB_MAP.gen.id ≠ g.id)
    (hproven : F.RTE_FLEET_STATUS.proven.id ≠ g.id) : (s.remapped l).rd g 0 0 = s.rd g 0 0 := by
  rw [State.remapped, State.unproven, State.rd_wr_ne _ _ (by simp [hproven])]
  refine (RegFile.rd_wr_ne _ _ (by simp [hgen])).trans ?_
  rw [(s.disableAll_frame l).1]
  rfl

theorem State.rd_remapped_gen (l : List Nat) (s : State) :
    (s.remapped l).rd F.MEM_GLB_MAP.gen 0 0 = (s.rd F.MEM_GLB_MAP.gen 0 0 + 1) % 2 ^ 32 := by
  rw [State.remapped, State.unproven, State.rd_wr_ne _ _ (by decide)]
  refine (RegFile.rd_wr_same ..).trans ?_
  rw [(s.disableAll_frame l).1]
  rfl

theorem State.chansIn_remapped (l : List Nat) (s : State) : (s.remapped l).chansIn = s.chansIn := by
  unfold State.chansIn
  rw [State.rd_remapped _ _ (by decide) (by decide), State.rd_remapped _ _ (by decide) (by decide)]

/-- A bit of the map is one of its two halves'. -/
theorem State.bits_enableMask {s : State} (hlow : s.rd F.MEM_GLB_ENABLE_LO.enable 0 0 < 2 ^ 64) {ch : Nat} (hch : ch < 96) :
    bits s.enableMask ch 1 =
      bits (if ch < 64 then s.rd F.MEM_GLB_ENABLE_LO.enable 0 0 else s.rd F.MEM_GLB_ENABLE_HI.enable 0 0) (ch % 64) 1 := by
  unfold State.enableMask
  rcases Nat.lt_or_ge ch 64 with h | h
  · rw [if_pos h, bits_add_high _ _ (by omega), Nat.mod_eq_of_lt h]
  · obtain ⟨k, rfl⟩ := Nat.exists_eq_add_of_le h
    rw [if_neg (by omega), show (64 + k) % 64 = k by omega]
    unfold bits
    rw [Nat.pow_add, ← Nat.div_div_eq_div_mul, Nat.add_mul_div_right _ _ (Nat.two_pow_pos 64), Nat.div_eq_of_lt hlow, Nat.zero_add]

theorem State.mem_chansIn {s : State} (hlow : s.rd F.MEM_GLB_ENABLE_LO.enable 0 0 < 2 ^ 64) {ch : Nat} (hch : ch < 96) :
    ch ∈ s.chansIn ↔ bits s.enableMask ch 1 = 1 := by
  rw [State.bits_enableMask hlow hch]
  simp [State.chansIn, allChans, hch]

theorem State.mem_leavers {s s1 : State} (hlow : s.rd F.MEM_GLB_ENABLE_LO.enable 0 0 < 2 ^ 64)
    (hlow1 : s1.rd F.MEM_GLB_ENABLE_LO.enable 0 0 < 2 ^ 64) {ch : Nat} (hch : ch < 96) :
    ch ∈ s.leavers s1 ↔ ch ∈ s.chansIn ∧ ch ∉ s1.chansIn := by
  have hbit := bits_lt s1.enableMask ch 1
  rw [State.mem_chansIn hlow hch, State.mem_chansIn hlow1 hch]
  simp only [State.leavers, allChans, List.mem_filter, List.mem_range, Bool.and_eq_true, beq_iff_eq]
  omega

section
variable {s : State} {hi : Bool} {new : Nat} (hnew : new < 2 ^ (if hi then 32 else 64))
include hnew

theorem State.rd_enable_written : (s.wr (enableFld hi) 0 0 new).rd (enableFld hi) 0 0 = new := by
  rw [State.rd_wr_same]
  cases hi <;> exact Nat.mod_eq_of_lt hnew

theorem State.enable_low_written (hlow : s.rd F.MEM_GLB_ENABLE_LO.enable 0 0 < 2 ^ 64) :
    (s.wr (enableFld hi) 0 0 new).rd F.MEM_GLB_ENABLE_LO.enable 0 0 < 2 ^ 64 := by
  cases hi
  · exact (State.rd_enable_written hnew).trans_lt hnew
  · exact (State.rd_wr_ne _ _ (by decide)).trans_lt hlow

/-- A half that takes another value changes the map. -/
theorem State.enableMask_written (hlow : s.rd F.MEM_GLB_ENABLE_LO.enable 0 0 < 2 ^ 64) (hne : s.rd (enableFld hi) 0 0 ≠ new) :
    (s.wr (enableFld hi) 0 0 new).enableMask ≠ s.enableMask := by
  have hsame := State.rd_enable_written (s := s) hnew
  have hlow' := State.enable_low_written hnew hlow
  unfold State.enableMask
  cases hi
  · have hother : (s.wr (enableFld false) 0 0 new).rd F.MEM_GLB_ENABLE_HI.enable 0 0 = s.rd F.MEM_GLB_ENABLE_HI.enable 0 0 :=
      State.rd_wr_ne _ _ (by decide)
    simp only [enableFld, Bool.false_eq_true, if_false] at *
    omega
  · simp only [enableFld, if_true] at *
    omega

end

end Sys2Proof.Machine
end

section
/-! The upkeep of a memory channel: O38. -/
namespace Sys2Proof.Proofs
open Sys2Proof.Machine

section
variable {s : State} {ch : Nat} {x : Chan} (hch : ch < 96)
include hch

theorem exec_perBankRefresh {b : Nat} (hx : (s.chanSeen ch).refresh (s.ctx ch) b = x) :
    exec (.perBankRefresh ch b) s = .next (s.withChan ch x []) :=
  congrArg Host.Outcome.next (State.onChan_eq (f := fun c h => (h.refresh c b, [])) hch (congrArg (fun y => (y, [])) hx))

theorem exec_memCalCtrlWrite {v : Word} (hx : (s.chanSeen ch).regWrite (s.ctx ch) .MEM_CAL_CTRL 0 (.full v) = x) :
    exec (.memCalCtrlWrite ch v) s = .next (s.withChan ch x []) :=
  congrArg Host.Outcome.next
    (State.onChan_eq (f := fun c h => (h.regWrite c .MEM_CAL_CTRL 0 (.full v), [])) hch (congrArg (fun y => (y, [])) hx))

theorem exec_calendarDisableDone (hx : (s.chanSeen ch).closeDone = x) : exec (.calendarDisableDone ch) s = .next (s.withChan ch x []) :=
  congrArg Host.Outcome.next (State.onChan_eq (f := fun _ h => (h.closeDone, [])) hch (congrArg (fun y => (y, [])) hx))

theorem exec_memCalTableWrite {j : Nat} {v : Word} (hx : (s.chanSeen ch).regWrite (s.ctx ch) .MEM_CAL_TABLE j (.full v) = x) :
    exec (.memCalTableWrite ch j v) s = .next (s.withChan ch x []) :=
  congrArg Host.Outcome.next
    (State.onChan_eq (f := fun c h => (h.regWrite c .MEM_CAL_TABLE j (.full v), [])) hch (congrArg (fun y => (y, [])) hx))

/-- The end of a channel's reset, where no module warm reset is in progress. -/
theorem exec_channelReactivate (hx : (s.chanSeen ch).reactivate = x) (hresets : ∀ r ∈ s.resets, r.dom ≠ 6) :
    exec (.channelReactivate ch) s = .next (s.withChan ch x []) := by
  have hno : s.resets.any (fun r => r.dom == 6) = false := by simpa using hresets
  exact congrArg Host.Outcome.next ((if_neg (ne_true_of_eq_false hno)).trans
    (State.onChan_eq (f := fun _ h => (h.reactivate, [])) hch (congrArg (fun y => (y, [])) hx)))

end

section
variable {s : State} {hi : Bool} {v : Word} {new : Nat} (hnew : new = v.toNat % 2 ^ (if hi then 32 else 64))
include hnew

/-- A write of the map that R291 lets through: the half it names, the generation, and the channels that leave. -/
theorem memGlbEnableWrite_changes (hopen : s.mapOpen hi new = true) (hne : s.rd (enableFld hi) 0 0 ≠ new)
    (hlow : s.rd F.MEM_GLB_ENABLE_LO.enable 0 0 < 2 ^ 64) :
    ∃ s', exec (.memGlbEnableWrite hi v) s = .next s' ∧ s'.rd (enableFld hi) 0 0 = new ∧
      s'.rd F.MEM_GLB_MAP.gen 0 0 = (s.rd F.MEM_GLB_MAP.gen 0 0 + 1) % 2 ^ 32 ∧ s'.tiles = s.tiles ∧
      ∀ ch, ch < 96 → s'.chan ch = if ch ∈ s.chansIn ∧ ch ∉ s'.chansIn then { s.chan ch with st := .disabled } else s.chan ch := by
  have hlt : new < 2 ^ (if hi then 32 else 64) := hnew ▸ Nat.mod_lt _ (Nat.two_pow_pos _)
  have hlow' := State.enable_low_written hlt hlow
  refine ⟨_, congrArg Host.Outcome.next (State.writeEnable_changes hnew hopen (State.enableMask_written hlt hlow hne)), ?_, ?_,
    State.tiles_remapped _ _, fun ch hch => ?_⟩
  · rw [State.rd_remapped _ _ (by cases hi <;> decide) (by cases hi <;> decide), State.rd_enable_written hlt]
  · rw [State.rd_remapped_gen, State.rd_wr_ne _ _ (by cases hi <;> decide)]
  · rw [State.chansIn_remapped, State.chan_remapped]
    exact if_congr (State.mem_leavers hlow hlow' hch) rfl rfl

/-- A write of the map that R291 ignores. -/
theorem memGlbEnableWrite_ignored (hclosed : s.mapOpen hi new = false) :
    ∃ s', exec (.memGlbEnableWrite hi v) s = .next s' ∧
      s'.rd F.MEM_GLB_MAP.cfg_ignored 0 0 = 1 ∧ s'.rd F.MEM_GLB_ENABLE_LO.enable 0 0 = s.rd F.MEM_GLB_ENABLE_LO.enable 0 0 ∧
      s'.rd F.MEM_GLB_ENABLE_HI.enable 0 0 = s.rd F.MEM_GLB_ENABLE_HI.enable 0 0 ∧ s'.chans = s.chans :=
  ⟨_, congrArg Host.Outcome.next (State.writeEnable_ignored hnew hclosed),
    (State.rd_refusedRec ..).trans (State.rd_flag_one _ 0 0 rfl (by decide)),
    (State.rd_refusedRec ..).trans (State.rd_flag_ne _ _ (by decide) (by decide)),
    (State.rd_refusedRec ..).trans (State.rd_flag_ne _ _ (by decide) (by decide)), State.chans_refusedRec ..⟩

end

/-- Settles O38, one operation of the channel at a time, and then the two cases of a write of the map. -/
theorem channelUpkeep : Obligations.ChannelUpkeep := by
  unfold Obligations.ChannelUpkeep
  refine ⟨?channel, ?map⟩
  case channel =>
    rintro s ch h hch rfl
    refine ⟨fun mr4 hst hslot => ⟨⟨_, rfl, State.maintSlot_cool hch hst hslot mr4⟩, ⟨_, rfl, State.maintSlot_hot hch hst hslot mr4⟩⟩,
      fun b hst hb hmeets => exec_perBankRefresh hch (if_pos ⟨hst, hb, hmeets⟩), fun v hv hmod hst hoff => ?enabled,
      fun v hv hno => ?refused, fun v hv hon => exec_memCalCtrlWrite hch ((Chan.regWrite_calCtrl_disable hv).trans (if_pos hon)),
      fun hclosing hrets => ⟨_, exec_calendarDisableDone hch (if_pos ⟨hclosing, hrets⟩), Chan.rd_wr_same .., rfl⟩,
      fun hrets => exec_calendarDisableDone hch (if_neg fun hdone => hrets hdone.2), fun j v hoff => ?tableWritten,
      fun j v hon => ?tableRefused, fun hst hresets => exec_channelReactivate hch (if_pos hst) hresets⟩
    case enabled =>
      exact ⟨_, exec_memCalCtrlWrite hch ((Chan.regWrite_calCtrl_enable hv).trans <| (if_pos ⟨hmod, hst⟩).trans (if_neg (by omega))),
        Chan.rd_wr_same .., rfl⟩
    case refused =>
      refine ⟨_, exec_memCalCtrlWrite hch ((Chan.regWrite_calCtrl_enable hv).trans (if_neg ?_)), rfl,
        Chan.rd_flag_one _ _ rfl (by decide), Chan.rd_flag_ne _ _ _ (by decide) (by decide)⟩
      rintro ⟨hready | hjoined, hactive⟩
      · exact hno.elim (fun hno => hno.1 hready) (fun hno => hno hactive)
      · exact hno.elim (fun hno => hno.2 hjoined) (fun hno => hno hactive)
    case tableWritten =>
      exact ⟨_, exec_memCalTableWrite hch (Chan.regWrite_calTable_off j v hoff), rfl, fun k hk => Chan.bits_calTable _ j v.toNat hk⟩
    case tableRefused =>
      exact ⟨_, exec_memCalTableWrite hch (if_pos hon), rfl, Chan.rd_flag_one _ _ rfl (by decide),
        Chan.rd_flag_ne _ _ _ (by decide) (by decide)⟩
  case map =>
    rintro s v hi f new hf hnew
    obtain rfl : f = enableFld hi := hf
    refine ⟨fun hmod hquiet hactive hne hlow => ?changes, fun hno => ?ignored⟩
    case changes =>
      exact memGlbEnableWrite_changes hnew ((s.mapOpen_iff hi new).2 ⟨hmod, hquiet, fun k hk _ => hactive k hk⟩) hne hlow
    case ignored =>
      refine memGlbEnableWrite_ignored hnew (Bool.eq_false_iff.2 fun hopen => ?_)
      obtain ⟨hmod, hquiet, hactive⟩ := (s.mapOpen_iff hi new).1 hopen
      rcases hno with ⟨h1, h2⟩ | ⟨ch, hch, h⟩ | ⟨k, hk, hlt, h⟩
      · exact hmod.elim h1 h2
      · exact h.elim (fun h => h (hquiet ch hch).1) (fun h => h (hquiet ch hch).2)
      · exact h (hactive k hk hlt)

end Sys2Proof.Proofs
end

section
/-! A memory port's check of an access, what it counts and reports, its answers, and the bytes that a write of a line leaves (R267, R280, R281,
R287, R288). -/
namespace Sys2Proof.Machine

/-! ### Checks and errors (R267, R287, R288) -/

section
variable {h : Chan} {m : Nat} {reads fetches : Bool} {err : BitVec 544} {code : Nat}

/-- An access whose line and code line are clean or correctable gives the line. -/
theorem Chan.checks_good (hline : reads = true → errBytes err ≤ 1) (hcode : fetches = true → code < 2) :
    h.checks m reads fetches err code = (some (h.line m), reads && errBytes err == 1 || fetches && code == 1) := by
  have hcheck : (if reads then h.check m err else (some (h.line m), false)) = (some (h.line m), reads && errBytes err == 1) := by
    cases reads with
    | false => rfl
    | true =>
      obtain hzero | hone : errBytes err = 0 ∨ errBytes err = 1 := by have := hline rfl; omega
      · simp [Chan.check, hzero]
      · simp [Chan.check, hone]
  have hno : (fetches && decide (2 ≤ code)) = false := by
    cases fetches with
    | false => rfl
    | true => simpa using hcode rfl
  unfold Chan.checks
  dsimp only
  rw [hcheck, hno]
  rfl

/-- An error in two or three bytes of a line that is read, or an uncorrectable code line, gives none. -/
theorem Chan.checks_bad (hbad : (reads = true ∧ (errBytes err = 2 ∨ errBytes err = 3)) ∨ (fetches = true ∧ 2 ≤ code)) :
    ∃ b, h.checks m reads fetches err code = (none, b) := by
  unfold Chan.checks
  dsimp only
  by_cases hcode : (fetches && decide (2 ≤ code)) = true
  · exact ⟨false, if_pos hcode⟩
  · rcases hbad with ⟨hreads, herr⟩ | ⟨hfetches, hlost⟩
    · have hcheck : h.check m err = (none, false) := by
        rcases herr with herr | herr <;> simp [Chan.check, herr]
      rw [if_neg hcode, if_pos hreads, hcheck]
      exact ⟨_, rfl⟩
    · simp [hfetches, hlost] at hcode

end

/-- The channel after an access that corrected an error, or did not (R287). -/
def Chan.correctIf (c : Ctx) (b : Bool) (h : Chan) : Chan := if b then h.corrected c else h

theorem Chan.correctIf_same (h : Chan) (c : Ctx) (b : Bool) : h.correctIf c b = { h with regs := (h.correctIf c b).regs } := by
  cases b <;> rfl

theorem Chan.rd_correctIf_ne (h : Chan) (c : Ctx) (b : Bool) {g : Fld} (j : Nat)
    (hid : ∀ f ∈ [F.MEM_ECC_COUNT.corrected, F.MEM_CH_STATUS.corrected, F.MEM_CH_STATUS.again_count], f.id ≠ g.id) :
    (h.correctIf c b).rd g j = h.rd g j := by
  simp only [List.forall_mem_cons, List.not_mem_nil, false_implies, implies_true, and_true] at hid
  obtain ⟨hcount, hstatus, hagain⟩ := hid
  cases b with
  | false => rfl
  | true => exact (Chan.rd_flag_ne _ c j hstatus hagain).trans (Chan.rd_addSat_ne _ j 1 hcount)

/-- A correctable error sets its status bit and is counted. -/
theorem Chan.rd_corrected (h : Chan) (c : Ctx) : (h.correctIf c true).rd F.MEM_CH_STATUS.corrected 0 = 1 ∧
    (h.correctIf c true).rd F.MEM_ECC_COUNT.corrected 0 = min (h.rd F.MEM_ECC_COUNT.corrected 0 + 1) (2 ^ 32 - 1) :=
  ⟨Chan.rd_flag_one _ c rfl (by decide), (Chan.rd_flag_ne _ c 0 (by decide) (by decide)).trans (Chan.rd_addSat_same ..)⟩

/-- The registers after an uncorrectable error at line `m`: counted, its line and time noted, its status bit set (R288). -/
def Chan.noteLost (c : Ctx) (m : Nat) (h : Chan) : Chan :=
  (((h.addSat F.MEM_ECC_COUNT.uncorrectable 1).wr F.MEM_ECC_LAST.since_lo 0 c.sidereal).wr F.MEM_ECC_LAST.m 0 m).flag c
    F.MEM_CH_STATUS.uncorrectable

theorem Chan.rd_noteLost_status (h : Chan) (c : Ctx) (m : Nat) : (h.noteLost c m).rd F.MEM_CH_STATUS.uncorrectable 0 = 1 :=
  Chan.rd_flag_one _ c rfl (by decide)

theorem Chan.rd_noteLost_line (h : Chan) (c : Ctx) (m : Nat) : (h.noteLost c m).rd F.MEM_ECC_LAST.m 0 = m % 2 ^ 27 := by
  rw [Chan.noteLost, Chan.rd_flag_ne _ c 0 (by decide) (by decide), Chan.rd_wr_same]
  rfl

theorem Chan.rd_noteLost_count (h : Chan) (c : Ctx) (m : Nat) : (h.noteLost c m).rd F.MEM_ECC_COUNT.uncorrectable 0 =
    min (h.rd F.MEM_ECC_COUNT.uncorrectable 0 + 1) (2 ^ 32 - 1) := by
  rw [Chan.noteLost, Chan.rd_flag_ne _ c 0 (by decide) (by decide), Chan.rd_wr_ne _ 0 0 _ (by decide), Chan.rd_wr_ne _ 0 0 _ (by decide),
    Chan.rd_addSat_same]
  rfl

/-- An uncorrectable error is noted and recorded, and its line is to be read again (R288, R430). -/
theorem Chan.uncorrectable_eq (h : Chan) (c : Ctx) (m cls slot : Nat) : ∃ w : Word, h.uncorrectable c m cls slot =
    ({ h.noteLost c m with rereads := h.rereads ++ [⟨m, c.sidereal⟩] },
      [.record 0x20 9 c.tile 0 w (BitVec.ofNat 64 (cls + slot * 2 ^ 8)) 0 0]) := ⟨_, rfl⟩

/-! ### Answers (R280, R281) -/

/-- The fields of an ERROR's word; of the slot number those bits that the field holds. -/
theorem bits_errWord {status reason : Nat} (slot : Nat) (hstatus : status < 2 ^ 16) (hreason : reason < 2 ^ 8) :
    bits (errWord status reason slot).toNat 0 16 = status ∧ bits (errWord status reason slot).toNat 16 8 = reason ∧
      bits (errWord status reason slot).toNat 24 3 = slot % 8 := by
  unfold errWord bits
  rw [BitVec.toNat_ofNat]
  omega

theorem Chan.answers_respond (c : Ctx) (p : VPkt) (op : Nat) (w : Word) (data : List Byte) :
    answers (Chan.respond c p op w data) p op data := ⟨_, rfl, rfl, rfl, rfl, rfl, rfl⟩

theorem Chan.answers_answerRead (c : Ctx) (p : VPkt) (l : List Byte) : answers (Chan.answerRead c p (some l)) p 4 l :=
  Chan.answers_respond c p 4 0 l

theorem Chan.refuses_refuse (c : Ctx) (p : VPkt) {status reason : Nat} (hstatus : status < 2 ^ 16) (hreason : reason < 2 ^ 8) :
    refuses (Chan.refuse c p status reason) p status reason := by
  obtain ⟨h1, h2, h3⟩ := bits_errWord (openSlot p) hstatus hreason
  exact ⟨_, rfl, rfl, rfl, rfl, rfl, h1, h2, h3.trans (Nat.mod_eq_of_lt (bits_lt _ 27 3))⟩

/-! ### The bytes of a line (R280, R283) -/

theorem Mem.getElem_bytes (d : Byte) (m : Mem) {a n i : Nat} (hi : i < (Mem.bytes d m a n).length) :
    (Mem.bytes d m a n)[i] = Mem.get d m (a + i) := by
  induction n generalizing a i with
  | zero => exact absurd hi (Nat.not_lt_zero i)
  | succ n ih =>
    cases i with
    | zero => rfl
    | succ i =>
      refine (ih (Nat.lt_of_succ_lt_succ hi)).trans ?_
      rw [Nat.add_right_comm, Nat.add_assoc]

theorem Chan.length_line (h : Chan) (m : Nat) : (h.line m).length = 64 := Mem.length_bytes 0 h.mem (m * 64) 64

theorem Chan.getElem_line (h : Chan) {m i : Nat} (hi : i < (h.line m).length) : (h.line m)[i] = Mem.get 0 h.mem (m * 64 + i) :=
  Mem.getElem_bytes 0 h.mem hi

theorem length_maskLine (mask : Nat) {old new : List Byte} (hold : old.length = 64) (hnew : new.length = 64) :
    (maskLine mask old new).length = 64 := by simp [maskLine, hold, hnew]

theorem getElem_maskLine {mask : Nat} {old new : List Byte} {i : Nat} (hi : i < (maskLine mask old new).length) (hold : i < old.length)
    (hnew : i < new.length) : (maskLine mask old new)[i] = if bits mask (i / 8) 1 = 1 then new[i] else old[i] := by
  simp [maskLine]

theorem length_lineBytes (v : Line) : (lineBytes v).length = 64 := leBytes_length 64 v.toNat

theorem padTo_of_length {n : Nat} {l : List Byte} (hl : l.length = n) : padTo n l = l := by simp [padTo, ← hl]

/-- A write of 64 bytes leaves in the line the groups of them that the mask keeps. -/
theorem Chan.lineWritten_writeLine {h : Chan} {m mask : Nat} {l : List Byte} (hwf : Mem.wf 0 h.mem = true) (hl : l.length = 64) :
    h.LineWritten (h.writeLine m mask l) m mask l := by
  have hlen := length_maskLine mask (h.length_line m) hl
  unfold Chan.LineWritten Chan.writeLine
  dsimp only
  rw [padTo_of_length hl]
  refine ⟨fun i hi => ?_, fun a ha => Mem.get_putBytes_outside 0 _ h.mem _ a hwf (by rwa [hlen])⟩
  have hline : i < (h.line m).length := by rwa [h.length_line]
  have hl' : i < l.length := by rwa [hl]
  rw [Mem.get_putBytes_inside 0 _ h.mem _ i hwf (by rwa [hlen]), getElem_maskLine _ hline hl', h.getElem_line,
    List.getD_eq_getElem _ _ hl']

/-- A whole line that was merged from the old one under a mask is a write under the mask (R283). -/
theorem Chan.LineWritten.of_merged {h x : Chan} {m mask : Nat} {l : List Byte} (hx : h.LineWritten x m 255 (maskLine mask (h.line m) l))
    (hl : l.length = 64) : h.LineWritten x m mask l := by
  refine ⟨fun i hi => ?_, hx.2⟩
  have hall : bits 255 (i / 8) 1 = 1 := by
    have : i / 8 < 8 := by omega
    interval_cases i / 8 <;> rfl
  have hmasked : i < (maskLine mask (h.line m) l).length := by rwa [length_maskLine mask (h.length_line m) hl]
  have hline : i < (h.line m).length := by rwa [h.length_line]
  have hl' : i < l.length := by rwa [hl]
  rw [hx.1 i hi, if_pos hall, List.getD_eq_getElem _ _ hmasked, getElem_maskLine _ hline hl', h.getElem_line,
    List.getD_eq_getElem _ _ hl']

end Sys2Proof.Machine
end

section
/-! Calendar requests at a memory port: the slots they take, the faults that refuse them, and what an accepted one leaves (R275 to R279). -/
namespace Sys2Proof.Machine

/-! ### The slots of a request (R270, R275, R276) -/

/-- Which slots of a frame are calendar slots the registers alone say. -/
theorem Chan.calSlots_congr {h x : Chan} (hrd : ∀ j, x.rd F.MEM_CAL_TABLE.slots j = h.rd F.MEM_CAL_TABLE.slots j) (c : Ctx) (n k t : Nat) :
    x.calSlots c n k t = h.calSlots c n k t := by
  have hcal (j : Nat) : x.isCal j = h.isCal j := by
    unfold Chan.isCal
    rw [hrd]
  induction n generalizing k t with
  | zero => rfl
  | succ n ih =>
    cases k with
    | zero => rfl
    | succ k =>
      unfold Chan.calSlots
      rw [hcal, ih, ih]

theorem frameSlot_lt (c : Ctx) (cy : Nat) : frameSlot c cy < 2 ^ 10 := by
  unfold frameSlot
  omega

/-- The frame slot that a fault notes: that of the request's first slot, or a free value where it has none (R277). -/
def firstSlot (c : Ctx) (ts : List Nat) : Nat := match ts with | t :: _ => frameSlot c t | [] => (Config.freeWord c.fresh).toNat % 640

theorem firstSlot_of_ne {c : Ctx} {ts : List Nat} (hne : ts ≠ []) : firstSlot c ts = frameSlot c (ts.headD 0) := by
  cases ts with
  | nil => exact absurd rfl hne
  | cons t r => rfl

/-- The code line of the request's block is not in its bank's calendar entry (R275). -/
def Chan.calMiss (h : Chan) (m : Nat) : Bool := h.calEcc.find (lpddrBank m) != some (lpddrBlock m)

theorem Chan.calMiss_eq (h : Chan) (m : Nat) : h.calMiss m = decide (h.calEcc.find (lpddrBank m) ≠ some (lpddrBlock m)) := by
  rw [Chan.calMiss, bne, beq_eq_decide, ← decide_not]

theorem Chan.slotsFor_eq (h : Chan) (m : Nat) (write : Bool) : (if write then 2 else 1) + (h.calMiss m).toNat = h.slotsFor m write := by
  unfold Chan.slotsFor
  rw [Chan.calMiss_eq]
  by_cases hfind : h.calEcc.find (lpddrBank m) = some (lpddrBlock m) <;> simp [hfind]

/-! ### Calendar faults (R277) -/

/-- The first calendar fault that is not OFF is kept in MEM_CAL_FAULT until it is cleared (Table 8-9). -/
def Chan.noteFault (c : Ctx) (kind z tile slot first : Nat) (h : Chan) : Chan :=
  if h.rd F.MEM_CH_STATUS.cal_fault 0 = 1 then h
  else ((((h.wr F.MEM_CAL_FAULT.since_lo 0 (c.sidOf z)).wr F.MEM_CAL_FAULT.kind 0 kind).wr F.MEM_CAL_FAULT.slot 0 slot).wr
    F.MEM_CAL_FAULT.src 0 tile).wr F.MEM_CAL_FAULT.frame_slot 0 first

theorem Chan.noteFault_same (h : Chan) (c : Ctx) (kind z tile slot first : Nat) :
    h.noteFault c kind z tile slot first = { h with regs := (h.noteFault c kind z tile slot first).regs } := by
  unfold Chan.noteFault
  split <;> rfl

theorem Chan.calFault_off (h : Chan) (c : Ctx) (z tile slot first : Nat) : ∃ w : Word, h.calFault c 0 z tile slot first =
    (h.flag c F.MEM_CH_STATUS.cal_off, [.record 0x21 9 c.tile 0 w 0 0 1, .faultLine]) := ⟨_, rfl⟩

theorem Chan.noteFault_kept {h : Chan} (hnoted : h.rd F.MEM_CH_STATUS.cal_fault 0 = 1) (c : Ctx) (kind z tile slot first : Nat) :
    h.noteFault c kind z tile slot first = h := if_pos hnoted

theorem Chan.rd_noteFault_first {h : Chan} (hnone : h.rd F.MEM_CH_STATUS.cal_fault 0 = 0) (c : Ctx) (kind z tile slot first : Nat) :
    (h.noteFault c kind z tile slot first).rd F.MEM_CAL_FAULT.kind 0 = kind % 2 ^ 2 ∧
    (h.noteFault c kind z tile slot first).rd F.MEM_CAL_FAULT.src 0 = tile % 2 ^ 12 ∧
    (h.noteFault c kind z tile slot first).rd F.MEM_CAL_FAULT.slot 0 = slot % 2 ^ 3 ∧
    (h.noteFault c kind z tile slot first).rd F.MEM_CAL_FAULT.frame_slot 0 = first % 2 ^ 10 := by
  unfold Chan.noteFault
  rw [if_neg (by omega)]
  refine ⟨?_, ?_, ?_, Chan.rd_wr_same ..⟩
  · rw [Chan.rd_wr_ne _ 0 0 _ (by decide), Chan.rd_wr_ne _ 0 0 _ (by decide), Chan.rd_wr_ne _ 0 0 _ (by decide), Chan.rd_wr_same]
    rfl
  · rw [Chan.rd_wr_ne _ 0 0 _ (by decide), Chan.rd_wr_same]
    rfl
  · rw [Chan.rd_wr_ne _ 0 0 _ (by decide), Chan.rd_wr_ne _ 0 0 _ (by decide), Chan.rd_wr_same]
    rfl

/-- The fault's own status bit does not touch the noted one. -/
theorem Chan.rd_flag_calFault (h : Chan) (c : Ctx) {g : Fld} (hg : g ∈ Reg.fields .MEM_CAL_FAULT) :
    (h.flag c F.MEM_CH_STATUS.cal_fault).rd g 0 = h.rd g 0 := by
  have hids : ∀ g ∈ Reg.fields .MEM_CAL_FAULT, F.MEM_CH_STATUS.cal_fault.id ≠ g.id ∧ F.MEM_CH_STATUS.again_count.id ≠ g.id := by decide
  exact Chan.rd_flag_ne h c 0 (hids g hg).1 (hids g hg).2

/-- A fault of kind LATE, BANK or BAD: its record, its status bit, and the first one's particulars. -/
theorem Chan.calFault_noted (h : Chan) (c : Ctx) {kind : Nat} (hkind : kind ≠ 0) (z tile slot first : Nat) : ∃ (x : Chan) (w : Word),
    h.calFault c kind z tile slot first = (x, [.record 0x21 9 c.tile 0 w 0 0 1, .faultLine]) ∧
      x = { h with regs := x.regs } ∧ x.rd F.MEM_CH_STATUS.cal_fault 0 = 1 ∧
      (h.rd F.MEM_CH_STATUS.cal_fault 0 = 0 → x.rd F.MEM_CAL_FAULT.kind 0 = kind % 2 ^ 2 ∧ x.rd F.MEM_CAL_FAULT.src 0 = tile % 2 ^ 12 ∧
        x.rd F.MEM_CAL_FAULT.slot 0 = slot % 2 ^ 3 ∧ x.rd F.MEM_CAL_FAULT.frame_slot 0 = first % 2 ^ 10) ∧
      (h.rd F.MEM_CH_STATUS.cal_fault 0 = 1 → ∀ f ∈ Reg.fields .MEM_CAL_FAULT, x.rd f 0 = h.rd f 0) := by
  obtain ⟨w, hfault⟩ : ∃ w : Word, h.calFault c kind z tile slot first =
      ((h.noteFault c kind z tile slot first).flag c F.MEM_CH_STATUS.cal_fault, [.record 0x21 9 c.tile 0 w 0 0 1, .faultLine]) := by
    unfold Chan.calFault
    rw [if_neg hkind]
    exact ⟨_, rfl⟩
  have hnoted (g : Fld) (hg : g ∈ Reg.fields .MEM_CAL_FAULT) := (h.noteFault c kind z tile slot first).rd_flag_calFault c hg
  refine ⟨_, w, hfault, ?_, Chan.rd_flag_one _ c rfl (by decide), fun hnone => ?_, fun hkept f hf => ?_⟩
  · rw [Chan.noteFault_same]
    rfl
  · rw [hnoted F.MEM_CAL_FAULT.kind (by decide), hnoted F.MEM_CAL_FAULT.src (by decide), hnoted F.MEM_CAL_FAULT.slot (by decide),
      hnoted F.MEM_CAL_FAULT.frame_slot (by decide)]
    exact Chan.rd_noteFault_first hnone c kind z tile slot first
  · rw [hnoted f hf, Chan.noteFault_kept hkept]

/-! ### A request that is placed (R276, R278) -/

/-- The channel with the request taken, its slots `ts` and its bank occupied, and its block in the bank's entry. -/
def Chan.placed (rest : List CalReq) (m k : Nat) (ts : List Nat) (h : Chan) : Chan :=
  { ({ h with arrived := rest } : Chan).occupy (ts.headD 0) (ts.headD 0 + 113 + 6 * k) (lpddrBank m) true with
    calEnd := ts.getLastD 0 + 6, calEcc := h.calEcc.set (lpddrBank m) (lpddrBlock m) }

/-- The counts of a placed request whose check corrected an error, or did not. -/
def Chan.calCounted (c : Ctx) (write corrected : Bool) (h : Chan) : Chan :=
  (h.correctIf c corrected).addWrap (if write then F.MEM_CAL_COUNT.writes else F.MEM_CAL_COUNT.reads) 1

/-- A placed request once its line is checked: `d` is the line, none where it is uncorrectable, and whether an error was corrected. -/
def Chan.calServed (c : Ctx) (q : CalReq) (m tile slot : Nat) (write : Bool) (d : Option (List Byte) × Bool) (h : Chan) : Chan × List Out :=
  match d.1 with
  | none => (((h.calCounted c write d.2).uncorrectable c m 0 slot).1,
      ((h.calCounted c write d.2).uncorrectable c m 0 slot).2 ++ [Chan.calError c tile slot])
  | some l =>
    if write then (((h.calCounted c write d.2).closeComb m).writeLine m 255 (lineBytes q.data), [])
    else ({ h.calCounted c write d.2 with
        rets := (h.calCounted c write d.2).rets ++ [(⟨q.z + 960, returnHdr c.tile q.hdr, l, q.back⟩ : CalRet)] }, [])

section
variable (h : Chan) (c : Ctx) (q : CalReq) (m tile slot : Nat) (l : List Byte) (b : Bool)

theorem Chan.calServed_read : h.calServed c q m tile slot false (some l, b) =
    ({ h.calCounted c false b with
        rets := (h.calCounted c false b).rets ++ [(⟨q.z + 960, returnHdr c.tile q.hdr, l, q.back⟩ : CalRet)] }, []) := rfl

theorem Chan.calServed_write : h.calServed c q m tile slot true (some l, b) =
    (((h.calCounted c true b).closeComb m).writeLine m 255 (lineBytes q.data), []) := rfl

theorem Chan.calServed_lost (write : Bool) : h.calServed c q m tile slot write (none, b) =
    (((h.calCounted c write b).uncorrectable c m 0 slot).1,
      ((h.calCounted c write b).uncorrectable c m 0 slot).2 ++ [Chan.calError c tile slot]) := rfl

end

theorem Chan.calCounted_same (h : Chan) (c : Ctx) (write corrected : Bool) :
    h.calCounted c write corrected = { h with regs := (h.calCounted c write corrected).regs } := by
  unfold Chan.calCounted
  rw [Chan.correctIf_same]
  rfl

theorem Chan.rd_calCounted (h : Chan) (c : Ctx) (write corrected : Bool) :
    (h.calCounted c write corrected).rd (if write then F.MEM_CAL_COUNT.writes else F.MEM_CAL_COUNT.reads) 0 =
      (h.rd (if write then F.MEM_CAL_COUNT.writes else F.MEM_CAL_COUNT.reads) 0 + 1) % 2 ^ 32 := by
  have hkept : (h.correctIf c corrected).rd (if write then F.MEM_CAL_COUNT.writes else F.MEM_CAL_COUNT.reads) 0 =
      h.rd (if write then F.MEM_CAL_COUNT.writes else F.MEM_CAL_COUNT.reads) 0 :=
    Chan.rd_correctIf_ne h c corrected 0 (by cases write <;> decide)
  rw [Chan.calCounted, Chan.rd_addWrap_same, hkept]
  cases write <;> rfl

theorem Chan.rd_calCounted_ne (h : Chan) (c : Ctx) (write corrected : Bool) {g : Fld} (j : Nat)
    (hid : ∀ f ∈ [F.MEM_CAL_COUNT.writes, F.MEM_CAL_COUNT.reads], f.id ≠ g.id) :
    (h.calCounted c write corrected).rd g j = (h.correctIf c corrected).rd g j := by
  refine Chan.rd_addWrap_ne _ j 1 ?_
  cases write
  · exact hid _ (by decide)
  · exact hid _ (by decide)

theorem Chan.LineWritten.of_mem {h y x : Chan} {m mask : Nat} {l : List Byte} (hx : y.LineWritten x m mask l) (hmem : y.mem = h.mem) :
    h.LineWritten x m mask l := by
  unfold Chan.LineWritten at *
  rwa [hmem] at hx

theorem Chan.writeLine_same (h : Chan) (m mask : Nat) (l : List Byte) : h.writeLine m mask l = { h with mem := (h.writeLine m mask l).mem } := by
  dsimp only [Chan.writeLine]

/-- The new occupancy is listed with those that are not over. -/
theorem Chan.mem_busy_placed (h : Chan) (rest : List CalReq) (m k : Nat) (ts : List Nat) :
    ⟨lpddrBank m, ts.headD 0, ts.headD 0 + 113 + 6 * k, true⟩ ∈ (h.placed rest m k ts).busy :=
  List.mem_append_right _ (List.mem_singleton.2 rfl)

section
variable {h : Chan} {c : Ctx} {q : CalReq} {rest : List CalReq} {m tile slot : Nat} {write : Bool} {ts : List Nat}
  (hreq : h.Request c q rest m tile slot write ts)
include hreq

/-- The port's cases for the oldest request, in the order of Table 8-3. -/
theorem Chan.calRequest_eq (err : BitVec 544) (code : Nat) :
    h.calRequest c err code =
      if h.st ≠ .active ∨ h.rd F.MEM_CAL_CTRL.enable 0 ≠ 1 ∨ h.closing = true then
        ({ h with arrived := rest } : Chan).calFault c 0 q.z tile slot (firstSlot c ts)
      else if lineCount ≤ m then ({ h with arrived := rest } : Chan).calFault c 3 q.z tile slot (firstSlot c ts)
      else if ts.length < h.slotsFor m write ∨ q.z + 564 < ts.getLastD 0 then
        ({ h with arrived := rest } : Chan).calFault c 1 q.z tile slot (firstSlot c ts)
      else if h.bankMeets true (lpddrBank m) (ts.headD 0) (ts.headD 0 + 113 + 6 * h.slotsFor m write) = true ∨
          refreshMeets c (lpddrBank m) (ts.headD 0) (ts.headD 0 + 113 + 6 * h.slotsFor m write) = true then
        ({ h with arrived := rest } : Chan).calFault c 2 q.z tile slot (firstSlot c ts)
      else (h.placed rest m (h.slotsFor m write) ts).calServed c q m tile slot write
        ((h.placed rest m (h.slotsFor m write) ts).checks m (!write) (h.calMiss m) err code) := by
  obtain ⟨hfirst, hhere, hfields, hslots⟩ := hreq
  obtain ⟨z, hdr, data, back⟩ := q
  have hts : Chan.calSlots c { h with arrived := rest } 1280 (h.slotsFor m write) (slotStart c (max (z + 24) h.calEnd)) = ts :=
    (Chan.calSlots_congr (h := h) (x := { h with arrived := rest }) (fun _ => rfl) c _ _ _).trans hslots.symm
  have hk : (if write then 2 else 1) + (h.calEcc.find (lpddrBank m) != some (lpddrBlock m)).toNat = h.slotsFor m write :=
    h.slotsFor_eq m write
  unfold Chan.calRequest
  rw [hfirst]
  dsimp only
  rw [if_neg (Nat.not_lt.2 hhere), hfields]
  dsimp only
  rw [hk, hts]
  rfl

theorem Chan.calRequest_off (hoff : h.st ≠ .active ∨ h.rd F.MEM_CAL_CTRL.enable 0 ≠ 1 ∨ h.closing = true) (err : BitVec 544) (code : Nat) :
    ∃ (x : Chan) (w : Word), h.calRequest c err code = (x, [.record 0x21 9 c.tile 0 w 0 0 1, .faultLine]) ∧
      x = { h with arrived := rest, regs := x.regs } ∧ x.rd F.MEM_CH_STATUS.cal_off 0 = 1 := by
  obtain ⟨w, hfault⟩ := ({ h with arrived := rest } : Chan).calFault_off c q.z tile slot (firstSlot c ts)
  rw [Chan.calRequest_eq hreq, if_pos hoff, hfault]
  exact ⟨_, w, rfl, rfl, Chan.rd_flag_one _ c rfl (by decide)⟩

/-- The cases of Table 8-3 but OFF: the request is refused with the first that holds. -/
theorem Chan.calRequest_refused {kind : Nat} (hst : h.st = .active) (hon : h.rd F.MEM_CAL_CTRL.enable 0 = 1) (hclosing : h.closing = false)
    (hkind : kind = 3 ∧ lineCount ≤ m ∨
      kind = 1 ∧ m < lineCount ∧ (ts.length < h.slotsFor m write ∨ q.z + 564 < ts.getLastD 0) ∨
      kind = 2 ∧ m < lineCount ∧ ts.length = h.slotsFor m write ∧ ts.getLastD 0 ≤ q.z + 564 ∧
        (h.bankMeets true (lpddrBank m) (ts.headD 0) (ts.headD 0 + 113 + 6 * h.slotsFor m write) = true ∨
          refreshMeets c (lpddrBank m) (ts.headD 0) (ts.headD 0 + 113 + 6 * h.slotsFor m write) = true))
    (err : BitVec 544) (code : Nat) : ∃ (x : Chan) (w : Word),
    h.calRequest c err code = (x, [.record 0x21 9 c.tile 0 w 0 0 1, .faultLine]) ∧
      x = { h with arrived := rest, regs := x.regs } ∧ x.rd F.MEM_CH_STATUS.cal_fault 0 = 1 ∧
      (h.rd F.MEM_CH_STATUS.cal_fault 0 = 0 → x.rd F.MEM_CAL_FAULT.kind 0 = kind ∧ x.rd F.MEM_CAL_FAULT.src 0 = tile % 2 ^ 12 ∧
        x.rd F.MEM_CAL_FAULT.slot 0 = slot % 8 ∧ (ts ≠ [] → x.rd F.MEM_CAL_FAULT.frame_slot 0 = frameSlot c (ts.headD 0))) ∧
      (h.rd F.MEM_CH_STATUS.cal_fault 0 = 1 → ∀ f ∈ Reg.fields .MEM_CAL_FAULT, x.rd f 0 = h.rd f 0) := by
  have hcase : h.calRequest c err code = ({ h with arrived := rest } : Chan).calFault c kind q.z tile slot (firstSlot c ts) := by
    rw [Chan.calRequest_eq hreq, if_neg (by simp [hst, hon, hclosing])]
    rcases hkind with ⟨rfl, hbad⟩ | ⟨rfl, hm, hlate⟩ | ⟨rfl, hm, hlen, htime, hbank⟩
    · rw [if_pos hbad]
    · rw [if_neg (Nat.not_le.2 hm), if_pos hlate]
    · rw [if_neg (Nat.not_le.2 hm), if_neg (by omega), if_pos hbank]
  have hlt : kind ≠ 0 ∧ kind < 2 ^ 2 := by omega
  obtain ⟨x, w, hfault, hsame, hstatus, hfirst, hkept⟩ :=
    ({ h with arrived := rest } : Chan).calFault_noted c hlt.1 q.z tile slot (firstSlot c ts)
  refine ⟨x, w, hcase.trans hfault, hsame, hstatus, fun hnone => ?_, hkept⟩
  obtain ⟨h1, h2, h3, h4⟩ := hfirst hnone
  refine ⟨h1.trans (Nat.mod_eq_of_lt hlt.2), h2, h3, fun hne => ?_⟩
  rw [h4, firstSlot_of_ne hne]
  exact Nat.mod_eq_of_lt (frameSlot_lt c _)

section
variable (hadm : h.Admits c q.z m write ts)
include hadm

theorem Chan.calRequest_admitted (err : BitVec 544) (code : Nat) : h.calRequest c err code =
    (h.placed rest m (h.slotsFor m write) ts).calServed c q m tile slot write
      ((h.placed rest m (h.slotsFor m write) ts).checks m (!write) (h.calMiss m) err code) := by
  obtain ⟨hst, hon, hclosing, hm, hlen, htime, hbank, hrefresh⟩ := hadm
  rw [Chan.calRequest_eq hreq, if_neg (by simp [hst, hon, hclosing]), if_neg (Nat.not_le.2 hm), if_neg (by omega),
    if_neg fun hno => hno.elim (ne_true_of_eq_false hbank) (ne_true_of_eq_false hrefresh)]

/-- An accepted read whose line is good: its return is due 960 cycles after it reached the port (R278). -/
theorem Chan.calRequest_read {err : BitVec 544} {code : Nat} (hwrite : write = false) (herr : errBytes err ≤ 1)
    (hcode : h.calMiss m = true → code < 2) : ∃ x : Chan, h.calRequest c err code = (x, []) ∧
      x = { h with arrived := rest, regs := x.regs, busy := x.busy, calEnd := ts.getLastD 0 + 6
                   calEcc := h.calEcc.set (lpddrBank m) (lpddrBlock m)
                   rets := h.rets ++ [⟨q.z + 960, returnHdr c.tile q.hdr, h.line m, q.back⟩] } ∧
      ⟨lpddrBank m, ts.headD 0, ts.headD 0 + 113 + 6 * h.slotsFor m write, true⟩ ∈ x.busy ∧
      x.rd F.MEM_CAL_COUNT.reads 0 = (h.rd F.MEM_CAL_COUNT.reads 0 + 1) % 2 ^ 32 ∧
      (errBytes err = 1 ∨ (h.calMiss m = true ∧ code = 1) → x.rd F.MEM_CH_STATUS.corrected 0 = 1 ∧
        x.rd F.MEM_ECC_COUNT.corrected 0 = min (h.rd F.MEM_ECC_COUNT.corrected 0 + 1) (2 ^ 32 - 1)) := by
  subst hwrite
  have hcall := Chan.calRequest_admitted hreq hadm err code
  rw [Chan.checks_good (fun _ => herr) hcode, Chan.calServed_read] at hcall
  generalize hb : (!false && errBytes err == 1 || h.calMiss m && code == 1) = b at hcall
  have hcount := (h.placed rest m (h.slotsFor m false) ts).rd_calCounted c false b
  have hecc (g : Fld) := (h.placed rest m (h.slotsFor m false) ts).rd_calCounted_ne c false b (g := g) 0
  have hsame := (h.placed rest m (h.slotsFor m false) ts).calCounted_same c false b
  generalize (h.placed rest m (h.slotsFor m false) ts).calCounted c false b = y at hcall hsame hcount hecc
  refine ⟨_, hcall, ?_, ?_, hcount, fun hcorrected => ?_⟩
  · rw [hsame]
    rfl
  · rw [hsame]
    exact Chan.mem_busy_placed ..
  · obtain rfl : b = true := hb ▸ by simpa using hcorrected
    obtain ⟨hstatus, htotal⟩ := (h.placed rest m (h.slotsFor m false) ts).rd_corrected c
    exact ⟨(hecc _ (by decide)).trans hstatus, (hecc _ (by decide)).trans htotal⟩

/-- An accepted write whose code line is good stores its line (R275, R279). -/
theorem Chan.calRequest_write {err : BitVec 544} {code : Nat} (hwrite : write = true) (hcode : h.calMiss m = true → code < 2)
    (hwf : Mem.wf 0 h.mem = true) : ∃ x : Chan, h.calRequest c err code = (x, []) ∧
      x = { h with arrived := rest, regs := x.regs, busy := x.busy, calEnd := ts.getLastD 0 + 6, mem := x.mem
                   calEcc := h.calEcc.set (lpddrBank m) (lpddrBlock m), comb := (h.closeComb m).comb } ∧
      h.LineWritten x m 255 (lineBytes q.data) ∧
      x.rd F.MEM_CAL_COUNT.writes 0 = (h.rd F.MEM_CAL_COUNT.writes 0 + 1) % 2 ^ 32 := by
  subst hwrite
  have hcall := Chan.calRequest_admitted hreq hadm err code
  rw [Chan.checks_good (fun hno => absurd hno (by decide)) hcode, Chan.calServed_write] at hcall
  generalize (!true && errBytes err == 1 || h.calMiss m && code == 1) = b at hcall
  have hcount := (h.placed rest m (h.slotsFor m true) ts).rd_calCounted c true b
  have hsame := (h.placed rest m (h.slotsFor m true) ts).calCounted_same c true b
  generalize (h.placed rest m (h.slotsFor m true) ts).calCounted c true b = y at hcall hsame hcount
  have hmem : y.mem = h.mem := by
    rw [hsame]
    rfl
  have hwritten := Chan.lineWritten_writeLine (h := y.closeComb m) (m := m) (mask := 255) (hmem ▸ hwf) (length_lineBytes q.data)
  have hrest := (y.closeComb m).writeLine_same m 255 (lineBytes q.data)
  generalize (y.closeComb m).writeLine m 255 (lineBytes q.data) = x at hcall hwritten hrest
  refine ⟨x, hcall, ?_, hwritten.of_mem hmem, ?_⟩
  · rw [hrest, hsame]
    rfl
  · rw [hrest]
    exact hcount

/-- An accepted request whose line or code line is uncorrectable writes nothing and is answered with an ERROR (R287, R288). -/
theorem Chan.calRequest_lost {err : BitVec 544} {code : Nat}
    (hbad : (write = false ∧ (errBytes err = 2 ∨ errBytes err = 3)) ∨ (h.calMiss m = true ∧ 2 ≤ code)) :
    ∃ (x : Chan) (w : Word) (p : VPkt),
      h.calRequest c err code = (x, [.record 0x20 9 c.tile 0 w (BitVec.ofNat 64 (slot * 2 ^ 8)) 0 0, .vpkt p]) ∧ p.op = 6 ∧
      p.dx = tile % 48 ∧ p.dy = tile / 48 ∧ bits p.w.toNat 0 16 = 5 ∧ bits p.w.toNat 16 8 = 4 ∧ bits p.w.toNat 24 3 = slot % 8 ∧
      x.arrived = rest ∧ x.mem = h.mem ∧ x.rets = h.rets ∧ x.rd F.MEM_CH_STATUS.uncorrectable 0 = 1 ∧
      x.rd F.MEM_ECC_LAST.m 0 = m % 2 ^ 27 ∧
      x.rd F.MEM_ECC_COUNT.uncorrectable 0 = min (h.rd F.MEM_ECC_COUNT.uncorrectable 0 + 1) (2 ^ 32 - 1) := by
  obtain ⟨b, hcheck⟩ := Chan.checks_bad (h := h.placed rest m (h.slotsFor m write) ts) (m := m) (reads := !write) (fetches := h.calMiss m)
    (err := err) (code := code) (by simpa using hbad)
  have hcall := Chan.calRequest_admitted hreq hadm err code
  rw [hcheck, Chan.calServed_lost] at hcall
  have hsame := (h.placed rest m (h.slotsFor m write) ts).calCounted_same c write b
  have hcount : ((h.placed rest m (h.slotsFor m write) ts).calCounted c write b).rd F.MEM_ECC_COUNT.uncorrectable 0 =
      h.rd F.MEM_ECC_COUNT.uncorrectable 0 :=
    (Chan.rd_calCounted_ne _ c write b 0 (by decide)).trans (Chan.rd_correctIf_ne _ c b 0 (by decide))
  generalize (h.placed rest m (h.slotsFor m write) ts).calCounted c write b = y at hcall hsame hcount
  obtain ⟨w, hlost⟩ := y.uncorrectable_eq c m 0 slot
  rw [hlost, Nat.zero_add] at hcall
  obtain ⟨h1, h2, h3⟩ := bits_errWord slot (status := 5) (reason := 4) (by decide) (by decide)
  refine ⟨_, w, _, hcall, rfl, rfl, rfl, h1, h2, h3, ?_, ?_, ?_, y.rd_noteLost_status c m, y.rd_noteLost_line c m,
    (y.rd_noteLost_count c m).trans (by rw [hcount])⟩
  · rw [hsame]
    rfl
  · rw [hsame]
    rfl
  · rw [hsame]
    rfl

end

end

end Sys2Proof.Machine
end

section
/-! Open requests at a memory port: their arrival, their combining, and the access that serves them (R280 to R285, R287, R288, R430). -/
namespace Sys2Proof.Machine

/-! ### Arrival (R281, R282, R285) -/

theorem joinFirst_none {c : Ctx} {p : VPkt} {m : Nat} {l : List Comb} (hl : ∀ f ∈ l, f.takes c m = false) : joinFirst c p m l = (l, none) := by
  induction l with
  | nil => rfl
  | cons f l ih =>
    obtain ⟨hf, hl⟩ := List.forall_mem_cons.1 hl
    rw [joinFirst, if_neg (ne_true_of_eq_false hf), ih hl]

/-- A read joins the first entry that takes it: it waits there, or its data is there already. -/
theorem joinFirst_at {c : Ctx} {p : VPkt} {m : Nat} {l r : List Comb} {e : Comb} (hl : ∀ f ∈ l, f.takes c m = false)
    (he : e.takes c m = true) : (e.data = none →
        joinFirst c p m (l ++ e :: r) = (l ++ { e with count := e.count + 1, members := e.members ++ [p] } :: r, some none)) ∧
      ∀ d, e.data = some d → joinFirst c p m (l ++ e :: r) = (l ++ { e with count := e.count + 1 } :: r, some (some d)) := by
  induction l with
  | nil =>
    refine ⟨fun hdata => ?_, fun d hdata => ?_⟩
    · rw [List.nil_append, joinFirst, if_pos he, hdata]
      rfl
    · rw [List.nil_append, joinFirst, if_pos he, hdata]
      rfl
  | cons f l ih =>
    obtain ⟨hf, hl⟩ := List.forall_mem_cons.1 hl
    obtain ⟨hwaits, hready⟩ := ih hl
    refine ⟨fun hdata => ?_, fun d hdata => ?_⟩
    · rw [List.cons_append, joinFirst, if_neg (ne_true_of_eq_false hf), hwaits hdata]
      rfl
    · rw [List.cons_append, joinFirst, if_neg (ne_true_of_eq_false hf), hready d hdata]
      rfl

/-- The read in `p` finds an open entry of its line. -/
def Chan.joins (c : Ctx) (p : VPkt) (h : Chan) : Prop := (p.op == 9) = false ∧ (joinFirst c p (bits p.w.toNat 0 27) h.comb).2.isSome = true

/-- The one case in which a request stays where it is: no entry of the queue is free for it (R282). -/
theorem Chan.openArrives_eq_none (h : Chan) (c : Ctx) (p : VPkt) : h.openArrives c p = none ↔
    bits p.w.toNat 0 27 < lineCount ∧ h.st = .active ∧ ¬ h.joins c p ∧ 64 ≤ h.queue.length := by
  unfold Chan.openArrives Chan.joins
  dsimp only
  split
  · next hm => exact ⟨fun hno => (nomatch hno), fun hno => absurd hm (Nat.not_le.2 hno.1)⟩
  · next hm =>
    split
    · next hst => exact ⟨fun hno => (nomatch hno), fun hno => absurd hno.2.1 hst⟩
    · next hst =>
      split
      · next hjoin => exact ⟨fun hno => (nomatch hno), fun hno => absurd hjoin hno.2.2.1⟩
      · next hjoin =>
        split
        · next hfull => exact ⟨fun _ => ⟨Nat.not_le.1 hm, not_not.1 hst, hjoin, hfull⟩, fun _ => rfl⟩
        · next hfull => exact ⟨fun hno => (nomatch hno), fun hno => absurd hno.2.2.2 hfull⟩

theorem State.openArrives_seen (s : State) (ch : Nat) (c : Ctx) (p : VPkt) :
    (s.chanSeen ch).openArrives c p = none ↔ (s.chan ch).openArrives c p = none :=
  ((s.chanSeen ch).openArrives_eq_none c p).trans ((s.chan ch).openArrives_eq_none c p).symm

/-- Taking the request out of the inbox, the port acts on it as it found the channel. -/
theorem State.openArrival_eq {s : State} {ch : Nat} {p : VPkt} {x : Chan} {os : List Out} (hch : ch < 96)
    (hfind : s.inbox.find? (fun p => p.ep == 1 && (p.op == 8 || p.op == 9) && p.dx == chanX ch && p.dy == chanY ch) = some p)
    (hx : (s.chanSeen ch).openArrives (s.ctx ch) p = some (x, os)) : s.openArrival ch = (s.took p).withChan ch x os := by
  cases hraw : (s.chan ch).openArrives (s.ctx ch) p with
  | none =>
    rw [← State.openArrives_seen, hx] at hraw
    cases hraw
  | some y =>
    unfold State.openArrival
    rw [hfind]
    dsimp only
    rw [hraw]
    refine State.onChan_eq (s := s.took p) (f := fun c h => (h.openArrives c p).getD (h, [])) hch ?_
    show ((s.chanSeen ch).openArrives (s.ctx ch) p).getD (s.chanSeen ch, []) = (x, os)
    rw [hx]
    rfl

theorem State.openArrival_waits {s : State} {ch : Nat} {p : VPkt}
    (hfind : s.inbox.find? (fun p => p.ep == 1 && (p.op == 8 || p.op == 9) && p.dx == chanX ch && p.dy == chanY ch) = some p)
    (hx : (s.chanSeen ch).openArrives (s.ctx ch) p = none) : s.openArrival ch = s := by
  unfold State.openArrival
  rw [hfind]
  dsimp only
  rw [(s.openArrives_seen ch _ p).1 hx]

section
variable {h : Chan} {c : Ctx} {p : VPkt}

theorem Chan.openArrives_range (hm : lineCount ≤ bits p.w.toNat 0 27) : h.openArrives c p = some (h, [Chan.refuse c p 2 2]) := if_pos hm

theorem Chan.openArrives_inactive (hm : bits p.w.toNat 0 27 < lineCount) (hst : h.st ≠ .active) :
    h.openArrives c p = some (h, [Chan.refuse c p 1 0]) := (if_neg (Nat.not_le.2 hm)).trans (if_pos hst)

theorem Chan.not_joins (hjoin : p.op = 9 ∨ ∀ e ∈ h.comb, e.takes c (bits p.w.toNat 0 27) = false) : ¬ h.joins c p := by
  rintro ⟨hread, hsome⟩
  rcases hjoin with hwrite | hnone
  · rw [hwrite] at hread
    cases hread
  · rw [joinFirst_none hnone] at hsome
    cases hsome

section
variable (hm : bits p.w.toNat 0 27 < lineCount) (hst : h.st = .active)
include hm hst

/-- A request that joins no entry is queued, a read as the leader of a new entry where there is room for one. -/
theorem Chan.openArrives_queued (hop : p.op = 8 ∨ p.op = 9) (hjoin : p.op = 9 ∨ ∀ e ∈ h.comb, e.takes c (bits p.w.toNat 0 27) = false)
    (hroom : h.queue.length < 64) : ∃ (x : Chan) (lead : Bool), h.openArrives c p = some (x, []) ∧
      lead = decide (p.op = 8 ∧ h.comb.length < 64 ∧ ∀ e ∈ h.comb, e.full c (bits p.w.toNat 0 27) = false) ∧
      x = { h with queue := h.queue ++ [⟨p, bits p.w.toNat 0 27, bits p.w.toNat 30 8, p.op == 9, lead⟩]
                   comb := (if p.op = 9 then (h.closeComb (bits p.w.toNat 0 27)).comb else h.comb) ++
                     (if lead then [⟨bits p.w.toNat 0 27, c.cycle, [p], 1, true, none⟩] else [])
                   regs := x.regs } ∧
      x.rd F.MEM_OPEN_QUEUE.current 0 = h.queue.length + 1 := by
  have hlead : (!(p.op == 9) && decide (h.comb.length < 64) && !(h.comb.any (Comb.full c (bits p.w.toNat 0 27)))) =
      decide (p.op = 8 ∧ h.comb.length < 64 ∧ ∀ e ∈ h.comb, e.full c (bits p.w.toNat 0 27) = false) := by
    rw [Bool.eq_iff_iff]
    rcases hop with hop | hop <;> simp [hop]
  refine ⟨_, _, (if_neg (Nat.not_le.2 hm)).trans <| (if_neg (not_not.2 hst)).trans <| (if_neg (Chan.not_joins hjoin)).trans
    (if_neg (Nat.not_le.2 hroom)), hlead, ?_, ?_⟩
  · simp only [beq_iff_eq]
    rfl
  · refine (Chan.rd_wr_ne _ 0 0 _ (by decide)).trans <| (Chan.rd_wr_same ..).trans ?_
    rw [List.length_append]
    exact Nat.mod_eq_of_lt (show h.queue.length + 1 < 128 by omega)

theorem Chan.openArrives_full (hjoin : p.op = 9 ∨ ∀ e ∈ h.comb, e.takes c (bits p.w.toNat 0 27) = false) (hfull : h.queue.length = 64) :
    h.openArrives c p = none := by
  exact (h.openArrives_eq_none c p).2 ⟨hm, hst, Chan.not_joins hjoin, hfull.ge⟩

/-- A read that joins an entry whose data is not there waits with its members. -/
theorem Chan.openArrives_joins {l r : List Comb} {e : Comb} (hop : p.op = 8) (hcomb : h.comb = l ++ e :: r)
    (hl : ∀ f ∈ l, f.takes c (bits p.w.toNat 0 27) = false) (he : e.takes c (bits p.w.toNat 0 27) = true) :
    (e.data = none → ∃ x : Chan, h.openArrives c p = some (x, []) ∧
      x = { h with comb := l ++ { e with count := e.count + 1, members := e.members ++ [p] } :: r, regs := x.regs }) ∧
    ∀ d, e.data = some (some d) → ∃ (x : Chan) (o : Out), h.openArrives c p = some (x, [o]) ∧ answers o p 4 d ∧
      x = { h with comb := l ++ { e with count := e.count + 1 } :: r, regs := x.regs } := by
  have hread : (p.op == 9) = false := by rw [hop]; rfl
  obtain ⟨hwaits, hready⟩ := joinFirst_at (p := p) (r := r) hl he
  have hguard {j} (hj : joinFirst c p (bits p.w.toNat 0 27) h.comb = j) (hsome : j.2.isSome = true) : h.openArrives c p =
      some (({ h with comb := j.1 } : Chan).addWrap F.MEM_OPEN_COUNT.joined 1,
        match j.2 with | some (some d) => [Chan.answerRead (c.back (c.cycle + 1)) p d] | _ => []) := by
    subst hj
    exact (if_neg (Nat.not_le.2 hm)).trans <| (if_neg (not_not.2 hst)).trans (if_pos ⟨hread, hsome⟩)
  rw [← hcomb] at hwaits hready
  refine ⟨fun hdata => ⟨_, hguard (hwaits hdata) rfl, rfl⟩, fun d hdata =>
    ⟨_, _, hguard (hready _ hdata) rfl, Chan.answers_respond .., rfl⟩⟩

end
end

/-! ### Accesses (R283, R285, R287, R288) -/

/-- The channel with the access of `q` under way: its bank and slots taken, it out of the queue, the access counted. -/
def Chan.openStarted (c : Ctx) (q : OpenReq) (h : Chan) : Chan :=
  (({ h.openTake c q.m (h.openCost q) with queue := h.queue.erase q } : Chan).addWrap F.MEM_OPEN_COUNT.served 1).wr
    F.MEM_OPEN_QUEUE.current 0 (h.queue.erase q).length

/-- What an open access comes to once its line is checked: `d` is the line, none where it is uncorrectable. -/
def Chan.openServed (c : Ctx) (q : OpenReq) (d : Option (List Byte)) (h : Chan) : Chan × List Out :=
  let u := if d.isNone then h.uncorrectable c q.m 1 (openSlot q.pkt) else (h, [])
  if q.write then
    match d with
    | none => (u.1, u.2 ++ [Chan.refuse c q.pkt 5 4])
    | some l => (h.writeLine q.m 255 (maskLine q.mask l (padTo 64 q.pkt.data)), [Chan.respond c q.pkt 5 0 []])
  else if q.entry then ({ u.1 with comb := (Chan.completeComb c q.m d u.1.comb).1 }, u.2 ++ (Chan.completeComb c q.m d u.1.comb).2)
  else (u.1, u.2 ++ [Chan.answerRead c q.pkt d])

section
variable (h : Chan) (c : Ctx) (q : OpenReq) (l : List Byte)

theorem Chan.openServed_write (hwrite : q.write = true) : h.openServed c q (some l) =
    (h.writeLine q.m 255 (maskLine q.mask l (padTo 64 q.pkt.data)), [Chan.respond c q.pkt 5 0 []]) := if_pos hwrite

theorem Chan.openServed_entry (hread : q.write = false) (hentry : q.entry = true) : h.openServed c q (some l) =
    ({ h with comb := (Chan.completeComb c q.m (some l) h.comb).1 }, (Chan.completeComb c q.m (some l) h.comb).2) :=
  (if_neg (ne_true_of_eq_false hread)).trans (if_pos hentry)

theorem Chan.openServed_alone (hread : q.write = false) (hentry : q.entry = false) : h.openServed c q (some l) =
    (h, [Chan.respond c q.pkt 4 0 l]) :=
  (if_neg (ne_true_of_eq_false hread)).trans (if_neg (ne_true_of_eq_false hentry))

/-- An uncorrectable access of one requester is recorded and refused. -/
theorem Chan.openServed_lost (hone : q.write = true ∨ q.entry = false) : h.openServed c q none =
    ((h.uncorrectable c q.m 1 (openSlot q.pkt)).1, (h.uncorrectable c q.m 1 (openSlot q.pkt)).2 ++ [Chan.refuse c q.pkt 5 4]) := by
  cases hwrite : q.write with
  | true => exact if_pos hwrite
  | false => exact (if_neg (ne_true_of_eq_false hwrite)).trans (if_neg (by simpa [hwrite] using hone))

end

/-- The first entry of the line whose data is not there gives it to every member, in order (R285). -/
theorem Chan.completeComb_at {c : Ctx} {m : Nat} {d : Option (List Byte)} {l r : List Comb} {e : Comb}
    (hl : ∀ f ∈ l, f.m ≠ m ∨ f.data ≠ none) (hm : e.m = m) (hdata : e.data = none) : Chan.completeComb c m d (l ++ e :: r) =
      (l ++ { e with data := some d, members := [] } :: r, e.members.map (fun p => Chan.answerRead c p d)) := by
  induction l with
  | nil => exact if_pos ⟨hm, hdata⟩
  | cons f l ih =>
    obtain ⟨hf, hl⟩ := List.forall_mem_cons.1 hl
    rw [List.cons_append, Chan.completeComb, if_neg (fun hno => hf.elim (fun h => h hno.1) (fun h => h hno.2)), ih hl]
    rfl

theorem Chan.openStarted_same (h : Chan) (c : Ctx) (q : OpenReq) (b : Bool) : (h.openStarted c q).correctIf c b =
    { h.openTake c q.m (h.openCost q) with queue := h.queue.erase q, regs := ((h.openStarted c q).correctIf c b).regs } := by
  rw [Chan.correctIf_same]
  rfl

theorem Chan.rd_openStarted_served (h : Chan) (c : Ctx) (q : OpenReq) (b : Bool) :
    ((h.openStarted c q).correctIf c b).rd F.MEM_OPEN_COUNT.served 0 = (h.rd F.MEM_OPEN_COUNT.served 0 + 1) % 2 ^ 32 :=
  (Chan.rd_correctIf_ne _ c b 0 (by decide)).trans <| (Chan.rd_wr_ne _ 0 0 _ (by decide)).trans (Chan.rd_addWrap_same ..)

section
variable {h : Chan} {c : Ctx} {q : OpenReq} (hst : h.st = .active ∨ h.st = .fenced) (hnext : h.openNext c [] h.queue = some q)
include hst hnext

/-- The access of the request that is next. -/
theorem Chan.openAccess_eq {err : BitVec 544} {code : Nat} {d : Option (List Byte) × Bool}
    (hd : h.checks q.m (!q.write || q.mask != 255) (h.fetches q.m) err code = d) :
    h.openAccess c err code = ((h.openStarted c q).correctIf c d.2).openServed c q d.1 := by
  subst hd
  unfold Chan.openAccess
  rw [if_neg (not_not.2 hst), hnext]
  rfl

section
variable {err : BitVec 544} {code : Nat} (hline : (!q.write || q.mask != 255) = true → errBytes err ≤ 1)
  (hcode : h.fetches q.m = true → code < 2)
include hline hcode

/-- An access whose line is good: of the channel its bank, its slots, its queue and its registers have changed. -/
theorem Chan.openAccess_good : ∃ y : Chan, h.openAccess c err code = y.openServed c q (some (h.line q.m)) ∧
    y = { h.openTake c q.m (h.openCost q) with queue := h.queue.erase q, regs := y.regs } ∧
    y.rd F.MEM_OPEN_COUNT.served 0 = (h.rd F.MEM_OPEN_COUNT.served 0 + 1) % 2 ^ 32 :=
  ⟨_, Chan.openAccess_eq hst hnext (Chan.checks_good hline hcode), h.openStarted_same c q _, h.rd_openStarted_served c q _⟩

/-- A write stores the groups that its mask names and is answered ACK (R280, R283). -/
theorem Chan.openAccess_write (hwrite : q.write = true) (hwf : Mem.wf 0 h.mem = true) (hdata : q.pkt.data.length = 64) :
    ∃ (x : Chan) (o : Out), h.openAccess c err code = (x, [o]) ∧ answers o q.pkt 5 [] ∧ h.LineWritten x q.m q.mask q.pkt.data ∧
      x = { h.openTake c q.m (h.openCost q) with queue := h.queue.erase q, regs := x.regs, mem := x.mem } ∧
      x.rd F.MEM_OPEN_COUNT.served 0 = (h.rd F.MEM_OPEN_COUNT.served 0 + 1) % 2 ^ 32 := by
  obtain ⟨y, haccess, hsame, hserved⟩ := Chan.openAccess_good hst hnext hline hcode
  rw [Chan.openServed_write _ _ _ _ hwrite, padTo_of_length hdata] at haccess
  have hmem : y.mem = h.mem := by
    rw [hsame]
    rfl
  have hwritten := Chan.lineWritten_writeLine (h := y) (m := q.m) (mask := 255) (hmem ▸ hwf)
    (length_maskLine q.mask (h.length_line q.m) hdata)
  have hrest := y.writeLine_same q.m 255 (maskLine q.mask (h.line q.m) q.pkt.data)
  generalize y.writeLine q.m 255 (maskLine q.mask (h.line q.m) q.pkt.data) = x at haccess hwritten hrest
  refine ⟨x, _, haccess, Chan.answers_respond .., (hwritten.of_mem hmem).of_merged hdata, ?_, ?_⟩
  · rw [hrest, hsame]
  · rw [hrest]
    exact hserved

/-- A read that leads no entry is answered with its line. -/
theorem Chan.openAccess_alone (hread : q.write = false) (hentry : q.entry = false) :
    ∃ (x : Chan) (o : Out), h.openAccess c err code = (x, [o]) ∧ answers o q.pkt 4 (h.line q.m) ∧
      x = { h.openTake c q.m (h.openCost q) with queue := h.queue.erase q, regs := x.regs } := by
  obtain ⟨y, haccess, hsame, -⟩ := Chan.openAccess_good hst hnext hline hcode
  rw [Chan.openServed_alone _ _ _ _ hread hentry] at haccess
  exact ⟨y, _, haccess, Chan.answers_respond .., hsame⟩

/-- A leader's line goes to every member of its entry (R285). -/
theorem Chan.openAccess_entry {l r : List Comb} {e : Comb} (hread : q.write = false) (hentry : q.entry = true) (hcomb : h.comb = l ++ e :: r)
    (hl : ∀ f ∈ l, f.m ≠ q.m ∨ f.data ≠ none) (hm : e.m = q.m) (hdata : e.data = none) : ∃ (x : Chan) (os : List Out),
    h.openAccess c err code = (x, os) ∧ os.length = e.members.length ∧
      (∀ (k : Nat) (p : VPkt), e.members[k]? = some p → ∃ o, os[k]? = some o ∧ answers o p 4 (h.line q.m)) ∧
      x = { h.openTake c q.m (h.openCost q) with
        queue := h.queue.erase q, regs := x.regs, comb := l ++ { e with data := some (some (h.line q.m)), members := [] } :: r } := by
  obtain ⟨y, haccess, hsame, -⟩ := Chan.openAccess_good hst hnext hline hcode
  have hcomb' : y.comb = l ++ e :: r := by
    rw [hsame]
    exact hcomb
  rw [Chan.openServed_entry _ _ _ _ hread hentry, hcomb', Chan.completeComb_at hl hm hdata] at haccess
  refine ⟨_, _, haccess, List.length_map .., fun k p hk => ⟨_, ?_, Chan.answers_answerRead c p (h.line q.m)⟩, ?_⟩
  · rw [List.getElem?_map, hk]
    rfl
  · rw [hsame]

end

/-- An access of one requester whose line or code line is uncorrectable is refused, and writes nothing (R287, R288). -/
theorem Chan.openAccess_lost {err : BitVec 544} {code : Nat}
    (hbad : ((!q.write || q.mask != 255) = true ∧ (errBytes err = 2 ∨ errBytes err = 3)) ∨ (h.fetches q.m = true ∧ 2 ≤ code))
    (hone : q.write = true ∨ q.entry = false) : ∃ (x : Chan) (a o : Out),
    h.openAccess c err code = (x, [a, o]) ∧ refuses o q.pkt 5 4 ∧ x.queue = h.queue.erase q ∧ x.mem = h.mem ∧ x.comb = h.comb ∧
      x.rd F.MEM_CH_STATUS.uncorrectable 0 = 1 := by
  obtain ⟨b, hcheck⟩ := Chan.checks_bad (h := h) (m := q.m) hbad
  have haccess := Chan.openAccess_eq hst hnext hcheck
  rw [Chan.openServed_lost _ _ _ hone] at haccess
  have hsame := h.openStarted_same c q b
  generalize (h.openStarted c q).correctIf c b = y at haccess hsame
  obtain ⟨w, hlost⟩ := y.uncorrectable_eq c q.m 1 (openSlot q.pkt)
  rw [hlost] at haccess
  refine ⟨_, _, _, haccess, Chan.refuses_refuse c q.pkt (by decide) (by decide), ?_, ?_, ?_, y.rd_noteLost_status c q.m⟩
  · rw [hsame]
    rfl
  · rw [hsame]
    rfl
  · rw [hsame]
    rfl

end

/-! ### A reread (R430) -/

theorem State.openFits_seen (s : State) (ch : Nat) (c : Ctx) (m k : Nat) : (s.chan ch).openFits c m k = (s.chanSeen ch).openFits c m k := by
  unfold Chan.openFits
  dsimp only
  rw [Chan.calSlots_congr (h := s.chanSeen ch) (x := s.chan ch) (fun _ => rfl)]
  rfl

/-- The line is read twice, and the reread leaves the list; it says whether both reads gave a line. -/
theorem Chan.reread_eq {h : Chan} {c : Ctx} {r : Reread} {rest : List Reread} (hfirst : h.rereads = r :: rest)
    (hfits : h.openFits c r.m (2 + (h.fetches r.m).toNat) = true) (err1 err2 : BitVec 544) (code : Nat) : ∃ x : Chan,
    h.reread c err1 err2 code = (x, some (r, (h.checks r.m true (h.fetches r.m) err1 code).1.isSome &&
      (h.checks r.m true false err2 0).1.isSome)) ∧ x.rereads = rest ∧ x.mem = h.mem ∧ x.queue = h.queue := by
  unfold Chan.reread
  rw [hfirst]
  dsimp only
  rw [if_neg (ne_false_of_eq_true hfits)]
  refine ⟨(({ h.openTake c r.m (2 + (h.fetches r.m).toNat) with rereads := rest } : Chan).correctIf c
    (h.checks r.m true (h.fetches r.m) err1 code).2).correctIf c (h.checks r.m true false err2 0).2, rfl, ?_⟩
  rw [Chan.correctIf_same, Chan.correctIf_same]
  exact ⟨rfl, rfl, rfl⟩

/-- Both rereads gave a line. -/
theorem Chan.rereads_good {h : Chan} {m : Nat} {err1 err2 : BitVec 544} {code : Nat} (h1 : errBytes err1 ≤ 1) (h2 : errBytes err2 ≤ 1)
    (hcode : h.fetches m = true → code < 2) :
    ((h.checks m true (h.fetches m) err1 code).1.isSome && (h.checks m true false err2 0).1.isSome) = true := by
  rw [Chan.checks_good (fun _ => h1) hcode, Chan.checks_good (fun _ => h2) (fun hno => absurd hno (by decide))]
  rfl

theorem Chan.rereads_bad {h : Chan} {m : Nat} {err1 err2 : BitVec 544} {code : Nat}
    (hbad : errBytes err1 = 2 ∨ errBytes err1 = 3 ∨ errBytes err2 = 2 ∨ errBytes err2 = 3) :
    ((h.checks m true (h.fetches m) err1 code).1.isSome && (h.checks m true false err2 0).1.isSome) = false := by
  rcases or_assoc.2 hbad with hfirst | hsecond
  · obtain ⟨b, hcheck⟩ := Chan.checks_bad (h := h) (m := m) (fetches := h.fetches m) (code := code) (.inl ⟨rfl, hfirst⟩)
    rw [hcheck]
    rfl
  · obtain ⟨b, hcheck⟩ := Chan.checks_bad (h := h) (m := m) (fetches := false) (code := 0) (.inl ⟨rfl, hsecond⟩)
    rw [hcheck]
    exact Bool.and_false _

/-- Where the record of the earlier read is written, the reread takes effect and its CLASSIFY record names that one (R430). -/
theorem State.reread_reports {s : State} {ch : Nat} {x : Chan} {r : Reread} {ok : Bool} {err1 err2 : BitVec 544} {code : Nat} (hch : ch < 96)
    (hx : (s.chan ch).reread (s.ctx ch) err1 err2 code = (x, some (r, ok))) (hwritten : ∀ q ∈ s.recsOut, isEcc ch r.m q = false) :
    ∃ (s' : State) (q : Rec), s.reread ch err1 err2 code = s' ∧ s'.chan ch = x ∧ s.Reports s' q ∧ q.kind = 0x52 ∧ q.unitType = 9 ∧
      q.unitIndex = ch ∧ q.rept = (if ok then 1 else 2) ∧ ∀ e, s.eccRec ch r.m = some e → q.s0 = BitVec.ofNat 64 e.seq := by
  have hno : ¬ (96 ≤ ch ∨ s.recsOut.any (isEcc ch r.m) = true) := by
    rintro (h | h)
    · omega
    · obtain ⟨q, hq, hecc⟩ := List.any_eq_true.1 h
      rw [hwritten q hq] at hecc
      cases hecc
  unfold State.reread
  rw [hx]
  dsimp only
  rw [if_neg hno]
  refine ⟨_, _, rfl, (State.chan_setChan _ ch ch x).trans (if_pos rfl), ⟨_, rfl, rfl, rfl, rfl, rfl, rfl, rfl⟩, rfl, rfl, rfl, rfl,
    fun e he => ?_⟩
  show (match s.eccRec ch r.m with | some e => _ | none => _) = _
  rw [he]

end Sys2Proof.Machine
end

section
/-! Calendar and open-class requests at a memory port: O37. -/
namespace Sys2Proof.Proofs
open Sys2Proof.Machine

section
variable {s : State} {ch : Nat} {x : Chan} {os : List Out} {err : BitVec 544} {code : Nat} (hch : ch < 96)
include hch

theorem exec_calendarRequest (hx : (s.chanSeen ch).calRequest (s.ctx ch) err code = (x, os)) :
    exec (.calendarRequest ch (err, code)) s = .next (s.withChan ch x os) :=
  congrArg Host.Outcome.next (State.onChan_eq (f := fun c h => h.calRequest c err code) hch hx)

theorem exec_calendarReturn (hx : (s.chanSeen ch).calReturn (s.ctx ch) = (x, os)) :
    exec (.calendarReturn ch) s = .next (s.withChan ch x os) :=
  congrArg Host.Outcome.next (State.onChan_eq (f := fun c h => h.calReturn c) hch hx)

theorem exec_openAccess (hx : (s.chanSeen ch).openAccess (s.ctx ch) err code = (x, os)) :
    exec (.openAccess ch (err, code)) s = .next (s.withChan ch x os) :=
  congrArg Host.Outcome.next (State.onChan_eq (f := fun c h => h.openAccess c err code) hch hx)

theorem exec_combiningEntryFree (hx : (s.chanSeen ch).combFree (s.ctx ch) = x) :
    exec (.combiningEntryFree ch) s = .next (s.withChan ch x []) :=
  congrArg Host.Outcome.next (State.onChan_eq (f := fun c h => (h.combFree c, [])) hch (congrArg (fun y => (y, [])) hx))

theorem exec_openRequestArrival {p : VPkt}
    (hfind : s.inbox.find? (fun p => p.ep == 1 && (p.op == 8 || p.op == 9) && p.dx == chanX ch && p.dy == chanY ch) = some p)
    (hx : (s.chanSeen ch).openArrives (s.ctx ch) p = some (x, os)) :
    exec (.openRequestArrival ch) s = .next ((s.took p).withChan ch x os) :=
  congrArg Host.Outcome.next (State.openArrival_eq hch hfind hx)

/-- A return that is due enters the port's router on input 5 (R278). -/
theorem calReturn_due {r : CalRet} {rest : List CalRet} (hfirst : (s.chanSeen ch).rets = r :: rest) (hdue : r.due ≤ s.cycle) :
    exec (.calendarReturn ch) s = .next (s.withChan ch { s.chanSeen ch with rets := rest }
      [.flitIn (chanX ch) (chanY ch) 5 r.due r.hdr (lineOf r.data) r.back]) := by
  refine exec_calendarReturn hch ?_
  unfold Chan.calReturn
  rw [hfirst]
  exact if_neg (Nat.not_lt.2 hdue)

/-- The end of a reread, whose CLASSIFY record says what both reads found (R430). -/
theorem lpddrReread_reports {r : Reread} {rest : List Reread} {err2 : BitVec 544} (hfirst : (s.chanSeen ch).rereads = r :: rest)
    (hfits : (s.chanSeen ch).openFits (s.ctx ch) r.m (2 + ((s.chanSeen ch).fetches r.m).toNat) = true)
    (hwritten : ∀ q ∈ s.recsOut, isEcc ch r.m q = false) :
    ∃ (s' : State) (q : Rec), exec (.lpddrReread ch (err, err2, code)) s = .next s' ∧ (s'.chan ch).rereads = rest ∧
      (s'.chan ch).mem = (s.chanSeen ch).mem ∧ (s'.chan ch).queue = (s.chanSeen ch).queue ∧ s.Reports s' q ∧ q.kind = 0x52 ∧
      q.unitType = 9 ∧ q.unitIndex = ch ∧
      (errBytes err ≤ 1 → errBytes err2 ≤ 1 → ((s.chanSeen ch).fetches r.m = true → code < 2) → q.rept = 1) ∧
      (errBytes err = 2 ∨ errBytes err = 3 ∨ errBytes err2 = 2 ∨ errBytes err2 = 3 → q.rept = 2) ∧
      ∀ e, s.eccRec ch r.m = some e → q.s0 = BitVec.ofNat 64 e.seq := by
  rw [← State.openFits_seen] at hfits
  obtain ⟨x, hreread, hrest, hmem, hqueue⟩ := Chan.reread_eq (h := s.chan ch) hfirst hfits err err2 code
  obtain ⟨s', q, hstate, hchan, hreports, hkind, htype, hindex, hrept, hseq⟩ := State.reread_reports hch hreread hwritten
  refine ⟨s', q, congrArg Host.Outcome.next hstate, hchan ▸ hrest, hchan ▸ hmem, hchan ▸ hqueue, hreports, hkind, htype, hindex,
    fun h1 h2 hcode => hrept.trans (if_pos (Chan.rereads_good h1 h2 hcode)),
    fun hbad => hrept.trans (if_neg (ne_true_of_eq_false (Chan.rereads_bad hbad))), hseq⟩

end

/-- Settles O37: the calendar, case by case of Table 8-3, then the open class by arrival, access, freeing and reread. -/
theorem memoryRequests : Obligations.MemoryRequests := by
  unfold Obligations.MemoryRequests
  refine ⟨?calendar, ?openClass⟩
  case calendar =>
    rintro s ch _ _ hch rfl rfl
    refine ⟨fun q rest m tile slot write ts err code miss hreq hmiss => ?_, fun r rest hfirst hdue => calReturn_due hch hfirst hdue⟩
    rw [← Chan.calMiss_eq] at hmiss
    subst hmiss
    refine ⟨fun hadm => ⟨fun hwrite herr hcode => ?read, fun hwrite hcode hwf => ?write, fun hbad => ?lost⟩, fun hoff => ?off,
      fun hst hon hclosing kind hkind => ?refused⟩
    case read =>
      obtain ⟨x, hx, hrest⟩ := Chan.calRequest_read hreq hadm hwrite herr hcode
      exact ⟨x, exec_calendarRequest hch hx, hrest⟩
    case write =>
      obtain ⟨x, hx, hrest⟩ := Chan.calRequest_write hreq hadm hwrite hcode hwf
      exact ⟨x, exec_calendarRequest hch hx, hrest⟩
    case lost =>
      obtain ⟨x, w, p, hx, hrest⟩ := Chan.calRequest_lost hreq hadm hbad
      exact ⟨x, w, p, exec_calendarRequest hch hx, hrest⟩
    case off =>
      obtain ⟨x, w, hx, hrest⟩ := Chan.calRequest_off hreq hoff err code
      exact ⟨x, w, exec_calendarRequest hch hx, hrest⟩
    case refused =>
      obtain ⟨x, w, hx, hrest⟩ := Chan.calRequest_refused hreq hst hon hclosing hkind err code
      exact ⟨x, w, exec_calendarRequest hch hx, hrest⟩
  case openClass =>
    rintro s ch _ _ hch rfl rfl
    refine ⟨?arrival, fun q reads err code hst hnext hreads => ?access, exec_combiningEntryFree hch rfl,
      fun r rest err1 err2 code hfirst hfits hwritten => lpddrReread_reports hch hfirst hfits hwritten⟩
    case arrival =>
      rintro p _ hfind rfl
      have hop : p.op = 8 ∨ p.op = 9 := by
        have hfound := List.find?_some hfind
        simp only [Bool.and_eq_true, Bool.or_eq_true, beq_iff_eq] at hfound
        exact hfound.1.1.2
      refine ⟨fun hm => ⟨_, exec_openRequestArrival hch hfind (Chan.openArrives_range hm),
          Chan.refuses_refuse _ p (by decide) (by decide)⟩,
        fun hm hst => ⟨_, exec_openRequestArrival hch hfind (Chan.openArrives_inactive hm hst),
          Chan.refuses_refuse _ p (by decide) (by decide)⟩,
        fun hm hst hjoin => ⟨fun hroom => ?queued, fun hfull => ?waits⟩, fun hm hst hread l e r hcomb hl he => ?joins⟩
      case queued =>
        obtain ⟨x, lead, hx, hrest⟩ := Chan.openArrives_queued hm hst hop hjoin hroom
        exact ⟨x, lead, exec_openRequestArrival hch hfind hx, hrest⟩
      case waits =>
        exact congrArg Host.Outcome.next (State.openArrival_waits hfind (Chan.openArrives_full hm hst hjoin hfull))
      case joins =>
        obtain ⟨hwaits, hready⟩ := Chan.openArrives_joins hm hst hread hcomb hl he
        refine ⟨fun hdata => ?_, fun d hdata => ?_⟩
        · obtain ⟨x, hx, hrest⟩ := hwaits hdata
          exact ⟨x, exec_openRequestArrival hch hfind hx, hrest⟩
        · obtain ⟨x, o, hx, hrest⟩ := hready d hdata
          exact ⟨x, o, exec_openRequestArrival hch hfind hx, hrest⟩
    case access =>
      subst hreads
      refine ⟨fun hline hcode => ⟨fun hwrite hwf hdata => ?store, fun hread hentry => ?alone,
        fun l e r hread hentry hcomb hl hm hdata => ?combined⟩, fun hbad hone => ?uncorrectable⟩
      case store =>
        obtain ⟨x, o, hx, hrest⟩ := Chan.openAccess_write hst hnext hline hcode hwrite hwf hdata
        exact ⟨x, o, exec_openAccess hch hx, hrest⟩
      case alone =>
        obtain ⟨x, o, hx, hrest⟩ := Chan.openAccess_alone hst hnext hline hcode hread hentry
        exact ⟨x, o, exec_openAccess hch hx, hrest⟩
      case combined =>
        obtain ⟨x, os, hx, hrest⟩ := Chan.openAccess_entry hst hnext hline hcode hread hentry hcomb hl hm hdata
        exact ⟨x, os, exec_openAccess hch hx, hrest⟩
      case uncorrectable =>
        obtain ⟨x, a, o, hx, hrest⟩ := Chan.openAccess_lost hst hnext hbad hone
        exact ⟨x, a, o, exec_openAccess hch hx, hrest⟩

end Sys2Proof.Proofs
end
